-- ==== Sys2Proof/Syntax.lean ====
section
/-!
DEFINITION. Sys2Proof/Syntax.lean: the commands of the device, one constructor per row of the opcode table, in the
table's order. A row that stands for something falling due inside the device carries only what selects the unit; a row
that stands for something arriving at the device carries what arrives; a register write carries its master and value.
-/
namespace Sys2Proof

/-- A master number of the bus (R382): 0–63. -/
abbrev Master := Fin 64


/-- Fields of a C-slot word (R137): SD, SA and IMM32, in whose bits lie SB (31:27) and OFS (10:0). -/
structure CFields where
  sd  : Fin 32
  sa  : Fin 32
  imm : BitVec 32
  deriving DecidableEq, Repr

/-- Fields of a W-slot word (R141). -/
structure WFields where
  pg   : Fin 8
  vd   : Fin 32
  src  : Fin 16
  rel  : Fin 32
  ofs  : BitVec 16
  vc   : Fin 32
  arg  : Fin 8
  mode : Fin 4
  deriving DecidableEq, Repr

/-- Fields of a U-slot word (R143): `low` holds bits 10:0. -/
structure UFields where
  pg  : Fin 8
  z   : Bool
  vd  : Fin 32
  va  : Fin 32
  vb  : Fin 32
  cmn : BitVec 4
  low : BitVec 11
  deriving DecidableEq, Repr

/-- Fields of an M-slot word (R145). -/
structure MFields where
  pg  : Fin 8
  stg : Fin 16
  vd  : Fin 32
  va  : Fin 32
  vb  : Fin 32
  vc  : Fin 32
  mod : BitVec 15
  deriving DecidableEq, Repr

/-- Fields of an E-slot word (R151). -/
structure EFields where
  pg  : Fin 8
  stg : Fin 16
  va  : Fin 32
  sa  : Fin 32
  imm : BitVec 10
  deriving DecidableEq, Repr

/-- How the training of one CXL port at boot ends: with a partner of R262, at 32 GT/s, at x4, and whether the device's HDM
decoder 0 commits (R401). -/
structure PortBoot where
  up     : Bool
  rate32 : Bool
  x4     : Bool
  hdm    : Bool
  deriving DecidableEq, Repr

/-- What the outside contributes to a boot (R409): the levels of the strap pins CHIPID[1:0] and PROFILE_SEL[2:0] from bit 0
up, none for a strap left open (R415); the rows that Blotter finds failing (bank, row); the CXL ports XP0–XP3; whether
every temperature sensor reads below 110 °C (R422); the boot time in µs. -/
structure BootEnv where
  chip  : List (Option Bool)
  sel   : List (Option Bool)
  fails : List (Nat × Nat)
  ports : List PortBoot
  cool  : Bool
  us    : Nat
  deriving DecidableEq, Repr

/-- The data of a master's write, and whether the write comes in the cycle of the next port 1 write of its pool word (R256), or, for
a write of ETH_HWACT, in the cycle of the next write of ETH_HWACT (R314). -/
structure WriteData where
  data  : Word
  meets : Bool
  deriving DecidableEq, Repr

/-- A rising edge of ENCx_Z: the channel and its time in 5 ns cycles (R52). -/
structure IndexEdge where
  ch : Fin 2
  t  : Int
  deriving DecidableEq, Repr

/-- What a camera line meets at its ingest unit: its table read is not complete at its last sample (R91); the accumulation of
the line before is still in progress (R99). -/
structure LineCase where
  late : Bool
  busy : Bool
  deriving DecidableEq, Repr

/-- The organisational unit of a client certificate (R298). -/
inductive ClientOu where
  | ztOperator | ztService | other
  deriving DecidableEq, Repr


/-- The commands. Each docstring names the row and the rule. -/
inductive Instr where
  /-- REGISTER_WRITE (R5) -/
  | registerWrite (m : Master) (a n : Nat) (w : WriteData)
  /-- COUNTER_CLEAR (R7) -/
  | counterClear (m : Master) (a : Nat) (v : Word)
  /-- RWC_COMPLEMENT_WRITE (R8) -/
  | rwcComplementWrite (m : Master) (a : Nat) (v : Word)
  /-- RWC_VALUE_WRITE (R8) -/
  | rwcValueWrite (m : Master) (a : Nat) (v : Word)
  /-- LATCHING_READ (R373) -/
  | latchingRead (m : Master) (a n : Nat)
  /-- TICK (R31) -/
  | tick
  /-- FIXED_RATE_PERIOD (R30) -/
  | fixedRatePeriod
  /-- OVS_NOW_CLEAR (R40) -/
  | ovsNowClear
  /-- DRAIN_TICK (R394) -/
  | drainTick
  /-- SERVO_UPDATE (R43) -/
  | servoUpdate (m : Master) (x : Fin 2) (v : Word)
  /-- TIME_SET_LOAD (R45) -/
  | timeSetLoad (m : Master) (x : Fin 2) (v : Word)
  /-- PRIMARY_SWITCH (R46) -/
  | primarySwitch (m : Master) (v : Word)
  /-- PPS (R344) -/
  | pps
  /-- AB_EDGE (R48) -/
  | abEdge (e : Fin 2) (a b : Bool) (t : Int)
  /-- OBSERVER_UPDATE (R54) -/
  | observerUpdate (e : Fin 2) (t : Int)
  /-- SIGNAL_LOST (R50) -/
  | signalLost (e : Fin 2)
  /-- SERIAL_FRAME_START (R51) -/
  | serialFrameStart (e : Fin 2) (t : Int)
  /-- SERIAL_FRAME_END (R51) -/
  | serialFrameEnd (e : Fin 2) (w : Nat)
  /-- INDEX_PULSE (R52) -/
  | indexPulse (z : IndexEdge)
  /-- STANDSTILL_TIMEOUT (R56) -/
  | standstillTimeout (e : Fin 2)
  /-- PT_STATE_SEND (R59) -/
  | ptStateSend
  /-- PT_REALIGN (R59) -/
  | ptRealign (m : Master) (v : Word)
  /-- LANE_ENABLE (R66) -/
  | laneEnable (m : Master) (j : Fin 36) (v : Word)
  /-- LANE_DISABLE (R67) -/
  | laneDisable (m : Master) (j : Fin 36) (v : Word)
  /-- FRAME_TRANSMIT (R66) -/
  | frameTransmit (j : Fin 36)
  /-- CODEWORD_RECEIVE (R67) -/
  | codewordReceive (j : Fin 36) (w : Nat) (reads : Nat)
  /-- LOCK_TIMEOUT (R67) -/
  | lockTimeout (j : Fin 36)
  /-- LANE_RETRAIN (R67) -/
  | laneRetrain (m : Master) (j : Fin 36) (v : Word)
  /-- CORRECTED_SYMBOL_WINDOW (R71) -/
  | correctedSymbolWindow (j : Fin 36)
  /-- RETRAIN_SWEEP_END (R72) -/
  | retrainSweepEnd (j : Fin 36) (heights : List (Option Nat))
  /-- RETRY_TIMEOUT (R67) -/
  | retryTimeout (j : Fin 36)
  /-- EYE_SCAN_START (R70) -/
  | eyeScanStart (m : Master) (j : Fin 36) (v : Word)
  /-- EYE_SCAN_DONE (R70) -/
  | eyeScanDone (j : Fin 36) (n : Nat)
  /-- FMT_ACK (R82) -/
  | fmtAck (p : Fin 12)
  /-- CSTAT (R74) -/
  | cstat (p : Fin 12)
  /-- CAMERA_REG_ACCESS (R78) -/
  | cameraRegAccess (m : Master) (p : Fin 12) (v : Word)
  /-- REG_D (R78) -/
  | regD (p : Fin 12)
  /-- CAMERA_REG_TIMEOUT (R78) -/
  | cameraRegTimeout (p : Fin 12)
  /-- CAM_PORT_ENABLE (R81) -/
  | camPortEnable (m : Master) (p : Fin 12) (v : Word)
  /-- CAM_PORT_DISABLE (R81) -/
  | camPortDisable (m : Master) (p : Fin 12) (v : Word)
  /-- SINGLE_LANE_SPEED_RECOVERY (R81) -/
  | singleLaneSpeedRecovery (p : Fin 12)
  /-- FMT_TIMEOUT (R81) -/
  | fmtTimeout (p : Fin 12)
  /-- FMT_REPEAT (R81) -/
  | fmtRepeat (p : Fin 12)
  /-- PACKET_RECEIVE (R84) -/
  | packetReceive (j : Fin 12)
  /-- CREDIT (R84) -/
  | credit (j : Fin 12)
  /-- CAMERA_LINE_ARRIVAL (R85, R91, R99): the line's table read is late, its accumulation meets a busy accumulator -/
  | cameraLineArrival (c : Fin 12) (k : LineCase)
  /-- TABLE_COMMIT (R92) -/
  | tableCommit (m : Master) (c : Fin 12)
  /-- TABLE_CHECK_DONE (R92) -/
  | tableCheckDone (c : Fin 12)
  /-- STATS_BLOCK_END (R97) -/
  | statsBlockEnd (c : Fin 12)
  /-- ACCUMULATION_START (R99) -/
  | accumulationStart (m : Master) (c : Fin 12) (v : Word)
  /-- ACCUMULATION_DONE (R99) -/
  | accumulationDone (c : Fin 12)
  /-- ENGINE_RUN_START (R115) -/
  | engineRunStart (e : Fin 16)
  /-- BUNDLE_ISSUE (R107) -/
  | bundleIssue (e : Fin 16) (perr : Bool)
  /-- RUN_OVERRUN (R122) -/
  | runOverrun (e : Fin 16)
  /-- QUEUE_ENTRY_DRAIN (R123) -/
  | queueEntryDrain (e : Fin 16)
  /-- ENGINE_GO (R126) -/
  | engineGo (m : Master) (e : Fin 16) (v : Word)
  /-- ENGINE_GO_CLEAR (R126) -/
  | engineGoClear (m : Master) (e : Fin 16) (v : Word)
  /-- ENGINE_RESTART (R126) -/
  | engineRestart (m : Master) (e : Fin 16) (v : Word)
  /-- PROGRAM_LOAD (R127) -/
  | programLoad (m : Master) (e : Fin 16) (v : Word)
  /-- LOAD_DONE (R127) -/
  | loadDone (e : Fin 16)
  /-- C_ADD (R137) -/
  | cAdd (e : Fin 16) (f : CFields)
  /-- C_SUB (R137) -/
  | cSub (e : Fin 16) (f : CFields)
  /-- C_MUL (R137) -/
  | cMul (e : Fin 16) (f : CFields)
  /-- C_AND (R137) -/
  | cAnd (e : Fin 16) (f : CFields)
  /-- C_OR (R137) -/
  | cOr (e : Fin 16) (f : CFields)
  /-- C_XOR (R137) -/
  | cXor (e : Fin 16) (f : CFields)
  /-- C_SHL (R137) -/
  | cShl (e : Fin 16) (f : CFields)
  /-- C_SHR (R137) -/
  | cShr (e : Fin 16) (f : CFields)
  /-- C_SAR (R137) -/
  | cSar (e : Fin 16) (f : CFields)
  /-- C_MIN (R137) -/
  | cMin (e : Fin 16) (f : CFields)
  /-- C_MAX (R137) -/
  | cMax (e : Fin 16) (f : CFields)
  /-- SLT (R137) -/
  | slt (e : Fin 16) (f : CFields)
  /-- ADDI (R137) -/
  | addi (e : Fin 16) (f : CFields)
  /-- LI (R137) -/
  | li (e : Fin 16) (f : CFields)
  /-- LIH (R137) -/
  | lih (e : Fin 16) (f : CFields)
  /-- SHLI (R137) -/
  | shli (e : Fin 16) (f : CFields)
  /-- SHRI (R137) -/
  | shri (e : Fin 16) (f : CFields)
  /-- SARI (R137) -/
  | sari (e : Fin 16) (f : CFields)
  /-- CTX (R137) -/
  | ctx (e : Fin 16) (f : CFields)
  /-- PSET (R137) -/
  | pset (e : Fin 16) (f : CFields)
  /-- PGET (R137) -/
  | pget (e : Fin 16) (f : CFields)
  /-- BR (R138) -/
  | br (e : Fin 16) (f : CFields)
  /-- BRZ (R138) -/
  | brz (e : Fin 16) (f : CFields)
  /-- BRNZ (R138) -/
  | brnz (e : Fin 16) (f : CFields)
  /-- BRLT (R138) -/
  | brlt (e : Fin 16) (f : CFields)
  /-- LOOPV (R135) -/
  | loopv (e : Fin 16) (f : CFields)
  /-- TICKWAIT (R139) -/
  | tickwait (e : Fin 16)
  /-- MBOX (R140) -/
  | mbox (e : Fin 16) (f : CFields)
  /-- LD (R141) -/
  | ld (e : Fin 16) (f : WFields)
  /-- LDX (R141) -/
  | ldx (e : Fin 16) (f : WFields)
  /-- LDP (R141) -/
  | ldp (e : Fin 16) (f : WFields)
  /-- LDW (R141) -/
  | ldw (e : Fin 16) (f : WFields)
  /-- LDT (R141) -/
  | ldt (e : Fin 16) (f : WFields)
  /-- LDG (R141) -/
  | ldg (e : Fin 16) (f : WFields)
  /-- LDH (R141) -/
  | ldh (e : Fin 16) (f : WFields)
  /-- STW (R141) -/
  | stw (e : Fin 16) (f : WFields)
  /-- U_ADD (R144) -/
  | uAdd (e : Fin 16) (u1 : Bool) (f : UFields)
  /-- U_SUB (R144) -/
  | uSub (e : Fin 16) (u1 : Bool) (f : UFields)
  /-- ADDIU (R144) -/
  | addiu (e : Fin 16) (u1 : Bool) (f : UFields)
  /-- ADDIS (R144) -/
  | addis (e : Fin 16) (u1 : Bool) (f : UFields)
  /-- MULH (R144) -/
  | mulh (e : Fin 16) (u1 : Bool) (f : UFields)
  /-- ABS (R144) -/
  | abs (e : Fin 16) (u1 : Bool) (f : UFields)
  /-- ABSD (R144) -/
  | absd (e : Fin 16) (u1 : Bool) (f : UFields)
  /-- U_MIN (R144) -/
  | uMin (e : Fin 16) (u1 : Bool) (f : UFields)
  /-- U_MAX (R144) -/
  | uMax (e : Fin 16) (u1 : Bool) (f : UFields)
  /-- MIN3 (R144) -/
  | min3 (e : Fin 16) (u1 : Bool) (f : UFields)
  /-- MAX3 (R144) -/
  | max3 (e : Fin 16) (u1 : Bool) (f : UFields)
  /-- MED3 (R144) -/
  | med3 (e : Fin 16) (u1 : Bool) (f : UFields)
  /-- CLAMP (R144) -/
  | clamp (e : Fin 16) (u1 : Bool) (f : UFields)
  /-- SEL (R144) -/
  | sel (e : Fin 16) (u1 : Bool) (f : UFields)
  /-- MOVI (R144) -/
  | movi (e : Fin 16) (u1 : Bool) (f : UFields)
  /-- U_AND (R144) -/
  | uAnd (e : Fin 16) (u1 : Bool) (f : UFields)
  /-- U_OR (R144) -/
  | uOr (e : Fin 16) (u1 : Bool) (f : UFields)
  /-- U_XOR (R144) -/
  | uXor (e : Fin 16) (u1 : Bool) (f : UFields)
  /-- ANDN (R144) -/
  | andn (e : Fin 16) (u1 : Bool) (f : UFields)
  /-- U_SHL (R144) -/
  | uShl (e : Fin 16) (u1 : Bool) (f : UFields)
  /-- U_SHR (R144) -/
  | uShr (e : Fin 16) (u1 : Bool) (f : UFields)
  /-- CVT (R144) -/
  | cvt (e : Fin 16) (u1 : Bool) (f : UFields)
  /-- VSPL (R144) -/
  | vspl (e : Fin 16) (u1 : Bool) (f : UFields)
  /-- LANEIX (R144) -/
  | laneix (e : Fin 16) (u1 : Bool) (f : UFields)
  /-- CMPEQ (R144) -/
  | cmpeq (e : Fin 16) (u1 : Bool) (f : UFields)
  /-- CMPLT (R144) -/
  | cmplt (e : Fin 16) (u1 : Bool) (f : UFields)
  /-- CMPLE (R144) -/
  | cmple (e : Fin 16) (u1 : Bool) (f : UFields)
  /-- CMPLTIU (R144) -/
  | cmpltiu (e : Fin 16) (u1 : Bool) (f : UFields)
  /-- CMPLTIS (R144) -/
  | cmpltis (e : Fin 16) (u1 : Bool) (f : UFields)
  /-- CMPGTIU (R144) -/
  | cmpgtiu (e : Fin 16) (u1 : Bool) (f : UFields)
  /-- CMPGTIS (R144) -/
  | cmpgtis (e : Fin 16) (u1 : Bool) (f : UFields)
  /-- PAND (R144) -/
  | pand (e : Fin 16) (u1 : Bool) (f : UFields)
  /-- POR (R144) -/
  | por (e : Fin 16) (u1 : Bool) (f : UFields)
  /-- PXOR (R144) -/
  | pxor (e : Fin 16) (u1 : Bool) (f : UFields)
  /-- PANDN (R144) -/
  | pandn (e : Fin 16) (u1 : Bool) (f : UFields)
  /-- PNOT (R144) -/
  | pnot (e : Fin 16) (u1 : Bool) (f : UFields)
  /-- CHSH (R144) -/
  | chsh (e : Fin 16) (u1 : Bool) (f : UFields)
  /-- LFUN (R144) -/
  | lfun (e : Fin 16) (u1 : Bool) (f : UFields)
  /-- MAC (R145) -/
  | mac (e : Fin 16) (f : MFields)
  /-- MACI (R145) -/
  | maci (e : Fin 16) (f : MFields)
  /-- MULA (R145) -/
  | mula (e : Fin 16) (f : MFields)
  /-- ACCRD (R145) -/
  | accrd (e : Fin 16) (f : MFields)
  /-- ACCCLR (R145) -/
  | accclr (e : Fin 16) (f : MFields)
  /-- RSMPH (R147) -/
  | rsmph (e : Fin 16) (f : MFields)
  /-- RSMPV (R147) -/
  | rsmpv (e : Fin 16) (f : MFields)
  /-- LUT4X (R148) -/
  | lut4x (e : Fin 16) (f : MFields)
  /-- LUT4W (R148) -/
  | lut4w (e : Fin 16) (f : MFields)
  /-- SIGN (R149) -/
  | sign (e : Fin 16) (f : MFields)
  /-- SHCMP (R150) -/
  | shcmp (e : Fin 16) (f : MFields)
  /-- STC (R152) -/
  | stc (e : Fin 16) (f : EFields)
  /-- EMIT (R154) -/
  | emit (e : Fin 16) (f : EFields)
  /-- PROJ (R153) -/
  | proj (e : Fin 16) (f : EFields)
  /-- SREG (R158) -/
  | sreg (e : Fin 16) (f : EFields)
  /-- ACCORD_ENABLE (R166) -/
  | accordEnable (m : Master) (v : Word)
  /-- MAP_CHECK_START (R171) -/
  | mapCheckStart (m : Master) (v : Word)
  /-- MAP_CHECK_DONE (R171) -/
  | mapCheckDone
  /-- PAGE_DESCRIPTOR (R178) -/
  | pageDescriptor
  /-- TILE_PACKET (R180) -/
  | tilePacket
  /-- TILE_DECOMPRESSED (R180) -/
  | tileDecompressed (i : Fin 8)
  /-- PAGE_START (R185) -/
  | pageStart
  /-- MARK_MISS (R184) -/
  | markMiss
  /-- PRESS_PAGE_EVENT (R183) -/
  | pressPageEvent
  /-- FIRST_LINE_ARM (R183) -/
  | firstLineArm (m : Master) (v : Word)
  /-- DESCRIPTOR_DROP (R185) -/
  | descriptorDrop (m : Master) (v : Word)
  /-- TRACKER_RESET (R198) -/
  | trackerReset (m : Master) (v : Word)
  /-- TRACKER_WRITE (R198) -/
  | trackerWrite (m : Master) (e : Fin 16) (which : Fin 3) (v : Word)
  /-- REF_ENABLE (R192) -/
  | refEnable (m : Master) (v : Word)
  /-- ROW_PREFETCH (R190) -/
  | rowPrefetch (e : Fin 16)
  /-- REGISTRATION_UPDATE (R197) -/
  | registrationUpdate (e : Fin 16)
  /-- REF_MISSING (R307) -/
  | refMissing
  /-- SILLAGE_LINE (R200) -/
  | sillageLine
  /-- EOL_MISS (R200) -/
  | eolMiss
  /-- SILLAGE_ENABLE (R217) -/
  | sillageEnable (m : Master) (v : Word)
  /-- FLUSH (R217) -/
  | flush (m : Master) (v : Word)
  /-- SWAP (R214) -/
  | swap (m : Master) (v : Word)
  /-- RECORD_BUILD (R222) -/
  | recordBuild
  /-- HOLD_BUILD_STEP (R222) -/
  | holdBuildStep
  /-- RECORD_QUEUE (R223) -/
  | recordQueue
  /-- BLIND_EXTENT_CAP (R429) -/
  | blindExtentCap
  /-- QRD_WRITE (R223) -/
  | qrdWrite (m : Master) (v : Word)
  /-- CROP_COPY_START (R228) -/
  | cropCopyStart
  /-- CROP_COPY_END (R229) -/
  | cropCopyEnd
  /-- MARKER_FIRING (R232) -/
  | markerFiring (k : Fin 4)
  /-- MARKER_PULSE_END (R232) -/
  | markerPulseEnd (k : Fin 4)
  /-- MARKER_CLEAR (R232) -/
  | markerClear (m : Master) (k : Fin 4) (v : Word)
  /-- MARKER_ENABLE (R233) -/
  | markerEnable (m : Master) (k : Fin 4) (v : Word)
  /-- LOUPE_COMMAND (R234) -/
  | loupeCommand
  /-- SPAN_ENABLE (R245) -/
  | spanEnable (m : Master) (v : Word)
  /-- HELLO_SEND (R239) -/
  | helloSend (p : Fin 2)
  /-- HELLO (R239) -/
  | hello (p : Fin 2)
  /-- SPAN_LINK_TIMEOUT (R239) -/
  | spanLinkTimeout (p : Fin 2)
  /-- ECHO_REQ_SEND (R240) -/
  | echoReqSend (p : Fin 2)
  /-- ECHO_REQ (R240) -/
  | echoReq (p : Fin 2)
  /-- ECHO_RSP (R240) -/
  | echoRsp (p : Fin 2)
  /-- TICK_PACKET (R241) -/
  | tickPacket (p : Fin 2)
  /-- SPAN_TICK_DUE (R241) -/
  | spanTickDue
  /-- TICK_GAP (R242) -/
  | tickGap
  /-- TSYNC_MEASURE (R243) -/
  | tsyncMeasure (a b : Word)
  /-- HALO_LINE (R244) -/
  | haloLine (p k : Fin 2) (hdr pixels : List Byte)
  /-- SEAM_PACKET (R247) -/
  | seamPacket (p : Fin 2) (line : Int) (runs : List (Int × Int × Nat)) (ctxs : List (Nat × Nat × List Int)) (mark : Bool)
  /-- SEAM_TIMEOUT (R249) -/
  | seamTimeout (p : Fin 2)
  /-- FORWARDED_RECORD (R250) -/
  | forwardedRecord (p : Fin 2) (b : List Byte)
  /-- BLOTTER_START (R258) -/
  | blotterStart (m : Master) (v : Word)
  /-- BLOTTER_DONE (R257) -/
  | blotterDone (fails : List (Nat × Nat))
  /-- CXL_PORT_ENABLE (R263) -/
  | cxlPortEnable (m : Master) (p : Fin 4) (v : Word)
  /-- CXL_LINK_UP (R263) -/
  | cxlLinkUp (p : Fin 4) (ok rate32 x4 : Bool)
  /-- CXL_CFG_ACCESS (R263) -/
  | cxlCfgAccess (m : Master) (p : Fin 4) (v : Word)
  /-- CXL_CFG_DONE (R263) -/
  | cxlCfgDone (p : Fin 4) (ok : Bool) (data : Word)
  /-- INBOUND (R263) -/
  | inbound (p : Fin 4)
  /-- DECODER_ENABLE (R264) -/
  | decoderEnable (m : Master) (k : Fin 4) (v : Word)
  /-- CXL_RESPONSE (R266) -/
  | cxlResponse (p : Fin 4) (i : Nat) (kind : Fin 3) (l : Nat)
  /-- CXL_REQUEST_TIMEOUT (R265) -/
  | cxlRequestTimeout (p : Fin 4)
  /-- CXL_LINK_LOSS (R265) -/
  | cxlLinkLoss (p : Fin 4)
  /-- UNFREEZE (R269) -/
  | unfreeze (m : Master) (p : Fin 4) (v : Word)
  /-- LOG_INFO_READ (R269) -/
  | logInfoRead (m : Master) (p : Fin 4)
  /-- POISON_ENTRY_CLEAR (R267) -/
  | poisonEntryClear (m : Master) (p : Fin 4) (i : Fin 8) (v : Word)
  /-- L1_ENTRY (R270) -/
  | l1Entry (p : Fin 4)
  /-- PME_TO_ACK (R271) -/
  | pmeToAck (p : Fin 4)
  /-- SR_TO (R271) -/
  | srTo (p : Fin 4)
  /-- DMA_START (R279) -/
  | dmaStart (m : Master) (k : Fin 16) (v : Word)
  /-- DMA_PAUSE (R279) -/
  | dmaPause (m : Master) (k : Fin 16) (v : Word)
  /-- DMA_RESUME (R280) -/
  | dmaResume (m : Master) (k : Fin 16) (v : Word)
  /-- DMA_CLEAR (R279) -/
  | dmaClear (m : Master) (k : Fin 16) (v : Word)
  /-- DESCRIPTOR_FETCH (R273) -/
  | descriptorFetch (k : Fin 16)
  /-- DESCRIPTOR_COMPLETE (R276) -/
  | descriptorComplete (k : Fin 16)
  /-- CHANNEL_HALT (R277) -/
  | channelHalt (k : Fin 16) (ofs : Nat)
  /-- PAUSE_DRAINED (R279) -/
  | pauseDrained (k : Fin 16) (n : Nat)
  /-- CMP_ENGINE_FREE (R287) -/
  | cmpEngineFree (i : Fin 8)
  /-- MAILBOX_GO (R290) -/
  | mailboxGo (m : Master) (n : Fin 5) (v : Word)
  /-- MAILBOX_REPLY (R290) -/
  | mailboxReply (n : Fin 5)
  /-- MAILBOX_TIMEOUT (R292) -/
  | mailboxTimeout (n : Fin 5)
  /-- SYNC (R291) -/
  | sync
  /-- FLUSH_BLIND (R291) -/
  | flushBlind
  /-- ETH_FRAME_RECEIVE (R294) -/
  | ethFrameReceive (p : Fin 2) (back : List Nat) (frame : List Byte) (msg : Option (Nat × List Byte))
  /-- ETH_FRAME_SENT (R296) -/
  | ethFrameSent (p : Fin 2)
  /-- TLS_CONNECT (R297) -/
  | tlsConnect (p : Fin 2) (data : Bool) (ca : List Byte) (ou : ClientOu) (ok : Bool)
  /-- STOP_REPORTS (R301) -/
  | stopReports (sid rid : Nat)
  /-- STOP_EXPORT (R301) -/
  | stopExport (sid rid : Nat)
  /-- HOLD (R301) -/
  | hold (sid rid : Nat)
  /-- RESUME_REPORTS (R301) -/
  | resumeReports (sid rid : Nat)
  /-- RESUME_EXPORT (R301) -/
  | resumeExport (sid rid : Nat)
  /-- RUN (R304) -/
  | run (sid rid : Nat)
  /-- STATUS (R301) -/
  | status (sid rid : Nat)
  /-- ECHO (R301) -/
  | echo (sid rid : Nat) (b : List Byte)
  /-- HWACT_STOP_REPORTS (R302) -/
  | hwactStopReports (m : Master) (v : Word)
  /-- HWACT_STOP_EXPORT (R302) -/
  | hwactStopExport (m : Master) (v : Word)
  /-- HOLD_REQ (R302) -/
  | holdReq (m : Master) (v : Word)
  /-- JOB_START (R305) -/
  | jobStart (sid rid : Nat) (job : Word) (name : List Byte) (steady : Bool)
  /-- JOB_END (R306) -/
  | jobEnd (sid rid : Nat)
  /-- CAL_RUN (R304) -/
  | calRun (sid rid : Nat)
  /-- CAL_END (R304) -/
  | calEnd (sid rid : Nat)
  /-- STANDBY (R304) -/
  | standby (sid rid : Nat)
  /-- FEED_STATUS (R309) -/
  | feedStatus (sid rid : Nat)
  /-- PROFILE_LIST (R310) -/
  | profileList (sid rid : Nat)
  /-- PROFILE_UPLOAD (R310) -/
  | profileUpload (sid rid : Nat) (total ofs : Word) (part : List Byte)
  /-- PROFILE_SELECT (R310) -/
  | profileSelect (sid rid : Nat) (n : Fin 8)
  /-- PROFILE_SPLICE (R310) -/
  | profileSplice (sid rid : Nat) (n : Fin 8) (line : BitVec 48)
  /-- PROFILE_CANCEL (R310) -/
  | profileCancel (sid rid : Nat)
  /-- SUBSCRIBE (R311) -/
  | subscribe (sid rid : Nat) (types classes : BitVec 16) (unsure : Bool) (chips : BitVec 4) (start : Word) (next : Bool)
  /-- UNSUBSCRIBE (R311) -/
  | unsubscribe (sid rid : Nat)
  /-- RECORDS (R303) -/
  | records (sid : Nat)
  /-- CROP_GET (R308) -/
  | cropGet (sid rid : Nat) (h : Word)
  /-- ROLLMAP_GET (R308) -/
  | rollmapGet (sid rid : Nat) (first last : Word) (level : Byte)
  /-- ZSP_TOTALS (R312) -/
  | zspTotals (sid rid : Nat)
  /-- ZSP_TICKET (R312) -/
  | zspTicket (sid rid : Nat)
  /-- ZSP_LOT_START (R312) -/
  | zspLotStart (sid rid : Nat)
  /-- ZSP_LOT_END (R312) -/
  | zspLotEnd (sid rid : Nat)
  /-- TICKET_KEY (R312) -/
  | ticketKey (sid rid : Nat)
  /-- ZSP_PARAM (R312) -/
  | zspParam (sid rid : Nat) (id v : Word)
  /-- ZSP_INIT (R312) -/
  | zspInit (sid rid : Nat)
  /-- ZSP_RESTORE (R312) -/
  | zspRestore (sid rid : Nat)
  /-- ZSP_INSTALL (R312) -/
  | zspInstall (sid rid : Nat) (total ofs : Word) (part : List Byte)
  /-- REG_READ (R313) -/
  | regRead (sid rid : Nat) (a : BitVec 64) (n : Word)
  /-- REG_WRITE (R313) -/
  | regWrite (sid rid : Nat) (a : BitVec 64) (v : Word)
  /-- BOOT_REPORT (R313) -/
  | bootReport (sid rid : Nat)
  /-- QUOTE (R313) -/
  | quote (sid rid : Nat) (nonce : List Byte)
  /-- LOG_READ (R313) -/
  | logRead (sid rid : Nat) (log : Byte) (ofs : Word)
  /-- DEVICE_CERT (R313) -/
  | deviceCert (sid rid : Nat)
  /-- SINC_OUTPUT (R319) -/
  | sincOutput (k : Fin 16) (bs : List Bool)
  /-- FIXED_RATE_OUTPUT (R321) -/
  | fixedRateOutput (k : Fin 16)
  /-- TICK_LOCKED_OUTPUT (R321) -/
  | tickLockedOutput (k : Fin 16)
  /-- STUCK (R317) -/
  | stuck (k : Fin 16)
  /-- CHANNEL_SYNC (R323) -/
  | channelSync (k : Fin 16) (t : Int)
  /-- DETECTOR_WINDOW_END (R325) -/
  | detectorWindowEnd (k : Fin 16)
  /-- BANK (R324) -/
  | bank
  /-- FADE_END (R324) -/
  | fadeEnd (k : Fin 16)
  /-- FAST_PATH_OUTPUT (R326) -/
  | fastPathOutput (ph : Fin 2) (bit : Bool)
  /-- OFFSET_ADAPT (R335) -/
  | offsetAdapt (ph : Fin 2)
  /-- PROFILE_UPDATE (R332) -/
  | profileUpdate
  /-- LIMIT_INPUT_CHANGE (R337) -/
  | limitInputChange (i : Fin 3) (level : Bool)
  /-- LIMIT_CHATTER (R338) -/
  | limitChatter
  /-- STANDSTILL_OPTION (R336) -/
  | standstillOption
  /-- MOVE_START_DELAY (R336) -/
  | moveStartDelay
  /-- MOT_ENABLE (R330) -/
  | motEnable (m : Master) (v : Word)
  /-- MOT_DISABLE (R330) -/
  | motDisable (m : Master) (v : Word)
  /-- MOVE_ABS (R331) -/
  | moveAbs
  /-- MOVE_UM (R331) -/
  | moveUm
  /-- MOVE_REL (R331) -/
  | moveRel
  /-- STOP (R331) -/
  | stop
  /-- ESTOP (R331) -/
  | estop
  /-- HOME (R331) -/
  | home
  /-- SETPOS (R331) -/
  | setpos
  /-- MOT_CLEAR (R331) -/
  | motClear
  /-- EV_PIN_INPUT (R351) -/
  | evPinInput (n : Fin 24) (level : Bool)
  /-- CAPTURE_READ (R353) -/
  | captureRead (m : Master) (k : Fin 4)
  /-- STRETCH_END (R351) -/
  | stretchEnd (n : Fin 24)
  /-- RELAY_OUTPUT (R352) -/
  | relayOutput (n : Fin 8)
  /-- RELAY_RESET (R352) -/
  | relayReset (m : Master) (n : Fin 8) (dly : Bool) (v : Word)
  /-- LINK_ENABLE_WRITE (R349) -/
  | linkEnableWrite (m : Master) (c : Fin 45) (hi : Bool) (v : Word)
  /-- SOFTWARE_TRIGGER (R349) -/
  | softwareTrigger (m : Master) (v : Word)
  /-- OWNER_WRITE (R348) -/
  | ownerWrite (m : Master) (ch : Fin 64) (v : Word)
  /-- EVT_LOCK (R348) -/
  | evtLock (m : Master) (v : Word)
  /-- FLACON_SINCOS_SAMPLE (R357) -/
  | flaconSincosSample (sn cs : BitVec 16)
  /-- PERIODIC_COMMIT (R363) -/
  | periodicCommit
  /-- PFAIL (R363) -/
  | pfail
  /-- PFAIL_RECOMMIT (R363) -/
  | pfailRecommit
  /-- COMMIT_DONE (R363) -/
  | commitDone
  /-- SEAL_CHANGE (R365) -/
  | sealChange (low : Bool)
  /-- TOTALS (R370) -/
  | totals
  /-- TICKET (R371) -/
  | ticket
  /-- LOT_START (R370) -/
  | lotStart
  /-- LOT_END (R371) -/
  | lotEnd
  /-- PARAM (R365) -/
  | param
  /-- INIT (R366) -/
  | init
  /-- RESTORE (R366) -/
  | restore
  /-- INSTALL (R369) -/
  | install
  /-- KEY_PROG (R377) -/
  | keyProg (m : Master) (v : Word)
  /-- KEY_REVOKE (R377) -/
  | keyRevoke (m : Master) (v : Word)
  /-- MEASUREMENT_EXTEND (R378) -/
  | measurementExtend (m : Master) (v : Word)
  /-- QUOTE_SIGN (R380) -/
  | quoteSign (m : Master)
  /-- CHALLENGE_NEW (R387) -/
  | challengeNew (m : Master)
  /-- LIFECYCLE_TRANSITION (R388) -/
  | lifecycleTransition (m : Master) (v : Word)
  /-- DEBUG_UNLOCK (R390) -/
  | debugUnlock (m : Master) (v : Word)
  /-- DEBUG_CLOSE (R391) -/
  | debugClose (m : Master) (v : Word)
  /-- PORST_RELEASE (R409) -/
  | porstRelease (env : BootEnv)
  /-- OFF_ENTRY (R392) -/
  | offEntry
  /-- RAIL_FAULT (R418) -/
  | railFault (flacon : Bool)
  /-- THERMAL_TRIP (R422) -/
  | thermalTrip
  /-- PWRCMD_RUN (R393) -/
  | pwrcmdRun (m : Master) (v : Word)
  /-- PWRCMD_HOLD (R394) -/
  | pwrcmdHold (m : Master) (v : Word)
  /-- PWRCMD_STANDBY (R395) -/
  | pwrcmdStandby (m : Master) (v : Word)
  /-- HOLD_ENTRY (R394) -/
  | holdEntry
  /-- WAKE (R396) -/
  | wake (env : BootEnv)
  /-- PROFILE_STROBE (R405) -/
  | profileStrobe (sel : Fin 8)
  /-- SELECT (R406) -/
  | select
  /-- SPLICE (R407) -/
  | splice
  /-- CANCEL (R408) -/
  | cancel
  /-- SPLICE_STAGED (R407) -/
  | spliceStaged
  /-- SPLICE_SEQUENCER (R407) -/
  | spliceSequencer
  /-- SGMII_LINK_CHANGE (R294) -/
  | sgmiiLinkChange (p : Fin 2) (up : Bool)
  /-- ENC0_Z_FALLING_EDGE (R58) -/
  | enc0ZFallingEdge
  /-- WAKE_N_CHANGE (R344) -/
  | wakeNChange (low : Bool)
  /-- PFAIL_N_RELEASE (R363) -/
  | pfailNRelease
  /-- MEAS_ERR_NOW_END (R358) -/
  | measErrNowEnd
  /-- FLACON_STILL (R365) -/
  | flaconStill
  deriving DecidableEq, Repr

end Sys2Proof
end

