-- ==== Sys2Proof/Decode.lean ====
section
/-!
DEFINITION. Sys2Proof/Decode.lean: the command a word spells by the bits of the opcode table. No row of
spec/opcode_table.json gives bits: the device is commanded by its registers, lanes, pins and sessions, not by words of
a program, so no word spells a command.
-/
namespace Sys2Proof

/-- The command that the `nbits` bits `w` spell by the opcode table: none, since its rows give no bits. -/
def decodeTableWord (_nbits _w : Nat) : Option Instr := none

end Sys2Proof
end

