-- ==== Sys2Proof/Config.lean ====
section
/-!
DEFINITION. Sys2Proof/Config.lean: what the spec leaves to the device or leaves open, as constants with no body. No
proof can see a value of one of these; a claim holds whatever they are.
-/
namespace Sys2Proof.Config

/-- The free values drawn in order (assumption log 1): the argument is the value's number. -/
opaque freeNat : Nat → Nat

/-- SHAKE256 of a byte string with an output of the given number of bytes (log 2). -/
opaque shake256 : List Byte → Nat → List Byte

/-- Ed448: public key of a seed, signature under a seed, verification of a signature under a key (log 2). -/
opaque ed448Pub : List Byte → List Byte
opaque ed448Sign : List Byte → List Byte → List Byte
opaque ed448Verify : List Byte → List Byte → List Byte → Bool

/-- Dorsin's Ed448 public key and the bytes of the boot ROM (R375, R427), which the spec does not print (log 2). -/
opaque dorsinKey : List Byte
/-- Byte i of the Flacon secret, random from manufacture on (R372, log 144). -/
opaque flaconSecretByte : Nat → Byte
/-- Byte i of the digest of the Flacon public key that its ROM holds (R410, log 144). -/
opaque flaconRomKeyByte : Nat → Byte
opaque romByte : Nat → Byte

/-- Where the spec states a fractional value and no rounding, whether the device rounds that value up; the first argument
names the place (log 5). -/
opaque roundUp : Nat → Rat → Bool

/-- How far inside the open interval of R55 the observer's position is kept: 1 ÷ (obsGap + 2) count (log 9). -/
opaque obsGap : Nat

/-- By how much SIGN's result differs from the rounded value (R149: within ±1), for its operands, taken modulo 3 less 1
(log 17). -/
opaque signErr : List Nat → Nat

/-- Contents of Span packets on channels 2–5, whose layout the spec does not describe (R238): the packets, for a kind of
content and its numbers (log 16). -/
opaque spanPackets : Nat → List Nat → List (List Byte)

/-- Output of the signal chain's resampler, whose coefficients the spec does not print (R319): from 8 FIR outputs and
the phase in 1/1,024 sinc period (log 1). -/
opaque resample : List Int → Nat → Int

/-- Length of the Flacon image that a slot of the FRAM holds, from the slot's bytes: the spec states no length field (log 32). -/
opaque flImageLen : List Byte → Nat

/-- The self-signed certificate holds its names as UTF8String, else as PrintableString: RFC 5280 allows both, and the spec names
neither (R381, log 33). -/
opaque certUtf8 : Bool

/-- Where in the CXL window a DATA item of a profile is put whose 4-byte target lies in no stripe bank and not in the shared pool
(R403): the spec does not say how such a target names an address of that window; taken modulo its size (log 139). -/
opaque cxlItem : Nat → Nat

/-- Where in main memory the root core loads the service operating system (log 34). -/
opaque osOffset : Nat

/-- Payloads whose layout the spec does not give: STATUS (0) from its numbers, and the logs of LOG_READ (1 system, 2 security, 3
denied accesses) from what they show (log 36). -/
opaque zspLayout : Nat → List Nat → List Byte

end Sys2Proof.Config
end

