-- ==== Sys2Proof/Machine/RegMap.lean ====
section
/-!
DEFINITION. Sys2Proof/Machine/RegMap.lean: the register map of control space, block by block, as the register
tables of the spec give it: for every register its bus address, its array dimensions, its reset value and its
fields with their access types (R5) and write conditions (R424, R425).
-/
namespace Sys2Proof.Machine

/-- Access type of a field (R5), with the variants the register tables describe. -/
inductive Acc where
  | rw      -- read and write
  | ro      -- read only, stored
  | view    -- read only, computed from the state of the unit
  | wo      -- write only: reads 0
  | w1c     -- a 1 clears the flag
  | w1s     -- a 1 sets the bit
  | w0c     -- a 0 clears the entry (CXL poison list)
  | rwc     -- value register of a complement-protected pair (R8)
  | rwcc    -- complement register of such a pair (R8)
  | clr     -- read only; a write of any value clears it (R5, R7)
  | trk     -- REF tracker register, written while the engine's tracker may be set
  | wbank   -- SIL weight, written to the inactive bank
  deriving DecidableEq, Repr

/-- When a field may change. -/
inductive Lock where
  | none    -- at any time
  | hold    -- only in Hold; a write in Run is ignored with CFG_ERR (R129, R167, R217, R235, R252)
  | holdChg -- only in Hold; a write in Run that would change the field is ignored with CFG_ERR (R29, R47, R60, log 4)
  | dec     -- CXL decoder register, only in Hold; refusal sets DEC_ERR
  | sig     -- only while SIG_CTL.EN = 0
  | sigch   -- only while SIG_CFG_k.EN = 0
  | mot     -- only while MOT_CTL.EN = 0
  | eth     -- only while ETH_CTL.EN = 0 of the port
  | emb     -- only while ETH_EMB_CFG.EN = 0
  | own     -- EVT_OWN, under R348
  | lnk     -- EVT_LNK, under R349 and R350
  | coef    -- SIG coefficient, inactive bank only
  deriving DecidableEq, Repr

/-- Rules that relate several fields or name a set of values. -/
inductive Special where
  | bw | ampPair | pix | stlo | sthi | gmin | gmax | swidth | markPair | qPair | qrd | loupe | frame | sddiv | nrange | embrd
  deriving DecidableEq, Repr

/-- Which written values take effect (R424). -/
inductive Rule where
  | any
  | range (lo hi : Nat)          -- other values are ignored and set CFG_ERR
  | rangeQuiet (lo hi : Nat)     -- other values are ignored
  | align (n : Nat)              -- the low n bits must be 0, else ignored with CFG_ERR
  | alignQuiet (n : Nat)         -- the low n bits must be 0, else ignored
  | special (k : Special)
  deriving DecidableEq, Repr

/-- Every register of control space, by the name the register tables give it. An array of registers is one name. -/
inductive Reg where
  | SYS_PWRSTATE | SYS_PWRCMD | SYS_PWRRES | SYS_RUNMARK_LO | SYS_RUNMARK_HI | SYS_T0_LO | SYS_T0_HI
  | SYS_HOLDLINE_LO | SYS_HOLDLINE_HI | SYS_WAKESRC | SYS_WAKECNT | SYS_PROFILE | SYS_PROFILEC | SYS_STAT
  | SYS_INT_CNT | SYS_RREF_CNT | SYS_BOOT | SYS_PSTAT | SYS_PCFG | SYS_PSTB_CNT | SYS_SPLICE_LO | SYS_SPLICE_HI
  | SEC_LC | SEC_DEVID_LO | SEC_DEVID_HI | SEC_LCCMD | SEC_LCRES | SEC_DBG | SEC_DBGRES | SEC_CHALCMD | SEC_STAT
  | SEC_INTSRC | SEC_INT_CNT | SEC_DEN_CNT | SEC_CHAL | SEC_AUTH_CNT | SEC_DBG_CNT | SEC_RESP | SEC_KEYCMD | SEC_KBUF
  | SEC_KPOL | SEC_KPOLC | SEC_MRX | SEC_MRXBUF | SEC_QCMD | SEC_QRES | SEC_QNONCE | SEC_IDPUB | SEC_MR | SEC_QOUT
  | SEC_DLOG_A | SEC_DLOG_B | SEC_DLOG_CNT | SEC_AT | SEC_ATC
  | TICK_CTL | TICK_DEPTH | TICK_NUM | TICK_DEN | TICK_FIXPER | TICK_DIVN | TICK_FMAX | TICK_POS_LO | TICK_POS_HI
  | TICK_BEHIND | TICK_SPEED | TICK_PAGE_LO | TICK_PAGE_HI | TICK_HOLDADV | TICK_STAT | TICK_OVS_CNT | TICK_LOST_CNT
  | TICK_REV_CNT | TICK_CFG_CNT | TICK_SLACK | TICK_TOFF | TICK_TOFFC | TICK_HIST
  | TIME_SEC_LO | TIME_SEC_HI | TIME_NS | TIME_OFS | TIME_GAIN | TIME_FREQ | TIME_LIM | TIME_STEPTHR
  | TIME_SET_SEC_LO | TIME_SET_SEC_HI | TIME_SET_NS | TIME_STAT_X | TIME_STEP_CNT | TIME_HELD_CNT | TIME_SETREF_CNT
  | TIME_CTL | TIME_SWSTEP | TIME_STAT | TIME_SWREF_CNT | TIME_DEV_SEC_LO | TIME_DEV_SEC_HI | TIME_DEV_NS
  | ENC_CTL | ENC_OBS | ENC_STILL | ENC_INTERP | ENC_AMPWIN | ENC_SCOFS | ENC_SCGAIN | ENC_SER | ENC_IDXPER
  | ENC_POS_LO | ENC_POS_HI | ENC_SPEED | ENC_ACC | ENC_IDXDIFF | ENC_IPOS | ENC_AMP | ENC_STAT | ENC_AMP_CNT
  | ENC_IDX_CNT | ENC_PJ_CNT | ENC_CRC_CNT | ENC_LOST_CNT | ENC_CFG_CNT | ENC_BERR_CNT | ENC_PT_CTL | ENC_PT_ZPER
  | ENC_PT_STAT | ENC_PT_OVF_CNT
  | LANE_CTL | LANE_RT | LANE_CSLIM | LANE_STATE | LANE_STAT | LANE_LL_CNT | LANE_FL_CNT | LANE_UCW_CNT | LANE_EB_CNT
  | LANE_FC_CNT | LANE_CR_CNT | LANE_RT_CNT | LANE_CW | LANE_CSYM | LANE_UCWTOT | LANE_PKTDROP | LANE_EBCNT
  | LANE_ESCAN_CTL | LANE_ESCAN_RES | LANE_ESCAN_ERR
  | CAM_CTL | CAM_PIX | CAM_STATE | CAM_SFMAX | CAM_STAT | CAM_DEG_CNT | CAM_STOP_CNT | CAM_LL_CNT | CAM_STRAY_CNT
  | CAM_FMTTO_CNT | CAM_REGTO_CNT | CAM_EXPO_CNT | CAM_CFG_CNT | CAM_LOST | CAM_REGCMD | CAM_REGWD | CAM_REGRD
  | CAM_REGRES
  | IU_CTL | IU_TBASE | IU_TNEW | IU_TLINE_LO | IU_TLINE_HI | IU_TCMD | IU_TRES | IU_STWIN | IU_SBLK | IU_MEAN_RG
  | IU_MEAN_BN | IU_SATN | IU_DREF_RG | IU_DREF_BN | IU_DTOL | IU_SRIDX | IU_STAT | IU_DRIFT_CNT | IU_HELD_CNT
  | IU_RANGE_CNT | IU_TERR_CNT | IU_SKIP_CNT | IU_CFG_CNT | IU_ACC_CTL | IU_ACC_LO | IU_ACC_HI | IU_ACC_STAT
  | IU_LREF | IU_LLIM | IU_LHBASE | IU_SRBASE
  | SE_CTL | SE_IMG_LO | SE_IMG_HI | SE_LDCMD | SE_LDRES | SE_STATE | SE_BUDGET | SE_COST | SE_BANK | SE_FMAXC
  | SE_RUNCYC | SE_RUNPEAK | SE_LINE_LO | SE_LINE_HI | SE_QPEAK | SE_STRIPE | SE_STAT | SE_FAULT_CNT | SE_BLIND_CNT
  | SE_WCOLL_CNT | SE_STCE_CNT | SE_CFG_CNT | SE_LDF_CNT | SE_SBUDGET | SE_RING_A | SE_RING_B | SE_RING_C | SE_RING_D
  | ACCORD_CTL | ACCORD_RES | ACCORD_OUTW | ACCORD_X0 | ACCORD_XPITCH | ACCORD_MCHK_CMD | ACCORD_MCHK_SET
  | ACCORD_MRES | ACCORD_STAT | ACCORD_RERR_CNT | ACCORD_LATE_CNT | ACCORD_CFG_CNT | ACCORD_RTA | ACCORD_RTB
  | REF_CTL | REF_RES | REF_CMD | REF_RBASE_LO | REF_RBASE_HI | REF_RROWS | REF_RPITCH | REF_RWIDTH | REF_TILE
  | REF_PMAX | REF_PLEN | REF_PLENF | REF_OVR | REF_PAGEOFS | REF_MARK | REF_FIRST_LO | REF_FIRST_HI | REF_TRKCFG
  | REF_AB | REF_Q | REF_LIM | REF_PSTAT | REF_PID | REF_STAT | REF_PKT_CNT | REF_DESC_CNT | REF_TILE_CNT
  | REF_FEED_CNT | REF_PERR_CNT | REF_MSTRAY_CNT | REF_MMISS_CNT | REF_PUNDER_CNT | REF_PLATE_CNT | REF_REDGE_CNT
  | REF_RLIM_CNT | REF_LOWT_CNT | REF_CFG_CNT | REF_DUP_CNT | REF_XSREG_CNT | REF_EWIN | REF_TRK_MD | REF_TRK_CD
  | REF_TRK_K | REF_TRK_STAT
  | SIL_CTL | SIL_CONN | SIL_ENGMASK | SIL_EOLTO | SIL_CTXBASE | SIL_LONGLEN | SIL_LSTEP | SIL_CLS | SIL_CLSSUP
  | SIL_WSWAP | SIL_CMD | SIL_CMDRES | SIL_OPEN | SIL_LINE_LO | SIL_LINE_HI | SIL_SATOPEN | SIL_STAT | SIL_SAT_CNT
  | SIL_ROVF_CNT | SIL_EOLM_CNT | SIL_LONG_CNT | SIL_CFG_CNT | SIL_MERGE_CNT | SIL_CLOSE_CNT | SIL_SUP_CNT | SIL_W
  | RPT_CTL | RPT_JOB0_LO | RPT_JOB0_HI | RPT_MDPITCH | RPT_QBASE | RPT_QCFG | RPT_QWR | RPT_QRD | RPT_QTHR
  | RPT_CRBASE_LO | RPT_CRBASE_HI | RPT_CRING | RPT_CROP | RPT_CLIM | RPT_CSBASE_LO | RPT_CSBASE_HI | RPT_CSSIZE
  | RPT_CIBASE_LO | RPT_CIBASE_HI | RPT_CHANDLE | RPT_RMBASE_LO | RPT_RMBASE_HI | RPT_RMLOG | RPT_RMWR | RPT_STAT
  | RPT_RLOST_CNT | RPT_DELAY_CNT | RPT_CLOST_CNT | RPT_CERR_CNT | RPT_AERR_CNT | RPT_LMISS_CNT | RPT_TSL_CNT
  | RPT_CFG_CNT | RPT_MK_CTL | RPT_MK_PW | RPT_MK_DIST | RPT_MK_DISTC | RPT_MK_STAT | RPT_MK_LATE_CNT
  | RPT_MK_OVF_CNT | RPT_MK_COIN_CNT | RPT_MK_INT_CNT | RPT_MK_FIRED
  | SPAN_CTL | SPAN_ID | SPAN_XBASE | SPAN_TDLY | SPAN_SEAMTO | SPAN_RES | SPAN_TOFS | SPAN_PST | SPAN_LAT | SPAN_NB
  | SPAN_STAT | SPAN_LD_CNT | SPAN_IDC_CNT | SPAN_MC_CNT | SPAN_ORD_CNT | SPAN_TL_CNT | SPAN_TG_CNT | SPAN_SL_CNT
  | SPAN_FWD_CNT | SPAN_PKT_CNT | SPAN_CFG_CNT | SPAN_HTX | SPAN_HRX
  | MEM_STAT | MEM_WCOLL_CNT | MEM_RPR_CNT | MEM_UNRPR_CNT | MEM_ABORT_CNT | MEM_CFG_CNT | MEM_COLL_ADDR
  | MEM_COLL_INFO | MEM_RET_SB | MEM_RET_SP | MEM_WAKE_SB | MEM_WAKE_SP | MEM_BLT_CTL | MEM_BLT_SB | MEM_BLT_SP
  | MEM_BLT_RES | MEM_BLT_FAIL | MEM_RPR
  | CXL_FROZEN | CXL_DEC_RES | CXL_DEC_ERR_CNT | CXL_P_CTL | CXL_P_STATE | CXL_P_STAT | CXL_P_LD_CNT
  | CXL_P_POISON_CNT | CXL_P_UCE_CNT | CXL_P_TIMEOUT_CNT | CXL_P_PLF_CNT | CXL_P_SRTO_CNT | CXL_P_SRL_CNT
  | CXL_P_INB_CNT | CXL_P_CFG_CNT | CXL_P_CMD | CXL_P_CMDRES | CXL_P_LOG_LO | CXL_P_LOG_HI | CXL_P_LOG_INFO
  | CXL_P_HIDX | CXL_P_HDATA | CXL_P_PL_LO | CXL_P_PL_HI | CXL_P_CFGA | CXL_P_CFGD | CXL_P_CFGRES | CXL_P_CFGX
  | CXL_DEC_CTL | CXL_DEC_BASE | CXL_DEC_SIZE | CXL_DEC_DPA
  | DMA_CMD | DMA_DESC_LO | DMA_DESC_HI | DMA_RES | DMA_STATE | DMA_CURDESC_LO | DMA_CURDESC_HI | DMA_CUR_SRC_LO
  | DMA_CUR_SRC_HI | DMA_CUR_DST_LO | DMA_CUR_DST_HI | DMA_ROW | DMA_REMAIN | DMA_PRODUCED | DMA_FAIL_LO
  | DMA_FAIL_HI | DMA_FAIL_INFO | DMA_FAIL_OFS | DMA_STAT | DMA_DONE_CNT | DMA_ERR_CNT | DMA_CFG_CNT
  | CMP_CTL | CMP_ENG | CMP_STAT | CMP_ERRINFO | CMP_DEC_CNT | CMP_WR_CNT | CMP_IN_LO | CMP_IN_HI | CMP_OUT_LO
  | CMP_OUT_HI
  | SIG_CTL | SIG_CMD | SIG_FAST | SIG_STAT | SIG_FOC_CNT | SIG_CFG_CNT | SIG_K_CFG | SIG_K_OPER | SIG_K_BANK
  | SIG_K_ENVCF | SIG_K_PKLIM | SIG_K_RMSLIM | SIG_K_ENVLIM | SIG_K_VAL | SIG_K_DETV | SIG_K_ENVV | SIG_K_SKEW
  | SIG_K_STAT | SIG_K_PKH_CNT | SIG_K_PKL_CNT | SIG_K_RMH_CNT | SIG_K_RML_CNT | SIG_K_EVH_CNT | SIG_K_EVL_CNT
  | SIG_K_STK_CNT | SIG_K_SUP_CNT | SIG_K_CFG_CNT | SIG_COEF
  | MOT_CTL | MOT_STATE | MOT_POS | MOT_TGT | MOT_VEL | MOT_VSTART | MOT_VSTOP | MOT_VBREAK | MOT_VMAX | MOT_A1
  | MOT_A2 | MOT_D2 | MOT_D1 | MOT_VHOME | MOT_HMAX | MOT_HOMEPOS | MOT_SMIN | MOT_SMAX | MOT_ORIGIN | MOT_NMQ
  | MOT_IRUN | MOT_CHOP | MOT_ADAPT | MOT_OFS | MOT_SS | MOT_LIM | MOT_IN | MOT_STAT | MOT_ARR_CNT | MOT_LHIT_CNT
  | MOT_CHAT_CNT | MOT_HF_CNT | MOT_OC_CNT | MOT_CLMP_CNT | MOT_CFG_CNT
  | EVT_OWN | EVT_LOCK | EVT_RES | EVT_STAT | EVT_LOOP_CNT | EVT_DEN_CNT | EVT_RLYO_CNT | EVT_CAPO_CNT | EVT_CFG_CNT
  | EVT_SWTRIG | EVT_MOVE | EVT_SRCMASK | EVT_ISTAT | EVT_IRQ_CNT | EVT_PIN | EVT_RLY_DIV | EVT_RLY_DLY | EVT_LNK_LO
  | EVT_LNK_HI | EVT_WIRE_LO | EVT_WIRE_HI | EVT_COIN_LO | EVT_COIN_HI | EVT_COIN_CNT | EVT_CAP
  | ETH_CTL | ETH_MAC_LO | ETH_MAC_HI | ETH_CFLT | ETH_Q0FREE | ETH_STAT | ETH_LD_CNT | ETH_Q0D_CNT | ETH_QXD_CNT
  | ETH_CFG_CNT | ETH_HWACT | ETH_EXPDMA | ETH_MB_CTL | ETH_MB_REQ | ETH_MB_RSP | ETH_EMB_BASE | ETH_EMB_CFG
  | ETH_EMB_WR | ETH_EMB_RD | ETH_MB_STAT | ETH_MBTO_CNT | ETH_MBBW_CNT | ETH_EMBO_CNT | ETH_MBCFG_CNT
  | FL_STATE | FL_LEN_LO | FL_LEN_HI | FL_LENC_LO | FL_LENC_HI | FL_AREA_LO | FL_AREA_HI | FL_AREAC_LO | FL_AREAC_HI
  | FL_LOTLEN_LO | FL_LOTLEN_HI | FL_REV_LO | FL_REV_HI | FL_POS_LO | FL_POS_HI | FL_EVCNT | FL_FAULTCNT | FL_UNCLEAN
  | FL_TICKNO | FL_COMMIT | FL_FWID_LO | FL_FWID_HI | FL_PFORM | FL_PNUM | FL_PDEN | FL_PWNOM | FL_PPULSE | FL_TICKET
  | FL_TKEY | FL_TKID_LO | FL_TKID_HI
  deriving DecidableEq, Repr

/-- A field of a register: the register and its bit range. -/
structure Fld where
  reg : Reg
  hi  : Nat
  lo  : Nat
  deriving DecidableEq, Repr

/-- A W1C flag (R6) with the register of its occurrence counter (R7). -/
structure Flag where
  reg : Reg
  bit : Nat
  cnt : Reg
  deriving DecidableEq, Repr

/-- One row of a register table. -/
structure FieldRow where
  hi   : Nat
  lo   : Nat
  acc  : Acc
  lock : Lock := .none
  rule : Rule := .any
  deriving DecidableEq, Repr

/-- A register: bus address of its first element, array dimensions (count, stride) outermost first, reset value,
fields, and the CFG_ERR flag of its block. -/
structure RegRow where
  addr   : Nat
  dims   : List (Nat × Nat)
  reset  : Nat
  fields : List FieldRow
  cfg    : Option Flag := none
  deriving DecidableEq, Repr

/-! ### SYS registers (20_security_power.md,21_profiles_boot.md) -/
def SYS_PWRSTATE_STATE : Fld := ⟨.SYS_PWRSTATE, 1, 0⟩
def SYS_PWRSTATE_DRAIN : Fld := ⟨.SYS_PWRSTATE, 2, 2⟩
def SYS_PWRCMD_RUN : Fld := ⟨.SYS_PWRCMD, 0, 0⟩
def SYS_PWRCMD_STANDBY : Fld := ⟨.SYS_PWRCMD, 1, 1⟩
def SYS_PWRCMD_HOLD : Fld := ⟨.SYS_PWRCMD, 2, 2⟩
def SYS_PWRRES_RESULT : Fld := ⟨.SYS_PWRRES, 7, 0⟩
def SYS_PWRRES_DONE : Fld := ⟨.SYS_PWRRES, 8, 8⟩
def SYS_PWRRES_BUSY : Fld := ⟨.SYS_PWRRES, 9, 9⟩
def SYS_RUNMARK_LO_LINE_L : Fld := ⟨.SYS_RUNMARK_LO, 31, 0⟩
def SYS_RUNMARK_HI_LINE_H : Fld := ⟨.SYS_RUNMARK_HI, 15, 0⟩
def SYS_T0_LO_LINE_L : Fld := ⟨.SYS_T0_LO, 31, 0⟩
def SYS_T0_HI_LINE_H : Fld := ⟨.SYS_T0_HI, 15, 0⟩
def SYS_HOLDLINE_LO_LINE_L : Fld := ⟨.SYS_HOLDLINE_LO, 31, 0⟩
def SYS_HOLDLINE_HI_LINE_H : Fld := ⟨.SYS_HOLDLINE_HI, 15, 0⟩
def SYS_WAKESRC_CH : Fld := ⟨.SYS_WAKESRC, 5, 0⟩
def SYS_WAKECNT_COUNT : Fld := ⟨.SYS_WAKECNT, 31, 0⟩
def SYS_PROFILE_NUM : Fld := ⟨.SYS_PROFILE, 2, 0⟩
def SYS_PROFILEC_NUMC : Fld := ⟨.SYS_PROFILEC, 31, 0⟩
def SYS_STAT_INTEGRITY : Flag := ⟨.SYS_STAT, 0, .SYS_INT_CNT⟩
def SYS_STAT_RUN_REFUSED : Flag := ⟨.SYS_STAT, 1, .SYS_RREF_CNT⟩
def SYS_BOOT_STAGE : Fld := ⟨.SYS_BOOT, 3, 0⟩
def SYS_BOOT_DONE : Fld := ⟨.SYS_BOOT, 4, 4⟩
def SYS_BOOT_HALTED : Fld := ⟨.SYS_BOOT, 5, 5⟩
def SYS_BOOT_RESULT : Fld := ⟨.SYS_BOOT, 15, 8⟩
def SYS_PSTAT_VALID : Fld := ⟨.SYS_PSTAT, 0, 0⟩
def SYS_PSTAT_BUSY : Fld := ⟨.SYS_PSTAT, 1, 1⟩
def SYS_PSTAT_PEND : Fld := ⟨.SYS_PSTAT, 2, 2⟩
def SYS_PSTAT_PROF : Fld := ⟨.SYS_PSTAT, 5, 3⟩
def SYS_PSTAT_RESULT : Fld := ⟨.SYS_PSTAT, 15, 8⟩
def SYS_PSTAT_CHK : Fld := ⟨.SYS_PSTAT, 18, 16⟩
def SYS_PSTAT_ENG : Fld := ⟨.SYS_PSTAT, 23, 19⟩
def SYS_PSTAT_SKIP : Fld := ⟨.SYS_PSTAT, 31, 24⟩
def SYS_PCFG_STB_EN : Fld := ⟨.SYS_PCFG, 0, 0⟩
def SYS_SPLICE_LO_LINE_L : Fld := ⟨.SYS_SPLICE_LO, 31, 0⟩
def SYS_SPLICE_HI_LINE_H : Fld := ⟨.SYS_SPLICE_HI, 15, 0⟩

/-! ### SEC registers (20_security_power.md) -/
def SEC_LC_STATE : Fld := ⟨.SEC_LC, 1, 0⟩
def SEC_LC_LC_INVALID : Fld := ⟨.SEC_LC, 2, 2⟩
def SEC_DEVID_LO_DEVID : Fld := ⟨.SEC_DEVID_LO, 31, 0⟩
def SEC_DEVID_HI_DEVID : Fld := ⟨.SEC_DEVID_HI, 31, 0⟩
def SEC_LCCMD_TARGET : Fld := ⟨.SEC_LCCMD, 1, 0⟩
def SEC_LCCMD_GO : Fld := ⟨.SEC_LCCMD, 31, 31⟩
def SEC_LCRES_RESULT : Fld := ⟨.SEC_LCRES, 7, 0⟩
def SEC_LCRES_DONE : Fld := ⟨.SEC_LCRES, 8, 8⟩
def SEC_LCRES_BUSY : Fld := ⟨.SEC_LCRES, 9, 9⟩
def SEC_DBG_LEVEL : Fld := ⟨.SEC_DBG, 1, 0⟩
def SEC_DBG_HIGH : Fld := ⟨.SEC_DBG, 3, 2⟩
def SEC_DBG_REQ : Fld := ⟨.SEC_DBG, 5, 4⟩
def SEC_DBG_VERIFY : Fld := ⟨.SEC_DBG, 8, 8⟩
def SEC_DBG_CLOSE : Fld := ⟨.SEC_DBG, 9, 9⟩
def SEC_DBG_FAILS : Fld := ⟨.SEC_DBG, 23, 16⟩
def SEC_DBGRES_RESULT : Fld := ⟨.SEC_DBGRES, 7, 0⟩
def SEC_DBGRES_DONE : Fld := ⟨.SEC_DBGRES, 8, 8⟩
def SEC_DBGRES_BUSY : Fld := ⟨.SEC_DBGRES, 9, 9⟩
def SEC_CHALCMD_NEW : Fld := ⟨.SEC_CHALCMD, 0, 0⟩
def SEC_STAT_INTEGRITY : Flag := ⟨.SEC_STAT, 0, .SEC_INT_CNT⟩
def SEC_STAT_DENIED : Flag := ⟨.SEC_STAT, 1, .SEC_DEN_CNT⟩
def SEC_STAT_AUTH_FAIL : Flag := ⟨.SEC_STAT, 2, .SEC_AUTH_CNT⟩
def SEC_STAT_DBG_OPEN : Flag := ⟨.SEC_STAT, 3, .SEC_DBG_CNT⟩
def SEC_INTSRC_SRC : Fld := ⟨.SEC_INTSRC, 2, 0⟩
def SEC_INTSRC_DETAIL : Fld := ⟨.SEC_INTSRC, 15, 8⟩
def SEC_CHAL_DATA : Fld := ⟨.SEC_CHAL, 31, 0⟩
def SEC_RESP_DATA : Fld := ⟨.SEC_RESP, 31, 0⟩
def SEC_KEYCMD_SLOT : Fld := ⟨.SEC_KEYCMD, 2, 0⟩
def SEC_KEYCMD_PROG : Fld := ⟨.SEC_KEYCMD, 8, 8⟩
def SEC_KEYCMD_REVOKE : Fld := ⟨.SEC_KEYCMD, 9, 9⟩
def SEC_KEYCMD_PROGD : Fld := ⟨.SEC_KEYCMD, 19, 16⟩
def SEC_KEYCMD_REVD : Fld := ⟨.SEC_KEYCMD, 23, 20⟩
def SEC_KBUF_DATA : Fld := ⟨.SEC_KBUF, 31, 0⟩
def SEC_KPOL_POL : Fld := ⟨.SEC_KPOL, 7, 0⟩
def SEC_KPOLC_POLC : Fld := ⟨.SEC_KPOLC, 31, 0⟩
def SEC_MRX_REG : Fld := ⟨.SEC_MRX, 2, 0⟩
def SEC_MRX_GO : Fld := ⟨.SEC_MRX, 31, 31⟩
def SEC_MRXBUF_DATA : Fld := ⟨.SEC_MRXBUF, 31, 0⟩
def SEC_QCMD_GO : Fld := ⟨.SEC_QCMD, 0, 0⟩
def SEC_QRES_RESULT : Fld := ⟨.SEC_QRES, 7, 0⟩
def SEC_QRES_DONE : Fld := ⟨.SEC_QRES, 8, 8⟩
def SEC_QRES_BUSY : Fld := ⟨.SEC_QRES, 9, 9⟩
def SEC_QNONCE_DATA : Fld := ⟨.SEC_QNONCE, 31, 0⟩
def SEC_IDPUB_DATA : Fld := ⟨.SEC_IDPUB, 31, 0⟩
def SEC_MR_DATA : Fld := ⟨.SEC_MR, 31, 0⟩
def SEC_QOUT_DATA : Fld := ⟨.SEC_QOUT, 31, 0⟩
def SEC_DLOG_A_OFS : Fld := ⟨.SEC_DLOG_A, 31, 0⟩
def SEC_DLOG_B_MASTER : Fld := ⟨.SEC_DLOG_B, 5, 0⟩
def SEC_DLOG_B_KIND : Fld := ⟨.SEC_DLOG_B, 9, 8⟩
def SEC_DLOG_CNT_COUNT : Fld := ⟨.SEC_DLOG_CNT, 31, 0⟩
def SEC_AT_VALUE : Fld := ⟨.SEC_AT, 31, 0⟩
def SEC_ATC_VALUEC : Fld := ⟨.SEC_ATC, 31, 0⟩

/-! ### TICK registers (02_line_tick.md) -/
def TICK_CTL_SRC : Fld := ⟨.TICK_CTL, 1, 0⟩
def TICK_CTL_EN : Fld := ⟨.TICK_CTL, 2, 2⟩
def TICK_DEPTH_D : Fld := ⟨.TICK_DEPTH, 7, 0⟩
def TICK_NUM_NUM : Fld := ⟨.TICK_NUM, 31, 0⟩
def TICK_DEN_DEN : Fld := ⟨.TICK_DEN, 31, 0⟩
def TICK_FIXPER_PER : Fld := ⟨.TICK_FIXPER, 23, 0⟩
def TICK_DIVN_N : Fld := ⟨.TICK_DIVN, 15, 0⟩
def TICK_FMAX_FMAX : Fld := ⟨.TICK_FMAX, 19, 0⟩
def TICK_POS_LO_FRAC : Fld := ⟨.TICK_POS_LO, 15, 0⟩
def TICK_POS_LO_LINE_L : Fld := ⟨.TICK_POS_LO, 31, 16⟩
def TICK_POS_HI_LINE_H : Fld := ⟨.TICK_POS_HI, 31, 0⟩
def TICK_BEHIND_LINES : Fld := ⟨.TICK_BEHIND, 31, 0⟩
def TICK_SPEED_SPEED : Fld := ⟨.TICK_SPEED, 31, 0⟩
def TICK_PAGE_LO_PAGE : Fld := ⟨.TICK_PAGE_LO, 31, 0⟩
def TICK_PAGE_HI_PAGE : Fld := ⟨.TICK_PAGE_HI, 31, 0⟩
def TICK_HOLDADV_LINES : Fld := ⟨.TICK_HOLDADV, 31, 0⟩
def TICK_STAT_OVERSPEED : Flag := ⟨.TICK_STAT, 0, .TICK_OVS_CNT⟩
def TICK_STAT_SLACK_LOST : Flag := ⟨.TICK_STAT, 1, .TICK_LOST_CNT⟩
def TICK_STAT_REVERSE : Flag := ⟨.TICK_STAT, 2, .TICK_REV_CNT⟩
def TICK_STAT_CFG_ERR : Flag := ⟨.TICK_STAT, 3, .TICK_CFG_CNT⟩
def TICK_STAT_OVS_NOW : Fld := ⟨.TICK_STAT, 8, 8⟩
def TICK_SLACK_OCC : Fld := ⟨.TICK_SLACK, 3, 0⟩
def TICK_SLACK_PEAK : Fld := ⟨.TICK_SLACK, 11, 8⟩
def TICK_SLACK_LOST : Fld := ⟨.TICK_SLACK, 31, 16⟩
def TICK_TOFF_F : Fld := ⟨.TICK_TOFF, 15, 0⟩
def TICK_TOFF_I : Fld := ⟨.TICK_TOFF, 31, 16⟩
def TICK_TOFFC_TOFFC : Fld := ⟨.TICK_TOFFC, 31, 0⟩
def TICK_HIST_DATA : Fld := ⟨.TICK_HIST, 31, 0⟩

/-! ### TIME registers (02_line_tick.md) -/
def TIME_SEC_LO_SEC_L : Fld := ⟨.TIME_SEC_LO, 31, 0⟩
def TIME_SEC_HI_SEC_H : Fld := ⟨.TIME_SEC_HI, 15, 0⟩
def TIME_NS_NS : Fld := ⟨.TIME_NS, 29, 0⟩
def TIME_OFS_OFS : Fld := ⟨.TIME_OFS, 31, 0⟩
def TIME_GAIN_KP : Fld := ⟨.TIME_GAIN, 15, 0⟩
def TIME_GAIN_KI : Fld := ⟨.TIME_GAIN, 31, 16⟩
def TIME_FREQ_FREQ : Fld := ⟨.TIME_FREQ, 31, 0⟩
def TIME_LIM_SLEW : Fld := ⟨.TIME_LIM, 15, 0⟩
def TIME_LIM_LOCK_WIN : Fld := ⟨.TIME_LIM, 31, 16⟩
def TIME_STEPTHR_THR : Fld := ⟨.TIME_STEPTHR, 31, 0⟩
def TIME_SET_SEC_LO_SEC_L : Fld := ⟨.TIME_SET_SEC_LO, 31, 0⟩
def TIME_SET_SEC_HI_SEC_H : Fld := ⟨.TIME_SET_SEC_HI, 15, 0⟩
def TIME_SET_NS_NS : Fld := ⟨.TIME_SET_NS, 29, 0⟩
def TIME_STAT_X_LOCKED : Fld := ⟨.TIME_STAT_X, 0, 0⟩
def TIME_STAT_X_STEPPED : Flag := ⟨.TIME_STAT_X, 8, .TIME_STEP_CNT⟩
def TIME_STAT_X_STEP_HELD : Flag := ⟨.TIME_STAT_X, 9, .TIME_HELD_CNT⟩
def TIME_STAT_X_SET_REFUSED : Flag := ⟨.TIME_STAT_X, 10, .TIME_SETREF_CNT⟩
def TIME_CTL_PRI : Fld := ⟨.TIME_CTL, 0, 0⟩
def TIME_SWSTEP_STEP : Fld := ⟨.TIME_SWSTEP, 31, 0⟩
def TIME_STAT_SW_REFUSED : Flag := ⟨.TIME_STAT, 0, .TIME_SWREF_CNT⟩
def TIME_DEV_SEC_LO_SEC_L : Fld := ⟨.TIME_DEV_SEC_LO, 31, 0⟩
def TIME_DEV_SEC_HI_SEC_H : Fld := ⟨.TIME_DEV_SEC_HI, 15, 0⟩
def TIME_DEV_NS_NS : Fld := ⟨.TIME_DEV_NS, 29, 0⟩

/-! ### ENC registers (03_web_encoders.md) -/
def ENC_CTL_MODE : Fld := ⟨.ENC_CTL, 1, 0⟩
def ENC_CTL_DECODE : Fld := ⟨.ENC_CTL, 3, 2⟩
def ENC_CTL_INV : Fld := ⟨.ENC_CTL, 4, 4⟩
def ENC_CTL_IDX_EN : Fld := ⟨.ENC_CTL, 5, 5⟩
def ENC_CTL_INDEX_CORR : Fld := ⟨.ENC_CTL, 6, 6⟩
def ENC_CTL_SERIAL : Fld := ⟨.ENC_CTL, 7, 7⟩
def ENC_OBS_BW : Fld := ⟨.ENC_OBS, 15, 0⟩
def ENC_OBS_UPD : Fld := ⟨.ENC_OBS, 27, 16⟩
def ENC_STILL_T_STILL : Fld := ⟨.ENC_STILL, 19, 0⟩
def ENC_INTERP_INTERP : Fld := ⟨.ENC_INTERP, 12, 0⟩
def ENC_AMPWIN_AMP_LO : Fld := ⟨.ENC_AMPWIN, 15, 0⟩
def ENC_AMPWIN_AMP_HI : Fld := ⟨.ENC_AMPWIN, 31, 16⟩
def ENC_SCOFS_OFS_S : Fld := ⟨.ENC_SCOFS, 15, 0⟩
def ENC_SCOFS_OFS_C : Fld := ⟨.ENC_SCOFS, 31, 16⟩
def ENC_SCGAIN_GAIN_C : Fld := ⟨.ENC_SCGAIN, 15, 0⟩
def ENC_SER_BITS : Fld := ⟨.ENC_SER, 5, 0⟩
def ENC_SER_CLKDIV : Fld := ⟨.ENC_SER, 15, 8⟩
def ENC_SER_GRAY : Fld := ⟨.ENC_SER, 16, 16⟩
def ENC_SER_PAR : Fld := ⟨.ENC_SER, 17, 17⟩
def ENC_SER_FAILLIM : Fld := ⟨.ENC_SER, 27, 24⟩
def ENC_IDXPER_IDXPER : Fld := ⟨.ENC_IDXPER, 31, 0⟩
def ENC_POS_LO_FRAC : Fld := ⟨.ENC_POS_LO, 15, 0⟩
def ENC_POS_LO_CNT_L : Fld := ⟨.ENC_POS_LO, 31, 16⟩
def ENC_POS_HI_CNT_H : Fld := ⟨.ENC_POS_HI, 31, 0⟩
def ENC_SPEED_SPEED : Fld := ⟨.ENC_SPEED, 31, 0⟩
def ENC_ACC_ACC : Fld := ⟨.ENC_ACC, 31, 0⟩
def ENC_IDXDIFF_DIFF : Fld := ⟨.ENC_IDXDIFF, 31, 0⟩
def ENC_IPOS_IPOS : Fld := ⟨.ENC_IPOS, 31, 0⟩
def ENC_AMP_R2 : Fld := ⟨.ENC_AMP, 15, 0⟩
def ENC_STAT_AMPLITUDE : Flag := ⟨.ENC_STAT, 0, .ENC_AMP_CNT⟩
def ENC_STAT_INDEX_ERR : Flag := ⟨.ENC_STAT, 1, .ENC_IDX_CNT⟩
def ENC_STAT_PHASE_JUMP : Flag := ⟨.ENC_STAT, 2, .ENC_PJ_CNT⟩
def ENC_STAT_CRC_ERR : Flag := ⟨.ENC_STAT, 3, .ENC_CRC_CNT⟩
def ENC_STAT_SIGNAL_LOST : Flag := ⟨.ENC_STAT, 4, .ENC_LOST_CNT⟩
def ENC_STAT_CFG_ERR : Flag := ⟨.ENC_STAT, 5, .ENC_CFG_CNT⟩
def ENC_STAT_BISS_ERR : Flag := ⟨.ENC_STAT, 6, .ENC_BERR_CNT⟩
def ENC_STAT_STILL : Fld := ⟨.ENC_STAT, 8, 8⟩
def ENC_STAT_AMP_NOW : Fld := ⟨.ENC_STAT, 9, 9⟩
def ENC_STAT_DIR : Fld := ⟨.ENC_STAT, 10, 10⟩
def ENC_PT_CTL_EN : Fld := ⟨.ENC_PT_CTL, 0, 0⟩
def ENC_PT_CTL_MINSEP : Fld := ⟨.ENC_PT_CTL, 15, 8⟩
def ENC_PT_CTL_DIV : Fld := ⟨.ENC_PT_CTL, 31, 16⟩
def ENC_PT_ZPER_ZPER : Fld := ⟨.ENC_PT_ZPER, 31, 0⟩
def ENC_PT_STAT_PT_OVF : Flag := ⟨.ENC_PT_STAT, 0, .ENC_PT_OVF_CNT⟩
def ENC_PT_STAT_PT_BACKLOG : Fld := ⟨.ENC_PT_STAT, 31, 16⟩

/-! ### LANE registers (04_line_links.md) -/
def LANE_CTL_EN : Fld := ⟨.LANE_CTL, 0, 0⟩
def LANE_CTL_AUTO_RT : Fld := ⟨.LANE_CTL, 1, 1⟩
def LANE_CTL_LPBK : Fld := ⟨.LANE_CTL, 2, 2⟩
def LANE_CTL_TX_INV : Fld := ⟨.LANE_CTL, 3, 3⟩
def LANE_CTL_RX_INV : Fld := ⟨.LANE_CTL, 4, 4⟩
def LANE_CTL_TXEQ : Fld := ⟨.LANE_CTL, 7, 5⟩
def LANE_CTL_PEAK : Fld := ⟨.LANE_CTL, 12, 8⟩
def LANE_CTL_RETRAIN : Fld := ⟨.LANE_CTL, 13, 13⟩
def LANE_RT_LOCK_TO : Fld := ⟨.LANE_RT, 7, 0⟩
def LANE_RT_HMIN : Fld := ⟨.LANE_RT, 13, 8⟩
def LANE_RT_RETRY : Fld := ⟨.LANE_RT, 31, 16⟩
def LANE_CSLIM_CSYM_LIM : Fld := ⟨.LANE_CSLIM, 31, 0⟩
def LANE_STATE_STATE : Fld := ⟨.LANE_STATE, 2, 0⟩
def LANE_STATE_PEAK_CUR : Fld := ⟨.LANE_STATE, 12, 8⟩
def LANE_STATE_HEIGHT : Fld := ⟨.LANE_STATE, 21, 16⟩
def LANE_STATE_EB_FILL : Fld := ⟨.LANE_STATE, 29, 24⟩
def LANE_STAT_LOCK_LOST : Flag := ⟨.LANE_STAT, 0, .LANE_LL_CNT⟩
def LANE_STAT_FAILED : Flag := ⟨.LANE_STAT, 1, .LANE_FL_CNT⟩
def LANE_STAT_UCW : Flag := ⟨.LANE_STAT, 2, .LANE_UCW_CNT⟩
def LANE_STAT_EB_ERR : Flag := ⟨.LANE_STAT, 3, .LANE_EB_CNT⟩
def LANE_STAT_FCNT_ERR : Flag := ⟨.LANE_STAT, 4, .LANE_FC_CNT⟩
def LANE_STAT_CTL_RSVD : Flag := ⟨.LANE_STAT, 5, .LANE_CR_CNT⟩
def LANE_STAT_RT_DONE : Flag := ⟨.LANE_STAT, 6, .LANE_RT_CNT⟩
def LANE_CW_COUNT : Fld := ⟨.LANE_CW, 31, 0⟩
def LANE_CSYM_COUNT : Fld := ⟨.LANE_CSYM, 31, 0⟩
def LANE_UCWTOT_COUNT : Fld := ⟨.LANE_UCWTOT, 31, 0⟩
def LANE_PKTDROP_COUNT : Fld := ⟨.LANE_PKTDROP, 31, 0⟩
def LANE_EBCNT_INS : Fld := ⟨.LANE_EBCNT, 15, 0⟩
def LANE_EBCNT_DEL : Fld := ⟨.LANE_EBCNT, 31, 16⟩
def LANE_ESCAN_CTL_PHASE : Fld := ⟨.LANE_ESCAN_CTL, 6, 0⟩
def LANE_ESCAN_CTL_VOLT : Fld := ⟨.LANE_ESCAN_CTL, 14, 8⟩
def LANE_ESCAN_CTL_EYE : Fld := ⟨.LANE_ESCAN_CTL, 17, 16⟩
def LANE_ESCAN_CTL_DWELL : Fld := ⟨.LANE_ESCAN_CTL, 23, 20⟩
def LANE_ESCAN_CTL_START : Fld := ⟨.LANE_ESCAN_CTL, 31, 31⟩
def LANE_ESCAN_RES_DONE : Fld := ⟨.LANE_ESCAN_RES, 0, 0⟩
def LANE_ESCAN_RES_BUSY : Fld := ⟨.LANE_ESCAN_RES, 1, 1⟩
def LANE_ESCAN_ERR_ERR : Fld := ⟨.LANE_ESCAN_ERR, 31, 0⟩

/-! ### CAM registers (04_line_links.md) -/
def CAM_CTL_EN : Fld := ⟨.CAM_CTL, 0, 0⟩
def CAM_CTL_LANES : Fld := ⟨.CAM_CTL, 2, 1⟩
def CAM_CTL_WIDTH : Fld := ⟨.CAM_CTL, 4, 3⟩
def CAM_CTL_CH : Fld := ⟨.CAM_CTL, 7, 5⟩
def CAM_CTL_FB_EN : Fld := ⟨.CAM_CTL, 8, 8⟩
def CAM_CTL_EXPSET : Fld := ⟨.CAM_CTL, 15, 12⟩
def CAM_PIX_PIX : Fld := ⟨.CAM_PIX, 14, 0⟩
def CAM_STATE_STATE : Fld := ⟨.CAM_STATE, 1, 0⟩
def CAM_STATE_CUR_WIDTH : Fld := ⟨.CAM_STATE, 3, 2⟩
def CAM_STATE_CUR_LANES : Fld := ⟨.CAM_STATE, 5, 4⟩
def CAM_STATE_CAUSE : Fld := ⟨.CAM_STATE, 10, 8⟩
def CAM_SFMAX_SFMAX : Fld := ⟨.CAM_SFMAX, 19, 0⟩
def CAM_STAT_DEGRADED : Flag := ⟨.CAM_STAT, 0, .CAM_DEG_CNT⟩
def CAM_STAT_STOPPED : Flag := ⟨.CAM_STAT, 1, .CAM_STOP_CNT⟩
def CAM_STAT_LINE_LOST : Flag := ⟨.CAM_STAT, 2, .CAM_LL_CNT⟩
def CAM_STAT_STRAY : Flag := ⟨.CAM_STAT, 3, .CAM_STRAY_CNT⟩
def CAM_STAT_FMT_TO : Flag := ⟨.CAM_STAT, 4, .CAM_FMTTO_CNT⟩
def CAM_STAT_REG_TO : Flag := ⟨.CAM_STAT, 5, .CAM_REGTO_CNT⟩
def CAM_STAT_EXPO_OVR : Flag := ⟨.CAM_STAT, 6, .CAM_EXPO_CNT⟩
def CAM_STAT_CFG_ERR : Flag := ⟨.CAM_STAT, 7, .CAM_CFG_CNT⟩
def CAM_LOST_LINES : Fld := ⟨.CAM_LOST, 31, 0⟩
def CAM_REGCMD_ADDR : Fld := ⟨.CAM_REGCMD, 23, 0⟩
def CAM_REGCMD_WRITE : Fld := ⟨.CAM_REGCMD, 24, 24⟩
def CAM_REGCMD_GO : Fld := ⟨.CAM_REGCMD, 31, 31⟩
def CAM_REGWD_DATA : Fld := ⟨.CAM_REGWD, 31, 0⟩
def CAM_REGRD_DATA : Fld := ⟨.CAM_REGRD, 31, 0⟩
def CAM_REGRES_RESULT : Fld := ⟨.CAM_REGRES, 7, 0⟩
def CAM_REGRES_DONE : Fld := ⟨.CAM_REGRES, 8, 8⟩
def CAM_REGRES_BUSY : Fld := ⟨.CAM_REGRES, 9, 9⟩

/-! ### IU registers (05_ingest_top_note.md) -/
def IU_CTL_EN : Fld := ⟨.IU_CTL, 0, 0⟩
def IU_CTL_LAMP_EN : Fld := ⟨.IU_CTL, 1, 1⟩
def IU_CTL_SATMAX : Fld := ⟨.IU_CTL, 2, 2⟩
def IU_CTL_DPR_EN : Fld := ⟨.IU_CTL, 3, 3⟩
def IU_CTL_LAMP_SEL : Fld := ⟨.IU_CTL, 6, 4⟩
def IU_TBASE_OFS : Fld := ⟨.IU_TBASE, 23, 0⟩
def IU_TNEW_OFS : Fld := ⟨.IU_TNEW, 23, 0⟩
def IU_TLINE_LO_LINE_L : Fld := ⟨.IU_TLINE_LO, 31, 0⟩
def IU_TLINE_HI_LINE_H : Fld := ⟨.IU_TLINE_HI, 15, 0⟩
def IU_TCMD_COMMIT : Fld := ⟨.IU_TCMD, 0, 0⟩
def IU_TRES_RESULT : Fld := ⟨.IU_TRES, 7, 0⟩
def IU_TRES_DONE : Fld := ⟨.IU_TRES, 8, 8⟩
def IU_TRES_BUSY : Fld := ⟨.IU_TRES, 9, 9⟩
def IU_TRES_PEND : Fld := ⟨.IU_TRES, 10, 10⟩
def IU_TRES_BADPIX : Fld := ⟨.IU_TRES, 29, 16⟩
def IU_STWIN_LO : Fld := ⟨.IU_STWIN, 13, 0⟩
def IU_STWIN_HI : Fld := ⟨.IU_STWIN, 29, 16⟩
def IU_SBLK_K : Fld := ⟨.IU_SBLK, 4, 0⟩
def IU_SBLK_SINT : Fld := ⟨.IU_SBLK, 8, 8⟩
def IU_MEAN_RG_CH0 : Fld := ⟨.IU_MEAN_RG, 15, 0⟩
def IU_MEAN_RG_CH1 : Fld := ⟨.IU_MEAN_RG, 31, 16⟩
def IU_MEAN_BN_CH2 : Fld := ⟨.IU_MEAN_BN, 15, 0⟩
def IU_MEAN_BN_CH3 : Fld := ⟨.IU_MEAN_BN, 31, 16⟩
def IU_SATN_SATN : Fld := ⟨.IU_SATN, 31, 0⟩
def IU_DREF_RG_CH0 : Fld := ⟨.IU_DREF_RG, 15, 0⟩
def IU_DREF_RG_CH1 : Fld := ⟨.IU_DREF_RG, 31, 16⟩
def IU_DREF_BN_CH2 : Fld := ⟨.IU_DREF_BN, 15, 0⟩
def IU_DREF_BN_CH3 : Fld := ⟨.IU_DREF_BN, 31, 16⟩
def IU_DTOL_TOL : Fld := ⟨.IU_DTOL, 15, 0⟩
def IU_SRIDX_IDX : Fld := ⟨.IU_SRIDX, 7, 0⟩
def IU_STAT_DRIFT : Flag := ⟨.IU_STAT, 0, .IU_DRIFT_CNT⟩
def IU_STAT_LAMP_HELD : Flag := ⟨.IU_STAT, 1, .IU_HELD_CNT⟩
def IU_STAT_LAMP_RANGE : Flag := ⟨.IU_STAT, 2, .IU_RANGE_CNT⟩
def IU_STAT_TABLE_ERR : Flag := ⟨.IU_STAT, 3, .IU_TERR_CNT⟩
def IU_STAT_ACC_SKIP : Flag := ⟨.IU_STAT, 4, .IU_SKIP_CNT⟩
def IU_STAT_CFG_ERR : Flag := ⟨.IU_STAT, 5, .IU_CFG_CNT⟩
def IU_ACC_CTL_START : Fld := ⟨.IU_ACC_CTL, 0, 0⟩
def IU_ACC_CTL_STAGE : Fld := ⟨.IU_ACC_CTL, 2, 1⟩
def IU_ACC_CTL_N : Fld := ⟨.IU_ACC_CTL, 31, 16⟩
def IU_ACC_LO_ADDR_L : Fld := ⟨.IU_ACC_LO, 31, 0⟩
def IU_ACC_HI_ADDR_H : Fld := ⟨.IU_ACC_HI, 7, 0⟩
def IU_ACC_STAT_DONE : Fld := ⟨.IU_ACC_STAT, 0, 0⟩
def IU_ACC_STAT_BUSY : Fld := ⟨.IU_ACC_STAT, 1, 1⟩
def IU_ACC_STAT_COUNT : Fld := ⟨.IU_ACC_STAT, 31, 16⟩
def IU_LREF_LREF : Fld := ⟨.IU_LREF, 15, 0⟩
def IU_LLIM_GMIN : Fld := ⟨.IU_LLIM, 15, 0⟩
def IU_LLIM_GMAX : Fld := ⟨.IU_LLIM, 31, 16⟩
def IU_LHBASE_OFS : Fld := ⟨.IU_LHBASE, 23, 0⟩
def IU_SRBASE_OFS : Fld := ⟨.IU_SRBASE, 23, 0⟩

/-! ### SE registers (06_stripe_engine.md) -/
def SE_CTL_GO : Fld := ⟨.SE_CTL, 0, 0⟩
def SE_CTL_RESTART : Fld := ⟨.SE_CTL, 1, 1⟩
def SE_IMG_LO_ADDR_L : Fld := ⟨.SE_IMG_LO, 31, 0⟩
def SE_IMG_HI_ADDR_H : Fld := ⟨.SE_IMG_HI, 7, 0⟩
def SE_LDCMD_LOAD : Fld := ⟨.SE_LDCMD, 0, 0⟩
def SE_LDCMD_SPLICE : Fld := ⟨.SE_LDCMD, 1, 1⟩
def SE_LDCMD_BASE : Fld := ⟨.SE_LDCMD, 26, 16⟩
def SE_LDRES_RESULT : Fld := ⟨.SE_LDRES, 7, 0⟩
def SE_LDRES_DONE : Fld := ⟨.SE_LDRES, 8, 8⟩
def SE_LDRES_BUSY : Fld := ⟨.SE_LDRES, 9, 9⟩
def SE_LDRES_STAGED : Fld := ⟨.SE_LDRES, 10, 10⟩
def SE_LDRES_STEP : Fld := ⟨.SE_LDRES, 14, 12⟩
def SE_STATE_STATE : Fld := ⟨.SE_STATE, 2, 0⟩
def SE_STATE_LOADED : Fld := ⟨.SE_STATE, 3, 3⟩
def SE_STATE_FCAUSE : Fld := ⟨.SE_STATE, 5, 4⟩
def SE_STATE_ENTRY : Fld := ⟨.SE_STATE, 18, 8⟩
def SE_BUDGET_LIMIT : Fld := ⟨.SE_BUDGET, 23, 0⟩
def SE_COST_CYCLES : Fld := ⟨.SE_COST, 23, 0⟩
def SE_BANK_CYCLES : Fld := ⟨.SE_BANK, 23, 0⟩
def SE_FMAXC_FMAX : Fld := ⟨.SE_FMAXC, 19, 0⟩
def SE_RUNCYC_CYCLES : Fld := ⟨.SE_RUNCYC, 23, 0⟩
def SE_RUNPEAK_CYCLES : Fld := ⟨.SE_RUNPEAK, 23, 0⟩
def SE_LINE_LO_LINE_L : Fld := ⟨.SE_LINE_LO, 31, 0⟩
def SE_LINE_HI_LINE_H : Fld := ⟨.SE_LINE_HI, 15, 0⟩
def SE_QPEAK_PEAK : Fld := ⟨.SE_QPEAK, 6, 0⟩
def SE_STRIPE_START : Fld := ⟨.SE_STRIPE, 17, 0⟩
def SE_STRIPE_WIDTH : Fld := ⟨.SE_STRIPE, 31, 18⟩
def SE_STAT_FAULT : Flag := ⟨.SE_STAT, 0, .SE_FAULT_CNT⟩
def SE_STAT_BLIND_RUN : Flag := ⟨.SE_STAT, 1, .SE_BLIND_CNT⟩
def SE_STAT_WCOLL : Flag := ⟨.SE_STAT, 2, .SE_WCOLL_CNT⟩
def SE_STAT_STC_ERR : Flag := ⟨.SE_STAT, 3, .SE_STCE_CNT⟩
def SE_STAT_CFG_ERR : Flag := ⟨.SE_STAT, 4, .SE_CFG_CNT⟩
def SE_STAT_LOAD_FAIL : Flag := ⟨.SE_STAT, 5, .SE_LDF_CNT⟩
def SE_SBUDGET_SLIMIT : Fld := ⟨.SE_SBUDGET, 23, 0⟩
def SE_RING_A_BASE : Fld := ⟨.SE_RING_A, 21, 0⟩
def SE_RING_A_KIND : Fld := ⟨.SE_RING_A, 26, 24⟩
def SE_RING_A_VALID : Fld := ⟨.SE_RING_A, 31, 31⟩
def SE_RING_B_WIDTH : Fld := ⟨.SE_RING_B, 14, 0⟩
def SE_RING_B_DEPTH : Fld := ⟨.SE_RING_B, 23, 16⟩
def SE_RING_B_ELEM : Fld := ⟨.SE_RING_B, 24, 24⟩
def SE_RING_C_HDR : Fld := ⟨.SE_RING_C, 21, 0⟩
def SE_RING_C_H : Fld := ⟨.SE_RING_C, 27, 24⟩
def SE_RING_C_REQ : Fld := ⟨.SE_RING_C, 31, 31⟩
def SE_RING_D_OUTLO : Fld := ⟨.SE_RING_D, 13, 0⟩
def SE_RING_D_OUTHI : Fld := ⟨.SE_RING_D, 29, 16⟩

/-! ### ACCORD registers (08_accord_stitching.md) -/
def ACCORD_CTL_EN : Fld := ⟨.ACCORD_CTL, 0, 0⟩
def ACCORD_RES_RESULT : Fld := ⟨.ACCORD_RES, 7, 0⟩
def ACCORD_RES_CHK : Fld := ⟨.ACCORD_RES, 10, 8⟩
def ACCORD_RES_ENTRY : Fld := ⟨.ACCORD_RES, 21, 16⟩
def ACCORD_OUTW_OUTW : Fld := ⟨.ACCORD_OUTW, 17, 0⟩
def ACCORD_X0_X0 : Fld := ⟨.ACCORD_X0, 31, 0⟩
def ACCORD_XPITCH_XPITCH : Fld := ⟨.ACCORD_XPITCH, 31, 0⟩
def ACCORD_MCHK_CMD_ENG : Fld := ⟨.ACCORD_MCHK_CMD, 3, 0⟩
def ACCORD_MCHK_CMD_GO : Fld := ⟨.ACCORD_MCHK_CMD, 31, 31⟩
def ACCORD_MCHK_SET_SLOTS : Fld := ⟨.ACCORD_MCHK_SET, 31, 0⟩
def ACCORD_MRES_RESULT : Fld := ⟨.ACCORD_MRES, 7, 0⟩
def ACCORD_MRES_DONE : Fld := ⟨.ACCORD_MRES, 8, 8⟩
def ACCORD_MRES_BUSY : Fld := ⟨.ACCORD_MRES, 9, 9⟩
def ACCORD_MRES_CHK : Fld := ⟨.ACCORD_MRES, 12, 10⟩
def ACCORD_MRES_BADENT : Fld := ⟨.ACCORD_MRES, 29, 16⟩
def ACCORD_MRES_SLOT : Fld := ⟨.ACCORD_MRES, 31, 30⟩
def ACCORD_STAT_ROUTE_ERR : Flag := ⟨.ACCORD_STAT, 0, .ACCORD_RERR_CNT⟩
def ACCORD_STAT_LATE : Flag := ⟨.ACCORD_STAT, 1, .ACCORD_LATE_CNT⟩
def ACCORD_STAT_CFG_ERR : Flag := ⟨.ACCORD_STAT, 2, .ACCORD_CFG_CNT⟩
def ACCORD_RTA_V : Fld := ⟨.ACCORD_RTA, 0, 0⟩
def ACCORD_RTA_ENG : Fld := ⟨.ACCORD_RTA, 7, 4⟩
def ACCORD_RTA_RING : Fld := ⟨.ACCORD_RTA, 10, 8⟩
def ACCORD_RTA_CAM : Fld := ⟨.ACCORD_RTA, 15, 12⟩
def ACCORD_RTB_FIRST : Fld := ⟨.ACCORD_RTB, 13, 0⟩
def ACCORD_RTB_COUNT : Fld := ⟨.ACCORD_RTB, 30, 16⟩

/-! ### REF registers (09_reference_compare.md) -/
def REF_CTL_EN : Fld := ⟨.REF_CTL, 0, 0⟩
def REF_CTL_MODE : Fld := ⟨.REF_CTL, 2, 1⟩
def REF_CTL_PSRC : Fld := ⟨.REF_CTL, 4, 3⟩
def REF_CTL_RSH : Fld := ⟨.REF_CTL, 6, 5⟩
def REF_CTL_LEAD : Fld := ⟨.REF_CTL, 11, 8⟩
def REF_RES_RESULT : Fld := ⟨.REF_RES, 7, 0⟩
def REF_RES_ENG : Fld := ⟨.REF_RES, 11, 8⟩
def REF_RES_PLEN_ERR : Fld := ⟨.REF_RES, 12, 12⟩
def REF_CMD_DROP : Fld := ⟨.REF_CMD, 0, 0⟩
def REF_CMD_RESET : Fld := ⟨.REF_CMD, 1, 1⟩
def REF_RBASE_LO_ADDR_L : Fld := ⟨.REF_RBASE_LO, 31, 0⟩
def REF_RBASE_HI_ADDR_H : Fld := ⟨.REF_RBASE_HI, 7, 0⟩
def REF_RROWS_ROWS : Fld := ⟨.REF_RROWS, 31, 0⟩
def REF_RPITCH_PITCH : Fld := ⟨.REF_RPITCH, 23, 0⟩
def REF_RWIDTH_WIDTH : Fld := ⟨.REF_RWIDTH, 17, 0⟩
def REF_TILE_TILEW : Fld := ⟨.REF_TILE, 15, 0⟩
def REF_TILE_FEEDCR : Fld := ⟨.REF_TILE, 31, 16⟩
def REF_PMAX_PMAX : Fld := ⟨.REF_PMAX, 31, 0⟩
def REF_PLEN_PLEN : Fld := ⟨.REF_PLEN, 31, 0⟩
def REF_PLENF_PLENF : Fld := ⟨.REF_PLENF, 15, 0⟩
def REF_OVR_OVR : Fld := ⟨.REF_OVR, 15, 0⟩
def REF_PAGEOFS_PAGEOFS : Fld := ⟨.REF_PAGEOFS, 31, 0⟩
def REF_MARK_MARKOFS : Fld := ⟨.REF_MARK, 15, 0⟩
def REF_MARK_ENG : Fld := ⟨.REF_MARK, 19, 16⟩
def REF_MARK_MWIN : Fld := ⟨.REF_MARK, 31, 20⟩
def REF_FIRST_LO_LINE_L : Fld := ⟨.REF_FIRST_LO, 31, 0⟩
def REF_FIRST_HI_LINE_H : Fld := ⟨.REF_FIRST_HI, 15, 0⟩
def REF_TRKCFG_NREG : Fld := ⟨.REF_TRKCFG, 15, 0⟩
def REF_AB_ALPHA : Fld := ⟨.REF_AB, 15, 0⟩
def REF_AB_BETA : Fld := ⟨.REF_AB, 31, 16⟩
def REF_Q_QMIN : Fld := ⟨.REF_Q, 15, 0⟩
def REF_Q_QHI : Fld := ⟨.REF_Q, 31, 16⟩
def REF_LIM_MD : Fld := ⟨.REF_LIM, 7, 0⟩
def REF_LIM_CD : Fld := ⟨.REF_LIM, 15, 8⟩
def REF_LIM_SC : Fld := ⟨.REF_LIM, 31, 16⟩
def REF_PSTAT_QOCC : Fld := ⟨.REF_PSTAT, 6, 0⟩
def REF_PID_PID : Fld := ⟨.REF_PID, 31, 0⟩
def REF_STAT_PKT_ERR : Flag := ⟨.REF_STAT, 0, .REF_PKT_CNT⟩
def REF_STAT_DESC_ERR : Flag := ⟨.REF_STAT, 1, .REF_DESC_CNT⟩
def REF_STAT_TILE_ERR : Flag := ⟨.REF_STAT, 2, .REF_TILE_CNT⟩
def REF_STAT_FEED_LANE : Flag := ⟨.REF_STAT, 3, .REF_FEED_CNT⟩
def REF_STAT_PAGE_ERR : Flag := ⟨.REF_STAT, 4, .REF_PERR_CNT⟩
def REF_STAT_MARK_STRAY : Flag := ⟨.REF_STAT, 5, .REF_MSTRAY_CNT⟩
def REF_STAT_MARK_MISS : Flag := ⟨.REF_STAT, 6, .REF_MMISS_CNT⟩
def REF_STAT_PAGE_UNDER : Flag := ⟨.REF_STAT, 7, .REF_PUNDER_CNT⟩
def REF_STAT_PAGE_LATE : Flag := ⟨.REF_STAT, 8, .REF_PLATE_CNT⟩
def REF_STAT_REG_EDGE : Flag := ⟨.REF_STAT, 9, .REF_REDGE_CNT⟩
def REF_STAT_REG_LIMIT : Flag := ⟨.REF_STAT, 10, .REF_RLIM_CNT⟩
def REF_STAT_LOW_TEXTURE : Flag := ⟨.REF_STAT, 11, .REF_LOWT_CNT⟩
def REF_STAT_CFG_ERR : Flag := ⟨.REF_STAT, 12, .REF_CFG_CNT⟩
def REF_EWIN_EFIRST : Fld := ⟨.REF_EWIN, 17, 0⟩
def REF_EWIN_ECOUNT : Fld := ⟨.REF_EWIN, 31, 18⟩
def REF_TRK_MD_VALUE : Fld := ⟨.REF_TRK_MD, 31, 0⟩
def REF_TRK_CD_VALUE : Fld := ⟨.REF_TRK_CD, 31, 0⟩
def REF_TRK_K_VALUE : Fld := ⟨.REF_TRK_K, 31, 0⟩
def REF_TRK_STAT_Q : Fld := ⟨.REF_TRK_STAT, 15, 0⟩
def REF_TRK_STAT_LT_NOW : Fld := ⟨.REF_TRK_STAT, 16, 16⟩
def REF_TRK_STAT_GEN : Fld := ⟨.REF_TRK_STAT, 31, 24⟩

/-! ### SIL registers (10_sillage_regions.md) -/
def SIL_CTL_EN : Fld := ⟨.SIL_CTL, 0, 0⟩
def SIL_CTL_MARKSEG : Fld := ⟨.SIL_CTL, 1, 1⟩
def SIL_CTL_SPAN_EN : Fld := ⟨.SIL_CTL, 2, 2⟩
def SIL_CONN_CLOSE_GAP : Fld := ⟨.SIL_CONN, 3, 0⟩
def SIL_CONN_BRIDGE_L : Fld := ⟨.SIL_CONN, 6, 4⟩
def SIL_CONN_BRIDGE_X : Fld := ⟨.SIL_CONN, 11, 8⟩
def SIL_ENGMASK_MASK : Fld := ⟨.SIL_ENGMASK, 15, 0⟩
def SIL_EOLTO_TO : Fld := ⟨.SIL_EOLTO, 7, 0⟩
def SIL_CTXBASE_OFS : Fld := ⟨.SIL_CTXBASE, 23, 0⟩
def SIL_LONGLEN_LINES : Fld := ⟨.SIL_LONGLEN, 31, 0⟩
def SIL_LSTEP_LINES : Fld := ⟨.SIL_LSTEP, 31, 0⟩
def SIL_CLS_MARGIN : Fld := ⟨.SIL_CLS, 15, 0⟩
def SIL_CLS_CLSEN : Fld := ⟨.SIL_CLS, 31, 16⟩
def SIL_CLSSUP_SUP : Fld := ⟨.SIL_CLSSUP, 15, 0⟩
def SIL_WSWAP_SWAP : Fld := ⟨.SIL_WSWAP, 0, 0⟩
def SIL_WSWAP_ACTIVE : Fld := ⟨.SIL_WSWAP, 8, 8⟩
def SIL_WSWAP_PEND : Fld := ⟨.SIL_WSWAP, 9, 9⟩
def SIL_CMD_FLUSH : Fld := ⟨.SIL_CMD, 0, 0⟩
def SIL_CMDRES_RESULT : Fld := ⟨.SIL_CMDRES, 7, 0⟩
def SIL_CMDRES_DONE : Fld := ⟨.SIL_CMDRES, 8, 8⟩
def SIL_OPEN_OPEN : Fld := ⟨.SIL_OPEN, 14, 0⟩
def SIL_OPEN_PEAK : Fld := ⟨.SIL_OPEN, 30, 16⟩
def SIL_LINE_LO_LINE_L : Fld := ⟨.SIL_LINE_LO, 31, 0⟩
def SIL_LINE_HI_LINE_H : Fld := ⟨.SIL_LINE_HI, 15, 0⟩
def SIL_SATOPEN_STRIPE : Fld := ⟨.SIL_SATOPEN, 15, 0⟩
def SIL_STAT_SATURATED : Flag := ⟨.SIL_STAT, 0, .SIL_SAT_CNT⟩
def SIL_STAT_RUN_OVF : Flag := ⟨.SIL_STAT, 1, .SIL_ROVF_CNT⟩
def SIL_STAT_EOL_MISS : Flag := ⟨.SIL_STAT, 2, .SIL_EOLM_CNT⟩
def SIL_STAT_LONG : Flag := ⟨.SIL_STAT, 3, .SIL_LONG_CNT⟩
def SIL_STAT_CFG_ERR : Flag := ⟨.SIL_STAT, 4, .SIL_CFG_CNT⟩
def SIL_STAT_FULL_NOW : Fld := ⟨.SIL_STAT, 8, 8⟩
def SIL_MERGE_CNT_COUNT : Fld := ⟨.SIL_MERGE_CNT, 31, 0⟩
def SIL_CLOSE_CNT_COUNT : Fld := ⟨.SIL_CLOSE_CNT, 31, 0⟩
def SIL_SUP_CNT_COUNT : Fld := ⟨.SIL_SUP_CNT, 31, 0⟩
def SIL_W_W_LO : Fld := ⟨.SIL_W, 15, 0⟩
def SIL_W_W_HI : Fld := ⟨.SIL_W, 31, 16⟩

/-! ### RPT registers (11_reports_markers.md) -/
def RPT_CTL_EN : Fld := ⟨.RPT_CTL, 0, 0⟩
def RPT_CTL_CROP_EN : Fld := ⟨.RPT_CTL, 1, 1⟩
def RPT_CTL_ARCH_EN : Fld := ⟨.RPT_CTL, 2, 2⟩
def RPT_JOB0_LO_LINE_L : Fld := ⟨.RPT_JOB0_LO, 31, 0⟩
def RPT_JOB0_HI_LINE_H : Fld := ⟨.RPT_JOB0_HI, 15, 0⟩
def RPT_MDPITCH_PITCH : Fld := ⟨.RPT_MDPITCH, 31, 0⟩
def RPT_QBASE_OFS : Fld := ⟨.RPT_QBASE, 23, 0⟩
def RPT_QCFG_QLOG : Fld := ⟨.RPT_QCFG, 3, 0⟩
def RPT_QWR_SEQ : Fld := ⟨.RPT_QWR, 31, 0⟩
def RPT_QRD_SEQ : Fld := ⟨.RPT_QRD, 31, 0⟩
def RPT_QTHR_THR : Fld := ⟨.RPT_QTHR, 15, 0⟩
def RPT_CRBASE_LO_ADDR_L : Fld := ⟨.RPT_CRBASE_LO, 31, 0⟩
def RPT_CRBASE_HI_ADDR_H : Fld := ⟨.RPT_CRBASE_HI, 7, 0⟩
def RPT_CRING_PITCH : Fld := ⟨.RPT_CRING, 15, 0⟩
def RPT_CRING_CDLOG : Fld := ⟨.RPT_CRING, 20, 16⟩
def RPT_CROP_MARGIN : Fld := ⟨.RPT_CROP, 7, 0⟩
def RPT_CROP_TYPES : Fld := ⟨.RPT_CROP, 10, 8⟩
def RPT_CROP_COMP : Fld := ⟨.RPT_CROP, 11, 11⟩
def RPT_CROP_LEVEL : Fld := ⟨.RPT_CROP, 15, 12⟩
def RPT_CROP_DCH : Fld := ⟨.RPT_CROP, 19, 16⟩
def RPT_CLIM_CMAXW : Fld := ⟨.RPT_CLIM, 15, 0⟩
def RPT_CLIM_CMAXL : Fld := ⟨.RPT_CLIM, 31, 16⟩
def RPT_CSBASE_LO_ADDR_L : Fld := ⟨.RPT_CSBASE_LO, 31, 0⟩
def RPT_CSBASE_HI_ADDR_H : Fld := ⟨.RPT_CSBASE_HI, 7, 0⟩
def RPT_CSSIZE_SIZE : Fld := ⟨.RPT_CSSIZE, 19, 0⟩
def RPT_CIBASE_LO_ADDR_L : Fld := ⟨.RPT_CIBASE_LO, 31, 0⟩
def RPT_CIBASE_HI_ADDR_H : Fld := ⟨.RPT_CIBASE_HI, 7, 0⟩
def RPT_CHANDLE_HANDLE : Fld := ⟨.RPT_CHANDLE, 31, 0⟩
def RPT_RMBASE_LO_ADDR_L : Fld := ⟨.RPT_RMBASE_LO, 31, 0⟩
def RPT_RMBASE_HI_ADDR_H : Fld := ⟨.RPT_RMBASE_HI, 7, 0⟩
def RPT_RMLOG_RMLOG : Fld := ⟨.RPT_RMLOG, 4, 0⟩
def RPT_RMWR_WR : Fld := ⟨.RPT_RMWR, 31, 0⟩
def RPT_STAT_REC_LOST : Flag := ⟨.RPT_STAT, 0, .RPT_RLOST_CNT⟩
def RPT_STAT_DELAYED : Flag := ⟨.RPT_STAT, 1, .RPT_DELAY_CNT⟩
def RPT_STAT_CROP_LOST : Flag := ⟨.RPT_STAT, 2, .RPT_CLOST_CNT⟩
def RPT_STAT_CROP_ERR : Flag := ⟨.RPT_STAT, 3, .RPT_CERR_CNT⟩
def RPT_STAT_ARCH_ERR : Flag := ⟨.RPT_STAT, 4, .RPT_AERR_CNT⟩
def RPT_STAT_LOUPE_MISS : Flag := ⟨.RPT_STAT, 5, .RPT_LMISS_CNT⟩
def RPT_STAT_TS_LATE : Flag := ⟨.RPT_STAT, 6, .RPT_TSL_CNT⟩
def RPT_STAT_CFG_ERR : Flag := ⟨.RPT_STAT, 7, .RPT_CFG_CNT⟩
def RPT_MK_CTL_EN : Fld := ⟨.RPT_MK_CTL, 0, 0⟩
def RPT_MK_CTL_LOUPE : Fld := ⟨.RPT_MK_CTL, 1, 1⟩
def RPT_MK_CTL_ANCHOR : Fld := ⟨.RPT_MK_CTL, 3, 2⟩
def RPT_MK_CTL_TYPES : Fld := ⟨.RPT_MK_CTL, 6, 4⟩
def RPT_MK_CTL_UNSURE : Fld := ⟨.RPT_MK_CTL, 7, 7⟩
def RPT_MK_CTL_CLS : Fld := ⟨.RPT_MK_CTL, 23, 8⟩
def RPT_MK_CTL_CLEAR : Fld := ⟨.RPT_MK_CTL, 31, 31⟩
def RPT_MK_PW_PW : Fld := ⟨.RPT_MK_PW, 15, 0⟩
def RPT_MK_DIST_DIST : Fld := ⟨.RPT_MK_DIST, 31, 0⟩
def RPT_MK_DISTC_DISTC : Fld := ⟨.RPT_MK_DISTC, 31, 0⟩
def RPT_MK_STAT_LATE : Flag := ⟨.RPT_MK_STAT, 0, .RPT_MK_LATE_CNT⟩
def RPT_MK_STAT_OVF : Flag := ⟨.RPT_MK_STAT, 1, .RPT_MK_OVF_CNT⟩
def RPT_MK_STAT_COIN : Flag := ⟨.RPT_MK_STAT, 2, .RPT_MK_COIN_CNT⟩
def RPT_MK_STAT_INTEGRITY : Flag := ⟨.RPT_MK_STAT, 3, .RPT_MK_INT_CNT⟩
def RPT_MK_STAT_PEND : Fld := ⟨.RPT_MK_STAT, 24, 16⟩
def RPT_MK_FIRED_FIRED : Fld := ⟨.RPT_MK_FIRED, 31, 0⟩

/-! ### SPAN registers (12_span_arrays.md) -/
def SPAN_CTL_EN : Fld := ⟨.SPAN_CTL, 0, 0⟩
def SPAN_CTL_MASTER : Fld := ⟨.SPAN_CTL, 1, 1⟩
def SPAN_CTL_CONSOL : Fld := ⟨.SPAN_CTL, 2, 2⟩
def SPAN_CTL_TSYNC : Fld := ⟨.SPAN_CTL, 3, 3⟩
def SPAN_CTL_SEAM0 : Fld := ⟨.SPAN_CTL, 4, 4⟩
def SPAN_CTL_SEAM1 : Fld := ⟨.SPAN_CTL, 5, 5⟩
def SPAN_ID_CHIPID : Fld := ⟨.SPAN_ID, 1, 0⟩
def SPAN_ID_ARRAY : Fld := ⟨.SPAN_ID, 15, 8⟩
def SPAN_XBASE_XBASE : Fld := ⟨.SPAN_XBASE, 19, 0⟩
def SPAN_TDLY_TDLY : Fld := ⟨.SPAN_TDLY, 15, 0⟩
def SPAN_SEAMTO_SEAMTO : Fld := ⟨.SPAN_SEAMTO, 7, 0⟩
def SPAN_RES_RESULT : Fld := ⟨.SPAN_RES, 7, 0⟩
def SPAN_RES_ENG : Fld := ⟨.SPAN_RES, 11, 8⟩
def SPAN_TOFS_OFS : Fld := ⟨.SPAN_TOFS, 31, 0⟩
def SPAN_PST_STATE : Fld := ⟨.SPAN_PST, 1, 0⟩
def SPAN_PST_LANES : Fld := ⟨.SPAN_PST, 7, 4⟩
def SPAN_LAT_LAT : Fld := ⟨.SPAN_LAT, 15, 0⟩
def SPAN_NB_XBASE : Fld := ⟨.SPAN_NB, 19, 0⟩
def SPAN_NB_CHIPID : Fld := ⟨.SPAN_NB, 21, 20⟩
def SPAN_NB_MASTER : Fld := ⟨.SPAN_NB, 22, 22⟩
def SPAN_STAT_LINK_DOWN : Flag := ⟨.SPAN_STAT, 0, .SPAN_LD_CNT⟩
def SPAN_STAT_ID_CONFLICT : Flag := ⟨.SPAN_STAT, 1, .SPAN_IDC_CNT⟩
def SPAN_STAT_MASTER_CONFLICT : Flag := ⟨.SPAN_STAT, 2, .SPAN_MC_CNT⟩
def SPAN_STAT_ORDER_ERR : Flag := ⟨.SPAN_STAT, 3, .SPAN_ORD_CNT⟩
def SPAN_STAT_TICK_LATE : Flag := ⟨.SPAN_STAT, 4, .SPAN_TL_CNT⟩
def SPAN_STAT_TICK_GAP : Flag := ⟨.SPAN_STAT, 5, .SPAN_TG_CNT⟩
def SPAN_STAT_SEAM_LATE : Flag := ⟨.SPAN_STAT, 6, .SPAN_SL_CNT⟩
def SPAN_STAT_FWD_LOCAL : Flag := ⟨.SPAN_STAT, 7, .SPAN_FWD_CNT⟩
def SPAN_STAT_PKT_ERR : Flag := ⟨.SPAN_STAT, 8, .SPAN_PKT_CNT⟩
def SPAN_STAT_CFG_ERR : Flag := ⟨.SPAN_STAT, 9, .SPAN_CFG_CNT⟩
def SPAN_STAT_SYNCED : Fld := ⟨.SPAN_STAT, 16, 16⟩
def SPAN_HTX_V : Fld := ⟨.SPAN_HTX, 0, 0⟩
def SPAN_HTX_CAM : Fld := ⟨.SPAN_HTX, 4, 1⟩
def SPAN_HTX_FIRST : Fld := ⟨.SPAN_HTX, 18, 5⟩
def SPAN_HTX_COUNT : Fld := ⟨.SPAN_HTX, 29, 19⟩
def SPAN_HRX_V : Fld := ⟨.SPAN_HRX, 0, 0⟩
def SPAN_HRX_ENG : Fld := ⟨.SPAN_HRX, 4, 1⟩
def SPAN_HRX_RING : Fld := ⟨.SPAN_HRX, 7, 5⟩

/-! ### MEM registers (13_memory.md) -/
def MEM_STAT_WCOLL : Flag := ⟨.MEM_STAT, 0, .MEM_WCOLL_CNT⟩
def MEM_STAT_REPAIRED : Flag := ⟨.MEM_STAT, 1, .MEM_RPR_CNT⟩
def MEM_STAT_UNREPAIRED : Flag := ⟨.MEM_STAT, 2, .MEM_UNRPR_CNT⟩
def MEM_STAT_BLT_ABORT : Flag := ⟨.MEM_STAT, 3, .MEM_ABORT_CNT⟩
def MEM_STAT_CFG_ERR : Flag := ⟨.MEM_STAT, 4, .MEM_CFG_CNT⟩
def MEM_COLL_ADDR_OFS : Fld := ⟨.MEM_COLL_ADDR, 23, 0⟩
def MEM_COLL_INFO_WINNER : Fld := ⟨.MEM_COLL_INFO, 5, 0⟩
def MEM_COLL_INFO_LOSER : Fld := ⟨.MEM_COLL_INFO, 13, 8⟩
def MEM_RET_SB_SB : Fld := ⟨.MEM_RET_SB, 15, 0⟩
def MEM_RET_SP_SP : Fld := ⟨.MEM_RET_SP, 31, 0⟩
def MEM_WAKE_SB_SB : Fld := ⟨.MEM_WAKE_SB, 15, 0⟩
def MEM_WAKE_SP_SP : Fld := ⟨.MEM_WAKE_SP, 31, 0⟩
def MEM_BLT_CTL_START : Fld := ⟨.MEM_BLT_CTL, 0, 0⟩
def MEM_BLT_CTL_MODE : Fld := ⟨.MEM_BLT_CTL, 1, 1⟩
def MEM_BLT_CTL_ALG : Fld := ⟨.MEM_BLT_CTL, 3, 2⟩
def MEM_BLT_SB_SB : Fld := ⟨.MEM_BLT_SB, 15, 0⟩
def MEM_BLT_SP_SP : Fld := ⟨.MEM_BLT_SP, 31, 0⟩
def MEM_BLT_RES_RESULT : Fld := ⟨.MEM_BLT_RES, 7, 0⟩
def MEM_BLT_RES_DONE : Fld := ⟨.MEM_BLT_RES, 8, 8⟩
def MEM_BLT_RES_BUSY : Fld := ⟨.MEM_BLT_RES, 9, 9⟩
def MEM_BLT_RES_BANK : Fld := ⟨.MEM_BLT_RES, 21, 16⟩
def MEM_BLT_RES_BLOCK : Fld := ⟨.MEM_BLT_RES, 31, 22⟩
def MEM_BLT_FAIL_BANK : Fld := ⟨.MEM_BLT_FAIL, 5, 0⟩
def MEM_BLT_FAIL_ROW : Fld := ⟨.MEM_BLT_FAIL, 28, 16⟩
def MEM_RPR_USED : Fld := ⟨.MEM_RPR, 2, 0⟩
def MEM_RPR_FAILED : Fld := ⟨.MEM_RPR, 3, 3⟩
def MEM_RPR_LASTROW : Fld := ⟨.MEM_RPR, 28, 16⟩

/-! ### CXL registers (13_memory.md) -/
def CXL_FROZEN_PORTS : Fld := ⟨.CXL_FROZEN, 3, 0⟩
def CXL_FROZEN_DECS : Fld := ⟨.CXL_FROZEN, 11, 8⟩
def CXL_DEC_RES_RESULT : Fld := ⟨.CXL_DEC_RES, 7, 0⟩
def CXL_DEC_RES_DEC : Fld := ⟨.CXL_DEC_RES, 9, 8⟩
def CXL_DEC_RES_DEC_ERR : Flag := ⟨.CXL_DEC_RES, 16, .CXL_DEC_ERR_CNT⟩
def CXL_P_CTL_EN : Fld := ⟨.CXL_P_CTL, 0, 0⟩
def CXL_P_CTL_MAXRATE : Fld := ⟨.CXL_P_CTL, 1, 1⟩
def CXL_P_CTL_L1_EN : Fld := ⟨.CXL_P_CTL, 2, 2⟩
def CXL_P_CTL_L1TIME : Fld := ⟨.CXL_P_CTL, 31, 16⟩
def CXL_P_STATE_STATE : Fld := ⟨.CXL_P_STATE, 2, 0⟩
def CXL_P_STATE_RATE : Fld := ⟨.CXL_P_STATE, 4, 4⟩
def CXL_P_STATE_X4 : Fld := ⟨.CXL_P_STATE, 5, 5⟩
def CXL_P_STATE_FROZEN : Fld := ⟨.CXL_P_STATE, 8, 8⟩
def CXL_P_STATE_LOGRD : Fld := ⟨.CXL_P_STATE, 9, 9⟩
def CXL_P_STAT_LINK_DOWN : Flag := ⟨.CXL_P_STAT, 0, .CXL_P_LD_CNT⟩
def CXL_P_STAT_POISON : Flag := ⟨.CXL_P_STAT, 1, .CXL_P_POISON_CNT⟩
def CXL_P_STAT_UCE : Flag := ⟨.CXL_P_STAT, 2, .CXL_P_UCE_CNT⟩
def CXL_P_STAT_TIMEOUT : Flag := ⟨.CXL_P_STAT, 3, .CXL_P_TIMEOUT_CNT⟩
def CXL_P_STAT_PLIST_FULL : Flag := ⟨.CXL_P_STAT, 4, .CXL_P_PLF_CNT⟩
def CXL_P_STAT_SR_TO : Flag := ⟨.CXL_P_STAT, 5, .CXL_P_SRTO_CNT⟩
def CXL_P_STAT_SR_LOST : Flag := ⟨.CXL_P_STAT, 6, .CXL_P_SRL_CNT⟩
def CXL_P_STAT_INBOUND : Flag := ⟨.CXL_P_STAT, 7, .CXL_P_INB_CNT⟩
def CXL_P_STAT_CFG_ERR : Flag := ⟨.CXL_P_STAT, 8, .CXL_P_CFG_CNT⟩
def CXL_P_CMD_UNFREEZE : Fld := ⟨.CXL_P_CMD, 0, 0⟩
def CXL_P_CMDRES_RESULT : Fld := ⟨.CXL_P_CMDRES, 7, 0⟩
def CXL_P_CMDRES_DONE : Fld := ⟨.CXL_P_CMDRES, 8, 8⟩
def CXL_P_LOG_LO_ADDR_L : Fld := ⟨.CXL_P_LOG_LO, 31, 0⟩
def CXL_P_LOG_HI_ADDR_H : Fld := ⟨.CXL_P_LOG_HI, 7, 0⟩
def CXL_P_LOG_INFO_KIND : Fld := ⟨.CXL_P_LOG_INFO, 3, 0⟩
def CXL_P_LOG_INFO_WRITE : Fld := ⟨.CXL_P_LOG_INFO, 4, 4⟩
def CXL_P_LOG_INFO_MASTER : Fld := ⟨.CXL_P_LOG_INFO, 13, 8⟩
def CXL_P_HIDX_IDX : Fld := ⟨.CXL_P_HIDX, 5, 0⟩
def CXL_P_HDATA_DATA : Fld := ⟨.CXL_P_HDATA, 31, 0⟩
def CXL_P_PL_LO_V : Fld := ⟨.CXL_P_PL_LO, 0, 0⟩
def CXL_P_PL_LO_ADDR_L : Fld := ⟨.CXL_P_PL_LO, 31, 6⟩
def CXL_P_PL_HI_ADDR_H : Fld := ⟨.CXL_P_PL_HI, 7, 0⟩
def CXL_P_CFGA_DW : Fld := ⟨.CXL_P_CFGA, 11, 2⟩
def CXL_P_CFGA_WRITE : Fld := ⟨.CXL_P_CFGA, 12, 12⟩
def CXL_P_CFGA_SPACE : Fld := ⟨.CXL_P_CFGA, 13, 13⟩
def CXL_P_CFGA_GO : Fld := ⟨.CXL_P_CFGA, 31, 31⟩
def CXL_P_CFGD_DATA : Fld := ⟨.CXL_P_CFGD, 31, 0⟩
def CXL_P_CFGRES_RESULT : Fld := ⟨.CXL_P_CFGRES, 7, 0⟩
def CXL_P_CFGRES_DONE : Fld := ⟨.CXL_P_CFGRES, 8, 8⟩
def CXL_P_CFGRES_BUSY : Fld := ⟨.CXL_P_CFGRES, 9, 9⟩
def CXL_P_CFGX_ADDR : Fld := ⟨.CXL_P_CFGX, 31, 0⟩
def CXL_DEC_CTL_EN : Fld := ⟨.CXL_DEC_CTL, 0, 0⟩
def CXL_DEC_CTL_WAYS : Fld := ⟨.CXL_DEC_CTL, 2, 1⟩
def CXL_DEC_CTL_TGT0 : Fld := ⟨.CXL_DEC_CTL, 9, 8⟩
def CXL_DEC_CTL_TGT1 : Fld := ⟨.CXL_DEC_CTL, 11, 10⟩
def CXL_DEC_CTL_TGT2 : Fld := ⟨.CXL_DEC_CTL, 13, 12⟩
def CXL_DEC_CTL_TGT3 : Fld := ⟨.CXL_DEC_CTL, 15, 14⟩
def CXL_DEC_BASE_BASE : Fld := ⟨.CXL_DEC_BASE, 11, 0⟩
def CXL_DEC_SIZE_SIZE : Fld := ⟨.CXL_DEC_SIZE, 11, 0⟩
def CXL_DEC_DPA_DPA : Fld := ⟨.CXL_DEC_DPA, 11, 0⟩

/-! ### DMA registers (14_dma_compression.md) -/
def DMA_CMD_START : Fld := ⟨.DMA_CMD, 0, 0⟩
def DMA_CMD_PAUSE : Fld := ⟨.DMA_CMD, 1, 1⟩
def DMA_CMD_RESUME : Fld := ⟨.DMA_CMD, 2, 2⟩
def DMA_CMD_CLEAR : Fld := ⟨.DMA_CMD, 3, 3⟩
def DMA_DESC_LO_ADDR_L : Fld := ⟨.DMA_DESC_LO, 31, 0⟩
def DMA_DESC_HI_ADDR_H : Fld := ⟨.DMA_DESC_HI, 7, 0⟩
def DMA_RES_RESULT : Fld := ⟨.DMA_RES, 7, 0⟩
def DMA_STATE_STATE : Fld := ⟨.DMA_STATE, 2, 0⟩
def DMA_STATE_RPT : Fld := ⟨.DMA_STATE, 3, 3⟩
def DMA_STATE_ENG : Fld := ⟨.DMA_STATE, 6, 4⟩
def DMA_STATE_ENG_V : Fld := ⟨.DMA_STATE, 7, 7⟩
def DMA_CURDESC_LO_ADDR_L : Fld := ⟨.DMA_CURDESC_LO, 31, 0⟩
def DMA_CURDESC_HI_ADDR_H : Fld := ⟨.DMA_CURDESC_HI, 7, 0⟩
def DMA_CUR_SRC_LO_ADDR_L : Fld := ⟨.DMA_CUR_SRC_LO, 31, 0⟩
def DMA_CUR_SRC_HI_ADDR_H : Fld := ⟨.DMA_CUR_SRC_HI, 7, 0⟩
def DMA_CUR_DST_LO_ADDR_L : Fld := ⟨.DMA_CUR_DST_LO, 31, 0⟩
def DMA_CUR_DST_HI_ADDR_H : Fld := ⟨.DMA_CUR_DST_HI, 7, 0⟩
def DMA_ROW_ROW : Fld := ⟨.DMA_ROW, 15, 0⟩
def DMA_REMAIN_REMAIN : Fld := ⟨.DMA_REMAIN, 31, 0⟩
def DMA_PRODUCED_PRODUCED : Fld := ⟨.DMA_PRODUCED, 31, 0⟩
def DMA_FAIL_LO_ADDR_L : Fld := ⟨.DMA_FAIL_LO, 31, 0⟩
def DMA_FAIL_HI_ADDR_H : Fld := ⟨.DMA_FAIL_HI, 7, 0⟩
def DMA_FAIL_INFO_DIR : Fld := ⟨.DMA_FAIL_INFO, 2, 0⟩
def DMA_FAIL_INFO_COLLIDE : Fld := ⟨.DMA_FAIL_INFO, 3, 3⟩
def DMA_FAIL_INFO_RESP : Fld := ⟨.DMA_FAIL_INFO, 15, 8⟩
def DMA_FAIL_OFS_OFS : Fld := ⟨.DMA_FAIL_OFS, 31, 0⟩
def DMA_STAT_DONE : Flag := ⟨.DMA_STAT, 0, .DMA_DONE_CNT⟩
def DMA_STAT_ERR : Flag := ⟨.DMA_STAT, 1, .DMA_ERR_CNT⟩
def DMA_STAT_CFG_ERR : Flag := ⟨.DMA_STAT, 2, .DMA_CFG_CNT⟩

/-! ### CMP registers (14_dma_compression.md) -/
def CMP_CTL_DMAMAX : Fld := ⟨.CMP_CTL, 3, 0⟩
def CMP_ENG_OWNERS : Fld := ⟨.CMP_ENG, 15, 0⟩
def CMP_STAT_DECODE_ERR : Flag := ⟨.CMP_STAT, 0, .CMP_DEC_CNT⟩
def CMP_STAT_WR_ERR : Flag := ⟨.CMP_STAT, 1, .CMP_WR_CNT⟩
def CMP_ERRINFO_KIND : Fld := ⟨.CMP_ERRINFO, 3, 0⟩
def CMP_ERRINFO_ENG : Fld := ⟨.CMP_ERRINFO, 6, 4⟩
def CMP_ERRINFO_OFS : Fld := ⟨.CMP_ERRINFO, 31, 8⟩
def CMP_IN_LO_BYTES : Fld := ⟨.CMP_IN_LO, 31, 0⟩
def CMP_IN_HI_BYTES : Fld := ⟨.CMP_IN_HI, 31, 0⟩
def CMP_OUT_LO_BYTES : Fld := ⟨.CMP_OUT_LO, 31, 0⟩
def CMP_OUT_HI_BYTES : Fld := ⟨.CMP_OUT_HI, 31, 0⟩

/-! ### SIG registers (16_signal_chain.md) -/
def SIG_CTL_EN : Fld := ⟨.SIG_CTL, 0, 0⟩
def SIG_CTL_SDDIV : Fld := ⟨.SIG_CTL, 13, 8⟩
def SIG_CTL_FR : Fld := ⟨.SIG_CTL, 24, 16⟩
def SIG_CMD_SYNC : Fld := ⟨.SIG_CMD, 15, 0⟩
def SIG_FAST_FLIM : Fld := ⟨.SIG_FAST, 15, 0⟩
def SIG_STAT_FAST_OC : Flag := ⟨.SIG_STAT, 0, .SIG_FOC_CNT⟩
def SIG_STAT_CFG_ERR : Flag := ⟨.SIG_STAT, 1, .SIG_CFG_CNT⟩
def SIG_K_CFG_EN : Fld := ⟨.SIG_K_CFG, 0, 0⟩
def SIG_K_CFG_MODE : Fld := ⟨.SIG_K_CFG, 1, 1⟩
def SIG_K_CFG_DETINV : Fld := ⟨.SIG_K_CFG, 2, 2⟩
def SIG_K_CFG_IRQ : Fld := ⟨.SIG_K_CFG, 3, 3⟩
def SIG_K_CFG_N : Fld := ⟨.SIG_K_CFG, 7, 4⟩
def SIG_K_CFG_TDIV : Fld := ⟨.SIG_K_CFG, 15, 8⟩
def SIG_K_CFG_WLOG : Fld := ⟨.SIG_K_CFG, 20, 16⟩
def SIG_K_OPER_PERIOD : Fld := ⟨.SIG_K_OPER, 19, 0⟩
def SIG_K_BANK_ACTIVE : Fld := ⟨.SIG_K_BANK, 0, 0⟩
def SIG_K_BANK_FADING : Fld := ⟨.SIG_K_BANK, 1, 1⟩
def SIG_K_BANK_QUEUED : Fld := ⟨.SIG_K_BANK, 2, 2⟩
def SIG_K_BANK_QTGT : Fld := ⟨.SIG_K_BANK, 3, 3⟩
def SIG_K_BANK_QRES : Fld := ⟨.SIG_K_BANK, 15, 8⟩
def SIG_K_BANK_FLEFT : Fld := ⟨.SIG_K_BANK, 28, 16⟩
def SIG_K_ENVCF_ATT : Fld := ⟨.SIG_K_ENVCF, 3, 0⟩
def SIG_K_ENVCF_REL : Fld := ⟨.SIG_K_ENVCF, 11, 8⟩
def SIG_K_PKLIM_LO : Fld := ⟨.SIG_K_PKLIM, 15, 0⟩
def SIG_K_PKLIM_HI : Fld := ⟨.SIG_K_PKLIM, 31, 16⟩
def SIG_K_RMSLIM_LO : Fld := ⟨.SIG_K_RMSLIM, 15, 0⟩
def SIG_K_RMSLIM_HI : Fld := ⟨.SIG_K_RMSLIM, 31, 16⟩
def SIG_K_ENVLIM_LO : Fld := ⟨.SIG_K_ENVLIM, 15, 0⟩
def SIG_K_ENVLIM_HI : Fld := ⟨.SIG_K_ENVLIM, 31, 16⟩
def SIG_K_VAL_X : Fld := ⟨.SIG_K_VAL, 15, 0⟩
def SIG_K_VAL_SETTLING : Fld := ⟨.SIG_K_VAL, 16, 16⟩
def SIG_K_VAL_INVALID : Fld := ⟨.SIG_K_VAL, 17, 17⟩
def SIG_K_DETV_PK : Fld := ⟨.SIG_K_DETV, 15, 0⟩
def SIG_K_DETV_RMS : Fld := ⟨.SIG_K_DETV, 31, 16⟩
def SIG_K_ENVV_ENV : Fld := ⟨.SIG_K_ENVV, 15, 0⟩
def SIG_K_SKEW_SKEW : Fld := ⟨.SIG_K_SKEW, 7, 0⟩
def SIG_K_STAT_PK_HI : Flag := ⟨.SIG_K_STAT, 0, .SIG_K_PKH_CNT⟩
def SIG_K_STAT_PK_LO : Flag := ⟨.SIG_K_STAT, 1, .SIG_K_PKL_CNT⟩
def SIG_K_STAT_RMS_HI : Flag := ⟨.SIG_K_STAT, 2, .SIG_K_RMH_CNT⟩
def SIG_K_STAT_RMS_LO : Flag := ⟨.SIG_K_STAT, 3, .SIG_K_RML_CNT⟩
def SIG_K_STAT_ENV_HI : Flag := ⟨.SIG_K_STAT, 4, .SIG_K_EVH_CNT⟩
def SIG_K_STAT_ENV_LO : Flag := ⟨.SIG_K_STAT, 5, .SIG_K_EVL_CNT⟩
def SIG_K_STAT_STUCK : Flag := ⟨.SIG_K_STAT, 6, .SIG_K_STK_CNT⟩
def SIG_K_STAT_SUPERSEDED : Flag := ⟨.SIG_K_STAT, 7, .SIG_K_SUP_CNT⟩
def SIG_K_STAT_CFG_ERR : Flag := ⟨.SIG_K_STAT, 8, .SIG_K_CFG_CNT⟩
def SIG_K_STAT_SETTLE_NOW : Fld := ⟨.SIG_K_STAT, 16, 16⟩
def SIG_K_STAT_STUCK_NOW : Fld := ⟨.SIG_K_STAT, 17, 17⟩
def SIG_K_STAT_DET_NOW : Fld := ⟨.SIG_K_STAT, 18, 18⟩
def SIG_COEF_C : Fld := ⟨.SIG_COEF, 23, 0⟩

/-! ### MOT registers (17_loupe_carriage.md) -/
def MOT_CTL_EN : Fld := ⟨.MOT_CTL, 0, 0⟩
def MOT_CTL_RPT_EN : Fld := ⟨.MOT_CTL, 1, 1⟩
def MOT_CTL_DIRINV : Fld := ⟨.MOT_CTL, 2, 2⟩
def MOT_CTL_DECAY : Fld := ⟨.MOT_CTL, 3, 3⟩
def MOT_CTL_SSMODE : Fld := ⟨.MOT_CTL, 5, 4⟩
def MOT_CTL_OCEN : Fld := ⟨.MOT_CTL, 6, 6⟩
def MOT_CTL_MRES : Fld := ⟨.MOT_CTL, 11, 8⟩
def MOT_STATE_STATE : Fld := ⟨.MOT_STATE, 2, 0⟩
def MOT_STATE_HOMED : Fld := ⟨.MOT_STATE, 3, 3⟩
def MOT_STATE_SSAPPL : Fld := ⟨.MOT_STATE, 4, 4⟩
def MOT_POS_POS : Fld := ⟨.MOT_POS, 31, 0⟩
def MOT_TGT_TGT : Fld := ⟨.MOT_TGT, 31, 0⟩
def MOT_VEL_VEL : Fld := ⟨.MOT_VEL, 31, 0⟩
def MOT_VSTART_V : Fld := ⟨.MOT_VSTART, 23, 0⟩
def MOT_VSTOP_V : Fld := ⟨.MOT_VSTOP, 23, 0⟩
def MOT_VBREAK_V : Fld := ⟨.MOT_VBREAK, 23, 0⟩
def MOT_VMAX_V : Fld := ⟨.MOT_VMAX, 23, 0⟩
def MOT_A1_A : Fld := ⟨.MOT_A1, 31, 0⟩
def MOT_A2_A : Fld := ⟨.MOT_A2, 31, 0⟩
def MOT_D2_A : Fld := ⟨.MOT_D2, 31, 0⟩
def MOT_D1_A : Fld := ⟨.MOT_D1, 31, 0⟩
def MOT_VHOME_V : Fld := ⟨.MOT_VHOME, 23, 0⟩
def MOT_HMAX_VALUE : Fld := ⟨.MOT_HMAX, 31, 0⟩
def MOT_HOMEPOS_VALUE : Fld := ⟨.MOT_HOMEPOS, 31, 0⟩
def MOT_SMIN_VALUE : Fld := ⟨.MOT_SMIN, 31, 0⟩
def MOT_SMAX_VALUE : Fld := ⟨.MOT_SMAX, 31, 0⟩
def MOT_ORIGIN_VALUE : Fld := ⟨.MOT_ORIGIN, 31, 0⟩
def MOT_NMQ_VALUE : Fld := ⟨.MOT_NMQ, 31, 0⟩
def MOT_IRUN_IRUN : Fld := ⟨.MOT_IRUN, 15, 0⟩
def MOT_IRUN_IHOLD : Fld := ⟨.MOT_IRUN, 31, 16⟩
def MOT_CHOP_DI : Fld := ⟨.MOT_CHOP, 15, 0⟩
def MOT_CHOP_TBLANK : Fld := ⟨.MOT_CHOP, 23, 16⟩
def MOT_CHOP_DT : Fld := ⟨.MOT_CHOP, 31, 24⟩
def MOT_ADAPT_OADJ : Fld := ⟨.MOT_ADAPT, 3, 0⟩
def MOT_ADAPT_OLOG : Fld := ⟨.MOT_ADAPT, 11, 8⟩
def MOT_ADAPT_OMAX : Fld := ⟨.MOT_ADAPT, 31, 16⟩
def MOT_OFS_OFS_A : Fld := ⟨.MOT_OFS, 15, 0⟩
def MOT_OFS_OFS_B : Fld := ⟨.MOT_OFS, 31, 16⟩
def MOT_SS_SSDLY : Fld := ⟨.MOT_SS, 15, 0⟩
def MOT_LIM_DEBT : Fld := ⟨.MOT_LIM, 11, 0⟩
def MOT_LIM_POL : Fld := ⟨.MOT_LIM, 18, 16⟩
def MOT_IN_DEB : Fld := ⟨.MOT_IN, 2, 0⟩
def MOT_IN_RAW : Fld := ⟨.MOT_IN, 6, 4⟩
def MOT_STAT_ARRIVED : Flag := ⟨.MOT_STAT, 0, .MOT_ARR_CNT⟩
def MOT_STAT_LIMIT_HIT : Flag := ⟨.MOT_STAT, 1, .MOT_LHIT_CNT⟩
def MOT_STAT_LIMIT_CHATTER : Flag := ⟨.MOT_STAT, 2, .MOT_CHAT_CNT⟩
def MOT_STAT_HOMING_FAULT : Flag := ⟨.MOT_STAT, 3, .MOT_HF_CNT⟩
def MOT_STAT_OVERCURRENT : Flag := ⟨.MOT_STAT, 4, .MOT_OC_CNT⟩
def MOT_STAT_CLAMPED : Flag := ⟨.MOT_STAT, 5, .MOT_CLMP_CNT⟩
def MOT_STAT_CFG_ERR : Flag := ⟨.MOT_STAT, 6, .MOT_CFG_CNT⟩

/-! ### EVT registers (18_event_routing.md) -/
def EVT_OWN_OWNER : Fld := ⟨.EVT_OWN, 1, 0⟩
def EVT_OWN_SECURE : Fld := ⟨.EVT_OWN, 2, 2⟩
def EVT_LOCK_LOCK : Fld := ⟨.EVT_LOCK, 0, 0⟩
def EVT_RES_RESULT : Fld := ⟨.EVT_RES, 7, 0⟩
def EVT_RES_CONS : Fld := ⟨.EVT_RES, 13, 8⟩
def EVT_RES_CH : Fld := ⟨.EVT_RES, 21, 16⟩
def EVT_STAT_LOOP_REJ : Flag := ⟨.EVT_STAT, 0, .EVT_LOOP_CNT⟩
def EVT_STAT_DENIED : Flag := ⟨.EVT_STAT, 1, .EVT_DEN_CNT⟩
def EVT_STAT_RLY_OVF : Flag := ⟨.EVT_STAT, 2, .EVT_RLYO_CNT⟩
def EVT_STAT_CAP_OVR : Flag := ⟨.EVT_STAT, 3, .EVT_CAPO_CNT⟩
def EVT_STAT_CFG_ERR : Flag := ⟨.EVT_STAT, 4, .EVT_CFG_CNT⟩
def EVT_SWTRIG_SW : Fld := ⟨.EVT_SWTRIG, 7, 0⟩
def EVT_MOVE_MOVEN0 : Fld := ⟨.EVT_MOVE, 15, 0⟩
def EVT_MOVE_MOVEN1 : Fld := ⟨.EVT_MOVE, 31, 16⟩
def EVT_SRCMASK_SIG : Fld := ⟨.EVT_SRCMASK, 15, 0⟩
def EVT_SRCMASK_DMA : Fld := ⟨.EVT_SRCMASK, 31, 16⟩
def EVT_ISTAT_SVC0 : Fld := ⟨.EVT_ISTAT, 0, 0⟩
def EVT_ISTAT_SVC1 : Fld := ⟨.EVT_ISTAT, 1, 1⟩
def EVT_ISTAT_SVC2 : Fld := ⟨.EVT_ISTAT, 2, 2⟩
def EVT_ISTAT_SVC3 : Fld := ⟨.EVT_ISTAT, 3, 3⟩
def EVT_ISTAT_SEC : Fld := ⟨.EVT_ISTAT, 4, 4⟩
def EVT_PIN_FILT : Fld := ⟨.EVT_PIN, 7, 0⟩
def EVT_PIN_IINV : Fld := ⟨.EVT_PIN, 8, 8⟩
def EVT_PIN_OE : Fld := ⟨.EVT_PIN, 9, 9⟩
def EVT_PIN_OMODE : Fld := ⟨.EVT_PIN, 10, 10⟩
def EVT_PIN_OINV : Fld := ⟨.EVT_PIN, 11, 11⟩
def EVT_PIN_OPW : Fld := ⟨.EVT_PIN, 31, 16⟩
def EVT_RLY_DIV_DIV : Fld := ⟨.EVT_RLY_DIV, 15, 0⟩
def EVT_RLY_DLY_DLY : Fld := ⟨.EVT_RLY_DLY, 23, 0⟩
def EVT_LNK_LO_EN : Fld := ⟨.EVT_LNK_LO, 31, 0⟩
def EVT_LNK_HI_EN : Fld := ⟨.EVT_LNK_HI, 31, 0⟩
def EVT_WIRE_LO_WIRED : Fld := ⟨.EVT_WIRE_LO, 31, 0⟩
def EVT_WIRE_HI_WIRED : Fld := ⟨.EVT_WIRE_HI, 31, 0⟩
def EVT_COIN_LO_COIN : Fld := ⟨.EVT_COIN_LO, 31, 0⟩
def EVT_COIN_HI_COIN : Fld := ⟨.EVT_COIN_HI, 12, 0⟩
def EVT_CAP_DATA : Fld := ⟨.EVT_CAP, 31, 0⟩

/-! ### ETH registers (15_service_cores.md) -/
def ETH_CTL_EN : Fld := ⟨.ETH_CTL, 0, 0⟩
def ETH_CTL_AN : Fld := ⟨.ETH_CTL, 1, 1⟩
def ETH_MAC_LO_MAC_L : Fld := ⟨.ETH_MAC_LO, 31, 0⟩
def ETH_MAC_HI_MAC_H : Fld := ⟨.ETH_MAC_HI, 15, 0⟩
def ETH_CFLT_CTL_PORT : Fld := ⟨.ETH_CFLT, 15, 0⟩
def ETH_CFLT_CTL_PCP : Fld := ⟨.ETH_CFLT, 18, 16⟩
def ETH_CFLT_VLAN_EN : Fld := ⟨.ETH_CFLT, 20, 20⟩
def ETH_CFLT_PORT_EN : Fld := ⟨.ETH_CFLT, 21, 21⟩
def ETH_Q0FREE_FREE : Fld := ⟨.ETH_Q0FREE, 6, 0⟩
def ETH_STAT_LINK_DOWN : Flag := ⟨.ETH_STAT, 0, .ETH_LD_CNT⟩
def ETH_STAT_Q0_DROP : Flag := ⟨.ETH_STAT, 1, .ETH_Q0D_CNT⟩
def ETH_STAT_QX_DROP : Flag := ⟨.ETH_STAT, 2, .ETH_QXD_CNT⟩
def ETH_STAT_CFG_ERR : Flag := ⟨.ETH_STAT, 3, .ETH_CFG_CNT⟩
def ETH_STAT_LINK : Fld := ⟨.ETH_STAT, 8, 8⟩
def ETH_HWACT_STOP_REPORTS : Fld := ⟨.ETH_HWACT, 0, 0⟩
def ETH_HWACT_STOP_EXPORT : Fld := ⟨.ETH_HWACT, 1, 1⟩
def ETH_HWACT_HOLD_REQ : Fld := ⟨.ETH_HWACT, 2, 2⟩
def ETH_EXPDMA_MASK : Fld := ⟨.ETH_EXPDMA, 15, 0⟩
def ETH_MB_CTL_GO : Fld := ⟨.ETH_MB_CTL, 0, 0⟩
def ETH_MB_CTL_BUSY : Fld := ⟨.ETH_MB_CTL, 1, 1⟩
def ETH_MB_CTL_DONE : Fld := ⟨.ETH_MB_CTL, 2, 2⟩
def ETH_MB_REQ_DATA : Fld := ⟨.ETH_MB_REQ, 31, 0⟩
def ETH_MB_RSP_DATA : Fld := ⟨.ETH_MB_RSP, 31, 0⟩
def ETH_EMB_BASE_OFS : Fld := ⟨.ETH_EMB_BASE, 23, 0⟩
def ETH_EMB_CFG_EN : Fld := ⟨.ETH_EMB_CFG, 0, 0⟩
def ETH_EMB_CFG_ELOG : Fld := ⟨.ETH_EMB_CFG, 7, 4⟩
def ETH_EMB_WR_IDX : Fld := ⟨.ETH_EMB_WR, 31, 0⟩
def ETH_EMB_RD_IDX : Fld := ⟨.ETH_EMB_RD, 31, 0⟩
def ETH_MB_STAT_MB_TO : Flag := ⟨.ETH_MB_STAT, 0, .ETH_MBTO_CNT⟩
def ETH_MB_STAT_MB_BUSYW : Flag := ⟨.ETH_MB_STAT, 1, .ETH_MBBW_CNT⟩
def ETH_MB_STAT_EMB_OVF : Flag := ⟨.ETH_MB_STAT, 2, .ETH_EMBO_CNT⟩
def ETH_MB_STAT_CFG_ERR : Flag := ⟨.ETH_MB_STAT, 3, .ETH_MBCFG_CNT⟩

/-! ### FLACON registers (19_flacon.md) -/
def FL_STATE_STATE : Fld := ⟨.FL_STATE, 2, 0⟩
def FL_STATE_SEAL_OPEN : Fld := ⟨.FL_STATE, 3, 3⟩
def FL_STATE_LOT_OPEN : Fld := ⟨.FL_STATE, 4, 4⟩
def FL_STATE_STILL : Fld := ⟨.FL_STATE, 5, 5⟩
def FL_STATE_MEAS_ERR_NOW : Fld := ⟨.FL_STATE, 6, 6⟩
def FL_STATE_UNCLEAN_START : Fld := ⟨.FL_STATE, 7, 7⟩
def FL_STATE_PFAIL_NOW : Fld := ⟨.FL_STATE, 8, 8⟩
def FL_STATE_SLOT_B : Fld := ⟨.FL_STATE, 9, 9⟩
def FL_LEN_LO_VALUE : Fld := ⟨.FL_LEN_LO, 31, 0⟩
def FL_LEN_HI_VALUE : Fld := ⟨.FL_LEN_HI, 31, 0⟩
def FL_LENC_LO_VALUE : Fld := ⟨.FL_LENC_LO, 31, 0⟩
def FL_LENC_HI_VALUE : Fld := ⟨.FL_LENC_HI, 31, 0⟩
def FL_AREA_LO_VALUE : Fld := ⟨.FL_AREA_LO, 31, 0⟩
def FL_AREA_HI_VALUE : Fld := ⟨.FL_AREA_HI, 31, 0⟩
def FL_AREAC_LO_VALUE : Fld := ⟨.FL_AREAC_LO, 31, 0⟩
def FL_AREAC_HI_VALUE : Fld := ⟨.FL_AREAC_HI, 31, 0⟩
def FL_LOTLEN_LO_VALUE : Fld := ⟨.FL_LOTLEN_LO, 31, 0⟩
def FL_LOTLEN_HI_VALUE : Fld := ⟨.FL_LOTLEN_HI, 31, 0⟩
def FL_REV_LO_VALUE : Fld := ⟨.FL_REV_LO, 31, 0⟩
def FL_REV_HI_VALUE : Fld := ⟨.FL_REV_HI, 31, 0⟩
def FL_POS_LO_VALUE : Fld := ⟨.FL_POS_LO, 31, 0⟩
def FL_POS_HI_VALUE : Fld := ⟨.FL_POS_HI, 31, 0⟩
def FL_EVCNT_VALUE : Fld := ⟨.FL_EVCNT, 31, 0⟩
def FL_FAULTCNT_VALUE : Fld := ⟨.FL_FAULTCNT, 31, 0⟩
def FL_UNCLEAN_VALUE : Fld := ⟨.FL_UNCLEAN, 31, 0⟩
def FL_TICKNO_VALUE : Fld := ⟨.FL_TICKNO, 31, 0⟩
def FL_COMMIT_VALUE : Fld := ⟨.FL_COMMIT, 31, 0⟩
def FL_FWID_LO_FWID : Fld := ⟨.FL_FWID_LO, 31, 0⟩
def FL_FWID_HI_FWID : Fld := ⟨.FL_FWID_HI, 31, 0⟩
def FL_PFORM_FORM : Fld := ⟨.FL_PFORM, 0, 0⟩
def FL_PFORM_DIR : Fld := ⟨.FL_PFORM, 1, 1⟩
def FL_PFORM_FINTERP : Fld := ⟨.FL_PFORM, 28, 16⟩
def FL_PNUM_VALUE : Fld := ⟨.FL_PNUM, 31, 0⟩
def FL_PDEN_VALUE : Fld := ⟨.FL_PDEN, 31, 0⟩
def FL_PWNOM_VALUE : Fld := ⟨.FL_PWNOM, 31, 0⟩
def FL_PPULSE_VALUE : Fld := ⟨.FL_PPULSE, 31, 0⟩
def FL_TICKET_DATA : Fld := ⟨.FL_TICKET, 31, 0⟩
def FL_TKEY_DATA : Fld := ⟨.FL_TKEY, 31, 0⟩
def FL_TKID_LO_TKID : Fld := ⟨.FL_TKID_LO, 31, 0⟩
def FL_TKID_HI_TKID : Fld := ⟨.FL_TKID_HI, 31, 0⟩

/-- The register tables, one row per register. -/
def regRow : Reg → RegRow
  | .SYS_PWRSTATE => ⟨0x40000000, [], 0x1, [⟨1, 0, .view, .none, .any⟩, ⟨2, 2, .view, .none, .any⟩], none⟩
  | .SYS_PWRCMD => ⟨0x40000004, [], 0x0, [⟨0, 0, .wo, .none, .any⟩, ⟨1, 1, .wo, .none, .any⟩, ⟨2, 2, .wo, .none, .any⟩], none⟩
  | .SYS_PWRRES => ⟨0x40000008, [], 0x0, [⟨7, 0, .ro, .none, .any⟩, ⟨8, 8, .ro, .none, .any⟩, ⟨9, 9, .ro, .none, .any⟩], none⟩
  | .SYS_RUNMARK_LO => ⟨0x4000000C, [], 0x0, [⟨31, 0, .rw, .none, .any⟩], none⟩
  | .SYS_RUNMARK_HI => ⟨0x40000010, [], 0x0, [⟨15, 0, .rw, .none, .any⟩], none⟩
  | .SYS_T0_LO => ⟨0x40000014, [], 0x0, [⟨31, 0, .view, .none, .any⟩], none⟩
  | .SYS_T0_HI => ⟨0x40000018, [], 0x0, [⟨15, 0, .ro, .none, .any⟩], none⟩
  | .SYS_HOLDLINE_LO => ⟨0x4000001C, [], 0x0, [⟨31, 0, .view, .none, .any⟩], none⟩
  | .SYS_HOLDLINE_HI => ⟨0x40000020, [], 0x0, [⟨15, 0, .ro, .none, .any⟩], none⟩
  | .SYS_WAKESRC => ⟨0x40000024, [], 0x0, [⟨5, 0, .ro, .none, .any⟩], none⟩
  | .SYS_WAKECNT => ⟨0x40000028, [], 0x0, [⟨31, 0, .ro, .none, .any⟩], none⟩
  | .SYS_PROFILE => ⟨0x40000030, [], 0x0, [⟨2, 0, .rwc, .none, .any⟩], none⟩
  | .SYS_PROFILEC => ⟨0x40000034, [], 0xFFFFFFFF, [⟨31, 0, .rwcc, .none, .any⟩], none⟩
  | .SYS_STAT => ⟨0x40000040, [], 0x0, [⟨0, 0, .w1c, .none, .any⟩, ⟨1, 1, .w1c, .none, .any⟩], none⟩
  | .SYS_INT_CNT => ⟨0x40000044, [], 0x0, [⟨15, 0, .clr, .none, .any⟩], none⟩
  | .SYS_RREF_CNT => ⟨0x40000048, [], 0x0, [⟨15, 0, .clr, .none, .any⟩], none⟩
  | .SYS_BOOT => ⟨0x40000050, [], 0x1, [⟨3, 0, .ro, .none, .any⟩, ⟨4, 4, .ro, .none, .any⟩, ⟨5, 5, .ro, .none, .any⟩, ⟨15, 8, .ro, .none, .any⟩], none⟩
  | .SYS_PSTAT => ⟨0x40000054, [], 0x0, [⟨0, 0, .ro, .none, .any⟩, ⟨1, 1, .ro, .none, .any⟩, ⟨2, 2, .ro, .none, .any⟩, ⟨5, 3, .ro, .none, .any⟩, ⟨15, 8, .ro, .none, .any⟩, ⟨18, 16, .ro, .none, .any⟩, ⟨23, 19, .ro, .none, .any⟩, ⟨31, 24, .ro, .none, .any⟩], none⟩
  | .SYS_PCFG => ⟨0x40000058, [], 0x1, [⟨0, 0, .rw, .none, .any⟩], none⟩
  | .SYS_PSTB_CNT => ⟨0x4000005C, [], 0x0, [⟨15, 0, .clr, .none, .any⟩], none⟩
  | .SYS_SPLICE_LO => ⟨0x40000060, [], 0x0, [⟨31, 0, .view, .none, .any⟩], none⟩
  | .SYS_SPLICE_HI => ⟨0x40000064, [], 0x0, [⟨15, 0, .ro, .none, .any⟩], none⟩
  | .SEC_LC => ⟨0x40100000, [], 0x0, [⟨1, 0, .view, .none, .any⟩, ⟨2, 2, .view, .none, .any⟩], none⟩
  | .SEC_DEVID_LO => ⟨0x40100008, [], 0x0, [⟨31, 0, .view, .none, .any⟩], none⟩
  | .SEC_DEVID_HI => ⟨0x4010000C, [], 0x0, [⟨31, 0, .view, .none, .any⟩], none⟩
  | .SEC_LCCMD => ⟨0x40100010, [], 0x0, [⟨1, 0, .rw, .none, .any⟩, ⟨31, 31, .wo, .none, .any⟩], none⟩
  | .SEC_LCRES => ⟨0x40100014, [], 0x0, [⟨7, 0, .ro, .none, .any⟩, ⟨8, 8, .ro, .none, .any⟩, ⟨9, 9, .ro, .none, .any⟩], none⟩
  | .SEC_DBG => ⟨0x40100020, [], 0x0, [⟨1, 0, .ro, .none, .any⟩, ⟨3, 2, .ro, .none, .any⟩, ⟨5, 4, .rw, .none, .any⟩, ⟨8, 8, .wo, .none, .any⟩, ⟨9, 9, .wo, .none, .any⟩, ⟨23, 16, .ro, .none, .any⟩], none⟩
  | .SEC_DBGRES => ⟨0x40100024, [], 0x0, [⟨7, 0, .ro, .none, .any⟩, ⟨8, 8, .ro, .none, .any⟩, ⟨9, 9, .ro, .none, .any⟩], none⟩
  | .SEC_CHALCMD => ⟨0x40100028, [], 0x0, [⟨0, 0, .wo, .none, .any⟩], none⟩
  | .SEC_STAT => ⟨0x40100030, [], 0x0, [⟨0, 0, .w1c, .none, .any⟩, ⟨1, 1, .w1c, .none, .any⟩, ⟨2, 2, .w1c, .none, .any⟩, ⟨3, 3, .w1c, .none, .any⟩], none⟩
  | .SEC_INTSRC => ⟨0x40100034, [], 0x0, [⟨2, 0, .ro, .none, .any⟩, ⟨15, 8, .ro, .none, .any⟩], none⟩
  | .SEC_INT_CNT => ⟨0x40100038, [], 0x0, [⟨15, 0, .clr, .none, .any⟩], none⟩
  | .SEC_DEN_CNT => ⟨0x4010003C, [], 0x0, [⟨15, 0, .clr, .none, .any⟩], none⟩
  | .SEC_CHAL => ⟨0x40100040, [(8, 0x4)], 0x0, [⟨31, 0, .ro, .none, .any⟩], none⟩
  | .SEC_AUTH_CNT => ⟨0x40100060, [], 0x0, [⟨15, 0, .clr, .none, .any⟩], none⟩
  | .SEC_DBG_CNT => ⟨0x40100064, [], 0x0, [⟨15, 0, .clr, .none, .any⟩], none⟩
  | .SEC_RESP => ⟨0x40100080, [(32, 0x4)], 0x0, [⟨31, 0, .rw, .none, .any⟩], none⟩
  | .SEC_KEYCMD => ⟨0x40100180, [], 0x0, [⟨2, 0, .rw, .none, .any⟩, ⟨8, 8, .wo, .none, .any⟩, ⟨9, 9, .wo, .none, .any⟩, ⟨19, 16, .view, .none, .any⟩, ⟨23, 20, .view, .none, .any⟩], none⟩
  | .SEC_KBUF => ⟨0x40100184, [(15, 0x4)], 0x0, [⟨31, 0, .rw, .none, .any⟩], none⟩
  | .SEC_KPOL => ⟨0x401001C0, [(5, 0x8)], 0x0, [⟨6, 0, .rwc, .none, .any⟩], none⟩
  | .SEC_KPOLC => ⟨0x401001C4, [(5, 0x8)], 0xFFFFFFFF, [⟨31, 0, .rwcc, .none, .any⟩], none⟩
  | .SEC_MRX => ⟨0x40100200, [], 0x0, [⟨2, 0, .rw, .none, .any⟩, ⟨31, 31, .wo, .none, .any⟩], none⟩
  | .SEC_MRXBUF => ⟨0x40100240, [(16, 0x4)], 0x0, [⟨31, 0, .rw, .none, .any⟩], none⟩
  | .SEC_QCMD => ⟨0x40100300, [], 0x0, [⟨0, 0, .wo, .none, .any⟩], none⟩
  | .SEC_QRES => ⟨0x40100304, [], 0x0, [⟨7, 0, .ro, .none, .any⟩, ⟨8, 8, .ro, .none, .any⟩, ⟨9, 9, .ro, .none, .any⟩], none⟩
  | .SEC_QNONCE => ⟨0x40100320, [(8, 0x4)], 0x0, [⟨31, 0, .rw, .none, .any⟩], none⟩
  | .SEC_IDPUB => ⟨0x40100340, [(15, 0x4)], 0x0, [⟨31, 0, .view, .none, .any⟩], none⟩
  | .SEC_MR => ⟨0x40100400, [(8, 0x40), (16, 0x4)], 0x0, [⟨31, 0, .view, .none, .any⟩], none⟩
  | .SEC_QOUT => ⟨0x40100800, [(192, 0x4)], 0x0, [⟨31, 0, .ro, .none, .any⟩], none⟩
  | .SEC_DLOG_A => ⟨0x4010C000, [(46, 0x10)], 0x0, [⟨31, 0, .ro, .none, .any⟩], none⟩
  | .SEC_DLOG_B => ⟨0x4010C004, [(46, 0x10)], 0x0, [⟨5, 0, .ro, .none, .any⟩, ⟨9, 8, .ro, .none, .any⟩], none⟩
  | .SEC_DLOG_CNT => ⟨0x4010C008, [(46, 0x10)], 0x0, [⟨31, 0, .clr, .none, .any⟩], none⟩
  | .SEC_AT => ⟨0x40110000, [(45, 0x400), (16, 0x40), (8, 0x8)], 0x0, [⟨31, 0, .rwc, .none, .any⟩], none⟩
  | .SEC_ATC => ⟨0x40110004, [(45, 0x400), (16, 0x40), (8, 0x8)], 0xFFFFFFFF, [⟨31, 0, .rwcc, .none, .any⟩], none⟩
  | .TICK_CTL => ⟨0x40200000, [], 0x0, [⟨1, 0, .rw, .holdChg, .any⟩, ⟨2, 2, .rw, .none, .any⟩], (some TICK_STAT_CFG_ERR)⟩
  | .TICK_DEPTH => ⟨0x40200004, [], 0x28, [⟨7, 0, .rw, .holdChg, .range 8 255⟩], (some TICK_STAT_CFG_ERR)⟩
  | .TICK_NUM => ⟨0x40200008, [], 0x1, [⟨31, 0, .rw, .holdChg, .any⟩], (some TICK_STAT_CFG_ERR)⟩
  | .TICK_DEN => ⟨0x4020000C, [], 0x1, [⟨31, 0, .rw, .holdChg, .range 1 4294967295⟩], (some TICK_STAT_CFG_ERR)⟩
  | .TICK_FIXPER => ⟨0x40200010, [], 0x1388, [⟨23, 0, .rw, .holdChg, .range 5000 16777215⟩], (some TICK_STAT_CFG_ERR)⟩
  | .TICK_DIVN => ⟨0x40200014, [], 0x1, [⟨15, 0, .rw, .none, .any⟩], (some TICK_STAT_CFG_ERR)⟩
  | .TICK_FMAX => ⟨0x40200018, [], 0x493E0, [⟨19, 0, .ro, .none, .any⟩], (some TICK_STAT_CFG_ERR)⟩
  | .TICK_POS_LO => ⟨0x40200020, [], 0x0, [⟨15, 0, .view, .none, .any⟩, ⟨31, 16, .view, .none, .any⟩], (some TICK_STAT_CFG_ERR)⟩
  | .TICK_POS_HI => ⟨0x40200024, [], 0x0, [⟨31, 0, .ro, .none, .any⟩], (some TICK_STAT_CFG_ERR)⟩
  | .TICK_BEHIND => ⟨0x40200028, [], 0x0, [⟨31, 0, .view, .none, .any⟩], (some TICK_STAT_CFG_ERR)⟩
  | .TICK_SPEED => ⟨0x4020002C, [], 0x0, [⟨31, 0, .view, .none, .any⟩], (some TICK_STAT_CFG_ERR)⟩
  | .TICK_PAGE_LO => ⟨0x40200030, [], 0x0, [⟨31, 0, .view, .none, .any⟩], (some TICK_STAT_CFG_ERR)⟩
  | .TICK_PAGE_HI => ⟨0x40200034, [], 0x0, [⟨31, 0, .ro, .none, .any⟩], (some TICK_STAT_CFG_ERR)⟩
  | .TICK_HOLDADV => ⟨0x40200038, [], 0x0, [⟨31, 0, .view, .none, .any⟩], (some TICK_STAT_CFG_ERR)⟩
  | .TICK_STAT => ⟨0x40200040, [], 0x0, [⟨0, 0, .w1c, .none, .any⟩, ⟨1, 1, .w1c, .none, .any⟩, ⟨2, 2, .w1c, .none, .any⟩, ⟨3, 3, .w1c, .none, .any⟩, ⟨8, 8, .ro, .none, .any⟩], (some TICK_STAT_CFG_ERR)⟩
  | .TICK_OVS_CNT => ⟨0x40200044, [], 0x0, [⟨15, 0, .clr, .none, .any⟩], (some TICK_STAT_CFG_ERR)⟩
  | .TICK_LOST_CNT => ⟨0x40200048, [], 0x0, [⟨15, 0, .clr, .none, .any⟩], (some TICK_STAT_CFG_ERR)⟩
  | .TICK_REV_CNT => ⟨0x4020004C, [], 0x0, [⟨15, 0, .clr, .none, .any⟩], (some TICK_STAT_CFG_ERR)⟩
  | .TICK_CFG_CNT => ⟨0x40200050, [], 0x0, [⟨15, 0, .clr, .none, .any⟩], (some TICK_STAT_CFG_ERR)⟩
  | .TICK_SLACK => ⟨0x40200100, [(16, 0x4)], 0x0, [⟨3, 0, .view, .none, .any⟩, ⟨11, 8, .clr, .none, .any⟩, ⟨31, 16, .clr, .none, .any⟩], (some TICK_STAT_CFG_ERR)⟩
  | .TICK_TOFF => ⟨0x40200200, [(12, 0x8)], 0x0, [⟨15, 0, .rwc, .holdChg, .any⟩, ⟨31, 16, .rwc, .holdChg, .any⟩], (some TICK_STAT_CFG_ERR)⟩
  | .TICK_TOFFC => ⟨0x40200204, [(12, 0x8)], 0xFFFFFFFF, [⟨31, 0, .rwcc, .holdChg, .any⟩], (some TICK_STAT_CFG_ERR)⟩
  | .TICK_HIST => ⟨0x40201000, [(4096, 0x4)], 0x0, [⟨31, 0, .view, .none, .any⟩], (some TICK_STAT_CFG_ERR)⟩
  | .TIME_SEC_LO => ⟨0x40400000, [(2, 0x100)], 0x0, [⟨31, 0, .ro, .none, .any⟩], none⟩
  | .TIME_SEC_HI => ⟨0x40400004, [(2, 0x100)], 0x0, [⟨15, 0, .ro, .none, .any⟩], none⟩
  | .TIME_NS => ⟨0x40400008, [(2, 0x100)], 0x0, [⟨29, 0, .view, .none, .any⟩], none⟩
  | .TIME_OFS => ⟨0x40400010, [(2, 0x100)], 0x0, [⟨31, 0, .rw, .none, .any⟩], none⟩
  | .TIME_GAIN => ⟨0x40400014, [(2, 0x100)], 0x8000080, [⟨15, 0, .rw, .none, .any⟩, ⟨31, 16, .rw, .none, .any⟩], none⟩
  | .TIME_FREQ => ⟨0x40400018, [(2, 0x100)], 0x0, [⟨31, 0, .view, .none, .any⟩], none⟩
  | .TIME_LIM => ⟨0x4040001C, [(2, 0x100)], 0x6400C8, [⟨15, 0, .rw, .none, .any⟩, ⟨31, 16, .rw, .none, .any⟩], none⟩
  | .TIME_STEPTHR => ⟨0x40400020, [(2, 0x100)], 0xF4240, [⟨31, 0, .rw, .none, .any⟩], none⟩
  | .TIME_SET_SEC_LO => ⟨0x40400024, [(2, 0x100)], 0x0, [⟨31, 0, .rw, .none, .any⟩], none⟩
  | .TIME_SET_SEC_HI => ⟨0x40400028, [(2, 0x100)], 0x0, [⟨15, 0, .rw, .none, .any⟩], none⟩
  | .TIME_SET_NS => ⟨0x4040002C, [(2, 0x100)], 0x0, [⟨29, 0, .rw, .none, .rangeQuiet 0 999999999⟩], none⟩
  | .TIME_STAT_X => ⟨0x40400030, [(2, 0x100)], 0x0, [⟨0, 0, .ro, .none, .any⟩, ⟨8, 8, .w1c, .none, .any⟩, ⟨9, 9, .w1c, .none, .any⟩, ⟨10, 10, .w1c, .none, .any⟩], none⟩
  | .TIME_STEP_CNT => ⟨0x40400034, [(2, 0x100)], 0x0, [⟨15, 0, .clr, .none, .any⟩], none⟩
  | .TIME_HELD_CNT => ⟨0x40400038, [(2, 0x100)], 0x0, [⟨15, 0, .clr, .none, .any⟩], none⟩
  | .TIME_SETREF_CNT => ⟨0x4040003C, [(2, 0x100)], 0x0, [⟨15, 0, .clr, .none, .any⟩], none⟩
  | .TIME_CTL => ⟨0x40400200, [], 0x0, [⟨0, 0, .rw, .none, .any⟩], none⟩
  | .TIME_SWSTEP => ⟨0x40400204, [], 0x0, [⟨31, 0, .ro, .none, .any⟩], none⟩
  | .TIME_STAT => ⟨0x40400208, [], 0x0, [⟨0, 0, .w1c, .none, .any⟩], none⟩
  | .TIME_SWREF_CNT => ⟨0x4040020C, [], 0x0, [⟨15, 0, .clr, .none, .any⟩], none⟩
  | .TIME_DEV_SEC_LO => ⟨0x40400210, [], 0x0, [⟨31, 0, .ro, .none, .any⟩], none⟩
  | .TIME_DEV_SEC_HI => ⟨0x40400214, [], 0x0, [⟨15, 0, .ro, .none, .any⟩], none⟩
  | .TIME_DEV_NS => ⟨0x40400218, [], 0x0, [⟨29, 0, .view, .none, .any⟩], none⟩
  | .ENC_CTL => ⟨0x40300000, [(2, 0x100)], 0x8, [⟨1, 0, .rw, .holdChg, .any⟩, ⟨3, 2, .rw, .holdChg, .any⟩, ⟨4, 4, .rw, .holdChg, .any⟩, ⟨5, 5, .rw, .none, .any⟩, ⟨6, 6, .rw, .none, .any⟩, ⟨7, 7, .rw, .holdChg, .any⟩], (some ENC_STAT_CFG_ERR)⟩
  | .ENC_OBS => ⟨0x40300004, [(2, 0x100)], 0x2807D0, [⟨15, 0, .rw, .none, .special .bw⟩, ⟨27, 16, .rw, .holdChg, .range 20 4000⟩], (some ENC_STAT_CFG_ERR)⟩
  | .ENC_STILL => ⟨0x40300008, [(2, 0x100)], 0xC350, [⟨19, 0, .rw, .none, .range 1000 1000000⟩], (some ENC_STAT_CFG_ERR)⟩
  | .ENC_INTERP => ⟨0x4030000C, [(2, 0x100)], 0x400, [⟨12, 0, .rw, .holdChg, .range 4 4096⟩], (some ENC_STAT_CFG_ERR)⟩
  | .ENC_AMPWIN => ⟨0x40300010, [(2, 0x100)], 0x90001000, [⟨15, 0, .rw, .none, .special .ampPair⟩, ⟨31, 16, .rw, .none, .special .ampPair⟩], (some ENC_STAT_CFG_ERR)⟩
  | .ENC_SCOFS => ⟨0x40300014, [(2, 0x100)], 0x0, [⟨15, 0, .rw, .none, .any⟩, ⟨31, 16, .rw, .none, .any⟩], (some ENC_STAT_CFG_ERR)⟩
  | .ENC_SCGAIN => ⟨0x40300018, [(2, 0x100)], 0x4000, [⟨15, 0, .rw, .none, .any⟩], (some ENC_STAT_CFG_ERR)⟩
  | .ENC_SER => ⟨0x4030001C, [(2, 0x100)], 0x4001320, [⟨5, 0, .rw, .holdChg, .range 8 40⟩, ⟨15, 8, .rw, .holdChg, .range 9 249⟩, ⟨16, 16, .rw, .holdChg, .any⟩, ⟨17, 17, .rw, .holdChg, .any⟩, ⟨27, 24, .rw, .holdChg, .any⟩], (some ENC_STAT_CFG_ERR)⟩
  | .ENC_IDXPER => ⟨0x40300020, [(2, 0x100)], 0x0, [⟨31, 0, .rw, .none, .any⟩], (some ENC_STAT_CFG_ERR)⟩
  | .ENC_POS_LO => ⟨0x40300024, [(2, 0x100)], 0x0, [⟨15, 0, .view, .none, .any⟩, ⟨31, 16, .view, .none, .any⟩], (some ENC_STAT_CFG_ERR)⟩
  | .ENC_POS_HI => ⟨0x40300028, [(2, 0x100)], 0x0, [⟨31, 0, .ro, .none, .any⟩], (some ENC_STAT_CFG_ERR)⟩
  | .ENC_SPEED => ⟨0x4030002C, [(2, 0x100)], 0x0, [⟨31, 0, .view, .none, .any⟩], (some ENC_STAT_CFG_ERR)⟩
  | .ENC_ACC => ⟨0x40300030, [(2, 0x100)], 0x0, [⟨31, 0, .view, .none, .any⟩], (some ENC_STAT_CFG_ERR)⟩
  | .ENC_IDXDIFF => ⟨0x40300034, [(2, 0x100)], 0x0, [⟨31, 0, .ro, .none, .any⟩], (some ENC_STAT_CFG_ERR)⟩
  | .ENC_IPOS => ⟨0x40300038, [(2, 0x100)], 0x0, [⟨31, 0, .view, .none, .any⟩], (some ENC_STAT_CFG_ERR)⟩
  | .ENC_AMP => ⟨0x4030003C, [(2, 0x100)], 0x0, [⟨15, 0, .ro, .none, .any⟩], (some ENC_STAT_CFG_ERR)⟩
  | .ENC_STAT => ⟨0x40300040, [(2, 0x100)], 0x100, [⟨0, 0, .w1c, .none, .any⟩, ⟨1, 1, .w1c, .none, .any⟩, ⟨2, 2, .w1c, .none, .any⟩, ⟨3, 3, .w1c, .none, .any⟩, ⟨4, 4, .w1c, .none, .any⟩, ⟨5, 5, .w1c, .none, .any⟩, ⟨6, 6, .w1c, .none, .any⟩, ⟨8, 8, .ro, .none, .any⟩, ⟨9, 9, .ro, .none, .any⟩, ⟨10, 10, .ro, .none, .any⟩], (some ENC_STAT_CFG_ERR)⟩
  | .ENC_AMP_CNT => ⟨0x40300044, [(2, 0x100)], 0x0, [⟨15, 0, .clr, .none, .any⟩], (some ENC_STAT_CFG_ERR)⟩
  | .ENC_IDX_CNT => ⟨0x40300048, [(2, 0x100)], 0x0, [⟨15, 0, .clr, .none, .any⟩], (some ENC_STAT_CFG_ERR)⟩
  | .ENC_PJ_CNT => ⟨0x4030004C, [(2, 0x100)], 0x0, [⟨15, 0, .clr, .none, .any⟩], (some ENC_STAT_CFG_ERR)⟩
  | .ENC_CRC_CNT => ⟨0x40300050, [(2, 0x100)], 0x0, [⟨15, 0, .clr, .none, .any⟩], (some ENC_STAT_CFG_ERR)⟩
  | .ENC_LOST_CNT => ⟨0x40300054, [(2, 0x100)], 0x0, [⟨15, 0, .clr, .none, .any⟩], (some ENC_STAT_CFG_ERR)⟩
  | .ENC_CFG_CNT => ⟨0x40300058, [(2, 0x100)], 0x0, [⟨15, 0, .clr, .none, .any⟩], (some ENC_STAT_CFG_ERR)⟩
  | .ENC_BERR_CNT => ⟨0x4030005C, [(2, 0x100)], 0x0, [⟨15, 0, .clr, .none, .any⟩], (some ENC_STAT_CFG_ERR)⟩
  | .ENC_PT_CTL => ⟨0x40300200, [], 0x10400, [⟨0, 0, .rw, .none, .any⟩, ⟨15, 8, .rw, .holdChg, .any⟩, ⟨31, 16, .rw, .holdChg, .any⟩], (some ENC_STAT_CFG_ERR)⟩
  | .ENC_PT_ZPER => ⟨0x40300204, [], 0x0, [⟨31, 0, .rw, .holdChg, .any⟩], (some ENC_STAT_CFG_ERR)⟩
  | .ENC_PT_STAT => ⟨0x40300208, [], 0x0, [⟨0, 0, .w1c, .none, .any⟩, ⟨31, 16, .view, .none, .any⟩], none⟩
  | .ENC_PT_OVF_CNT => ⟨0x4030020C, [], 0x0, [⟨15, 0, .clr, .none, .any⟩], none⟩
  | .LANE_CTL => ⟨0x40500000, [(36, 0x100)], 0x1042, [⟨0, 0, .rw, .none, .any⟩, ⟨1, 1, .rw, .none, .any⟩, ⟨2, 2, .rw, .holdChg, .any⟩, ⟨3, 3, .rw, .none, .any⟩, ⟨4, 4, .rw, .none, .any⟩, ⟨7, 5, .rw, .none, .any⟩, ⟨12, 8, .rw, .none, .any⟩, ⟨13, 13, .wo, .none, .any⟩], none⟩
  | .LANE_RT => ⟨0x40500004, [(36, 0x100)], 0xA0414, [⟨7, 0, .rw, .none, .any⟩, ⟨13, 8, .rw, .none, .any⟩, ⟨31, 16, .rw, .none, .any⟩], none⟩
  | .LANE_CSLIM => ⟨0x40500008, [(36, 0x100)], 0xC350, [⟨31, 0, .rw, .none, .any⟩], none⟩
  | .LANE_STATE => ⟨0x40500010, [(36, 0x100)], 0x1000, [⟨2, 0, .view, .none, .any⟩, ⟨12, 8, .view, .none, .any⟩, ⟨21, 16, .view, .none, .any⟩, ⟨29, 24, .view, .none, .any⟩], none⟩
  | .LANE_STAT => ⟨0x40500014, [(36, 0x100)], 0x0, [⟨0, 0, .w1c, .none, .any⟩, ⟨1, 1, .w1c, .none, .any⟩, ⟨2, 2, .w1c, .none, .any⟩, ⟨3, 3, .w1c, .none, .any⟩, ⟨4, 4, .w1c, .none, .any⟩, ⟨5, 5, .w1c, .none, .any⟩, ⟨6, 6, .w1c, .none, .any⟩], none⟩
  | .LANE_LL_CNT => ⟨0x40500018, [(36, 0x100)], 0x0, [⟨15, 0, .clr, .none, .any⟩], none⟩
  | .LANE_FL_CNT => ⟨0x4050001C, [(36, 0x100)], 0x0, [⟨15, 0, .clr, .none, .any⟩], none⟩
  | .LANE_UCW_CNT => ⟨0x40500020, [(36, 0x100)], 0x0, [⟨15, 0, .clr, .none, .any⟩], none⟩
  | .LANE_EB_CNT => ⟨0x40500024, [(36, 0x100)], 0x0, [⟨15, 0, .clr, .none, .any⟩], none⟩
  | .LANE_FC_CNT => ⟨0x40500028, [(36, 0x100)], 0x0, [⟨15, 0, .clr, .none, .any⟩], none⟩
  | .LANE_CR_CNT => ⟨0x4050002C, [(36, 0x100)], 0x0, [⟨15, 0, .clr, .none, .any⟩], none⟩
  | .LANE_RT_CNT => ⟨0x40500030, [(36, 0x100)], 0x0, [⟨15, 0, .clr, .none, .any⟩], none⟩
  | .LANE_CW => ⟨0x40500040, [(36, 0x100)], 0x0, [⟨31, 0, .clr, .none, .any⟩], none⟩
  | .LANE_CSYM => ⟨0x40500044, [(36, 0x100)], 0x0, [⟨31, 0, .clr, .none, .any⟩], none⟩
  | .LANE_UCWTOT => ⟨0x40500048, [(36, 0x100)], 0x0, [⟨31, 0, .clr, .none, .any⟩], none⟩
  | .LANE_PKTDROP => ⟨0x4050004C, [(36, 0x100)], 0x0, [⟨31, 0, .clr, .none, .any⟩], none⟩
  | .LANE_EBCNT => ⟨0x40500050, [(36, 0x100)], 0x0, [⟨15, 0, .ro, .none, .any⟩, ⟨31, 16, .ro, .none, .any⟩], none⟩
  | .LANE_ESCAN_CTL => ⟨0x40500054, [(36, 0x100)], 0x0, [⟨6, 0, .rw, .none, .any⟩, ⟨14, 8, .rw, .none, .any⟩, ⟨17, 16, .rw, .none, .any⟩, ⟨23, 20, .rw, .none, .any⟩, ⟨31, 31, .wo, .none, .any⟩], none⟩
  | .LANE_ESCAN_RES => ⟨0x40500058, [(36, 0x100)], 0x0, [⟨0, 0, .ro, .none, .any⟩, ⟨1, 1, .ro, .none, .any⟩], none⟩
  | .LANE_ESCAN_ERR => ⟨0x4050005C, [(36, 0x100)], 0x0, [⟨31, 0, .ro, .none, .any⟩], none⟩
  | .CAM_CTL => ⟨0x40600000, [(12, 0x100)], 0x18E, [⟨0, 0, .rw, .none, .any⟩, ⟨2, 1, .rw, .holdChg, .range 1 3⟩, ⟨4, 3, .rw, .holdChg, .range 0 2⟩, ⟨7, 5, .rw, .holdChg, .range 1 4⟩, ⟨8, 8, .rw, .none, .any⟩, ⟨15, 12, .rw, .none, .any⟩], (some CAM_STAT_CFG_ERR)⟩
  | .CAM_PIX => ⟨0x40600004, [(12, 0x100)], 0x3000, [⟨14, 0, .rw, .holdChg, .special .pix⟩], (some CAM_STAT_CFG_ERR)⟩
  | .CAM_STATE => ⟨0x40600008, [(12, 0x100)], 0x0, [⟨1, 0, .view, .none, .any⟩, ⟨3, 2, .view, .none, .any⟩, ⟨5, 4, .view, .none, .any⟩, ⟨10, 8, .view, .none, .any⟩], (some CAM_STAT_CFG_ERR)⟩
  | .CAM_SFMAX => ⟨0x4060000C, [(12, 0x100)], 0x493E0, [⟨19, 0, .ro, .none, .any⟩], (some CAM_STAT_CFG_ERR)⟩
  | .CAM_STAT => ⟨0x40600010, [(12, 0x100)], 0x0, [⟨0, 0, .w1c, .none, .any⟩, ⟨1, 1, .w1c, .none, .any⟩, ⟨2, 2, .w1c, .none, .any⟩, ⟨3, 3, .w1c, .none, .any⟩, ⟨4, 4, .w1c, .none, .any⟩, ⟨5, 5, .w1c, .none, .any⟩, ⟨6, 6, .w1c, .none, .any⟩, ⟨7, 7, .w1c, .none, .any⟩], (some CAM_STAT_CFG_ERR)⟩
  | .CAM_DEG_CNT => ⟨0x40600014, [(12, 0x100)], 0x0, [⟨15, 0, .clr, .none, .any⟩], (some CAM_STAT_CFG_ERR)⟩
  | .CAM_STOP_CNT => ⟨0x40600018, [(12, 0x100)], 0x0, [⟨15, 0, .clr, .none, .any⟩], (some CAM_STAT_CFG_ERR)⟩
  | .CAM_LL_CNT => ⟨0x4060001C, [(12, 0x100)], 0x0, [⟨15, 0, .clr, .none, .any⟩], (some CAM_STAT_CFG_ERR)⟩
  | .CAM_STRAY_CNT => ⟨0x40600020, [(12, 0x100)], 0x0, [⟨15, 0, .clr, .none, .any⟩], (some CAM_STAT_CFG_ERR)⟩
  | .CAM_FMTTO_CNT => ⟨0x40600024, [(12, 0x100)], 0x0, [⟨15, 0, .clr, .none, .any⟩], (some CAM_STAT_CFG_ERR)⟩
  | .CAM_REGTO_CNT => ⟨0x40600028, [(12, 0x100)], 0x0, [⟨15, 0, .clr, .none, .any⟩], (some CAM_STAT_CFG_ERR)⟩
  | .CAM_EXPO_CNT => ⟨0x4060002C, [(12, 0x100)], 0x0, [⟨15, 0, .clr, .none, .any⟩], (some CAM_STAT_CFG_ERR)⟩
  | .CAM_CFG_CNT => ⟨0x40600030, [(12, 0x100)], 0x0, [⟨15, 0, .clr, .none, .any⟩], (some CAM_STAT_CFG_ERR)⟩
  | .CAM_LOST => ⟨0x40600040, [(12, 0x100)], 0x0, [⟨31, 0, .clr, .none, .any⟩], (some CAM_STAT_CFG_ERR)⟩
  | .CAM_REGCMD => ⟨0x40600044, [(12, 0x100)], 0x0, [⟨23, 0, .rw, .none, .any⟩, ⟨24, 24, .rw, .none, .any⟩, ⟨31, 31, .wo, .none, .any⟩], (some CAM_STAT_CFG_ERR)⟩
  | .CAM_REGWD => ⟨0x40600048, [(12, 0x100)], 0x0, [⟨31, 0, .rw, .none, .any⟩], (some CAM_STAT_CFG_ERR)⟩
  | .CAM_REGRD => ⟨0x4060004C, [(12, 0x100)], 0x0, [⟨31, 0, .ro, .none, .any⟩], (some CAM_STAT_CFG_ERR)⟩
  | .CAM_REGRES => ⟨0x40600050, [(12, 0x100)], 0x0, [⟨7, 0, .ro, .none, .any⟩, ⟨8, 8, .ro, .none, .any⟩, ⟨9, 9, .ro, .none, .any⟩], (some CAM_STAT_CFG_ERR)⟩
  | .IU_CTL => ⟨0x40700000, [(12, 0x100)], 0xC, [⟨0, 0, .rw, .hold, .any⟩, ⟨1, 1, .rw, .hold, .any⟩, ⟨2, 2, .rw, .none, .any⟩, ⟨3, 3, .rw, .none, .any⟩, ⟨6, 4, .rw, .hold, .any⟩], (some IU_STAT_CFG_ERR)⟩
  | .IU_TBASE => ⟨0x40700004, [(12, 0x100)], 0x0, [⟨23, 0, .ro, .none, .any⟩], (some IU_STAT_CFG_ERR)⟩
  | .IU_TNEW => ⟨0x40700008, [(12, 0x100)], 0x0, [⟨23, 0, .rw, .none, .align 5⟩], (some IU_STAT_CFG_ERR)⟩
  | .IU_TLINE_LO => ⟨0x4070000C, [(12, 0x100)], 0x0, [⟨31, 0, .rw, .none, .any⟩], (some IU_STAT_CFG_ERR)⟩
  | .IU_TLINE_HI => ⟨0x40700010, [(12, 0x100)], 0x0, [⟨15, 0, .rw, .none, .any⟩], (some IU_STAT_CFG_ERR)⟩
  | .IU_TCMD => ⟨0x40700014, [(12, 0x100)], 0x0, [⟨0, 0, .wo, .none, .any⟩], (some IU_STAT_CFG_ERR)⟩
  | .IU_TRES => ⟨0x40700018, [(12, 0x100)], 0x0, [⟨7, 0, .ro, .none, .any⟩, ⟨8, 8, .ro, .none, .any⟩, ⟨9, 9, .ro, .none, .any⟩, ⟨10, 10, .ro, .none, .any⟩, ⟨29, 16, .ro, .none, .any⟩], (some IU_STAT_CFG_ERR)⟩
  | .IU_STWIN => ⟨0x4070001C, [(12, 0x100)], 0x0, [⟨13, 0, .rw, .none, .special .stlo⟩, ⟨29, 16, .rw, .none, .special .sthi⟩], (some IU_STAT_CFG_ERR)⟩
  | .IU_SBLK => ⟨0x40700020, [(12, 0x100)], 0xC, [⟨4, 0, .rw, .none, .any⟩, ⟨8, 8, .rw, .none, .any⟩], (some IU_STAT_CFG_ERR)⟩
  | .IU_MEAN_RG => ⟨0x40700024, [(12, 0x100)], 0x0, [⟨15, 0, .ro, .none, .any⟩, ⟨31, 16, .ro, .none, .any⟩], (some IU_STAT_CFG_ERR)⟩
  | .IU_MEAN_BN => ⟨0x40700028, [(12, 0x100)], 0x0, [⟨15, 0, .ro, .none, .any⟩, ⟨31, 16, .ro, .none, .any⟩], (some IU_STAT_CFG_ERR)⟩
  | .IU_SATN => ⟨0x4070002C, [(12, 0x100)], 0x0, [⟨31, 0, .ro, .none, .any⟩], (some IU_STAT_CFG_ERR)⟩
  | .IU_DREF_RG => ⟨0x40700030, [(12, 0x100)], 0x0, [⟨15, 0, .rw, .none, .any⟩, ⟨31, 16, .rw, .none, .any⟩], (some IU_STAT_CFG_ERR)⟩
  | .IU_DREF_BN => ⟨0x40700034, [(12, 0x100)], 0x0, [⟨15, 0, .rw, .none, .any⟩, ⟨31, 16, .rw, .none, .any⟩], (some IU_STAT_CFG_ERR)⟩
  | .IU_DTOL => ⟨0x40700038, [(12, 0x100)], 0x0, [⟨15, 0, .rw, .none, .any⟩], (some IU_STAT_CFG_ERR)⟩
  | .IU_SRIDX => ⟨0x4070003C, [(12, 0x100)], 0x0, [⟨7, 0, .ro, .none, .any⟩], (some IU_STAT_CFG_ERR)⟩
  | .IU_STAT => ⟨0x40700040, [(12, 0x100)], 0x0, [⟨0, 0, .w1c, .none, .any⟩, ⟨1, 1, .w1c, .none, .any⟩, ⟨2, 2, .w1c, .none, .any⟩, ⟨3, 3, .w1c, .none, .any⟩, ⟨4, 4, .w1c, .none, .any⟩, ⟨5, 5, .w1c, .none, .any⟩], (some IU_STAT_CFG_ERR)⟩
  | .IU_DRIFT_CNT => ⟨0x40700044, [(12, 0x100)], 0x0, [⟨15, 0, .clr, .none, .any⟩], (some IU_STAT_CFG_ERR)⟩
  | .IU_HELD_CNT => ⟨0x40700048, [(12, 0x100)], 0x0, [⟨15, 0, .clr, .none, .any⟩], (some IU_STAT_CFG_ERR)⟩
  | .IU_RANGE_CNT => ⟨0x4070004C, [(12, 0x100)], 0x0, [⟨15, 0, .clr, .none, .any⟩], (some IU_STAT_CFG_ERR)⟩
  | .IU_TERR_CNT => ⟨0x40700050, [(12, 0x100)], 0x0, [⟨15, 0, .clr, .none, .any⟩], (some IU_STAT_CFG_ERR)⟩
  | .IU_SKIP_CNT => ⟨0x40700054, [(12, 0x100)], 0x0, [⟨15, 0, .clr, .none, .any⟩], (some IU_STAT_CFG_ERR)⟩
  | .IU_CFG_CNT => ⟨0x40700058, [(12, 0x100)], 0x0, [⟨15, 0, .clr, .none, .any⟩], (some IU_STAT_CFG_ERR)⟩
  | .IU_ACC_CTL => ⟨0x40700060, [(12, 0x100)], 0x10000, [⟨0, 0, .wo, .none, .any⟩, ⟨2, 1, .rw, .none, .any⟩, ⟨31, 16, .rw, .none, .any⟩], (some IU_STAT_CFG_ERR)⟩
  | .IU_ACC_LO => ⟨0x40700064, [(12, 0x100)], 0x0, [⟨31, 0, .rw, .none, .align 12⟩], (some IU_STAT_CFG_ERR)⟩
  | .IU_ACC_HI => ⟨0x40700068, [(12, 0x100)], 0x0, [⟨7, 0, .rw, .none, .any⟩], (some IU_STAT_CFG_ERR)⟩
  | .IU_ACC_STAT => ⟨0x4070006C, [(12, 0x100)], 0x0, [⟨0, 0, .ro, .none, .any⟩, ⟨1, 1, .ro, .none, .any⟩, ⟨31, 16, .ro, .none, .any⟩], (some IU_STAT_CFG_ERR)⟩
  | .IU_LREF => ⟨0x40700C00, [(8, 0x4)], 0x0, [⟨15, 0, .rw, .none, .any⟩], none⟩
  | .IU_LLIM => ⟨0x40700C20, [], 0x7FFF2000, [⟨15, 0, .rw, .none, .special .gmin⟩, ⟨31, 16, .rw, .none, .special .gmax⟩], none⟩
  | .IU_LHBASE => ⟨0x40700C24, [], 0x0, [⟨23, 0, .rw, .hold, .alignQuiet 12⟩], none⟩
  | .IU_SRBASE => ⟨0x40700C28, [], 0x0, [⟨23, 0, .rw, .hold, .alignQuiet 12⟩], none⟩
  | .SE_CTL => ⟨0x40800000, [(16, 0x10000)], 0x0, [⟨0, 0, .rw, .none, .any⟩, ⟨1, 1, .wo, .none, .any⟩], (some SE_STAT_CFG_ERR)⟩
  | .SE_IMG_LO => ⟨0x40800004, [(16, 0x10000)], 0x0, [⟨31, 0, .rw, .none, .align 6⟩], (some SE_STAT_CFG_ERR)⟩
  | .SE_IMG_HI => ⟨0x40800008, [(16, 0x10000)], 0x0, [⟨7, 0, .rw, .none, .any⟩], (some SE_STAT_CFG_ERR)⟩
  | .SE_LDCMD => ⟨0x4080000C, [(16, 0x10000)], 0x0, [⟨0, 0, .wo, .none, .any⟩, ⟨1, 1, .rw, .none, .any⟩, ⟨26, 16, .rw, .none, .any⟩], (some SE_STAT_CFG_ERR)⟩
  | .SE_LDRES => ⟨0x40800010, [(16, 0x10000)], 0x0, [⟨7, 0, .ro, .none, .any⟩, ⟨8, 8, .ro, .none, .any⟩, ⟨9, 9, .ro, .none, .any⟩, ⟨10, 10, .view, .none, .any⟩, ⟨14, 12, .ro, .none, .any⟩], (some SE_STAT_CFG_ERR)⟩
  | .SE_STATE => ⟨0x40800014, [(16, 0x10000)], 0x0, [⟨2, 0, .view, .none, .any⟩, ⟨3, 3, .view, .none, .any⟩, ⟨5, 4, .view, .none, .any⟩, ⟨18, 8, .view, .none, .any⟩], (some SE_STAT_CFG_ERR)⟩
  | .SE_BUDGET => ⟨0x40800018, [(16, 0x10000)], 0x1388, [⟨23, 0, .rw, .hold, .range 5000 16777215⟩], (some SE_STAT_CFG_ERR)⟩
  | .SE_COST => ⟨0x4080001C, [(16, 0x10000)], 0x0, [⟨23, 0, .ro, .none, .any⟩], (some SE_STAT_CFG_ERR)⟩
  | .SE_BANK => ⟨0x40800020, [(16, 0x10000)], 0x0, [⟨23, 0, .ro, .none, .any⟩], (some SE_STAT_CFG_ERR)⟩
  | .SE_FMAXC => ⟨0x40800024, [(16, 0x10000)], 0x493E0, [⟨19, 0, .ro, .none, .any⟩], (some SE_STAT_CFG_ERR)⟩
  | .SE_RUNCYC => ⟨0x40800028, [(16, 0x10000)], 0x0, [⟨23, 0, .ro, .none, .any⟩], (some SE_STAT_CFG_ERR)⟩
  | .SE_RUNPEAK => ⟨0x4080002C, [(16, 0x10000)], 0x0, [⟨23, 0, .clr, .none, .any⟩], (some SE_STAT_CFG_ERR)⟩
  | .SE_LINE_LO => ⟨0x40800030, [(16, 0x10000)], 0x0, [⟨31, 0, .view, .none, .any⟩], (some SE_STAT_CFG_ERR)⟩
  | .SE_LINE_HI => ⟨0x40800034, [(16, 0x10000)], 0x0, [⟨15, 0, .ro, .none, .any⟩], (some SE_STAT_CFG_ERR)⟩
  | .SE_QPEAK => ⟨0x40800038, [(16, 0x10000)], 0x0, [⟨6, 0, .clr, .none, .any⟩], (some SE_STAT_CFG_ERR)⟩
  | .SE_STRIPE => ⟨0x4080003C, [(16, 0x10000)], 0x0, [⟨17, 0, .rw, .hold, .rangeQuiet 0 137215⟩, ⟨31, 18, .rw, .hold, .special .swidth⟩], (some SE_STAT_CFG_ERR)⟩
  | .SE_STAT => ⟨0x40800040, [(16, 0x10000)], 0x0, [⟨0, 0, .w1c, .none, .any⟩, ⟨1, 1, .w1c, .none, .any⟩, ⟨2, 2, .w1c, .none, .any⟩, ⟨3, 3, .w1c, .none, .any⟩, ⟨4, 4, .w1c, .none, .any⟩, ⟨5, 5, .w1c, .none, .any⟩], (some SE_STAT_CFG_ERR)⟩
  | .SE_FAULT_CNT => ⟨0x40800044, [(16, 0x10000)], 0x0, [⟨15, 0, .clr, .none, .any⟩], (some SE_STAT_CFG_ERR)⟩
  | .SE_BLIND_CNT => ⟨0x40800048, [(16, 0x10000)], 0x0, [⟨15, 0, .clr, .none, .any⟩], (some SE_STAT_CFG_ERR)⟩
  | .SE_WCOLL_CNT => ⟨0x4080004C, [(16, 0x10000)], 0x0, [⟨15, 0, .clr, .none, .any⟩], (some SE_STAT_CFG_ERR)⟩
  | .SE_STCE_CNT => ⟨0x40800050, [(16, 0x10000)], 0x0, [⟨15, 0, .clr, .none, .any⟩], (some SE_STAT_CFG_ERR)⟩
  | .SE_CFG_CNT => ⟨0x40800054, [(16, 0x10000)], 0x0, [⟨15, 0, .clr, .none, .any⟩], (some SE_STAT_CFG_ERR)⟩
  | .SE_LDF_CNT => ⟨0x40800058, [(16, 0x10000)], 0x0, [⟨15, 0, .clr, .none, .any⟩], (some SE_STAT_CFG_ERR)⟩
  | .SE_SBUDGET => ⟨0x4080005C, [(16, 0x10000)], 0x1388, [⟨23, 0, .rw, .none, .range 5000 16777215⟩], (some SE_STAT_CFG_ERR)⟩
  | .SE_RING_A => ⟨0x40800100, [(16, 0x10000), (8, 0x10)], 0x0, [⟨21, 0, .view, .none, .any⟩, ⟨26, 24, .view, .none, .any⟩, ⟨31, 31, .view, .none, .any⟩], (some SE_STAT_CFG_ERR)⟩
  | .SE_RING_B => ⟨0x40800104, [(16, 0x10000), (8, 0x10)], 0x0, [⟨14, 0, .view, .none, .any⟩, ⟨23, 16, .view, .none, .any⟩, ⟨24, 24, .view, .none, .any⟩], (some SE_STAT_CFG_ERR)⟩
  | .SE_RING_C => ⟨0x40800108, [(16, 0x10000), (8, 0x10)], 0x0, [⟨21, 0, .view, .none, .any⟩, ⟨27, 24, .view, .none, .any⟩, ⟨31, 31, .view, .none, .any⟩], (some SE_STAT_CFG_ERR)⟩
  | .SE_RING_D => ⟨0x4080010C, [(16, 0x10000), (8, 0x10)], 0x0, [⟨13, 0, .view, .none, .any⟩, ⟨29, 16, .view, .none, .any⟩], (some SE_STAT_CFG_ERR)⟩
  | .ACCORD_CTL => ⟨0x40900000, [], 0x0, [⟨0, 0, .rw, .hold, .any⟩], (some ACCORD_STAT_CFG_ERR)⟩
  | .ACCORD_RES => ⟨0x40900004, [], 0x0, [⟨7, 0, .ro, .none, .any⟩, ⟨10, 8, .ro, .none, .any⟩, ⟨21, 16, .ro, .none, .any⟩], (some ACCORD_STAT_CFG_ERR)⟩
  | .ACCORD_OUTW => ⟨0x40900008, [], 0x21800, [⟨17, 0, .rw, .hold, .range 64 137216⟩], (some ACCORD_STAT_CFG_ERR)⟩
  | .ACCORD_X0 => ⟨0x4090000C, [], 0x0, [⟨31, 0, .rw, .hold, .any⟩], (some ACCORD_STAT_CFG_ERR)⟩
  | .ACCORD_XPITCH => ⟨0x40900010, [], 0x142FA4B, [⟨31, 0, .rw, .hold, .range 1000000 100000000⟩], (some ACCORD_STAT_CFG_ERR)⟩
  | .ACCORD_MCHK_CMD => ⟨0x40900020, [], 0x0, [⟨3, 0, .rw, .none, .any⟩, ⟨31, 31, .wo, .none, .any⟩], (some ACCORD_STAT_CFG_ERR)⟩
  | .ACCORD_MCHK_SET => ⟨0x40900024, [], 0x0, [⟨31, 0, .rw, .none, .any⟩], (some ACCORD_STAT_CFG_ERR)⟩
  | .ACCORD_MRES => ⟨0x40900028, [], 0x0, [⟨7, 0, .ro, .none, .any⟩, ⟨8, 8, .ro, .none, .any⟩, ⟨9, 9, .ro, .none, .any⟩, ⟨12, 10, .ro, .none, .any⟩, ⟨29, 16, .ro, .none, .any⟩, ⟨31, 30, .ro, .none, .any⟩], (some ACCORD_STAT_CFG_ERR)⟩
  | .ACCORD_STAT => ⟨0x40900040, [], 0x0, [⟨0, 0, .w1c, .none, .any⟩, ⟨1, 1, .w1c, .none, .any⟩, ⟨2, 2, .w1c, .none, .any⟩], (some ACCORD_STAT_CFG_ERR)⟩
  | .ACCORD_RERR_CNT => ⟨0x40900044, [], 0x0, [⟨15, 0, .clr, .none, .any⟩], (some ACCORD_STAT_CFG_ERR)⟩
  | .ACCORD_LATE_CNT => ⟨0x40900048, [], 0x0, [⟨15, 0, .clr, .none, .any⟩], (some ACCORD_STAT_CFG_ERR)⟩
  | .ACCORD_CFG_CNT => ⟨0x4090004C, [], 0x0, [⟨15, 0, .clr, .none, .any⟩], (some ACCORD_STAT_CFG_ERR)⟩
  | .ACCORD_RTA => ⟨0x40900100, [(64, 0x8)], 0x0, [⟨0, 0, .rw, .hold, .any⟩, ⟨7, 4, .rw, .hold, .any⟩, ⟨10, 8, .rw, .hold, .any⟩, ⟨15, 12, .rw, .hold, .any⟩], (some ACCORD_STAT_CFG_ERR)⟩
  | .ACCORD_RTB => ⟨0x40900104, [(64, 0x8)], 0x0, [⟨13, 0, .rw, .hold, .any⟩, ⟨30, 16, .rw, .hold, .any⟩], (some ACCORD_STAT_CFG_ERR)⟩
  | .REF_CTL => ⟨0x40A00000, [], 0x210, [⟨0, 0, .rw, .hold, .any⟩, ⟨2, 1, .rw, .hold, .any⟩, ⟨4, 3, .rw, .hold, .any⟩, ⟨6, 5, .rw, .hold, .range 0 2⟩, ⟨11, 8, .rw, .hold, .any⟩], (some REF_STAT_CFG_ERR)⟩
  | .REF_RES => ⟨0x40A00004, [], 0x0, [⟨7, 0, .ro, .none, .any⟩, ⟨11, 8, .ro, .none, .any⟩, ⟨12, 12, .ro, .none, .any⟩], (some REF_STAT_CFG_ERR)⟩
  | .REF_CMD => ⟨0x40A00008, [], 0x0, [⟨0, 0, .wo, .none, .any⟩, ⟨1, 1, .wo, .none, .any⟩], (some REF_STAT_CFG_ERR)⟩
  | .REF_RBASE_LO => ⟨0x40A00010, [], 0x0, [⟨31, 0, .rw, .hold, .align 12⟩], (some REF_STAT_CFG_ERR)⟩
  | .REF_RBASE_HI => ⟨0x40A00014, [], 0x0, [⟨7, 0, .rw, .hold, .any⟩], (some REF_STAT_CFG_ERR)⟩
  | .REF_RROWS => ⟨0x40A00018, [], 0x0, [⟨31, 0, .rw, .hold, .any⟩], (some REF_STAT_CFG_ERR)⟩
  | .REF_RPITCH => ⟨0x40A0001C, [], 0x0, [⟨23, 0, .rw, .hold, .any⟩], (some REF_STAT_CFG_ERR)⟩
  | .REF_RWIDTH => ⟨0x40A00020, [], 0x0, [⟨17, 0, .rw, .hold, .any⟩], (some REF_STAT_CFG_ERR)⟩
  | .REF_TILE => ⟨0x40A00024, [], 0x10001000, [⟨15, 0, .rw, .hold, .range 512 16384⟩, ⟨31, 16, .rw, .hold, .any⟩], (some REF_STAT_CFG_ERR)⟩
  | .REF_PMAX => ⟨0x40A00028, [], 0x0, [⟨31, 0, .rw, .hold, .any⟩], (some REF_STAT_CFG_ERR)⟩
  | .REF_PLEN => ⟨0x40A0002C, [], 0x0, [⟨31, 0, .rw, .hold, .any⟩], (some REF_STAT_CFG_ERR)⟩
  | .REF_PLENF => ⟨0x40A00030, [], 0x0, [⟨15, 0, .rw, .hold, .any⟩], (some REF_STAT_CFG_ERR)⟩
  | .REF_OVR => ⟨0x40A00034, [], 0x0, [⟨15, 0, .rw, .hold, .any⟩], (some REF_STAT_CFG_ERR)⟩
  | .REF_PAGEOFS => ⟨0x40A00038, [], 0x0, [⟨31, 0, .rw, .hold, .any⟩], (some REF_STAT_CFG_ERR)⟩
  | .REF_MARK => ⟨0x40A0003C, [], 0x0, [⟨15, 0, .rw, .hold, .special .markPair⟩, ⟨19, 16, .rw, .hold, .any⟩, ⟨31, 20, .rw, .hold, .special .markPair⟩], (some REF_STAT_CFG_ERR)⟩
  | .REF_FIRST_LO => ⟨0x40A00040, [], 0x0, [⟨31, 0, .rw, .none, .any⟩], (some REF_STAT_CFG_ERR)⟩
  | .REF_FIRST_HI => ⟨0x40A00044, [], 0x0, [⟨15, 0, .rw, .none, .any⟩], (some REF_STAT_CFG_ERR)⟩
  | .REF_TRKCFG => ⟨0x40A00048, [], 0x40, [⟨15, 0, .rw, .none, .any⟩], (some REF_STAT_CFG_ERR)⟩
  | .REF_AB => ⟨0x40A0004C, [], 0x51F4000, [⟨15, 0, .rw, .none, .any⟩, ⟨31, 16, .rw, .none, .any⟩], (some REF_STAT_CFG_ERR)⟩
  | .REF_Q => ⟨0x40A00050, [], 0xA3D051F, [⟨15, 0, .rw, .none, .special .qPair⟩, ⟨31, 16, .rw, .none, .special .qPair⟩], (some REF_STAT_CFG_ERR)⟩
  | .REF_LIM => ⟨0x40A00054, [], 0x13882020, [⟨7, 0, .rw, .none, .any⟩, ⟨15, 8, .rw, .none, .any⟩, ⟨31, 16, .rw, .none, .any⟩], (some REF_STAT_CFG_ERR)⟩
  | .REF_PSTAT => ⟨0x40A00060, [], 0x0, [⟨6, 0, .view, .none, .any⟩], (some REF_STAT_CFG_ERR)⟩
  | .REF_PID => ⟨0x40A00064, [], 0xFFFFFFFF, [⟨31, 0, .view, .none, .any⟩], (some REF_STAT_CFG_ERR)⟩
  | .REF_STAT => ⟨0x40A00070, [], 0x0, [⟨0, 0, .w1c, .none, .any⟩, ⟨1, 1, .w1c, .none, .any⟩, ⟨2, 2, .w1c, .none, .any⟩, ⟨3, 3, .w1c, .none, .any⟩, ⟨4, 4, .w1c, .none, .any⟩, ⟨5, 5, .w1c, .none, .any⟩, ⟨6, 6, .w1c, .none, .any⟩, ⟨7, 7, .w1c, .none, .any⟩, ⟨8, 8, .w1c, .none, .any⟩, ⟨9, 9, .w1c, .none, .any⟩, ⟨10, 10, .w1c, .none, .any⟩, ⟨11, 11, .w1c, .none, .any⟩, ⟨12, 12, .w1c, .none, .any⟩], (some REF_STAT_CFG_ERR)⟩
  | .REF_PKT_CNT => ⟨0x40A00080, [], 0x0, [⟨15, 0, .clr, .none, .any⟩], (some REF_STAT_CFG_ERR)⟩
  | .REF_DESC_CNT => ⟨0x40A00084, [], 0x0, [⟨15, 0, .clr, .none, .any⟩], (some REF_STAT_CFG_ERR)⟩
  | .REF_TILE_CNT => ⟨0x40A00088, [], 0x0, [⟨15, 0, .clr, .none, .any⟩], (some REF_STAT_CFG_ERR)⟩
  | .REF_FEED_CNT => ⟨0x40A0008C, [], 0x0, [⟨15, 0, .clr, .none, .any⟩], (some REF_STAT_CFG_ERR)⟩
  | .REF_PERR_CNT => ⟨0x40A00090, [], 0x0, [⟨15, 0, .clr, .none, .any⟩], (some REF_STAT_CFG_ERR)⟩
  | .REF_MSTRAY_CNT => ⟨0x40A00094, [], 0x0, [⟨15, 0, .clr, .none, .any⟩], (some REF_STAT_CFG_ERR)⟩
  | .REF_MMISS_CNT => ⟨0x40A00098, [], 0x0, [⟨15, 0, .clr, .none, .any⟩], (some REF_STAT_CFG_ERR)⟩
  | .REF_PUNDER_CNT => ⟨0x40A0009C, [], 0x0, [⟨15, 0, .clr, .none, .any⟩], (some REF_STAT_CFG_ERR)⟩
  | .REF_PLATE_CNT => ⟨0x40A000A0, [], 0x0, [⟨15, 0, .clr, .none, .any⟩], (some REF_STAT_CFG_ERR)⟩
  | .REF_REDGE_CNT => ⟨0x40A000A4, [], 0x0, [⟨15, 0, .clr, .none, .any⟩], (some REF_STAT_CFG_ERR)⟩
  | .REF_RLIM_CNT => ⟨0x40A000A8, [], 0x0, [⟨15, 0, .clr, .none, .any⟩], (some REF_STAT_CFG_ERR)⟩
  | .REF_LOWT_CNT => ⟨0x40A000AC, [], 0x0, [⟨15, 0, .clr, .none, .any⟩], (some REF_STAT_CFG_ERR)⟩
  | .REF_CFG_CNT => ⟨0x40A000B0, [], 0x0, [⟨15, 0, .clr, .none, .any⟩], (some REF_STAT_CFG_ERR)⟩
  | .REF_DUP_CNT => ⟨0x40A000B4, [], 0x0, [⟨15, 0, .clr, .none, .any⟩], (some REF_STAT_CFG_ERR)⟩
  | .REF_XSREG_CNT => ⟨0x40A000B8, [], 0x0, [⟨15, 0, .clr, .none, .any⟩], (some REF_STAT_CFG_ERR)⟩
  | .REF_EWIN => ⟨0x40A00100, [(16, 0x20)], 0x0, [⟨17, 0, .rw, .hold, .any⟩, ⟨31, 18, .rw, .hold, .any⟩], (some REF_STAT_CFG_ERR)⟩
  | .REF_TRK_MD => ⟨0x40A00104, [(16, 0x20)], 0x0, [⟨31, 0, .trk, .none, .any⟩], (some REF_STAT_CFG_ERR)⟩
  | .REF_TRK_CD => ⟨0x40A00108, [(16, 0x20)], 0x0, [⟨31, 0, .trk, .none, .any⟩], (some REF_STAT_CFG_ERR)⟩
  | .REF_TRK_K => ⟨0x40A0010C, [(16, 0x20)], 0x40000000, [⟨31, 0, .trk, .none, .any⟩], (some REF_STAT_CFG_ERR)⟩
  | .REF_TRK_STAT => ⟨0x40A00110, [(16, 0x20)], 0x0, [⟨15, 0, .view, .none, .any⟩, ⟨16, 16, .view, .none, .any⟩, ⟨31, 24, .view, .none, .any⟩], (some REF_STAT_CFG_ERR)⟩
  | .SIL_CTL => ⟨0x40B00000, [], 0x0, [⟨0, 0, .rw, .hold, .any⟩, ⟨1, 1, .rw, .hold, .any⟩, ⟨2, 2, .rw, .hold, .any⟩], (some SIL_STAT_CFG_ERR)⟩
  | .SIL_CONN => ⟨0x40B00004, [], 0x2, [⟨3, 0, .rw, .hold, .any⟩, ⟨6, 4, .rw, .hold, .any⟩, ⟨11, 8, .rw, .hold, .any⟩], (some SIL_STAT_CFG_ERR)⟩
  | .SIL_ENGMASK => ⟨0x40B00008, [], 0x0, [⟨15, 0, .rw, .hold, .any⟩], (some SIL_STAT_CFG_ERR)⟩
  | .SIL_EOLTO => ⟨0x40B0000C, [], 0xC, [⟨7, 0, .rw, .hold, .any⟩], (some SIL_STAT_CFG_ERR)⟩
  | .SIL_CTXBASE => ⟨0x40B00010, [], 0x0, [⟨23, 0, .rw, .hold, .align 20⟩], (some SIL_STAT_CFG_ERR)⟩
  | .SIL_LONGLEN => ⟨0x40B00014, [], 0x80000, [⟨31, 0, .rw, .none, .any⟩], (some SIL_STAT_CFG_ERR)⟩
  | .SIL_LSTEP => ⟨0x40B00018, [], 0xB88C, [⟨31, 0, .rw, .none, .any⟩], (some SIL_STAT_CFG_ERR)⟩
  | .SIL_CLS => ⟨0x40B0001C, [], 0xFFFF0100, [⟨15, 0, .rw, .none, .any⟩, ⟨31, 16, .rw, .none, .range 1 65535⟩], (some SIL_STAT_CFG_ERR)⟩
  | .SIL_CLSSUP => ⟨0x40B00020, [], 0x0, [⟨15, 0, .rw, .none, .any⟩], (some SIL_STAT_CFG_ERR)⟩
  | .SIL_WSWAP => ⟨0x40B00024, [], 0x0, [⟨0, 0, .wo, .none, .any⟩, ⟨8, 8, .ro, .none, .any⟩, ⟨9, 9, .ro, .none, .any⟩], (some SIL_STAT_CFG_ERR)⟩
  | .SIL_CMD => ⟨0x40B00028, [], 0x0, [⟨0, 0, .wo, .none, .any⟩], (some SIL_STAT_CFG_ERR)⟩
  | .SIL_CMDRES => ⟨0x40B0002C, [], 0x0, [⟨7, 0, .ro, .none, .any⟩, ⟨8, 8, .ro, .none, .any⟩], (some SIL_STAT_CFG_ERR)⟩
  | .SIL_OPEN => ⟨0x40B00030, [], 0x0, [⟨14, 0, .view, .none, .any⟩, ⟨30, 16, .clr, .none, .any⟩], (some SIL_STAT_CFG_ERR)⟩
  | .SIL_LINE_LO => ⟨0x40B00034, [], 0x0, [⟨31, 0, .view, .none, .any⟩], (some SIL_STAT_CFG_ERR)⟩
  | .SIL_LINE_HI => ⟨0x40B00038, [], 0x0, [⟨15, 0, .ro, .none, .any⟩], (some SIL_STAT_CFG_ERR)⟩
  | .SIL_SATOPEN => ⟨0x40B0003C, [], 0x0, [⟨15, 0, .view, .none, .any⟩], (some SIL_STAT_CFG_ERR)⟩
  | .SIL_STAT => ⟨0x40B00040, [], 0x0, [⟨0, 0, .w1c, .none, .any⟩, ⟨1, 1, .w1c, .none, .any⟩, ⟨2, 2, .w1c, .none, .any⟩, ⟨3, 3, .w1c, .none, .any⟩, ⟨4, 4, .w1c, .none, .any⟩, ⟨8, 8, .view, .none, .any⟩], (some SIL_STAT_CFG_ERR)⟩
  | .SIL_SAT_CNT => ⟨0x40B00044, [], 0x0, [⟨15, 0, .clr, .none, .any⟩], (some SIL_STAT_CFG_ERR)⟩
  | .SIL_ROVF_CNT => ⟨0x40B00048, [], 0x0, [⟨15, 0, .clr, .none, .any⟩], (some SIL_STAT_CFG_ERR)⟩
  | .SIL_EOLM_CNT => ⟨0x40B0004C, [], 0x0, [⟨15, 0, .clr, .none, .any⟩], (some SIL_STAT_CFG_ERR)⟩
  | .SIL_LONG_CNT => ⟨0x40B00050, [], 0x0, [⟨15, 0, .clr, .none, .any⟩], (some SIL_STAT_CFG_ERR)⟩
  | .SIL_CFG_CNT => ⟨0x40B00054, [], 0x0, [⟨15, 0, .clr, .none, .any⟩], (some SIL_STAT_CFG_ERR)⟩
  | .SIL_MERGE_CNT => ⟨0x40B00060, [], 0x0, [⟨31, 0, .clr, .none, .any⟩], (some SIL_STAT_CFG_ERR)⟩
  | .SIL_CLOSE_CNT => ⟨0x40B00064, [], 0x0, [⟨31, 0, .clr, .none, .any⟩], (some SIL_STAT_CFG_ERR)⟩
  | .SIL_SUP_CNT => ⟨0x40B00068, [], 0x0, [⟨31, 0, .clr, .none, .any⟩], (some SIL_STAT_CFG_ERR)⟩
  | .SIL_W => ⟨0x40B00400, [(16, 0x20), (8, 0x4)], 0x0, [⟨15, 0, .wbank, .none, .any⟩, ⟨31, 16, .wbank, .none, .any⟩], (some SIL_STAT_CFG_ERR)⟩
  | .RPT_CTL => ⟨0x40C00000, [], 0x0, [⟨0, 0, .rw, .hold, .any⟩, ⟨1, 1, .rw, .none, .any⟩, ⟨2, 2, .rw, .none, .any⟩], (some RPT_STAT_CFG_ERR)⟩
  | .RPT_JOB0_LO => ⟨0x40C00004, [], 0x0, [⟨31, 0, .rw, .hold, .any⟩], (some RPT_STAT_CFG_ERR)⟩
  | .RPT_JOB0_HI => ⟨0x40C00008, [], 0x0, [⟨15, 0, .rw, .hold, .any⟩], (some RPT_STAT_CFG_ERR)⟩
  | .RPT_MDPITCH => ⟨0x40C0000C, [], 0x142FA4B, [⟨31, 0, .rw, .hold, .range 1000000 100000000⟩], (some RPT_STAT_CFG_ERR)⟩
  | .RPT_QBASE => ⟨0x40C00010, [], 0x0, [⟨23, 0, .rw, .hold, .align 12⟩], (some RPT_STAT_CFG_ERR)⟩
  | .RPT_QCFG => ⟨0x40C00014, [], 0xC, [⟨3, 0, .rw, .hold, .range 8 14⟩], (some RPT_STAT_CFG_ERR)⟩
  | .RPT_QWR => ⟨0x40C00018, [], 0x0, [⟨31, 0, .ro, .none, .any⟩], (some RPT_STAT_CFG_ERR)⟩
  | .RPT_QRD => ⟨0x40C0001C, [], 0x0, [⟨31, 0, .rw, .none, .special .qrd⟩], (some RPT_STAT_CFG_ERR)⟩
  | .RPT_QTHR => ⟨0x40C00020, [], 0xC00, [⟨15, 0, .rw, .none, .any⟩], (some RPT_STAT_CFG_ERR)⟩
  | .RPT_CRBASE_LO => ⟨0x40C00024, [], 0x0, [⟨31, 0, .rw, .hold, .align 12⟩], (some RPT_STAT_CFG_ERR)⟩
  | .RPT_CRBASE_HI => ⟨0x40C00028, [], 0x0, [⟨7, 0, .rw, .hold, .any⟩], (some RPT_STAT_CFG_ERR)⟩
  | .RPT_CRING => ⟨0x40C0002C, [], 0x130080, [⟨15, 0, .rw, .hold, .any⟩, ⟨20, 16, .rw, .hold, .range 12 24⟩], (some RPT_STAT_CFG_ERR)⟩
  | .RPT_CROP => ⟨0x40C00030, [], 0xF3320, [⟨7, 0, .rw, .none, .any⟩, ⟨10, 8, .rw, .none, .any⟩, ⟨11, 11, .rw, .none, .any⟩, ⟨15, 12, .rw, .none, .any⟩, ⟨19, 16, .rw, .hold, .any⟩], (some RPT_STAT_CFG_ERR)⟩
  | .RPT_CLIM => ⟨0x40C00034, [], 0x10001000, [⟨15, 0, .rw, .none, .any⟩, ⟨31, 16, .rw, .none, .any⟩], (some RPT_STAT_CFG_ERR)⟩
  | .RPT_CSBASE_LO => ⟨0x40C00038, [], 0x0, [⟨31, 0, .rw, .hold, .align 12⟩], (some RPT_STAT_CFG_ERR)⟩
  | .RPT_CSBASE_HI => ⟨0x40C0003C, [], 0x0, [⟨7, 0, .rw, .hold, .any⟩], (some RPT_STAT_CFG_ERR)⟩
  | .RPT_CSSIZE => ⟨0x40C00040, [], 0x1000, [⟨19, 0, .rw, .hold, .any⟩], (some RPT_STAT_CFG_ERR)⟩
  | .RPT_CIBASE_LO => ⟨0x40C00044, [], 0x0, [⟨31, 0, .rw, .hold, .align 12⟩], (some RPT_STAT_CFG_ERR)⟩
  | .RPT_CIBASE_HI => ⟨0x40C00048, [], 0x0, [⟨7, 0, .rw, .hold, .any⟩], (some RPT_STAT_CFG_ERR)⟩
  | .RPT_CHANDLE => ⟨0x40C0004C, [], 0x1, [⟨31, 0, .ro, .none, .any⟩], (some RPT_STAT_CFG_ERR)⟩
  | .RPT_RMBASE_LO => ⟨0x40C00050, [], 0x0, [⟨31, 0, .rw, .hold, .align 12⟩], (some RPT_STAT_CFG_ERR)⟩
  | .RPT_RMBASE_HI => ⟨0x40C00054, [], 0x0, [⟨7, 0, .rw, .hold, .any⟩], (some RPT_STAT_CFG_ERR)⟩
  | .RPT_RMLOG => ⟨0x40C00058, [], 0x14, [⟨4, 0, .rw, .hold, .range 10 28⟩], (some RPT_STAT_CFG_ERR)⟩
  | .RPT_RMWR => ⟨0x40C0005C, [], 0x0, [⟨31, 0, .ro, .none, .any⟩], (some RPT_STAT_CFG_ERR)⟩
  | .RPT_STAT => ⟨0x40C00060, [], 0x0, [⟨0, 0, .w1c, .none, .any⟩, ⟨1, 1, .w1c, .none, .any⟩, ⟨2, 2, .w1c, .none, .any⟩, ⟨3, 3, .w1c, .none, .any⟩, ⟨4, 4, .w1c, .none, .any⟩, ⟨5, 5, .w1c, .none, .any⟩, ⟨6, 6, .w1c, .none, .any⟩, ⟨7, 7, .w1c, .none, .any⟩], (some RPT_STAT_CFG_ERR)⟩
  | .RPT_RLOST_CNT => ⟨0x40C00064, [], 0x0, [⟨15, 0, .clr, .none, .any⟩], (some RPT_STAT_CFG_ERR)⟩
  | .RPT_DELAY_CNT => ⟨0x40C00068, [], 0x0, [⟨15, 0, .clr, .none, .any⟩], (some RPT_STAT_CFG_ERR)⟩
  | .RPT_CLOST_CNT => ⟨0x40C0006C, [], 0x0, [⟨15, 0, .clr, .none, .any⟩], (some RPT_STAT_CFG_ERR)⟩
  | .RPT_CERR_CNT => ⟨0x40C00070, [], 0x0, [⟨15, 0, .clr, .none, .any⟩], (some RPT_STAT_CFG_ERR)⟩
  | .RPT_AERR_CNT => ⟨0x40C00074, [], 0x0, [⟨15, 0, .clr, .none, .any⟩], (some RPT_STAT_CFG_ERR)⟩
  | .RPT_LMISS_CNT => ⟨0x40C00078, [], 0x0, [⟨15, 0, .clr, .none, .any⟩], (some RPT_STAT_CFG_ERR)⟩
  | .RPT_TSL_CNT => ⟨0x40C0007C, [], 0x0, [⟨15, 0, .clr, .none, .any⟩], (some RPT_STAT_CFG_ERR)⟩
  | .RPT_CFG_CNT => ⟨0x40C00080, [], 0x0, [⟨15, 0, .clr, .none, .any⟩], (some RPT_STAT_CFG_ERR)⟩
  | .RPT_MK_CTL => ⟨0x40C00100, [(4, 0x40)], 0xFFFF90, [⟨0, 0, .rw, .none, .any⟩, ⟨1, 1, .rw, .hold, .special .loupe⟩, ⟨3, 2, .rw, .none, .any⟩, ⟨6, 4, .rw, .none, .any⟩, ⟨7, 7, .rw, .none, .any⟩, ⟨23, 8, .rw, .none, .any⟩, ⟨31, 31, .wo, .none, .any⟩], (some RPT_STAT_CFG_ERR)⟩
  | .RPT_MK_PW => ⟨0x40C00104, [(4, 0x40)], 0x64, [⟨15, 0, .rw, .none, .any⟩], (some RPT_STAT_CFG_ERR)⟩
  | .RPT_MK_DIST => ⟨0x40C00108, [(4, 0x40)], 0x0, [⟨31, 0, .rwc, .none, .any⟩], (some RPT_STAT_CFG_ERR)⟩
  | .RPT_MK_DISTC => ⟨0x40C0010C, [(4, 0x40)], 0xFFFFFFFF, [⟨31, 0, .rwcc, .none, .any⟩], (some RPT_STAT_CFG_ERR)⟩
  | .RPT_MK_STAT => ⟨0x40C00110, [(4, 0x40)], 0x0, [⟨0, 0, .w1c, .none, .any⟩, ⟨1, 1, .w1c, .none, .any⟩, ⟨2, 2, .w1c, .none, .any⟩, ⟨3, 3, .w1c, .none, .any⟩, ⟨24, 16, .view, .none, .any⟩], (some RPT_STAT_CFG_ERR)⟩
  | .RPT_MK_LATE_CNT => ⟨0x40C00114, [(4, 0x40)], 0x0, [⟨15, 0, .clr, .none, .any⟩], (some RPT_STAT_CFG_ERR)⟩
  | .RPT_MK_OVF_CNT => ⟨0x40C00118, [(4, 0x40)], 0x0, [⟨15, 0, .clr, .none, .any⟩], (some RPT_STAT_CFG_ERR)⟩
  | .RPT_MK_COIN_CNT => ⟨0x40C0011C, [(4, 0x40)], 0x0, [⟨15, 0, .clr, .none, .any⟩], (some RPT_STAT_CFG_ERR)⟩
  | .RPT_MK_INT_CNT => ⟨0x40C00120, [(4, 0x40)], 0x0, [⟨15, 0, .clr, .none, .any⟩], (some RPT_STAT_CFG_ERR)⟩
  | .RPT_MK_FIRED => ⟨0x40C00124, [(4, 0x40)], 0x0, [⟨31, 0, .clr, .none, .any⟩], (some RPT_STAT_CFG_ERR)⟩
  | .SPAN_CTL => ⟨0x40D00000, [], 0x0, [⟨0, 0, .rw, .hold, .any⟩, ⟨1, 1, .rw, .hold, .any⟩, ⟨2, 2, .rw, .hold, .any⟩, ⟨3, 3, .rw, .hold, .any⟩, ⟨4, 4, .rw, .hold, .any⟩, ⟨5, 5, .rw, .hold, .any⟩], (some SPAN_STAT_CFG_ERR)⟩
  | .SPAN_ID => ⟨0x40D00004, [], 0x0, [⟨1, 0, .view, .none, .any⟩, ⟨15, 8, .rw, .hold, .any⟩], (some SPAN_STAT_CFG_ERR)⟩
  | .SPAN_XBASE => ⟨0x40D00008, [], 0x0, [⟨19, 0, .rw, .hold, .any⟩], (some SPAN_STAT_CFG_ERR)⟩
  | .SPAN_TDLY => ⟨0x40D0000C, [], 0x7D0, [⟨15, 0, .rw, .hold, .range 500 65535⟩], (some SPAN_STAT_CFG_ERR)⟩
  | .SPAN_SEAMTO => ⟨0x40D00010, [], 0x4, [⟨7, 0, .rw, .hold, .any⟩], (some SPAN_STAT_CFG_ERR)⟩
  | .SPAN_RES => ⟨0x40D00014, [], 0x0, [⟨7, 0, .ro, .none, .any⟩, ⟨11, 8, .ro, .none, .any⟩], (some SPAN_STAT_CFG_ERR)⟩
  | .SPAN_TOFS => ⟨0x40D00018, [], 0x0, [⟨31, 0, .ro, .none, .any⟩], (some SPAN_STAT_CFG_ERR)⟩
  | .SPAN_PST => ⟨0x40D00020, [(2, 0x10)], 0x0, [⟨1, 0, .view, .none, .any⟩, ⟨7, 4, .view, .none, .any⟩], (some SPAN_STAT_CFG_ERR)⟩
  | .SPAN_LAT => ⟨0x40D00024, [(2, 0x10)], 0x0, [⟨15, 0, .ro, .none, .any⟩], (some SPAN_STAT_CFG_ERR)⟩
  | .SPAN_NB => ⟨0x40D00028, [(2, 0x10)], 0x0, [⟨19, 0, .ro, .none, .any⟩, ⟨21, 20, .ro, .none, .any⟩, ⟨22, 22, .ro, .none, .any⟩], (some SPAN_STAT_CFG_ERR)⟩
  | .SPAN_STAT => ⟨0x40D00040, [], 0x0, [⟨0, 0, .w1c, .none, .any⟩, ⟨1, 1, .w1c, .none, .any⟩, ⟨2, 2, .w1c, .none, .any⟩, ⟨3, 3, .w1c, .none, .any⟩, ⟨4, 4, .w1c, .none, .any⟩, ⟨5, 5, .w1c, .none, .any⟩, ⟨6, 6, .w1c, .none, .any⟩, ⟨7, 7, .w1c, .none, .any⟩, ⟨8, 8, .w1c, .none, .any⟩, ⟨9, 9, .w1c, .none, .any⟩, ⟨16, 16, .ro, .none, .any⟩], (some SPAN_STAT_CFG_ERR)⟩
  | .SPAN_LD_CNT => ⟨0x40D00044, [], 0x0, [⟨15, 0, .clr, .none, .any⟩], (some SPAN_STAT_CFG_ERR)⟩
  | .SPAN_IDC_CNT => ⟨0x40D00048, [], 0x0, [⟨15, 0, .clr, .none, .any⟩], (some SPAN_STAT_CFG_ERR)⟩
  | .SPAN_MC_CNT => ⟨0x40D0004C, [], 0x0, [⟨15, 0, .clr, .none, .any⟩], (some SPAN_STAT_CFG_ERR)⟩
  | .SPAN_ORD_CNT => ⟨0x40D00050, [], 0x0, [⟨15, 0, .clr, .none, .any⟩], (some SPAN_STAT_CFG_ERR)⟩
  | .SPAN_TL_CNT => ⟨0x40D00054, [], 0x0, [⟨15, 0, .clr, .none, .any⟩], (some SPAN_STAT_CFG_ERR)⟩
  | .SPAN_TG_CNT => ⟨0x40D00058, [], 0x0, [⟨15, 0, .clr, .none, .any⟩], (some SPAN_STAT_CFG_ERR)⟩
  | .SPAN_SL_CNT => ⟨0x40D0005C, [], 0x0, [⟨15, 0, .clr, .none, .any⟩], (some SPAN_STAT_CFG_ERR)⟩
  | .SPAN_FWD_CNT => ⟨0x40D00060, [], 0x0, [⟨15, 0, .clr, .none, .any⟩], (some SPAN_STAT_CFG_ERR)⟩
  | .SPAN_PKT_CNT => ⟨0x40D00064, [], 0x0, [⟨15, 0, .clr, .none, .any⟩], (some SPAN_STAT_CFG_ERR)⟩
  | .SPAN_CFG_CNT => ⟨0x40D00068, [], 0x0, [⟨15, 0, .clr, .none, .any⟩], (some SPAN_STAT_CFG_ERR)⟩
  | .SPAN_HTX => ⟨0x40D00100, [(2, 0x20), (2, 0x8)], 0x0, [⟨0, 0, .rw, .hold, .any⟩, ⟨4, 1, .rw, .hold, .any⟩, ⟨18, 5, .rw, .hold, .any⟩, ⟨29, 19, .rw, .hold, .range 1 1024⟩], (some SPAN_STAT_CFG_ERR)⟩
  | .SPAN_HRX => ⟨0x40D00104, [(2, 0x20), (2, 0x8)], 0x0, [⟨0, 0, .rw, .hold, .any⟩, ⟨4, 1, .rw, .hold, .any⟩, ⟨7, 5, .rw, .hold, .any⟩], (some SPAN_STAT_CFG_ERR)⟩
  | .MEM_STAT => ⟨0x40E00000, [], 0x0, [⟨0, 0, .w1c, .none, .any⟩, ⟨1, 1, .w1c, .none, .any⟩, ⟨2, 2, .w1c, .none, .any⟩, ⟨3, 3, .w1c, .none, .any⟩, ⟨4, 4, .w1c, .none, .any⟩], (some MEM_STAT_CFG_ERR)⟩
  | .MEM_WCOLL_CNT => ⟨0x40E00004, [], 0x0, [⟨15, 0, .clr, .none, .any⟩], (some MEM_STAT_CFG_ERR)⟩
  | .MEM_RPR_CNT => ⟨0x40E00008, [], 0x0, [⟨15, 0, .clr, .none, .any⟩], (some MEM_STAT_CFG_ERR)⟩
  | .MEM_UNRPR_CNT => ⟨0x40E0000C, [], 0x0, [⟨15, 0, .clr, .none, .any⟩], (some MEM_STAT_CFG_ERR)⟩
  | .MEM_ABORT_CNT => ⟨0x40E00010, [], 0x0, [⟨15, 0, .clr, .none, .any⟩], (some MEM_STAT_CFG_ERR)⟩
  | .MEM_CFG_CNT => ⟨0x40E00014, [], 0x0, [⟨15, 0, .clr, .none, .any⟩], (some MEM_STAT_CFG_ERR)⟩
  | .MEM_COLL_ADDR => ⟨0x40E00020, [], 0x0, [⟨23, 0, .ro, .none, .any⟩], (some MEM_STAT_CFG_ERR)⟩
  | .MEM_COLL_INFO => ⟨0x40E00024, [], 0x0, [⟨5, 0, .ro, .none, .any⟩, ⟨13, 8, .ro, .none, .any⟩], (some MEM_STAT_CFG_ERR)⟩
  | .MEM_RET_SB => ⟨0x40E00030, [], 0x0, [⟨15, 0, .rw, .none, .any⟩], (some MEM_STAT_CFG_ERR)⟩
  | .MEM_RET_SP => ⟨0x40E00034, [], 0x0, [⟨31, 0, .rw, .none, .any⟩], (some MEM_STAT_CFG_ERR)⟩
  | .MEM_WAKE_SB => ⟨0x40E00038, [], 0x0, [⟨15, 0, .ro, .none, .any⟩], (some MEM_STAT_CFG_ERR)⟩
  | .MEM_WAKE_SP => ⟨0x40E0003C, [], 0x0, [⟨31, 0, .ro, .none, .any⟩], (some MEM_STAT_CFG_ERR)⟩
  | .MEM_BLT_CTL => ⟨0x40E00040, [], 0x0, [⟨0, 0, .wo, .none, .any⟩, ⟨1, 1, .rw, .none, .any⟩, ⟨3, 2, .rw, .none, .any⟩], (some MEM_STAT_CFG_ERR)⟩
  | .MEM_BLT_SB => ⟨0x40E00044, [], 0x0, [⟨15, 0, .rw, .none, .any⟩], (some MEM_STAT_CFG_ERR)⟩
  | .MEM_BLT_SP => ⟨0x40E00048, [], 0x0, [⟨31, 0, .rw, .none, .any⟩], (some MEM_STAT_CFG_ERR)⟩
  | .MEM_BLT_RES => ⟨0x40E0004C, [], 0x0, [⟨7, 0, .ro, .none, .any⟩, ⟨8, 8, .ro, .none, .any⟩, ⟨9, 9, .ro, .none, .any⟩, ⟨21, 16, .ro, .none, .any⟩, ⟨31, 22, .ro, .none, .any⟩], (some MEM_STAT_CFG_ERR)⟩
  | .MEM_BLT_FAIL => ⟨0x40E00050, [], 0x0, [⟨5, 0, .ro, .none, .any⟩, ⟨28, 16, .ro, .none, .any⟩], (some MEM_STAT_CFG_ERR)⟩
  | .MEM_RPR => ⟨0x40E00100, [(48, 0x4)], 0x0, [⟨2, 0, .ro, .none, .any⟩, ⟨3, 3, .ro, .none, .any⟩, ⟨28, 16, .ro, .none, .any⟩], (some MEM_STAT_CFG_ERR)⟩
  | .CXL_FROZEN => ⟨0x40F00000, [], 0x0, [⟨3, 0, .view, .none, .any⟩, ⟨11, 8, .view, .none, .any⟩], none⟩
  | .CXL_DEC_RES => ⟨0x40F00004, [], 0x0, [⟨7, 0, .ro, .none, .any⟩, ⟨9, 8, .ro, .none, .any⟩, ⟨16, 16, .w1c, .none, .any⟩], (some CXL_DEC_RES_DEC_ERR)⟩
  | .CXL_DEC_ERR_CNT => ⟨0x40F00008, [], 0x0, [⟨15, 0, .clr, .none, .any⟩], (some CXL_DEC_RES_DEC_ERR)⟩
  | .CXL_P_CTL => ⟨0x40F00100, [(4, 0x100)], 0x640000, [⟨0, 0, .rw, .holdChg, .any⟩, ⟨1, 1, .rw, .holdChg, .any⟩, ⟨2, 2, .rw, .none, .any⟩, ⟨31, 16, .rw, .none, .any⟩], (some CXL_P_STAT_CFG_ERR)⟩
  | .CXL_P_STATE => ⟨0x40F00104, [(4, 0x100)], 0x0, [⟨2, 0, .view, .none, .any⟩, ⟨4, 4, .view, .none, .any⟩, ⟨5, 5, .view, .none, .any⟩, ⟨8, 8, .view, .none, .any⟩, ⟨9, 9, .view, .none, .any⟩], (some CXL_P_STAT_CFG_ERR)⟩
  | .CXL_P_STAT => ⟨0x40F00108, [(4, 0x100)], 0x0, [⟨0, 0, .w1c, .none, .any⟩, ⟨1, 1, .w1c, .none, .any⟩, ⟨2, 2, .w1c, .none, .any⟩, ⟨3, 3, .w1c, .none, .any⟩, ⟨4, 4, .w1c, .none, .any⟩, ⟨5, 5, .w1c, .none, .any⟩, ⟨6, 6, .w1c, .none, .any⟩, ⟨7, 7, .w1c, .none, .any⟩, ⟨8, 8, .w1c, .none, .any⟩], (some CXL_P_STAT_CFG_ERR)⟩
  | .CXL_P_LD_CNT => ⟨0x40F0010C, [(4, 0x100)], 0x0, [⟨15, 0, .clr, .none, .any⟩], (some CXL_P_STAT_CFG_ERR)⟩
  | .CXL_P_POISON_CNT => ⟨0x40F00110, [(4, 0x100)], 0x0, [⟨15, 0, .clr, .none, .any⟩], (some CXL_P_STAT_CFG_ERR)⟩
  | .CXL_P_UCE_CNT => ⟨0x40F00114, [(4, 0x100)], 0x0, [⟨15, 0, .clr, .none, .any⟩], (some CXL_P_STAT_CFG_ERR)⟩
  | .CXL_P_TIMEOUT_CNT => ⟨0x40F00118, [(4, 0x100)], 0x0, [⟨15, 0, .clr, .none, .any⟩], (some CXL_P_STAT_CFG_ERR)⟩
  | .CXL_P_PLF_CNT => ⟨0x40F0011C, [(4, 0x100)], 0x0, [⟨15, 0, .clr, .none, .any⟩], (some CXL_P_STAT_CFG_ERR)⟩
  | .CXL_P_SRTO_CNT => ⟨0x40F00120, [(4, 0x100)], 0x0, [⟨15, 0, .clr, .none, .any⟩], (some CXL_P_STAT_CFG_ERR)⟩
  | .CXL_P_SRL_CNT => ⟨0x40F00124, [(4, 0x100)], 0x0, [⟨15, 0, .clr, .none, .any⟩], (some CXL_P_STAT_CFG_ERR)⟩
  | .CXL_P_INB_CNT => ⟨0x40F00128, [(4, 0x100)], 0x0, [⟨15, 0, .clr, .none, .any⟩], (some CXL_P_STAT_CFG_ERR)⟩
  | .CXL_P_CFG_CNT => ⟨0x40F0012C, [(4, 0x100)], 0x0, [⟨15, 0, .clr, .none, .any⟩], (some CXL_P_STAT_CFG_ERR)⟩
  | .CXL_P_CMD => ⟨0x40F00130, [(4, 0x100)], 0x0, [⟨0, 0, .wo, .none, .any⟩], (some CXL_P_STAT_CFG_ERR)⟩
  | .CXL_P_CMDRES => ⟨0x40F00134, [(4, 0x100)], 0x0, [⟨7, 0, .ro, .none, .any⟩, ⟨8, 8, .ro, .none, .any⟩], (some CXL_P_STAT_CFG_ERR)⟩
  | .CXL_P_LOG_LO => ⟨0x40F00140, [(4, 0x100)], 0x0, [⟨31, 0, .ro, .none, .any⟩], (some CXL_P_STAT_CFG_ERR)⟩
  | .CXL_P_LOG_HI => ⟨0x40F00144, [(4, 0x100)], 0x0, [⟨7, 0, .ro, .none, .any⟩], (some CXL_P_STAT_CFG_ERR)⟩
  | .CXL_P_LOG_INFO => ⟨0x40F00148, [(4, 0x100)], 0x0, [⟨3, 0, .ro, .none, .any⟩, ⟨4, 4, .ro, .none, .any⟩, ⟨13, 8, .ro, .none, .any⟩], (some CXL_P_STAT_CFG_ERR)⟩
  | .CXL_P_HIDX => ⟨0x40F0014C, [(4, 0x100)], 0x0, [⟨5, 0, .rw, .none, .any⟩], (some CXL_P_STAT_CFG_ERR)⟩
  | .CXL_P_HDATA => ⟨0x40F00150, [(4, 0x100), (4, 0x4)], 0x0, [⟨31, 0, .view, .none, .any⟩], (some CXL_P_STAT_CFG_ERR)⟩
  | .CXL_P_PL_LO => ⟨0x40F00160, [(4, 0x100), (8, 0x8)], 0x0, [⟨0, 0, .w0c, .none, .any⟩, ⟨31, 6, .ro, .none, .any⟩], (some CXL_P_STAT_CFG_ERR)⟩
  | .CXL_P_PL_HI => ⟨0x40F00164, [(4, 0x100), (8, 0x8)], 0x0, [⟨7, 0, .ro, .none, .any⟩], (some CXL_P_STAT_CFG_ERR)⟩
  | .CXL_P_CFGA => ⟨0x40F001A0, [(4, 0x100)], 0x0, [⟨11, 2, .rw, .none, .any⟩, ⟨12, 12, .rw, .none, .any⟩, ⟨13, 13, .rw, .none, .any⟩, ⟨31, 31, .wo, .none, .any⟩], (some CXL_P_STAT_CFG_ERR)⟩
  | .CXL_P_CFGD => ⟨0x40F001A4, [(4, 0x100)], 0x0, [⟨31, 0, .rw, .none, .any⟩], (some CXL_P_STAT_CFG_ERR)⟩
  | .CXL_P_CFGRES => ⟨0x40F001A8, [(4, 0x100)], 0x0, [⟨7, 0, .ro, .none, .any⟩, ⟨8, 8, .ro, .none, .any⟩, ⟨9, 9, .ro, .none, .any⟩], (some CXL_P_STAT_CFG_ERR)⟩
  | .CXL_P_CFGX => ⟨0x40F001AC, [(4, 0x100)], 0x0, [⟨31, 0, .rw, .none, .any⟩], (some CXL_P_STAT_CFG_ERR)⟩
  | .CXL_DEC_CTL => ⟨0x40F00800, [(4, 0x10)], 0x0, [⟨0, 0, .rw, .dec, .any⟩, ⟨2, 1, .rw, .dec, .any⟩, ⟨9, 8, .rw, .dec, .any⟩, ⟨11, 10, .rw, .dec, .any⟩, ⟨13, 12, .rw, .dec, .any⟩, ⟨15, 14, .rw, .dec, .any⟩], (some CXL_DEC_RES_DEC_ERR)⟩
  | .CXL_DEC_BASE => ⟨0x40F00804, [(4, 0x10)], 0x0, [⟨11, 0, .rw, .dec, .any⟩], (some CXL_DEC_RES_DEC_ERR)⟩
  | .CXL_DEC_SIZE => ⟨0x40F00808, [(4, 0x10)], 0x0, [⟨11, 0, .rw, .dec, .any⟩], (some CXL_DEC_RES_DEC_ERR)⟩
  | .CXL_DEC_DPA => ⟨0x40F0080C, [(4, 0x10)], 0x0, [⟨11, 0, .rw, .dec, .any⟩], (some CXL_DEC_RES_DEC_ERR)⟩
  | .DMA_CMD => ⟨0x41000000, [(16, 0x100)], 0x0, [⟨0, 0, .wo, .none, .any⟩, ⟨1, 1, .wo, .none, .any⟩, ⟨2, 2, .wo, .none, .any⟩, ⟨3, 3, .wo, .none, .any⟩], (some DMA_STAT_CFG_ERR)⟩
  | .DMA_DESC_LO => ⟨0x41000004, [(16, 0x100)], 0x0, [⟨31, 0, .rw, .none, .align 6⟩], (some DMA_STAT_CFG_ERR)⟩
  | .DMA_DESC_HI => ⟨0x41000008, [(16, 0x100)], 0x0, [⟨7, 0, .rw, .none, .any⟩], (some DMA_STAT_CFG_ERR)⟩
  | .DMA_RES => ⟨0x4100000C, [(16, 0x100)], 0x0, [⟨7, 0, .ro, .none, .any⟩], (some DMA_STAT_CFG_ERR)⟩
  | .DMA_STATE => ⟨0x41000010, [(16, 0x100)], 0x0, [⟨2, 0, .view, .none, .any⟩, ⟨3, 3, .view, .none, .any⟩, ⟨6, 4, .view, .none, .any⟩, ⟨7, 7, .view, .none, .any⟩], (some DMA_STAT_CFG_ERR)⟩
  | .DMA_CURDESC_LO => ⟨0x41000014, [(16, 0x100)], 0x0, [⟨31, 0, .ro, .none, .any⟩], (some DMA_STAT_CFG_ERR)⟩
  | .DMA_CURDESC_HI => ⟨0x41000018, [(16, 0x100)], 0x0, [⟨7, 0, .ro, .none, .any⟩], (some DMA_STAT_CFG_ERR)⟩
  | .DMA_CUR_SRC_LO => ⟨0x4100001C, [(16, 0x100)], 0x0, [⟨31, 0, .ro, .none, .any⟩], (some DMA_STAT_CFG_ERR)⟩
  | .DMA_CUR_SRC_HI => ⟨0x41000020, [(16, 0x100)], 0x0, [⟨7, 0, .ro, .none, .any⟩], (some DMA_STAT_CFG_ERR)⟩
  | .DMA_CUR_DST_LO => ⟨0x41000024, [(16, 0x100)], 0x0, [⟨31, 0, .ro, .none, .any⟩], (some DMA_STAT_CFG_ERR)⟩
  | .DMA_CUR_DST_HI => ⟨0x41000028, [(16, 0x100)], 0x0, [⟨7, 0, .ro, .none, .any⟩], (some DMA_STAT_CFG_ERR)⟩
  | .DMA_ROW => ⟨0x4100002C, [(16, 0x100)], 0x0, [⟨15, 0, .ro, .none, .any⟩], (some DMA_STAT_CFG_ERR)⟩
  | .DMA_REMAIN => ⟨0x41000030, [(16, 0x100)], 0x0, [⟨31, 0, .ro, .none, .any⟩], (some DMA_STAT_CFG_ERR)⟩
  | .DMA_PRODUCED => ⟨0x41000034, [(16, 0x100)], 0x0, [⟨31, 0, .ro, .none, .any⟩], (some DMA_STAT_CFG_ERR)⟩
  | .DMA_FAIL_LO => ⟨0x41000038, [(16, 0x100)], 0x0, [⟨31, 0, .ro, .none, .any⟩], (some DMA_STAT_CFG_ERR)⟩
  | .DMA_FAIL_HI => ⟨0x4100003C, [(16, 0x100)], 0x0, [⟨7, 0, .ro, .none, .any⟩], (some DMA_STAT_CFG_ERR)⟩
  | .DMA_FAIL_INFO => ⟨0x41000040, [(16, 0x100)], 0x0, [⟨2, 0, .ro, .none, .any⟩, ⟨3, 3, .ro, .none, .any⟩, ⟨15, 8, .ro, .none, .any⟩], (some DMA_STAT_CFG_ERR)⟩
  | .DMA_FAIL_OFS => ⟨0x41000044, [(16, 0x100)], 0x0, [⟨31, 0, .ro, .none, .any⟩], (some DMA_STAT_CFG_ERR)⟩
  | .DMA_STAT => ⟨0x41000048, [(16, 0x100)], 0x0, [⟨0, 0, .w1c, .none, .any⟩, ⟨1, 1, .w1c, .none, .any⟩, ⟨2, 2, .w1c, .none, .any⟩], (some DMA_STAT_CFG_ERR)⟩
  | .DMA_DONE_CNT => ⟨0x4100004C, [(16, 0x100)], 0x0, [⟨15, 0, .clr, .none, .any⟩], (some DMA_STAT_CFG_ERR)⟩
  | .DMA_ERR_CNT => ⟨0x41000050, [(16, 0x100)], 0x0, [⟨15, 0, .clr, .none, .any⟩], (some DMA_STAT_CFG_ERR)⟩
  | .DMA_CFG_CNT => ⟨0x41000054, [(16, 0x100)], 0x0, [⟨15, 0, .clr, .none, .any⟩], (some DMA_STAT_CFG_ERR)⟩
  | .CMP_CTL => ⟨0x41100000, [], 0x2, [⟨3, 0, .rw, .none, .any⟩], none⟩
  | .CMP_ENG => ⟨0x41100004, [], 0x0, [⟨15, 0, .view, .none, .any⟩], none⟩
  | .CMP_STAT => ⟨0x41100008, [], 0x0, [⟨0, 0, .w1c, .none, .any⟩, ⟨1, 1, .w1c, .none, .any⟩], none⟩
  | .CMP_ERRINFO => ⟨0x4110000C, [], 0x0, [⟨3, 0, .ro, .none, .any⟩, ⟨6, 4, .ro, .none, .any⟩, ⟨31, 8, .ro, .none, .any⟩], none⟩
  | .CMP_DEC_CNT => ⟨0x41100010, [], 0x0, [⟨15, 0, .clr, .none, .any⟩], none⟩
  | .CMP_WR_CNT => ⟨0x41100014, [], 0x0, [⟨15, 0, .clr, .none, .any⟩], none⟩
  | .CMP_IN_LO => ⟨0x41100020, [], 0x0, [⟨31, 0, .view, .none, .any⟩], none⟩
  | .CMP_IN_HI => ⟨0x41100024, [], 0x0, [⟨31, 0, .ro, .none, .any⟩], none⟩
  | .CMP_OUT_LO => ⟨0x41100028, [], 0x0, [⟨31, 0, .view, .none, .any⟩], none⟩
  | .CMP_OUT_HI => ⟨0x4110002C, [], 0x0, [⟨31, 0, .ro, .none, .any⟩], none⟩
  | .SIG_CTL => ⟨0x41200000, [], 0x200A00, [⟨0, 0, .rw, .none, .any⟩, ⟨13, 8, .rw, .sig, .special .sddiv⟩, ⟨24, 16, .rw, .sig, .special .frame⟩], (some SIG_STAT_CFG_ERR)⟩
  | .SIG_CMD => ⟨0x41200004, [], 0x0, [⟨15, 0, .wo, .none, .any⟩], (some SIG_STAT_CFG_ERR)⟩
  | .SIG_FAST => ⟨0x41200008, [], 0x7FFF, [⟨15, 0, .rw, .none, .any⟩], (some SIG_STAT_CFG_ERR)⟩
  | .SIG_STAT => ⟨0x41200010, [], 0x0, [⟨0, 0, .w1c, .none, .any⟩, ⟨1, 1, .w1c, .none, .any⟩], (some SIG_STAT_CFG_ERR)⟩
  | .SIG_FOC_CNT => ⟨0x41200014, [], 0x0, [⟨15, 0, .clr, .none, .any⟩], (some SIG_STAT_CFG_ERR)⟩
  | .SIG_CFG_CNT => ⟨0x41200018, [], 0x0, [⟨15, 0, .clr, .none, .any⟩], (some SIG_STAT_CFG_ERR)⟩
  | .SIG_K_CFG => ⟨0x41200100, [(16, 0x80)], 0x80100, [⟨0, 0, .rw, .none, .any⟩, ⟨1, 1, .rw, .sigch, .any⟩, ⟨2, 2, .rw, .none, .any⟩, ⟨3, 3, .rw, .none, .any⟩, ⟨7, 4, .rw, .sigch, .special .nrange⟩, ⟨15, 8, .rw, .sigch, .any⟩, ⟨20, 16, .rw, .none, .range 2 16⟩], (some SIG_K_STAT_CFG_ERR)⟩
  | .SIG_K_OPER => ⟨0x41200104, [(16, 0x80)], 0x140, [⟨19, 0, .rw, .sigch, .range 100 1000000⟩], (some SIG_K_STAT_CFG_ERR)⟩
  | .SIG_K_BANK => ⟨0x41200108, [(16, 0x80)], 0x0, [⟨0, 0, .view, .none, .any⟩, ⟨1, 1, .view, .none, .any⟩, ⟨2, 2, .view, .none, .any⟩, ⟨3, 3, .view, .none, .any⟩, ⟨15, 8, .view, .none, .any⟩, ⟨28, 16, .view, .none, .any⟩], (some SIG_K_STAT_CFG_ERR)⟩
  | .SIG_K_ENVCF => ⟨0x4120010C, [(16, 0x80)], 0xA04, [⟨3, 0, .rw, .none, .any⟩, ⟨11, 8, .rw, .none, .any⟩], (some SIG_K_STAT_CFG_ERR)⟩
  | .SIG_K_PKLIM => ⟨0x41200110, [(16, 0x80)], 0x80000000, [⟨15, 0, .rw, .none, .any⟩, ⟨31, 16, .rw, .none, .any⟩], (some SIG_K_STAT_CFG_ERR)⟩
  | .SIG_K_RMSLIM => ⟨0x41200114, [(16, 0x80)], 0x80000000, [⟨15, 0, .rw, .none, .any⟩, ⟨31, 16, .rw, .none, .any⟩], (some SIG_K_STAT_CFG_ERR)⟩
  | .SIG_K_ENVLIM => ⟨0x41200118, [(16, 0x80)], 0x80000000, [⟨15, 0, .rw, .none, .any⟩, ⟨31, 16, .rw, .none, .any⟩], (some SIG_K_STAT_CFG_ERR)⟩
  | .SIG_K_VAL => ⟨0x4120011C, [(16, 0x80)], 0x0, [⟨15, 0, .ro, .none, .any⟩, ⟨16, 16, .ro, .none, .any⟩, ⟨17, 17, .ro, .none, .any⟩], (some SIG_K_STAT_CFG_ERR)⟩
  | .SIG_K_DETV => ⟨0x41200120, [(16, 0x80)], 0x0, [⟨15, 0, .ro, .none, .any⟩, ⟨31, 16, .ro, .none, .any⟩], (some SIG_K_STAT_CFG_ERR)⟩
  | .SIG_K_ENVV => ⟨0x41200124, [(16, 0x80)], 0x0, [⟨15, 0, .view, .none, .any⟩], (some SIG_K_STAT_CFG_ERR)⟩
  | .SIG_K_SKEW => ⟨0x41200128, [(16, 0x80)], 0x0, [⟨7, 0, .view, .none, .any⟩], (some SIG_K_STAT_CFG_ERR)⟩
  | .SIG_K_STAT => ⟨0x4120012C, [(16, 0x80)], 0x0, [⟨0, 0, .w1c, .none, .any⟩, ⟨1, 1, .w1c, .none, .any⟩, ⟨2, 2, .w1c, .none, .any⟩, ⟨3, 3, .w1c, .none, .any⟩, ⟨4, 4, .w1c, .none, .any⟩, ⟨5, 5, .w1c, .none, .any⟩, ⟨6, 6, .w1c, .none, .any⟩, ⟨7, 7, .w1c, .none, .any⟩, ⟨8, 8, .w1c, .none, .any⟩, ⟨16, 16, .view, .none, .any⟩, ⟨17, 17, .view, .none, .any⟩, ⟨18, 18, .view, .none, .any⟩], (some SIG_K_STAT_CFG_ERR)⟩
  | .SIG_K_PKH_CNT => ⟨0x41200130, [(16, 0x80)], 0x0, [⟨15, 0, .clr, .none, .any⟩], (some SIG_K_STAT_CFG_ERR)⟩
  | .SIG_K_PKL_CNT => ⟨0x41200134, [(16, 0x80)], 0x0, [⟨15, 0, .clr, .none, .any⟩], (some SIG_K_STAT_CFG_ERR)⟩
  | .SIG_K_RMH_CNT => ⟨0x41200138, [(16, 0x80)], 0x0, [⟨15, 0, .clr, .none, .any⟩], (some SIG_K_STAT_CFG_ERR)⟩
  | .SIG_K_RML_CNT => ⟨0x4120013C, [(16, 0x80)], 0x0, [⟨15, 0, .clr, .none, .any⟩], (some SIG_K_STAT_CFG_ERR)⟩
  | .SIG_K_EVH_CNT => ⟨0x41200140, [(16, 0x80)], 0x0, [⟨15, 0, .clr, .none, .any⟩], (some SIG_K_STAT_CFG_ERR)⟩
  | .SIG_K_EVL_CNT => ⟨0x41200144, [(16, 0x80)], 0x0, [⟨15, 0, .clr, .none, .any⟩], (some SIG_K_STAT_CFG_ERR)⟩
  | .SIG_K_STK_CNT => ⟨0x41200148, [(16, 0x80)], 0x0, [⟨15, 0, .clr, .none, .any⟩], (some SIG_K_STAT_CFG_ERR)⟩
  | .SIG_K_SUP_CNT => ⟨0x4120014C, [(16, 0x80)], 0x0, [⟨15, 0, .clr, .none, .any⟩], (some SIG_K_STAT_CFG_ERR)⟩
  | .SIG_K_CFG_CNT => ⟨0x41200150, [(16, 0x80)], 0x0, [⟨15, 0, .clr, .none, .any⟩], (some SIG_K_STAT_CFG_ERR)⟩
  | .SIG_COEF => ⟨0x41201000, [(16, 0x200), (2, 0x100), (64, 0x4)], 0x0, [⟨23, 0, .rw, .coef, .any⟩], (some SIG_K_STAT_CFG_ERR)⟩
  | .MOT_CTL => ⟨0x41300000, [], 0x40, [⟨0, 0, .rw, .none, .any⟩, ⟨1, 1, .rw, .none, .any⟩, ⟨2, 2, .rw, .mot, .any⟩, ⟨3, 3, .rw, .mot, .any⟩, ⟨5, 4, .rw, .none, .any⟩, ⟨6, 6, .rw, .none, .any⟩, ⟨11, 8, .rw, .mot, .any⟩], (some MOT_STAT_CFG_ERR)⟩
  | .MOT_STATE => ⟨0x41300004, [], 0x0, [⟨2, 0, .view, .none, .any⟩, ⟨3, 3, .view, .none, .any⟩, ⟨4, 4, .view, .none, .any⟩], (some MOT_STAT_CFG_ERR)⟩
  | .MOT_POS => ⟨0x41300008, [], 0x0, [⟨31, 0, .view, .none, .any⟩], (some MOT_STAT_CFG_ERR)⟩
  | .MOT_TGT => ⟨0x4130000C, [], 0x0, [⟨31, 0, .view, .none, .any⟩], (some MOT_STAT_CFG_ERR)⟩
  | .MOT_VEL => ⟨0x41300010, [], 0x0, [⟨31, 0, .view, .none, .any⟩], (some MOT_STAT_CFG_ERR)⟩
  | .MOT_VSTART => ⟨0x41300020, [], 0x3200, [⟨23, 0, .rw, .none, .any⟩], (some MOT_STAT_CFG_ERR)⟩
  | .MOT_VSTOP => ⟨0x41300024, [], 0x3200, [⟨23, 0, .rw, .none, .any⟩], (some MOT_STAT_CFG_ERR)⟩
  | .MOT_VBREAK => ⟨0x41300028, [], 0x9C400, [⟨23, 0, .rw, .none, .any⟩], (some MOT_STAT_CFG_ERR)⟩
  | .MOT_VMAX => ⟨0x4130002C, [], 0x271000, [⟨23, 0, .rw, .none, .any⟩], (some MOT_STAT_CFG_ERR)⟩
  | .MOT_A1 => ⟨0x41300030, [], 0x186A000, [⟨31, 0, .rw, .none, .any⟩], (some MOT_STAT_CFG_ERR)⟩
  | .MOT_A2 => ⟨0x41300034, [], 0xC35000, [⟨31, 0, .rw, .none, .any⟩], (some MOT_STAT_CFG_ERR)⟩
  | .MOT_D2 => ⟨0x41300038, [], 0xC35000, [⟨31, 0, .rw, .none, .any⟩], (some MOT_STAT_CFG_ERR)⟩
  | .MOT_D1 => ⟨0x4130003C, [], 0x186A000, [⟨31, 0, .rw, .none, .any⟩], (some MOT_STAT_CFG_ERR)⟩
  | .MOT_VHOME => ⟨0x41300040, [], 0x3200, [⟨23, 0, .rw, .none, .any⟩], (some MOT_STAT_CFG_ERR)⟩
  | .MOT_HMAX => ⟨0x41300044, [], 0x7FFFFFFF, [⟨31, 0, .rw, .none, .any⟩], (some MOT_STAT_CFG_ERR)⟩
  | .MOT_HOMEPOS => ⟨0x41300048, [], 0x0, [⟨31, 0, .rw, .mot, .any⟩], (some MOT_STAT_CFG_ERR)⟩
  | .MOT_SMIN => ⟨0x4130004C, [], 0x80000000, [⟨31, 0, .rw, .mot, .any⟩], (some MOT_STAT_CFG_ERR)⟩
  | .MOT_SMAX => ⟨0x41300050, [], 0x7FFFFFFF, [⟨31, 0, .rw, .mot, .any⟩], (some MOT_STAT_CFG_ERR)⟩
  | .MOT_ORIGIN => ⟨0x41300054, [], 0x0, [⟨31, 0, .rw, .mot, .any⟩], (some MOT_STAT_CFG_ERR)⟩
  | .MOT_NMQ => ⟨0x41300058, [], 0x30D4000, [⟨31, 0, .rw, .mot, .range 1 4294967295⟩], (some MOT_STAT_CFG_ERR)⟩
  | .MOT_IRUN => ⟨0x41300060, [], 0x10004000, [⟨15, 0, .rw, .none, .any⟩, ⟨31, 16, .rw, .none, .any⟩], (some MOT_STAT_CFG_ERR)⟩
  | .MOT_CHOP => ⟨0x41300064, [], 0x14040400, [⟨15, 0, .rw, .none, .any⟩, ⟨23, 16, .rw, .mot, .any⟩, ⟨31, 24, .rw, .mot, .any⟩], (some MOT_STAT_CFG_ERR)⟩
  | .MOT_ADAPT => ⟨0x41300068, [], 0x8000A04, [⟨3, 0, .rw, .mot, .any⟩, ⟨11, 8, .rw, .mot, .any⟩, ⟨31, 16, .rw, .mot, .any⟩], (some MOT_STAT_CFG_ERR)⟩
  | .MOT_OFS => ⟨0x4130006C, [], 0x0, [⟨15, 0, .view, .none, .any⟩, ⟨31, 16, .view, .none, .any⟩], (some MOT_STAT_CFG_ERR)⟩
  | .MOT_SS => ⟨0x41300070, [], 0x64, [⟨15, 0, .rw, .none, .any⟩], (some MOT_STAT_CFG_ERR)⟩
  | .MOT_LIM => ⟨0x41300074, [], 0xC8, [⟨11, 0, .rw, .mot, .any⟩, ⟨18, 16, .rw, .mot, .any⟩], (some MOT_STAT_CFG_ERR)⟩
  | .MOT_IN => ⟨0x41300078, [], 0x0, [⟨2, 0, .view, .none, .any⟩, ⟨6, 4, .view, .none, .any⟩], (some MOT_STAT_CFG_ERR)⟩
  | .MOT_STAT => ⟨0x41300080, [], 0x0, [⟨0, 0, .w1c, .none, .any⟩, ⟨1, 1, .w1c, .none, .any⟩, ⟨2, 2, .w1c, .none, .any⟩, ⟨3, 3, .w1c, .none, .any⟩, ⟨4, 4, .w1c, .none, .any⟩, ⟨5, 5, .w1c, .none, .any⟩, ⟨6, 6, .w1c, .none, .any⟩], (some MOT_STAT_CFG_ERR)⟩
  | .MOT_ARR_CNT => ⟨0x41300084, [], 0x0, [⟨15, 0, .clr, .none, .any⟩], (some MOT_STAT_CFG_ERR)⟩
  | .MOT_LHIT_CNT => ⟨0x41300088, [], 0x0, [⟨15, 0, .clr, .none, .any⟩], (some MOT_STAT_CFG_ERR)⟩
  | .MOT_CHAT_CNT => ⟨0x4130008C, [], 0x0, [⟨15, 0, .clr, .none, .any⟩], (some MOT_STAT_CFG_ERR)⟩
  | .MOT_HF_CNT => ⟨0x41300090, [], 0x0, [⟨15, 0, .clr, .none, .any⟩], (some MOT_STAT_CFG_ERR)⟩
  | .MOT_OC_CNT => ⟨0x41300094, [], 0x0, [⟨15, 0, .clr, .none, .any⟩], (some MOT_STAT_CFG_ERR)⟩
  | .MOT_CLMP_CNT => ⟨0x41300098, [], 0x0, [⟨15, 0, .clr, .none, .any⟩], (some MOT_STAT_CFG_ERR)⟩
  | .MOT_CFG_CNT => ⟨0x4130009C, [], 0x0, [⟨15, 0, .clr, .none, .any⟩], (some MOT_STAT_CFG_ERR)⟩
  | .EVT_OWN => ⟨0x41400000, [(64, 0x4)], 0x1, [⟨1, 0, .rw, .own, .any⟩, ⟨2, 2, .rw, .own, .any⟩], (some EVT_STAT_CFG_ERR)⟩
  | .EVT_LOCK => ⟨0x41400100, [], 0x0, [⟨0, 0, .w1s, .none, .any⟩], (some EVT_STAT_CFG_ERR)⟩
  | .EVT_RES => ⟨0x41400104, [], 0x0, [⟨7, 0, .ro, .none, .any⟩, ⟨13, 8, .ro, .none, .any⟩, ⟨21, 16, .ro, .none, .any⟩], (some EVT_STAT_CFG_ERR)⟩
  | .EVT_STAT => ⟨0x41400108, [], 0x0, [⟨0, 0, .w1c, .none, .any⟩, ⟨1, 1, .w1c, .none, .any⟩, ⟨2, 2, .w1c, .none, .any⟩, ⟨3, 3, .w1c, .none, .any⟩, ⟨4, 4, .w1c, .none, .any⟩], (some EVT_STAT_CFG_ERR)⟩
  | .EVT_LOOP_CNT => ⟨0x4140010C, [], 0x0, [⟨15, 0, .clr, .none, .any⟩], (some EVT_STAT_CFG_ERR)⟩
  | .EVT_DEN_CNT => ⟨0x41400110, [], 0x0, [⟨15, 0, .clr, .none, .any⟩], (some EVT_STAT_CFG_ERR)⟩
  | .EVT_RLYO_CNT => ⟨0x41400114, [], 0x0, [⟨15, 0, .clr, .none, .any⟩], (some EVT_STAT_CFG_ERR)⟩
  | .EVT_CAPO_CNT => ⟨0x41400118, [], 0x0, [⟨15, 0, .clr, .none, .any⟩], (some EVT_STAT_CFG_ERR)⟩
  | .EVT_CFG_CNT => ⟨0x4140011C, [], 0x0, [⟨15, 0, .clr, .none, .any⟩], (some EVT_STAT_CFG_ERR)⟩
  | .EVT_SWTRIG => ⟨0x41400120, [], 0x0, [⟨7, 0, .wo, .none, .any⟩], (some EVT_STAT_CFG_ERR)⟩
  | .EVT_MOVE => ⟨0x41400124, [], 0x10001, [⟨15, 0, .rw, .none, .any⟩, ⟨31, 16, .rw, .none, .any⟩], (some EVT_STAT_CFG_ERR)⟩
  | .EVT_SRCMASK => ⟨0x41400128, [], 0x0, [⟨15, 0, .rw, .none, .any⟩, ⟨31, 16, .rw, .none, .any⟩], (some EVT_STAT_CFG_ERR)⟩
  | .EVT_ISTAT => ⟨0x41400140, [], 0x0, [⟨0, 0, .w1c, .none, .any⟩, ⟨1, 1, .w1c, .none, .any⟩, ⟨2, 2, .w1c, .none, .any⟩, ⟨3, 3, .w1c, .none, .any⟩, ⟨4, 4, .w1c, .none, .any⟩], (some EVT_STAT_CFG_ERR)⟩
  | .EVT_IRQ_CNT => ⟨0x41400144, [(5, 0x4)], 0x0, [⟨15, 0, .clr, .none, .any⟩], (some EVT_STAT_CFG_ERR)⟩
  | .EVT_PIN => ⟨0x41400200, [(24, 0x4)], 0x0, [⟨7, 0, .rw, .none, .any⟩, ⟨8, 8, .rw, .none, .any⟩, ⟨9, 9, .rw, .none, .any⟩, ⟨10, 10, .rw, .none, .any⟩, ⟨11, 11, .rw, .none, .any⟩, ⟨31, 16, .rw, .none, .any⟩], (some EVT_STAT_CFG_ERR)⟩
  | .EVT_RLY_DIV => ⟨0x41400280, [(8, 0x8)], 0x1, [⟨15, 0, .rw, .none, .any⟩], (some EVT_STAT_CFG_ERR)⟩
  | .EVT_RLY_DLY => ⟨0x41400284, [(8, 0x8)], 0x0, [⟨23, 0, .rw, .none, .any⟩], (some EVT_STAT_CFG_ERR)⟩
  | .EVT_LNK_LO => ⟨0x41400400, [(45, 0x8)], 0x0, [⟨31, 0, .rw, .lnk, .any⟩], (some EVT_STAT_CFG_ERR)⟩
  | .EVT_LNK_HI => ⟨0x41400404, [(45, 0x8)], 0x0, [⟨31, 0, .rw, .lnk, .any⟩], (some EVT_STAT_CFG_ERR)⟩
  | .EVT_WIRE_LO => ⟨0x41400600, [(45, 0x8)], 0x0, [⟨31, 0, .view, .none, .any⟩], (some EVT_STAT_CFG_ERR)⟩
  | .EVT_WIRE_HI => ⟨0x41400604, [(45, 0x8)], 0x0, [⟨31, 0, .view, .none, .any⟩], (some EVT_STAT_CFG_ERR)⟩
  | .EVT_COIN_LO => ⟨0x41400800, [], 0x0, [⟨31, 0, .w1c, .none, .any⟩], (some EVT_STAT_CFG_ERR)⟩
  | .EVT_COIN_HI => ⟨0x41400804, [], 0x0, [⟨12, 0, .w1c, .none, .any⟩], (some EVT_STAT_CFG_ERR)⟩
  | .EVT_COIN_CNT => ⟨0x41400900, [(45, 0x4)], 0x0, [⟨15, 0, .clr, .none, .any⟩], (some EVT_STAT_CFG_ERR)⟩
  | .EVT_CAP => ⟨0x41400A00, [(4, 0x20), (8, 0x4)], 0x0, [⟨31, 0, .ro, .none, .any⟩], (some EVT_STAT_CFG_ERR)⟩
  | .ETH_CTL => ⟨0x41500000, [(2, 0x100)], 0x2, [⟨0, 0, .rw, .none, .any⟩, ⟨1, 1, .rw, .eth, .any⟩], (some ETH_STAT_CFG_ERR)⟩
  | .ETH_MAC_LO => ⟨0x41500004, [(2, 0x100)], 0x0, [⟨31, 0, .rw, .eth, .any⟩], (some ETH_STAT_CFG_ERR)⟩
  | .ETH_MAC_HI => ⟨0x41500008, [(2, 0x100)], 0x0, [⟨15, 0, .rw, .eth, .any⟩], (some ETH_STAT_CFG_ERR)⟩
  | .ETH_CFLT => ⟨0x4150000C, [(2, 0x100)], 0x171CF3, [⟨15, 0, .rw, .eth, .any⟩, ⟨18, 16, .rw, .eth, .any⟩, ⟨20, 20, .rw, .eth, .any⟩, ⟨21, 21, .rw, .eth, .any⟩], (some ETH_STAT_CFG_ERR)⟩
  | .ETH_Q0FREE => ⟨0x41500010, [(2, 0x100)], 0x40, [⟨6, 0, .view, .none, .any⟩], (some ETH_STAT_CFG_ERR)⟩
  | .ETH_STAT => ⟨0x41500014, [(2, 0x100)], 0x0, [⟨0, 0, .w1c, .none, .any⟩, ⟨1, 1, .w1c, .none, .any⟩, ⟨2, 2, .w1c, .none, .any⟩, ⟨3, 3, .w1c, .none, .any⟩, ⟨8, 8, .ro, .none, .any⟩], (some ETH_STAT_CFG_ERR)⟩
  | .ETH_LD_CNT => ⟨0x41500018, [(2, 0x100)], 0x0, [⟨15, 0, .clr, .none, .any⟩], (some ETH_STAT_CFG_ERR)⟩
  | .ETH_Q0D_CNT => ⟨0x4150001C, [(2, 0x100)], 0x0, [⟨15, 0, .clr, .none, .any⟩], (some ETH_STAT_CFG_ERR)⟩
  | .ETH_QXD_CNT => ⟨0x41500020, [(2, 0x100)], 0x0, [⟨15, 0, .clr, .none, .any⟩], (some ETH_STAT_CFG_ERR)⟩
  | .ETH_CFG_CNT => ⟨0x41500024, [(2, 0x100)], 0x0, [⟨15, 0, .clr, .none, .any⟩], (some ETH_STAT_CFG_ERR)⟩
  | .ETH_HWACT => ⟨0x41500400, [], 0x0, [⟨0, 0, .rw, .none, .any⟩, ⟨1, 1, .rw, .none, .any⟩, ⟨2, 2, .wo, .none, .any⟩], (some ETH_STAT_CFG_ERR)⟩
  | .ETH_EXPDMA => ⟨0x41500404, [], 0x0, [⟨15, 0, .rw, .none, .any⟩], (some ETH_STAT_CFG_ERR)⟩
  | .ETH_MB_CTL => ⟨0x41500800, [(5, 0x80)], 0x0, [⟨0, 0, .wo, .none, .any⟩, ⟨1, 1, .ro, .none, .any⟩, ⟨2, 2, .ro, .none, .any⟩], (some ETH_MB_STAT_CFG_ERR)⟩
  | .ETH_MB_REQ => ⟨0x41500810, [(5, 0x80), (8, 0x4)], 0x0, [⟨31, 0, .rw, .none, .any⟩], (some ETH_MB_STAT_CFG_ERR)⟩
  | .ETH_MB_RSP => ⟨0x41500830, [(5, 0x80), (8, 0x4)], 0x0, [⟨31, 0, .ro, .none, .any⟩], (some ETH_MB_STAT_CFG_ERR)⟩
  | .ETH_EMB_BASE => ⟨0x41500C00, [], 0x0, [⟨23, 0, .rw, .emb, .align 5⟩], (some ETH_MB_STAT_CFG_ERR)⟩
  | .ETH_EMB_CFG => ⟨0x41500C04, [], 0x80, [⟨0, 0, .rw, .none, .any⟩, ⟨7, 4, .rw, .emb, .range 6 12⟩], (some ETH_MB_STAT_CFG_ERR)⟩
  | .ETH_EMB_WR => ⟨0x41500C08, [], 0x0, [⟨31, 0, .ro, .none, .any⟩], (some ETH_MB_STAT_CFG_ERR)⟩
  | .ETH_EMB_RD => ⟨0x41500C0C, [], 0x0, [⟨31, 0, .rw, .none, .special .embrd⟩], (some ETH_MB_STAT_CFG_ERR)⟩
  | .ETH_MB_STAT => ⟨0x41500C20, [], 0x0, [⟨0, 0, .w1c, .none, .any⟩, ⟨1, 1, .w1c, .none, .any⟩, ⟨2, 2, .w1c, .none, .any⟩, ⟨3, 3, .w1c, .none, .any⟩], (some ETH_MB_STAT_CFG_ERR)⟩
  | .ETH_MBTO_CNT => ⟨0x41500C24, [], 0x0, [⟨15, 0, .clr, .none, .any⟩], (some ETH_MB_STAT_CFG_ERR)⟩
  | .ETH_MBBW_CNT => ⟨0x41500C28, [], 0x0, [⟨15, 0, .clr, .none, .any⟩], (some ETH_MB_STAT_CFG_ERR)⟩
  | .ETH_EMBO_CNT => ⟨0x41500C2C, [], 0x0, [⟨15, 0, .clr, .none, .any⟩], (some ETH_MB_STAT_CFG_ERR)⟩
  | .ETH_MBCFG_CNT => ⟨0x41500C30, [], 0x0, [⟨15, 0, .clr, .none, .any⟩], (some ETH_MB_STAT_CFG_ERR)⟩
  | .FL_STATE => ⟨0x41600000, [], 0x0, [⟨2, 0, .view, .none, .any⟩, ⟨3, 3, .view, .none, .any⟩, ⟨4, 4, .view, .none, .any⟩, ⟨5, 5, .view, .none, .any⟩, ⟨6, 6, .view, .none, .any⟩, ⟨7, 7, .view, .none, .any⟩, ⟨8, 8, .view, .none, .any⟩, ⟨9, 9, .view, .none, .any⟩], none⟩
  | .FL_LEN_LO => ⟨0x41600010, [], 0x0, [⟨31, 0, .view, .none, .any⟩], none⟩
  | .FL_LEN_HI => ⟨0x41600014, [], 0x0, [⟨31, 0, .ro, .none, .any⟩], none⟩
  | .FL_LENC_LO => ⟨0x41600018, [], 0xFFFFFFFF, [⟨31, 0, .ro, .none, .any⟩], none⟩
  | .FL_LENC_HI => ⟨0x4160001C, [], 0xFFFFFFFF, [⟨31, 0, .ro, .none, .any⟩], none⟩
  | .FL_AREA_LO => ⟨0x41600020, [], 0x0, [⟨31, 0, .view, .none, .any⟩], none⟩
  | .FL_AREA_HI => ⟨0x41600024, [], 0x0, [⟨31, 0, .ro, .none, .any⟩], none⟩
  | .FL_AREAC_LO => ⟨0x41600028, [], 0xFFFFFFFF, [⟨31, 0, .ro, .none, .any⟩], none⟩
  | .FL_AREAC_HI => ⟨0x4160002C, [], 0xFFFFFFFF, [⟨31, 0, .ro, .none, .any⟩], none⟩
  | .FL_LOTLEN_LO => ⟨0x41600030, [], 0x0, [⟨31, 0, .view, .none, .any⟩], none⟩
  | .FL_LOTLEN_HI => ⟨0x41600034, [], 0x0, [⟨31, 0, .ro, .none, .any⟩], none⟩
  | .FL_REV_LO => ⟨0x41600038, [], 0x0, [⟨31, 0, .view, .none, .any⟩], none⟩
  | .FL_REV_HI => ⟨0x4160003C, [], 0x0, [⟨31, 0, .ro, .none, .any⟩], none⟩
  | .FL_POS_LO => ⟨0x41600040, [], 0x0, [⟨31, 0, .view, .none, .any⟩], none⟩
  | .FL_POS_HI => ⟨0x41600044, [], 0x0, [⟨31, 0, .ro, .none, .any⟩], none⟩
  | .FL_EVCNT => ⟨0x41600050, [], 0x0, [⟨31, 0, .view, .none, .any⟩], none⟩
  | .FL_FAULTCNT => ⟨0x41600054, [], 0x0, [⟨31, 0, .view, .none, .any⟩], none⟩
  | .FL_UNCLEAN => ⟨0x41600058, [], 0x0, [⟨31, 0, .view, .none, .any⟩], none⟩
  | .FL_TICKNO => ⟨0x4160005C, [], 0x0, [⟨31, 0, .view, .none, .any⟩], none⟩
  | .FL_COMMIT => ⟨0x41600060, [], 0x0, [⟨31, 0, .view, .none, .any⟩], none⟩
  | .FL_FWID_LO => ⟨0x41600070, [], 0x0, [⟨31, 0, .view, .none, .any⟩], none⟩
  | .FL_FWID_HI => ⟨0x41600074, [], 0x0, [⟨31, 0, .view, .none, .any⟩], none⟩
  | .FL_PFORM => ⟨0x41600080, [], 0x0, [⟨0, 0, .view, .none, .any⟩, ⟨1, 1, .view, .none, .any⟩, ⟨28, 16, .view, .none, .any⟩], none⟩
  | .FL_PNUM => ⟨0x41600084, [], 0x0, [⟨31, 0, .view, .none, .any⟩], none⟩
  | .FL_PDEN => ⟨0x41600088, [], 0x0, [⟨31, 0, .view, .none, .any⟩], none⟩
  | .FL_PWNOM => ⟨0x4160008C, [], 0x0, [⟨31, 0, .view, .none, .any⟩], none⟩
  | .FL_PPULSE => ⟨0x41600090, [], 0x0, [⟨31, 0, .view, .none, .any⟩], none⟩
  | .FL_TICKET => ⟨0x41600800, [(64, 0x4)], 0x0, [⟨31, 0, .ro, .none, .any⟩], none⟩
  | .FL_TKEY => ⟨0x41600900, [(15, 0x4)], 0x0, [⟨31, 0, .ro, .none, .any⟩], none⟩
  | .FL_TKID_LO => ⟨0x41600940, [], 0x0, [⟨31, 0, .ro, .none, .any⟩], none⟩
  | .FL_TKID_HI => ⟨0x41600944, [], 0x0, [⟨31, 0, .ro, .none, .any⟩], none⟩

/-- The registers of each 1 MiB block of control space, by bits 27:20 of the bus address. -/
def blockRegs : Nat → List Reg
  | 0 => [.SYS_PWRSTATE, .SYS_PWRCMD, .SYS_PWRRES, .SYS_RUNMARK_LO, .SYS_RUNMARK_HI, .SYS_T0_LO, .SYS_T0_HI, 
      .SYS_HOLDLINE_LO, .SYS_HOLDLINE_HI, .SYS_WAKESRC, .SYS_WAKECNT, .SYS_PROFILE, .SYS_PROFILEC, 
      .SYS_STAT, .SYS_INT_CNT, .SYS_RREF_CNT, .SYS_BOOT, .SYS_PSTAT, .SYS_PCFG, .SYS_PSTB_CNT, 
      .SYS_SPLICE_LO, .SYS_SPLICE_HI]
  | 1 => [.SEC_LC, .SEC_DEVID_LO, .SEC_DEVID_HI, .SEC_LCCMD, .SEC_LCRES, .SEC_DBG, .SEC_DBGRES, .SEC_CHALCMD, 
      .SEC_STAT, .SEC_INTSRC, .SEC_INT_CNT, .SEC_DEN_CNT, .SEC_CHAL, .SEC_AUTH_CNT, .SEC_DBG_CNT, 
      .SEC_RESP, .SEC_KEYCMD, .SEC_KBUF, .SEC_KPOL, .SEC_KPOLC, .SEC_MRX, .SEC_MRXBUF, .SEC_QCMD, 
      .SEC_QRES, .SEC_QNONCE, .SEC_IDPUB, .SEC_MR, .SEC_QOUT, .SEC_DLOG_A, .SEC_DLOG_B, .SEC_DLOG_CNT, 
      .SEC_AT, .SEC_ATC]
  | 2 => [.TICK_CTL, .TICK_DEPTH, .TICK_NUM, .TICK_DEN, .TICK_FIXPER, .TICK_DIVN, .TICK_FMAX, .TICK_POS_LO, 
      .TICK_POS_HI, .TICK_BEHIND, .TICK_SPEED, .TICK_PAGE_LO, .TICK_PAGE_HI, .TICK_HOLDADV, .TICK_STAT, 
      .TICK_OVS_CNT, .TICK_LOST_CNT, .TICK_REV_CNT, .TICK_CFG_CNT, .TICK_SLACK, .TICK_TOFF, .TICK_TOFFC, 
      .TICK_HIST]
  | 4 => [.TIME_SEC_LO, .TIME_SEC_HI, .TIME_NS, .TIME_OFS, .TIME_GAIN, .TIME_FREQ, .TIME_LIM, .TIME_STEPTHR, 
      .TIME_SET_SEC_LO, .TIME_SET_SEC_HI, .TIME_SET_NS, .TIME_STAT_X, .TIME_STEP_CNT, .TIME_HELD_CNT, 
      .TIME_SETREF_CNT, .TIME_CTL, .TIME_SWSTEP, .TIME_STAT, .TIME_SWREF_CNT, .TIME_DEV_SEC_LO, 
      .TIME_DEV_SEC_HI, .TIME_DEV_NS]
  | 3 => [.ENC_CTL, .ENC_OBS, .ENC_STILL, .ENC_INTERP, .ENC_AMPWIN, .ENC_SCOFS, .ENC_SCGAIN, .ENC_SER, 
      .ENC_IDXPER, .ENC_POS_LO, .ENC_POS_HI, .ENC_SPEED, .ENC_ACC, .ENC_IDXDIFF, .ENC_IPOS, .ENC_AMP, 
      .ENC_STAT, .ENC_AMP_CNT, .ENC_IDX_CNT, .ENC_PJ_CNT, .ENC_CRC_CNT, .ENC_LOST_CNT, .ENC_CFG_CNT, 
      .ENC_BERR_CNT, .ENC_PT_CTL, .ENC_PT_ZPER, .ENC_PT_STAT, .ENC_PT_OVF_CNT]
  | 5 => [.LANE_CTL, .LANE_RT, .LANE_CSLIM, .LANE_STATE, .LANE_STAT, .LANE_LL_CNT, .LANE_FL_CNT, .LANE_UCW_CNT, 
      .LANE_EB_CNT, .LANE_FC_CNT, .LANE_CR_CNT, .LANE_RT_CNT, .LANE_CW, .LANE_CSYM, .LANE_UCWTOT, 
      .LANE_PKTDROP, .LANE_EBCNT, .LANE_ESCAN_CTL, .LANE_ESCAN_RES, .LANE_ESCAN_ERR]
  | 6 => [.CAM_CTL, .CAM_PIX, .CAM_STATE, .CAM_SFMAX, .CAM_STAT, .CAM_DEG_CNT, .CAM_STOP_CNT, .CAM_LL_CNT, 
      .CAM_STRAY_CNT, .CAM_FMTTO_CNT, .CAM_REGTO_CNT, .CAM_EXPO_CNT, .CAM_CFG_CNT, .CAM_LOST, .CAM_REGCMD, 
      .CAM_REGWD, .CAM_REGRD, .CAM_REGRES]
  | 7 => [.IU_CTL, .IU_TBASE, .IU_TNEW, .IU_TLINE_LO, .IU_TLINE_HI, .IU_TCMD, .IU_TRES, .IU_STWIN, .IU_SBLK, 
      .IU_MEAN_RG, .IU_MEAN_BN, .IU_SATN, .IU_DREF_RG, .IU_DREF_BN, .IU_DTOL, .IU_SRIDX, .IU_STAT, 
      .IU_DRIFT_CNT, .IU_HELD_CNT, .IU_RANGE_CNT, .IU_TERR_CNT, .IU_SKIP_CNT, .IU_CFG_CNT, .IU_ACC_CTL, 
      .IU_ACC_LO, .IU_ACC_HI, .IU_ACC_STAT, .IU_LREF, .IU_LLIM, .IU_LHBASE, .IU_SRBASE]
  | 8 => [.SE_CTL, .SE_IMG_LO, .SE_IMG_HI, .SE_LDCMD, .SE_LDRES, .SE_STATE, .SE_BUDGET, .SE_COST, .SE_BANK, 
      .SE_FMAXC, .SE_RUNCYC, .SE_RUNPEAK, .SE_LINE_LO, .SE_LINE_HI, .SE_QPEAK, .SE_STRIPE, .SE_STAT, 
      .SE_FAULT_CNT, .SE_BLIND_CNT, .SE_WCOLL_CNT, .SE_STCE_CNT, .SE_CFG_CNT, .SE_LDF_CNT, .SE_SBUDGET, 
      .SE_RING_A, .SE_RING_B, .SE_RING_C, .SE_RING_D]
  | 9 => [.ACCORD_CTL, .ACCORD_RES, .ACCORD_OUTW, .ACCORD_X0, .ACCORD_XPITCH, .ACCORD_MCHK_CMD, 
      .ACCORD_MCHK_SET, .ACCORD_MRES, .ACCORD_STAT, .ACCORD_RERR_CNT, .ACCORD_LATE_CNT, .ACCORD_CFG_CNT, 
      .ACCORD_RTA, .ACCORD_RTB]
  | 10 => [.REF_CTL, .REF_RES, .REF_CMD, .REF_RBASE_LO, .REF_RBASE_HI, .REF_RROWS, .REF_RPITCH, .REF_RWIDTH, 
      .REF_TILE, .REF_PMAX, .REF_PLEN, .REF_PLENF, .REF_OVR, .REF_PAGEOFS, .REF_MARK, .REF_FIRST_LO, 
      .REF_FIRST_HI, .REF_TRKCFG, .REF_AB, .REF_Q, .REF_LIM, .REF_PSTAT, .REF_PID, .REF_STAT, .REF_PKT_CNT, 
      .REF_DESC_CNT, .REF_TILE_CNT, .REF_FEED_CNT, .REF_PERR_CNT, .REF_MSTRAY_CNT, .REF_MMISS_CNT, 
      .REF_PUNDER_CNT, .REF_PLATE_CNT, .REF_REDGE_CNT, .REF_RLIM_CNT, .REF_LOWT_CNT, .REF_CFG_CNT, 
      .REF_DUP_CNT, .REF_XSREG_CNT, .REF_EWIN, .REF_TRK_MD, .REF_TRK_CD, .REF_TRK_K, .REF_TRK_STAT]
  | 11 => [.SIL_CTL, .SIL_CONN, .SIL_ENGMASK, .SIL_EOLTO, .SIL_CTXBASE, .SIL_LONGLEN, .SIL_LSTEP, .SIL_CLS, 
      .SIL_CLSSUP, .SIL_WSWAP, .SIL_CMD, .SIL_CMDRES, .SIL_OPEN, .SIL_LINE_LO, .SIL_LINE_HI, .SIL_SATOPEN, 
      .SIL_STAT, .SIL_SAT_CNT, .SIL_ROVF_CNT, .SIL_EOLM_CNT, .SIL_LONG_CNT, .SIL_CFG_CNT, .SIL_MERGE_CNT, 
      .SIL_CLOSE_CNT, .SIL_SUP_CNT, .SIL_W]
  | 12 => [.RPT_CTL, .RPT_JOB0_LO, .RPT_JOB0_HI, .RPT_MDPITCH, .RPT_QBASE, .RPT_QCFG, .RPT_QWR, .RPT_QRD, 
      .RPT_QTHR, .RPT_CRBASE_LO, .RPT_CRBASE_HI, .RPT_CRING, .RPT_CROP, .RPT_CLIM, .RPT_CSBASE_LO, 
      .RPT_CSBASE_HI, .RPT_CSSIZE, .RPT_CIBASE_LO, .RPT_CIBASE_HI, .RPT_CHANDLE, .RPT_RMBASE_LO, 
      .RPT_RMBASE_HI, .RPT_RMLOG, .RPT_RMWR, .RPT_STAT, .RPT_RLOST_CNT, .RPT_DELAY_CNT, .RPT_CLOST_CNT, 
      .RPT_CERR_CNT, .RPT_AERR_CNT, .RPT_LMISS_CNT, .RPT_TSL_CNT, .RPT_CFG_CNT, .RPT_MK_CTL, .RPT_MK_PW, 
      .RPT_MK_DIST, .RPT_MK_DISTC, .RPT_MK_STAT, .RPT_MK_LATE_CNT, .RPT_MK_OVF_CNT, .RPT_MK_COIN_CNT, 
      .RPT_MK_INT_CNT, .RPT_MK_FIRED]
  | 13 => [.SPAN_CTL, .SPAN_ID, .SPAN_XBASE, .SPAN_TDLY, .SPAN_SEAMTO, .SPAN_RES, .SPAN_TOFS, .SPAN_PST, 
      .SPAN_LAT, .SPAN_NB, .SPAN_STAT, .SPAN_LD_CNT, .SPAN_IDC_CNT, .SPAN_MC_CNT, .SPAN_ORD_CNT, 
      .SPAN_TL_CNT, .SPAN_TG_CNT, .SPAN_SL_CNT, .SPAN_FWD_CNT, .SPAN_PKT_CNT, .SPAN_CFG_CNT, .SPAN_HTX, 
      .SPAN_HRX]
  | 14 => [.MEM_STAT, .MEM_WCOLL_CNT, .MEM_RPR_CNT, .MEM_UNRPR_CNT, .MEM_ABORT_CNT, .MEM_CFG_CNT, 
      .MEM_COLL_ADDR, .MEM_COLL_INFO, .MEM_RET_SB, .MEM_RET_SP, .MEM_WAKE_SB, .MEM_WAKE_SP, .MEM_BLT_CTL, 
      .MEM_BLT_SB, .MEM_BLT_SP, .MEM_BLT_RES, .MEM_BLT_FAIL, .MEM_RPR]
  | 15 => [.CXL_FROZEN, .CXL_DEC_RES, .CXL_DEC_ERR_CNT, .CXL_P_CTL, .CXL_P_STATE, .CXL_P_STAT, .CXL_P_LD_CNT, 
      .CXL_P_POISON_CNT, .CXL_P_UCE_CNT, .CXL_P_TIMEOUT_CNT, .CXL_P_PLF_CNT, .CXL_P_SRTO_CNT, 
      .CXL_P_SRL_CNT, .CXL_P_INB_CNT, .CXL_P_CFG_CNT, .CXL_P_CMD, .CXL_P_CMDRES, .CXL_P_LOG_LO, 
      .CXL_P_LOG_HI, .CXL_P_LOG_INFO, .CXL_P_HIDX, .CXL_P_HDATA, .CXL_P_PL_LO, .CXL_P_PL_HI, .CXL_P_CFGA, 
      .CXL_P_CFGD, .CXL_P_CFGRES, .CXL_P_CFGX, .CXL_DEC_CTL, .CXL_DEC_BASE, .CXL_DEC_SIZE, .CXL_DEC_DPA]
  | 16 => [.DMA_CMD, .DMA_DESC_LO, .DMA_DESC_HI, .DMA_RES, .DMA_STATE, .DMA_CURDESC_LO, .DMA_CURDESC_HI, 
      .DMA_CUR_SRC_LO, .DMA_CUR_SRC_HI, .DMA_CUR_DST_LO, .DMA_CUR_DST_HI, .DMA_ROW, .DMA_REMAIN, 
      .DMA_PRODUCED, .DMA_FAIL_LO, .DMA_FAIL_HI, .DMA_FAIL_INFO, .DMA_FAIL_OFS, .DMA_STAT, .DMA_DONE_CNT, 
      .DMA_ERR_CNT, .DMA_CFG_CNT]
  | 17 => [.CMP_CTL, .CMP_ENG, .CMP_STAT, .CMP_ERRINFO, .CMP_DEC_CNT, .CMP_WR_CNT, .CMP_IN_LO, .CMP_IN_HI, 
      .CMP_OUT_LO, .CMP_OUT_HI]
  | 18 => [.SIG_CTL, .SIG_CMD, .SIG_FAST, .SIG_STAT, .SIG_FOC_CNT, .SIG_CFG_CNT, .SIG_K_CFG, .SIG_K_OPER, 
      .SIG_K_BANK, .SIG_K_ENVCF, .SIG_K_PKLIM, .SIG_K_RMSLIM, .SIG_K_ENVLIM, .SIG_K_VAL, .SIG_K_DETV, 
      .SIG_K_ENVV, .SIG_K_SKEW, .SIG_K_STAT, .SIG_K_PKH_CNT, .SIG_K_PKL_CNT, .SIG_K_RMH_CNT, 
      .SIG_K_RML_CNT, .SIG_K_EVH_CNT, .SIG_K_EVL_CNT, .SIG_K_STK_CNT, .SIG_K_SUP_CNT, .SIG_K_CFG_CNT, 
      .SIG_COEF]
  | 19 => [.MOT_CTL, .MOT_STATE, .MOT_POS, .MOT_TGT, .MOT_VEL, .MOT_VSTART, .MOT_VSTOP, .MOT_VBREAK, .MOT_VMAX, 
      .MOT_A1, .MOT_A2, .MOT_D2, .MOT_D1, .MOT_VHOME, .MOT_HMAX, .MOT_HOMEPOS, .MOT_SMIN, .MOT_SMAX, 
      .MOT_ORIGIN, .MOT_NMQ, .MOT_IRUN, .MOT_CHOP, .MOT_ADAPT, .MOT_OFS, .MOT_SS, .MOT_LIM, .MOT_IN, 
      .MOT_STAT, .MOT_ARR_CNT, .MOT_LHIT_CNT, .MOT_CHAT_CNT, .MOT_HF_CNT, .MOT_OC_CNT, .MOT_CLMP_CNT, 
      .MOT_CFG_CNT]
  | 20 => [.EVT_OWN, .EVT_LOCK, .EVT_RES, .EVT_STAT, .EVT_LOOP_CNT, .EVT_DEN_CNT, .EVT_RLYO_CNT, .EVT_CAPO_CNT, 
      .EVT_CFG_CNT, .EVT_SWTRIG, .EVT_MOVE, .EVT_SRCMASK, .EVT_ISTAT, .EVT_IRQ_CNT, .EVT_PIN, .EVT_RLY_DIV, 
      .EVT_RLY_DLY, .EVT_LNK_LO, .EVT_LNK_HI, .EVT_WIRE_LO, .EVT_WIRE_HI, .EVT_COIN_LO, .EVT_COIN_HI, 
      .EVT_COIN_CNT, .EVT_CAP]
  | 21 => [.ETH_CTL, .ETH_MAC_LO, .ETH_MAC_HI, .ETH_CFLT, .ETH_Q0FREE, .ETH_STAT, .ETH_LD_CNT, .ETH_Q0D_CNT, 
      .ETH_QXD_CNT, .ETH_CFG_CNT, .ETH_HWACT, .ETH_EXPDMA, .ETH_MB_CTL, .ETH_MB_REQ, .ETH_MB_RSP, 
      .ETH_EMB_BASE, .ETH_EMB_CFG, .ETH_EMB_WR, .ETH_EMB_RD, .ETH_MB_STAT, .ETH_MBTO_CNT, .ETH_MBBW_CNT, 
      .ETH_EMBO_CNT, .ETH_MBCFG_CNT]
  | 22 => [.FL_STATE, .FL_LEN_LO, .FL_LEN_HI, .FL_LENC_LO, .FL_LENC_HI, .FL_AREA_LO, .FL_AREA_HI, .FL_AREAC_LO, 
      .FL_AREAC_HI, .FL_LOTLEN_LO, .FL_LOTLEN_HI, .FL_REV_LO, .FL_REV_HI, .FL_POS_LO, .FL_POS_HI, 
      .FL_EVCNT, .FL_FAULTCNT, .FL_UNCLEAN, .FL_TICKNO, .FL_COMMIT, .FL_FWID_LO, .FL_FWID_HI, .FL_PFORM, 
      .FL_PNUM, .FL_PDEN, .FL_PWNOM, .FL_PPULSE, .FL_TICKET, .FL_TKEY, .FL_TKID_LO, .FL_TKID_HI]
  | _ => []

end Sys2Proof.Machine
end

