-- ==== Sys2Proof/Machine/Store.lean ====
section
/-!
DEFINITION. Sys2Proof/Machine/Store.lean: the two stores every unit of the model uses. A table maps keys to values and
reads a default where a key is absent; byte memory is a list of (address, byte) pairs in one canonical form.
-/
namespace Sys2Proof.Machine

/-- A sparse table: a key that is absent reads as the default its reader names. -/
abbrev Tab (κ α : Type) := List (κ × α)

/-- Read a table. -/
def look {κ α : Type} [DecidableEq κ] (d : α) : Tab κ α → κ → α
  | [], _ => d
  | (k', v) :: t, k => if k' = k then v else look d t k

/-- Write a table: one entry per key. -/
def put {κ α : Type} [DecidableEq κ] (v : α) : Tab κ α → κ → Tab κ α
  | [], k => [(k, v)]
  | (k', v') :: t, k => if k' = k then (k, v) :: t else (k', v') :: put v t k

/-- Read, change and write one entry. -/
def upd {κ α : Type} [DecidableEq κ] (d : α) (f : α → α) (t : Tab κ α) (k : κ) : Tab κ α :=
  put (f (look d t k)) t k

/-- Byte memory: addresses strictly rising, no entry equal to the byte an unlisted address reads as (0x00). -/
abbrev Memory := List Host.Cell

/-- One byte of memory; an unlisted byte reads 0x00 (R261: every bank is cleared at exit from Off). -/
def memByte : Memory → Nat → Byte
  | [], _ => 0
  | (a', b) :: t, a => if a' = a then b else if a < a' then 0 else memByte t a

/-- Write one byte, keeping the canonical form. -/
def memPut : Memory → Nat → Byte → Memory
  | [], a, b => if b = 0 then [] else [(a, b)]
  | (a', b') :: t, a, b =>
    if a < a' then (if b = 0 then (a', b') :: t else (a, b) :: (a', b') :: t)
    else if a = a' then (if b = 0 then t else (a, b) :: t)
    else (a', b') :: memPut t a b

/-- Write consecutive bytes from an address upward. -/
def memWrite : Memory → Nat → List Byte → Memory
  | m, _, [] => m
  | m, a, b :: bs => memWrite (memPut m a b) (a + 1) bs

/-- Read `n` consecutive bytes from an address upward. -/
def memRead (m : Memory) (a n : Nat) : List Byte :=
  (List.range n).map fun i => memByte m (a + i)

/-- The canonical form: strictly rising addresses and no byte that an unlisted address reads as. -/
def Memory.wf : Memory → Bool
  | [] => true
  | [(_, b)] => b != 0
  | (a, b) :: (a', b') :: t => b != 0 && decide (a < a') && Memory.wf ((a', b') :: t)

/-- Every byte from `lo` up to `hi` (excluded) made 0x00: the listed entries of that range dropped. -/
def memClear (m : Memory) (lo hi : Nat) : Memory :=
  m.filter fun c => !(decide (lo ≤ c.1) && decide (c.1 < hi))

/-- The little-endian value of a list of bytes (R13). -/
def leNat : List Byte → Nat
  | [] => 0
  | b :: bs => b.toNat + 256 * leNat bs

/-- The `n` little-endian bytes of a value (R13). -/
def leBytes : Nat → Nat → List Byte
  | 0, _ => []
  | n + 1, v => BitVec.ofNat 8 v :: leBytes n (v / 256)

/-- A little-endian value of `n` bytes read from memory. -/
def memNat (m : Memory) (a n : Nat) : Nat := leNat (memRead m a n)

/-- Write a little-endian value of `n` bytes. -/
def memPutNat (m : Memory) (a n v : Nat) : Memory := memWrite m a (leBytes n v)

/-- Bits `hi:lo` of a natural number. -/
def bits (v hi lo : Nat) : Nat := (v >>> lo) % 2 ^ (hi + 1 - lo)

/-- Replace bits `hi:lo` of a natural number by `x`. -/
def setBits (v hi lo x : Nat) : Nat :=
  v - (bits v hi lo) * 2 ^ lo + (x % 2 ^ (hi + 1 - lo)) * 2 ^ lo

/-- The signed value of the low `w` bits. -/
def toSigned (w v : Nat) : Int :=
  let x := v % 2 ^ w
  if x < 2 ^ (w - 1) then x else (x : Int) - (2 ^ w : Nat)

/-- The low `w` bits of an integer, two's complement. -/
def ofSigned (w : Nat) (v : Int) : Nat := (v % ((2 ^ w : Nat) : Int)).toNat

/-- b subtracted from a modulo 2³²: the distance from b to a on a 32-bit counter. -/
def seqSub (a b : Nat) : Nat := (a + 2 ^ 32 - b) % 2 ^ 32

/-- The square root of `x` that lies in [r, r + 2^k), bit by bit. -/
def isqrtFrom (x : Nat) : Nat → Nat → Nat
  | 0, r => r
  | k + 1, r => isqrtFrom x k (if (r + 2 ^ k) * (r + 2 ^ k) ≤ x then r + 2 ^ k else r)

/-- The greatest whole number whose square is at most `x`. -/
def isqrt (x : Nat) : Nat := isqrtFrom x (x.log2 / 2 + 1) 0

/-- Clamp an integer. -/
def clampInt (lo hi v : Int) : Int := if v < lo then lo else if hi < v then hi else v

/-- Insert into a sorted list, after its equals. -/
def insertBy {α : Type} (le : α → α → Bool) (x : α) : List α → List α
  | [] => [x]
  | y :: ys => if le y x then y :: insertBy le x ys else x :: y :: ys

/-- Sort a list, equals in their order. -/
def sortBy {α : Type} (le : α → α → Bool) (l : List α) : List α := l.foldl (fun acc x => insertBy le x acc) []

end Sys2Proof.Machine
end

