-- ==== Sys2Proof/Machine/State.lean ====
section
/-!
DEFINITION. Sys2Proof/Machine/State.lean: the state of the device, unit by unit, as plain data, and the state at the
release of PORST_N. A register the tables describe as stored lives in `State.regs`; everything else a unit remembers
lives in that unit's structure, and the registers that show it are read through Sys2Proof/Machine/Views.lean.
Every default value below is the value after reset.
-/
namespace Sys2Proof.Machine

/-- A stored register: its name and its flat array index (0 for a single register). -/
abbrev RegKey := Reg × Nat

/-- Power states (R392). -/
inductive PowerSt where
  | off | standby | hold | run
  deriving DecidableEq, Repr

/-- Power control in SYS and the root core (R392–R397). -/
structure Power where
  st : PowerSt := .hold
  /-- a drain is running (R394) -/
  drain : Bool := false
  /-- index of the last drain tick issued (R394) -/
  drainAt : Nat := 0
  /-- lines dropped into `SYS_T0` at Run entry (R393) -/
  t0 : Nat := 0
  /-- L_h, latched at a Hold request (R394) -/
  holdLine : Nat := 0
  /-- a Standby entry is in progress, waiting for the CXL devices (R395, R271) -/
  entering : Bool := false
  /-- WAKE occurrence: the channel that will wake, or woke, the device (R396, R397) -/
  wake : Option Nat := none
  /-- the present boot is a wake (R380) -/
  warm : Bool := false
  /-- INTEGRITY was raised since the boot (R380) -/
  intSinceBoot : Bool := false
  /-- the boot sequence has completed (R409) -/
  booted : Bool := false
  /-- THERMTRIP_N is driven low until power is removed (R422) -/
  thermTrip : Bool := false
  deriving DecidableEq, Repr

/-- What SEC holds beside its registers (R375–R391). -/
structure Sec where
  /-- lifecycle fuses: value and complement; unblown fuses (0, 0) encode BLANK (R426) -/
  lc : Nat := 0
  lcc : Nat := 0
  /-- INTEGRITY of the lifecycle value was found at the last reset (R386 source 5) -/
  lcInvalid : Bool := false
  devId : Nat := 0
  /-- device secret, 64 bytes once provisioned (R388) -/
  secret : Option (List Byte) := none
  /-- owner keys of slots 1–4 -/
  keys : Tab Nat (List Byte) := []
  revoked : List Nat := []
  /-- MR0–MR7, 64 bytes each, 0 at every boot (R378) -/
  mr : Tab Nat (List Byte) := []
  /-- seed of the identity key and the identity public key, derived at a boot (R379) -/
  idSeed : List Byte := []
  idPub : List Byte := []
  /-- a challenge is held and unused (R387) -/
  chal : Bool := false
  /-- complement-protected pairs whose failure has been raised (R9) -/
  raised : List RegKey := []
  /-- complement written and held for the next value write (R8) -/
  held : Tab RegKey Word := []
  deriving DecidableEq, Repr

/-- TICK beside its registers (R28–R42). -/
structure Tick where
  /-- web position counter: line and remainder in units of 1 / TICK_DEN line (R30) -/
  line : Int := 0
  rem : Nat := 0
  /-- fraction supplied by the tick master in Span mode, 1/65,536 line -/
  spanFrac : Nat := 0
  /-- high-water mark (R31) -/
  hw : Int := 0
  /-- a backward excursion is in progress (R31) -/
  reverse : Bool := false
  /-- lines the high-water mark has moved past L_h (R33) -/
  holdAdv : Nat := 0
  /-- last displacement: counter before and after in lines, its end instant and duration in ns (for the interpolation of
  R31), and the observer speed in lines/s -/
  dispFrom : Rat := 0
  dispTo : Rat := 0
  dispAt : Rat := 0
  dispDt : Rat := 0
  speed : Rat := 0
  /-- lines ticked since Run entry, as ranges, newest first (R31, R37) -/
  ticked : List (Int × Int) := []
  /-- lines ticked in the Run before, the newest ranges, at most 4 -/
  past : List (Int × Int) := []
  /-- indexes of the last ticks, newest first, at most 256 (R77) -/
  rel : List Int := []
  /-- instants of the last ticks in ns, newest first, at most 5 (R40) -/
  instants : List Rat := []
  /-- instant in ns at which the present period of the fixed-rate generator began (R30) -/
  genAt : Rat := 0
  /-- ticks since an overspeed condition last held (R40) -/
  ovsClear : Nat := 0
  /-- tick history entries of 32 bytes, at n mod 512 (R42) -/
  hist : Tab Nat (List Byte) := []
  /-- queued ticks per engine, oldest first: line indexes n (R38) -/
  slack : Tab Nat (List Int) := []
  /-- first line of the last page start, as the 48.16 word that TICK_PAGE shows (R41) -/
  page : Nat := 0
  /-- in Span mode, the source has just changed and the next packet sets the counter (R29) -/
  spanFirst : Bool := false
  deriving DecidableEq, Repr

/-- One PTP time domain (R43–R46). -/
structure TimeDom where
  sec : Nat := 0
  ns : Nat := 0
  /-- sub-nanosecond fraction, 32 bits -/
  sub : Nat := 0
  /-- integral term and applied frequency, in 1/65,536 ppb -/
  integ : Int := 0
  freq : Int := 0
  /-- consecutive updates inside and outside the lock window (R44) -/
  inWin : Nat := 0
  outWin : Nat := 0
  deriving DecidableEq, Repr

/-- Phase of the A/B observer (R56). -/
inductive ObsPhase where
  | still                      -- no edge for T_still
  | first (back : Bool)        -- one edge since standstill, in that direction
  | seeded                     -- the second edge gave the speed; the position follows at the next update
  | moving                     -- seeded, R54 applies
  deriving DecidableEq, Repr

/-- One encoder channel (R47–R57). -/
structure Enc where
  a : Bool := false
  b : Bool := false
  z : Bool := false
  /-- position count: A/B last edge count, else the last measured position -/
  count : Int := 0
  /-- time of the last edge, in signal-chain cycles -/
  edgeAt : Int := 0
  /-- time of the edge that seeded the speed (R56) -/
  seedAt : Int := 0
  /-- direction of the last count: backward -/
  back : Bool := false
  /-- an edge or sample usable as a measurement came since the last update -/
  fresh : Bool := false
  /-- observer position, speed per second, acceleration per second squared -/
  p : Rat := 0
  v : Rat := 0
  acc : Rat := 0
  /-- time of the last observer update, in signal-chain cycles -/
  updAt : Int := 0
  phase : ObsPhase := .still
  /-- ⌊p⌋ last delivered to TICK -/
  given : Int := 0
  /-- last index: count and direction (R52) -/
  idx : Option (Int × Bool) := none
  /-- consecutive rejected sin/cos samples (R50) or discarded frames (R51) -/
  bad : Nat := 0
  /-- the observer coasts after SIGNAL_LOST until a valid measurement (R57) -/
  coast : Bool := false
  /-- sin sample waiting for its cos sample (R49) -/
  sinHeld : Option Int := none
  /-- serial: a frame is being clocked, latched at this time (R51) -/
  frame : Option Int := none
  /-- serial: last accepted position word (R51) -/
  word : Option Nat := none
  deriving DecidableEq, Repr

/-- Encoder pass-through (R58–R60). The output state is the count modulo 4. -/
structure PassThrough where
  /-- states sent so far, signed -/
  out : Int := 0
  /-- states queued and not yet sent, signed by direction -/
  queue : List Bool := []
  /-- states not sent because the queue was full, signed -/
  lag : Int := 0
  /-- last input state count ⌊count ÷ DIV⌋ followed -/
  seen : Int := 0
  z : Bool := false
  deriving DecidableEq, Repr

/-- One capture unit (R353). -/
structure Capture where
  /-- the entry present has not been read -/
  unread : Bool := false
  /-- word 0 has been read and word 7 has not -/
  reading : Bool := false
  /-- an occurrence held until word 7 is read -/
  held : Option (List Byte) := none
  deriving DecidableEq, Repr

/-- EVT beside its registers (R344–R353). -/
structure Evt where
  /-- level producers whose strobe is high, by channel -/
  level : List Nat := []
  /-- event pins whose accepted input level is high, before inversion -/
  pins : List Nat := []
  /-- occurrences that have reached each output input c = n (the pulses of EVOUTn) -/
  pulses : Tab Nat Nat := []
  /-- output inputs that a pulse holds high, with the 2 ns cycles it has left of its 10 ns (R346, R351; log 132) -/
  out : Tab Nat Nat := []
  /-- encoder count at the last ENCx_MOVE occurrence (R344) -/
  moveAt : Tab Nat Int := []
  /-- STRETCH outputs being driven (R351) -/
  stretch : List Nat := []
  /-- relay occurrence counts and delayed occurrences held (R352) -/
  rlyCount : Tab Nat Nat := []
  rlyHeld : Tab Nat Nat := []
  caps : Tab Nat Capture := []
  deriving DecidableEq, Repr

/-- A 66-bit block of a lane (R63, R65): control or data, 64-bit payload; `start` marks the first data block of a
camera line or half-line with the release index of its LSTART word (R76, R77); `gap` says that blocks before this one were
discarded with an uncorrectable codeword (R68). -/
structure Block where
  ctl   : Bool := true
  w     : Nat := 0x1E
  start : Option Nat := none
  gap   : Bool := false
  deriving DecidableEq, Repr

/-- A packet of a feed or Span lane (R84): channel and data-block payloads, as bytes; of a received one, the span time at which
its START block arrived (R240); of one that waits, the record it carries, if any (R250). -/
structure Packet where
  ch    : Nat
  bytes : List Byte
  at_   : Nat := 0
  rec_  : List Byte := []
  deriving DecidableEq, Repr

/-- Receiver states of a lane (R67). -/
inductive LaneSt where
  | off | hunt | verify | locked | retrain | failed
  deriving DecidableEq, Repr

/-- One 112 Gbit/s lane (R61–R73, R84). -/
structure Lane where
  st : LaneSt := .off
  /-- candidate codeword offset in bits (R67) -/
  cand : Nat := 0
  /-- good codewords seen in VERIFY (R67) -/
  good : Nat := 0
  /-- header validity of the last 63 blocks, newest first, in LOCKED (R67) -/
  hdrs : List Bool := []
  /-- last 58 received payload bits, newest at bit 0 (descrambler, R64) -/
  descr : Nat := 0
  /-- last 58 transmitted scrambled bits, newest at bit 0 (scrambler, R64) -/
  scr : Nat := 0
  /-- frame counters: next to send, last received (R64, R68) -/
  txCnt : Nat := 0
  rxCnt : Option Nat := none
  /-- elastic buffer (R69) -/
  eb : List Block := []
  ebFilling : Bool := true
  ebDel : Bool := false
  ebIns : Bool := false
  /-- blocks have been discarded since the last one written to the buffer (R68) -/
  gap : Bool := false
  /-- corrected symbols in the present 1 ms window (R71) -/
  csym : Nat := 0
  /-- height of the last selected code (R72) -/
  height : Nat := 0
  /-- transmit credit per channel, in blocks (R84) -/
  credit : Tab Nat Nat := []
  /-- blocks per channel that a Span lane's buffer has given up and that are not yet granted again (R84) -/
  used : Tab Nat Nat := []
  /-- packet being received: channel, data blocks announced, data received so far, newest first (R84) -/
  open_ : Option (Nat × Nat × List Nat) := none
  /-- span time at which its START block arrived (R240) -/
  openAt : Nat := 0
  /-- whole packets received, oldest first -/
  pkts : List Packet := []
  /-- control words received and not yet acted on, oldest first (R74) -/
  ctlIn : List Nat := []
  /-- control words waiting to be sent, oldest first (R75) -/
  ctlOut : List Nat := []
  /-- blocks waiting to be sent, oldest first -/
  txq : List Block := []
  /-- blocks sent since the last IDLE (R69) -/
  sinceIdle : Nat := 0
  /-- the last frame sent, bit 0 first (R63) -/
  txLast : Nat := 0
  deriving DecidableEq, Repr

/-- States of a camera port (R81). -/
inductive CamSt where
  | off | normal | degraded | stopped
  deriving DecidableEq, Repr

/-- An FMT word awaiting its FMT_ACK (R81, R82, R428). -/
structure FmtReq where
  width : Nat
  lanes : Nat
  /-- effective release index -/
  eff : Int
  /-- state the FMT requests -/
  target : CamSt
  /-- the timeout has been declared (cause 4) -/
  late : Bool := false
  deriving DecidableEq, Repr

/-- A camera register access in progress (R78). -/
structure RegAcc where
  write : Bool
  tag   : Nat
  addr  : Nat
  /-- data halves of a read received so far -/
  lo : Option Nat := none
  hi : Option Nat := none
  /-- worst result so far -/
  res : Nat := 0
  deriving DecidableEq, Repr

/-- A line or half-line being received on one lane of a port (R77). -/
structure Half where
  line   : Int
  need   : Nat
  width  : Nat
  /-- payloads so far, newest first -/
  data   : List Nat := []
  deriving DecidableEq, Repr

/-- A complete camera line (R77): samples in pixel order, channel order within a pixel. -/
structure CamLine where
  line    : Int
  /-- bits of the profile's samples, and of the samples as sent -/
  width   : Nat
  used    : Nat
  samples : List Nat
  deriving DecidableEq, Repr

/-- One camera port (R73–R83, R428). -/
structure Cam where
  st : CamSt := .off
  cause : Nat := 0
  curWidth : Nat := 0
  curLanes : Nat := 0
  fmt : Option FmtReq := none
  /-- consecutive ticks at or below 0.98 × SFMAX (R81) -/
  calm : Nat := 0
  reg : Option RegAcc := none
  /-- tag of the next register access -/
  tag : Nat := 0
  /-- lines being received: even lane 0, odd lane 1 -/
  half : Tab Nat Half := []
  /-- halves complete and waiting for the other lane: lane, line -/
  done : List (Nat × CamLine) := []
  /-- format in use before the last change, and the line from which the present one applies (R82) -/
  oldWidth : Nat := 0
  oldLanes : Nat := 0
  effAt : Int := 0
  /-- lane of the single-lane fallback, encoded as LANES (R81) -/
  work : Nat := 0
  /-- lanes whose data blocks are discarded until the next LSTART (R77) -/
  skip : List Nat := []
  /-- complete lines waiting for the ingest unit, oldest first -/
  lines : List CamLine := []
  /-- lines ticked while the port was STOPPED, or OFF with a valid route, as ranges, newest first, of the last 512 lines
  (R80) -/
  away : List (Int × Int) := []
  /-- lines counted as lost, newest first, at most 512, with the detail of their record: 1 LINE_LOST,
  2 PORT_STOPPED, 0 where only a ring without a valid route lost the line (R79, R80, R167) -/
  lost : List (Int × Nat) := []
  /-- lines that a record of the camera's blind lines covers, newest first, at most 512 (R79) -/
  cover : List Int := []
  deriving DecidableEq, Repr

/-- Statistics of the present block of an ingest unit (R97). -/
structure IuStats where
  first : Int := 0
  count : Nat := 0
  sum   : Tab Nat Nat := []
  satn  : Nat := 0
  held  : Bool := false
  lost  : Bool := false
  tsw   : Bool := false
  gain  : Nat := 0
  deriving DecidableEq, Repr

/-- A calibration accumulation (R99). -/
structure IuAcc where
  stage : Nat
  left  : Nat
  deriving DecidableEq, Repr

/-- One ingest unit (R85–R99). -/
structure Iu where
  /-- a table check is running on this offset, to switch at this line -/
  check : Option (Nat × Int) := none
  /-- an accepted table waits for its switch line -/
  pend : Option (Nat × Int) := none
  /-- the next line corrected carries TSW -/
  tsw : Bool := false
  /-- last line corrected -/
  last : Int := -1
  /-- lines delivered corrected, newest first, at most 512 (R79, R89) -/
  seen : List Int := []
  stats : IuStats := {}
  /-- finished blocks that wait for their ring entries, oldest first -/
  ended : List IuStats := []
  acc : Option IuAcc := none
  deriving DecidableEq, Repr

/-- A vector register: 64 lanes × 4 channels of 16 bits, channel ch of lane l at position 4l + ch (R104). -/
abbrev Vec := List (BitVec 16)

/-- An accumulator: 64 lanes × 4 channels of 40 bits (R104, R146). -/
abbrev AccV := List (BitVec 40)

/-- The zero vector register and the zero accumulator. -/
def zeroVec : Vec := List.replicate 256 0
def zeroAcc : AccV := List.replicate 256 0

/-- A launch of a program header (R161). -/
structure Launch where
  first : Nat
  p     : Nat
  e     : Nat
  ii    : Nat
  v     : Nat
  w     : Nat
  deriving DecidableEq, Repr

/-- A ring of a program header (R110, R161). -/
structure Ring where
  base  : Nat
  width : Nat
  depth : Nat
  kind  : Nat
  elem  : Nat
  req   : Bool
  hdr   : Nat
  h     : Nat
  rmax  : Nat
  outlo : Nat
  outhi : Nat
  deriving DecidableEq, Repr

/-- A loaded program: what the loader keeps of its image (R159–R162). -/
structure Prog where
  base     : Nat          -- first bundle in instruction memory
  bundles  : Nat
  entry    : Nat
  launches : List Launch
  rings    : List Ring
  areas    : List (Nat × Nat)
  /-- coefficient sets: 512 signed S1.14 words each -/
  coefs    : List (List Nat)
  peak     : Nat
  cLine    : Nat
  wLine    : Nat
  deriving DecidableEq, Repr

/-- A register write waiting for the end of its instruction's latency (R107, R130). A vector or accumulator entry that
is `none` leaves its channel unchanged. -/
inductive RegWr where
  | vec  (vd : Nat) (vals : List (Option (BitVec 16)))
  | acc  (a : Nat) (add : Bool) (vals : List (Option Int))
  | pred (pd : Nat) (v : BitVec 64)
  | sca  (sd : Nat) (v : BitVec 64)
  | row  (addr : Nat) (bytes : List Byte)     -- STW into the row store
  deriving DecidableEq, Repr

/-- A pending write: cycles left, slot position (R106), order of issue, the write. -/
structure PendWr where
  left : Nat
  slot : Nat
  wr   : RegWr
  deriving DecidableEq, Repr

/-- A run record (R156). -/
structure RunRec where
  first : Nat
  last  : Nat
  sums  : List Int
  peak  : Nat
  off   : Nat
  ovf   : Bool := false
  cutL  : Bool := false
  cutR  : Bool := false
  unit  : Nat := 0
  user  : Nat := 0
  eng   : Nat := 0
  line  : Nat := 0
  deriving DecidableEq, Repr

/-- A run unit (R154): its open run, and the vector base and lane 63 flag of its previous EMIT in this run. -/
structure RunUnit where
  cur  : Option RunRec := none
  prev : Option (Int × Bool) := none
  deriving DecidableEq, Repr

/-- What one 32-byte queue entry carries (R123, R151). -/
inductive QEntry where
  | stc  (bytes : List (Nat × Byte))                 -- one sixth of a vector's crop bytes
  | emit (recs : List RunRec)                        -- notice with the records that the EMIT closed
  | proj (addr : Nat) (bytes : List Byte)
  | void                                             -- no effect: its kernel mask was empty (R136)
  | sreg (part : Nat) (bytes : List Byte)
  | eol  (recs : List RunRec) (line : Int) (mask count : Nat) (ovf : Bool) (ranges : List (Nat × Nat))
  | mbox (bytes : List Byte)
  deriving DecidableEq, Repr

/-- Loop state of a kernel launch (R135). -/
structure LoopSt where
  k     : Nat
  b0    : Int
  count : Nat
  sa    : Int
  sb    : Int
  j     : Nat := 0
  idx   : Nat := 0
  ret   : Nat
  deriving DecidableEq, Repr

/-- A run in progress (R115–R119). -/
structure Run where
  line   : Int
  ctx    : List (BitVec 64)
  mask   : Nat
  /-- reference row index q (R188) -/
  q      : Int
  pc     : Nat
  loop   : Option LoopSt := none
  cycles : Nat := 0
  u0     : RunUnit := {}
  u1     : RunUnit := {}
  /-- run buffer: records of the line, in the order they closed (R155) -/
  buf    : List RunRec := []
  deriving DecidableEq, Repr

/-- Engine states (R126). -/
inductive EngSt where
  | empty | loaded | armed | running | fault
  deriving DecidableEq, Repr

/-- A load in progress: image address, splice, first bundle, latched budget (R127). -/
structure LoadReq where
  addr   : Nat
  splice : Bool
  base   : Nat
  limit  : Nat
  deriving DecidableEq, Repr

/-- One stripe engine (R104–R129). -/
structure Eng where
  st : EngSt := .empty
  /-- fault cause: 0 none, 1 OVERRUN, 2 QFULL, 3 IMEM -/
  fcause : Nat := 0
  v   : Tab Nat Vec := []
  acc : Tab Nat AccV := []
  p   : Tab Nat (BitVec 64) := []
  sc  : Tab Nat (BitVec 64) := []
  imem : Tab Nat (BitVec 256) := []
  prog : Option Prog := none
  /-- staged program with its latched SLIMIT (R128, R129) -/
  staged : Option (Prog × Nat) := none
  /-- splice line of the staged program, once fixed -/
  spliceAt : Option Int := none
  /-- programs past their tick S + D that wait for the engine's first run at or after S: program, latched limit, S, in order
  (R128) -/
  nexts : List (Prog × Nat × Int) := []
  load : Option LoadReq := none
  /-- line whose tick has arrived and whose run is to start at once (R38) -/
  due : Option Int := none
  run : Option Run := none
  /-- register writes issued and not yet complete, oldest first (R107) -/
  pend : List PendWr := []
  queue : List QEntry := []
  /-- GO was written 0 while RUNNING -/
  stop : Bool := false
  /-- next run is the first after GO or RESTART, or the first of a spliced program -/
  firstRun : Bool := false
  firstSplice : Bool := false
  runs : Nat := 0
  lastLine : Int := 0
  /-- last line on which the cameras routed into the engine have been judged (R25, R79) -/
  judged : Int := -1
  deriving DecidableEq, Repr

/-- A page known to REF (R178–R185). -/
structure RefPage where
  id     : Nat
  len    : Nat
  design : Nat := 0
  /-- first reference row index Q_P -/
  qp     : Nat := 0
  /-- declared start P -/
  start  : Option Int := none
  /-- complete tiles: band, tile -/
  tiles  : List (Nat × Nat) := []
  /-- bands already reported incomplete to the RIP (R307) -/
  missed : List Nat := []
  deriving DecidableEq, Repr

/-- A tile packet accepted by REF (R179, R180), with the first row of the page that accepted it. -/
structure RefTile where
  page   : Nat
  qp     : Nat := 0
  band   : Nat
  tile   : Nat
  width  : Nat
  rows   : Nat
  stored : Bool
  lane   : Nat
  stream : List Byte
  deriving DecidableEq, Repr

/-- The sums of one window half (R150, R195): 25 shifts × 4 sums and the active lane count. -/
structure RegSums where
  sums : List Nat := []
  n    : Nat := 0
  deriving DecidableEq, Repr

/-- One registration tracker (R195–R198). -/
structure Tracker where
  md  : Rat := 0
  cd  : Rat := 0
  k   : Rat := 1
  mdR : Rat := 0
  cdR : Rat := 0
  kR  : Rat := 0
  gen : Nat := 0
  /-- LOW_TEXTURE is set for the stripe -/
  lt  : Bool := false
  /-- quality of the last window -/
  q   : Rat := 0
  /-- runs of the present window, left or whole sums, right sums, all runs sent two -/
  runs  : Nat := 0
  left  : RegSums := {}
  right : RegSums := {}
  /-- left and right sums of the runs that sent two SREG -/
  left2 : RegSums := {}
  /-- run lines and the generation their context carried, newest first -/
  gens : List (Int × Nat) := []
  /-- SREG parts received, and the line and number of SREG of the run in progress -/
  part  : List Byte := []
  line  : Int := 0
  count : Nat := 0
  first : Option RegSums := none
  second : Option RegSums := none
  /-- enough sums: an update is due -/
  due : Bool := false
  deriving DecidableEq, Repr

/-- A reference row that is being read for a ring (R190): engine, page id and row, where its pixels and its header go, and both. -/
structure RowFill where
  eng    : Nat
  id     : Nat
  row    : Nat
  slotAt : Nat
  hdrAt  : Nat
  pixels : List Byte
  hdr    : List Byte
  deriving DecidableEq, Repr

/-- REF (R177–R199). -/
structure Ref where
  /-- descriptors queued, oldest first (R178) -/
  queue : List RefPage := []
  /-- declared pages, newest first -/
  pages : List RefPage := []
  /-- next reference row index to assign; rows below `freed` are free (R178, R182) -/
  nextRow : Nat := 0
  freed : Nat := 0
  /-- P′ in 1/65,536 line (R183) -/
  exact : Option Int := none
  /-- last declared start of the job -/
  last : Option Int := none
  /-- page starts declared since the job began (R199) -/
  count : Nat := 0
  /-- armed line of REF_FIRST (R183) -/
  armed : Option Int := none
  /-- latched line index of an occurrence at REF_PAGE, oldest first -/
  press : List Int := []
  /-- page starts accepted and waiting to be declared, oldest first -/
  ready : List Int := []
  /-- per feed lane: blocks granted on channel 1 and not yet used, and channel 0 blocks consumed and not yet returned
  (R181) -/
  outst : Tab Nat Nat := []
  used  : Tab Nat Nat := []
  /-- feed packets received, oldest first: lane, packet -/
  inbox : List (Nat × Packet) := []
  /-- tile packets checked and waiting for a CMP engine, oldest first -/
  waiting : List RefTile := []
  /-- engines whose last read of a reference row was refused by a CXL port, and the port (R268) -/
  fail : Tab Nat Nat := []
  /-- rows that are being read for a ring and wait for a CXL device (R190, R266) -/
  fills : List RowFill := []
  /-- rows whose last read failed, oldest failure first: bus address of the slot header, row (R190) -/
  missed : List (Nat × Nat) := []
  /-- engines whose check of R192 fails -/
  barred : List Nat := []
  /-- runs that failed with PAGE_LATE: start of the page declared late, last line started before (R186) -/
  late : Option (Int × Int) := none
  trk : Tab Nat Tracker := []
  deriving DecidableEq, Repr

/-- ACCORD (R163–R171). -/
structure Accord where
  /-- a map check is running: engine and SLOTS as written -/
  check : Option (Nat × Nat) := none
  deriving DecidableEq, Repr

/-- Where a region's context is held: slot of the table in the shared pool, or the saturation region of a stripe
(R206, R210). -/
inductive Slot where
  | ctx (i : Nat)
  | sat (stripe : Nat)
  deriving DecidableEq, Repr

/-- An open region (R204–R211). -/
structure Region where
  slot  : Slot
  id    : Nat
  page  : Nat
  f     : Int
  last  : Int
  xmin  : Int
  xmax  : Int
  xref  : Int
  count : Nat
  peak  : Nat
  sums  : List Int
  sx    : Int
  sm    : Nat
  sxx   : Nat
  smm   : Nat
  runOvf : Bool := false
  blind  : Bool := false
  long   : Bool := false
  merged : Bool := false
  chip   : Bool := false
  sumSat : Bool := false
  units  : Nat := 0
  user   : Nat := 0
  /-- LONG entries handed over so far (R211) -/
  seg    : Nat := 0
  deriving DecidableEq, Repr

/-- A run kept for the adjacency tests, with the id of its region (R203). -/
structure KeptRun where
  line   : Int
  first  : Int
  last   : Int
  region : Nat
  deriving DecidableEq, Repr

/-- An end-of-line entry received by Sillage (R157), or a drop notice in its place (R200): blind ranges in output
pixels. -/
structure EolEntry where
  eng   : Nat
  line  : Int
  runs  : List RunRec
  blind : List (Nat × Nat)
  deriving DecidableEq, Repr

/-- A run received from a Span neighbour, in this device's pixels: port, first and last pixel, remote region id (R216). -/
structure SeamRun where
  port   : Nat
  first  : Int
  last   : Int
  region : Nat
  deriving DecidableEq, Repr

/-- A hand-over of Sillage to RPT (R215): type, context at that moment, scores, class, margin, segment. -/
structure HandOver where
  typ    : Nat
  region : Region
  scores : List Int
  cls    : Nat
  score  : Int
  margin : Nat
  seg    : Nat
  final  : Bool
  deriving DecidableEq, Repr

/-- Sillage (R200–R217). -/
structure Sil where
  regions : List Region := []
  kept    : List KeptRun := []
  /-- runs of the last lines for the continuation across blind lines (R209): first and last pixel, lines since, cut -/
  carry   : List (Int × Int × Nat × Bool) := []
  /-- contexts freed on the line in process (R206) -/
  freedNow : List Nat := []
  /-- last processed line -/
  lastLine : Int := 0
  counter : Nat := 1
  /-- runs received and not yet closed by an end-of-line entry, in arrival order -/
  runs    : List RunRec := []
  eols    : List EolEntry := []
  /-- blind ranges of the last processed lines, newest first -/
  blind   : List (Int × List (Nat × Nat)) := []
  /-- weight banks: bank, class, feature word -/
  w       : Tab (Nat × Nat) Nat := []
  /-- seam runs received, line-end markers received: port, line -/
  seam    : List (Int × SeamRun) := []
  seamEnd : List (Nat × Int) := []
  /-- contexts received from neighbours: line, remote region id, id of the owner here, context (R248) -/
  seamCtx : List (Int × Nat × Nat × Region) := []
  /-- lines to process without a neighbour's marker (R249) -/
  seamSkip : List (Nat × Int) := []
  /-- a region connected to a neighbour's region: own id, remote id, port -/
  links   : List (Nat × Nat × Nat) := []
  deriving DecidableEq, Repr

/-- A BLIND extent: lines and output pixels (R25, R218). -/
structure Extent where
  l0 : Int
  l1 : Int
  p0 : Nat
  p1 : Nat
  deriving DecidableEq, Repr

/-- A BLIND record pending in the buffer of R224. -/
structure BlindRec where
  cause   : Nat
  detail  : Nat
  src     : Nat
  ext     : Extent
  widened : Bool := false
  /-- timestamps of its building: bytes 84–107 of the record, taken from a later tick; built late; chip that built it -/
  ts      : List Byte := []
  tsLate  : Bool := false
  delayed : Bool := false
  chip    : Nat := 0
  /-- MD and CD start and end in µm where this device does not compute them from the extent: a record of another device (R250),
  web outside this device's line (R251) -/
  um : Option (Int × Int × Int × Int) := none
  /-- it occupies the reserved entry of its cause -/
  reserved : Bool := false
  deriving DecidableEq, Repr

/-- A collector of consecutive blind lines (R429): cause, detail, source, pixels, and the extent so far. -/
structure Collect where
  cause  : Nat
  detail : Nat
  src    : Nat
  ext    : Extent
  deriving DecidableEq, Repr

/-- What RPT has been told and has not yet built (R222): the tick from which it may be built, and the item. -/
inductive RptItem where
  | splice (line : Int) (old new : Nat)
  | page   (line : Int) (id design rows : Nat)
  | region (h : HandOver)
  | blind  (b : BlindRec)
  deriving DecidableEq, Repr

/-- A notice or hand-over waiting to be built: due tick, item, carried over from an earlier tick. -/
structure Pending where
  due     : Int
  item    : RptItem
  delayed : Bool := false
  deriving DecidableEq, Repr

/-- A built record (R218); `bytes` holds the 128 bytes but for the sequence number, the crop handle and the marker and
crop flags, which are given when it is queued. -/
structure Record where
  typ    : Nat
  bytes  : List Byte
  ext    : Extent
  /-- f and last line, class, for crops and markers -/
  f      : Int
  last   : Int
  cls    : Nat
  xmin   : Nat
  xmax   : Nat
  region : Nat
  cdMid  : Int
  /-- first tick at which it may be queued -/
  due    : Int
  blind  : Option BlindRec := none
  deriving DecidableEq, Repr

/-- A crop awaiting or in its copy (R227–R230). -/
structure Crop where
  handle : Nat
  region : Nat
  l0 : Int
  l1 : Int
  p0 : Nat
  p1 : Nat
  /-- store offset, bytes, and whether it is compressed, once the copy has started -/
  ofs   : Nat := 0
  bytes : Nat := 0
  comp  : Bool := false
  deriving DecidableEq, Repr

/-- A pending firing (R231): its number in order of scheduling, firing line, anchor line, loupe target in µm for a loupe
firing. -/
structure Firing where
  id     : Nat
  f      : Int
  anchor : Int
  target : Option Int
  deriving DecidableEq, Repr

/-- A marker channel (R231–R234). -/
structure Marker where
  fires : List Firing := []
  /-- the pulse is high -/
  high  : Bool := false
  /-- first line of the extent of R233, while the channel is disabled by an INTEGRITY failure -/
  off   : Option Int := none
  deriving DecidableEq, Repr

/-- A descriptor (R272). -/
structure Desc where
  next : Nat
  src  : Nat
  dst  : Nat
  len  : Nat
  rows : Nat
  sstride : Nat
  dstride : Nat
  cap  : Nat
  sw   : Nat
  dw   : Nat
  op   : Nat
  level : Nat
  last : Bool
  irq  : Bool
  wb   : Bool
  /-- the source goes on at this address from this row on: a compressed crop that wraps its ring (R228) -/
  wrap : Option (Nat × Nat) := none
  deriving DecidableEq, Repr

/-- RPT (R218–R235). -/
structure Rpt where
  /-- hand-over buffer, in order (R222) -/
  wait  : List Pending := []
  built : List Record := []
  /-- tick of the last build step (R222) -/
  builtAt : Int := -1
  blind : List BlindRec := []
  open_ : List Collect := []
  /-- crops awaiting their copy, the copy in progress, its descriptors not yet handed over, data bytes it has stored -/
  crops : List Crop := []
  copy  : Option Crop := none
  descs : List Desc := []
  stored : Nat := 0
  /-- the channel stopped with an error during the copy (R229) -/
  failed : Bool := false
  /-- records handed to a Span port that went DOWN, to be queued again (R250) -/
  back : List (List Byte) := []
  /-- next allocation offset in the crop store, and live crops oldest first: handle, offset, bytes -/
  storeAt : Nat := 0
  store : List (Nat × Nat × Nat) := []
  /-- last line each engine has completed or dropped, and last line it has started -/
  doneLine : Tab Nat Int := []
  startLine : Tab Nat Int := []
  marks : Tab Nat Marker := []
  /-- number of the next firing -/
  fireCtr : Nat := 0
  /-- loupe carriage: firing whose target the carriage accepted last, and that a refused command is to be repeated -/
  loupeFor : Option Nat := none
  loupeTry : Bool := false
  deriving DecidableEq, Repr

/-- States of a Span port (R239). -/
inductive SpanSt where
  | off | down | wait | up
  deriving DecidableEq, Repr

/-- One Span port (R236–R249). -/
structure SpanPort where
  st : SpanSt := .off
  /-- packets received and not yet acted on, oldest first (R237) -/
  inbox : List Packet := []
  /-- packets waiting for a lane and for credit, oldest first (R84, R237) -/
  outbox : List Packet := []
  /-- lanes that are sending a packet of a forwarded record, and the record (R250) -/
  sending : List (Nat × List Byte) := []
  /-- OUTW of the neighbour's last HELLO, and whether there has been one (R251) -/
  outw : Nat := 0
  met  : Bool := false
  /-- echo requests that have left and are not answered: tag, t1 -/
  echo : List (Nat × Nat) := []
  tag : Nat := 0
  /-- first line not covered while the neighbour is unreachable (R251) -/
  lost : Option Int := none
  deriving DecidableEq, Repr

/-- SPAN beside its ports (R236–R252). -/
structure Span where
  /-- CHIPID[1:0] sampled at the release of PORST_N (R236) -/
  chip : Nat := 0
  /-- span time in ns (R240) -/
  time : Nat := 0
  /-- consecutive exchanges with |residual| > 20 ns (R240) -/
  bad : Nat := 0
  /-- TICK packets waiting for their issue time, in line order: line 48.16, history entry, T, port -/
  ticks : List (Nat × List Byte × Nat × Nat) := []
  /-- last of the lines given up at a gap, until the next tick is issued (R242) -/
  gap : Option Int := none
  /-- lines of the last TICK packets taken, newest first, at most 256 (R241) -/
  seen : List Int := []
  /-- engines whose halo receive entry failed its recheck, and the entry's port (R245) -/
  barred : List (Nat × Nat) := []
  /-- port on which the last TICK packet arrived -/
  tickPort : Nat := 0
  deriving DecidableEq, Repr

/-- A Blotter test in progress (R257–R260). -/
structure BltTest where
  preserving : Bool
  alg : Nat
  sb  : Nat
  sp  : Nat
  /-- 4 KiB blocks of the tested banks that a PRESERVING test has ended, in bank order and then block order -/
  pos : Nat := 0
  deriving DecidableEq, Repr

/-- A CXL request of a port's history (R265, CXL_P_HDATA): window address, master, write, length in lines, time,
result. -/
structure CxlReq where
  addr   : Nat
  master : Nat
  write  : Bool
  lines  : Nat
  bytes  : Nat
  time   : Nat
  result : Nat
  /-- what the access is for, where it waits: of a DMA channel its direction and its place in the byte stream (R277), of an engine
  1 and the line of an STC write (R268), of REF the header and the row it fills, of CMP the tile; 9 for one that its master has
  given up -/
  tag    : Option (Nat × Nat) := none
  /-- number that the parts of one access share among the requests that wait (R264) -/
  grp    : Nat := 0
  /-- of a write: where its bytes lie and what they held before, in case the device refuses it (R264, R266) -/
  undo   : List (Nat × Byte) := []
  deriving DecidableEq, Repr

/-- States of a CXL port (R263, CXL_P_STATE). -/
inductive CxlSt where
  | down | training | up | l1 | l2
  deriving DecidableEq, Repr

/-- One CXL port (R262–R271). -/
structure CxlPort where
  st : CxlSt := .down
  rate32 : Bool := false
  x4 : Bool := false
  frozen : Bool := false
  logrd : Bool := false
  /-- issued requests, newest first, at most 64 -/
  hist : List CxlReq := []
  /-- the history as the last freeze left it, which CXL_P_HDATA shows (R269) -/
  shown : List CxlReq := []
  /-- requests issued and not yet answered, oldest first -/
  outst : List CxlReq := []
  /-- failures the device will answer to requests still to be issued: requests before it, kind, line (log 123) -/
  early : List (Nat × Nat × Nat) := []
  /-- PME_Turn_Off was sent and its answer is awaited (R271) -/
  pme : Bool := false
  /-- the port set SR_TO, or was frozen, at the last Standby entry (R271) -/
  srLost : Bool := false
  deriving DecidableEq, Repr

/-- States of a DMA channel (R279). -/
inductive DmaSt where
  | idle | running | pausing | paused | halted
  deriving DecidableEq, Repr

/-- One DMA channel (R272–R281). -/
structure Dma where
  st : DmaSt := .idle
  /-- descriptor to fetch next -/
  fetch : Option Nat := none
  /-- descriptor in progress, once its checks have passed -/
  desc : Option Desc := none
  /-- the descriptor was handed over by RPT and lies in no memory (R281) -/
  direct : Bool := false
  /-- CMP engine held (R287) -/
  eng : Option Nat := none
  /-- waits for a CMP engine -/
  waiting : Bool := false
  /-- source bytes of the descriptor issued as reads so far, destination bytes written so far -/
  done : Nat := 0
  out  : Nat := 0
  /-- source bytes to be read for now; 0 before the movement begins -/
  goal : Nat := 0
  /-- reads issued whose data has not entered the holding register, in stream order: place, bytes (R275) -/
  held : List (Nat × List Byte) := []
  /-- a failed read: its response, address and place; the channel halts once what was read before it is written (R277) -/
  bad : Option (Nat × Nat × Nat) := none
  /-- bytes of the descriptor that is being fetched, where their read waits -/
  got : Option (List Byte) := none
  /-- source bytes read and not yet written (a pause of an OP 1 or OP 2 descriptor, whose engine keeps them) -/
  buf  : List Byte := []
  /-- the last write of data issued: address and length (R276) -/
  lastW : Nat × Nat := (0, 0)
  /-- 0 data moving, 1 all data written, 2 read back (R276) -/
  stage : Nat := 0
  deriving DecidableEq, Repr

/-- Who holds a CMP engine (R287). -/
inductive CmpOwner where
  | idle
  | tile (t : RefTile)
  | dma  (k : Nat)
  deriving DecidableEq, Repr

/-- CMP (R282–R287). -/
structure Cmp where
  eng : Tab Nat CmpOwner := []
  /-- DMA channel served last (rotation) -/
  turn : Nat := 15
  inBytes  : Nat := 0
  outBytes : Nat := 0
  deriving DecidableEq, Repr

/-- A protocol message leaving the device (R299): session, class, type, flags byte, result, request id, payload. -/
structure Msg where
  sid     : Nat
  cls     : Nat
  typ     : Nat
  flags   : Nat
  result  : Nat
  rid     : Nat
  payload : List Byte
  deriving DecidableEq, Repr

/-- One management port (R294–R296). Receive queues hold frames; transmit queues hold messages. -/
structure EthPort where
  /-- frames held in receive queues 0–3: queue, frame -/
  rx : List (Nat × List Byte) := []
  /-- transmit queues: queue, message; oldest first -/
  tx : List (Nat × Msg) := []
  /-- the message a frame of which is on the wire -/
  wire : Option (Nat × Msg) := none
  /-- frames sent of the oldest message of a transmit queue (R296) -/
  cut  : Tab Nat Nat := []
  /-- PTP event frames taken, with the time of both domains at each, newest first (R296) -/
  stamps : List (List Byte × List (Nat × Nat)) := []
  /-- messages that have left the port, newest first -/
  sent : List Msg := []
  deriving DecidableEq, Repr

/-- One mailbox (R290, R292). -/
structure Mailbox where
  /-- request delivered and not yet answered, 8 words -/
  req : Option (List Word) := none
  /-- the target has taken the request up and will answer later -/
  work : Bool := false
  /-- reply computed by the target and not yet delivered -/
  rsp : Option (List Word) := none
  deriving DecidableEq, Repr

/-- Roles of a client certificate (R298). -/
inductive Role where
  | operator | service | none
  deriving DecidableEq, Repr

/-- A record subscription (R303, R311). -/
structure Subscription where
  types   : Nat
  classes : Nat
  unsure  : Bool
  chips   : Nat
  start   : Nat
  /-- records taken from the queue and not yet sent, oldest first: sequence number, bytes -/
  backlog : List (Nat × List Byte) := []
  /-- first and last sequence number discarded and not yet reported -/
  gap : Option (Nat × Nat) := none
  deriving DecidableEq, Repr

/-- A request of a session that has been acted on and not yet answered on the wire: class, type, request id, and the
answer once it is known: result and payload (R299: the answers of one session leave in the order of its requests). -/
structure ZspSlot where
  cls : Nat
  typ : Nat
  rid : Nat
  answer : Option (Nat × List Byte) := none
  deriving DecidableEq, Repr

/-- A session (R297). -/
structure Session where
  port : Nat
  data : Bool
  role : Role
  /-- requests not yet answered, oldest first -/
  slots : List ZspSlot := []
  sub  : Option Subscription := none
  deriving DecidableEq, Repr

/-- Job states (R304). -/
inductive JobSt where
  | noJob | cal | jobRun | jobHold
  deriving DecidableEq, Repr

/-- An image received in parts (R310, R312): total length, parts (offset, bytes). -/
structure Upload where
  total : Nat
  parts : List (Nat × List Byte) := []
  deriving DecidableEq, Repr

/-- Why the report service asks a mailbox: for a client's request (session, class, type, request id), or as a step of
ending a job (R306). -/
inductive AskFor where
  | client (sid cls typ rid : Nat)
  | endSync
  | endFlush
  deriving DecidableEq, Repr

/-- A mailbox request of the report service: mailbox, purpose, request words, already posted. -/
structure Ask where
  mb     : Nat
  purpose : AskFor
  words  : List Word
  posted : Bool := false
  deriving DecidableEq, Repr

/-- An end of a job in progress (R306): session and request id of the request, and the write index that SYNC answered. -/
structure Ending where
  sid : Nat
  rid : Nat
  qwr : Nat := 0
  deriving DecidableEq, Repr

/-- The report service (R297–R313). -/
structure Zsp where
  sessions : List (Nat × Session) := []
  nextSid  : Nat := 0
  job      : JobSt := .noJob
  jobId    : Nat := 0
  /-- Hold advance over the whole job, up to the last resumption (R306) -/
  holdAdv  : Nat := 0
  /-- tiles discarded since the job began (R309) -/
  tilesLost : Nat := 0
  /-- name of the job, 32 bytes -/
  jobName  : List Byte := []
  upload   : Option Upload := none
  install  : Option Upload := none
  /-- mailbox requests asked for and not yet answered, oldest first -/
  asks     : List Ask := []
  ending   : Option Ending := none
  /-- records taken from the record queue and still held, oldest first: sequence number, 128 bytes (R303) -/
  store    : List (Nat × List Byte) := []
  /-- interrupts raised to the service cores, by cause name, newest first -/
  irqs     : List String := []
  deriving DecidableEq, Repr

/-- One signal-chain channel (R316–R326). -/
structure SigCh where
  /-- integrators and comb history of the sinc3 stage (R319) -/
  i1 : Int := 0
  i2 : Int := 0
  i3 : Int := 0
  c1 : Int := 0
  c2 : Int := 0
  c3 : Int := 0
  /-- FIR delay line, newest first, at most 64 sinc outputs -/
  line : List Rat := []
  /-- FIR outputs since the reset, newest first, at most 64 kept, and their number -/
  firs : List Int := []
  nfir : Nat := 0
  /-- input bits since the reset (R323) -/
  bitsIn : Nat := 0
  /-- fixed-rate outputs since the reset (R321) -/
  nout : Nat := 0
  /-- frame start at which the channel was reset, in signal-chain cycles -/
  t0 : Int := 0
  /-- a synchronising reset waits for the next frame (R323) -/
  sync : Bool := false
  settle : Bool := false
  /-- last input bit and SDCLK cycles without a transition (R317) -/
  last : Bool := false
  same : Nat := 0
  stuck : Bool := false
  /-- ones and zeros of the last 16 input bits, newest at bit 0 (R326), kept for SD12 and SD13 -/
  last16 : Nat := 0
  /-- active bank (false A), fade in progress (samples done, F), queued request (target, F), its outcome (R324) -/
  active : Bool := false
  fade : Option (Nat × Nat) := none
  queued : Option (Bool × Nat) := none
  qres : Nat := 0
  /-- detectors: samples in the window, maximum, sum of squares; last results; envelope (R325) -/
  wn : Nat := 0
  wmax : Nat := 0
  wsq : Nat := 0
  pk : Nat := 0
  rms : Nat := 0
  env : Int := 0
  badPk : Bool := false
  badRms : Bool := false
  badEnv : Bool := false
  /-- latest output and its flags (SIG_k_VAL) -/
  x : Int := 0
  xSettle : Bool := false
  xInv : Bool := false
  /-- tick-locked instants waiting for their output: line, instant in signal-chain cycles (R321), the lamp reference that
  holds for the tick (R94) -/
  ticks : List (Int × Rat × Nat) := []
  deriving DecidableEq, Repr

/-- Carriage states (R330, MOT_STATE). -/
inductive MotSt where
  | disabled | idle | moving | stopping | homing | fault
  deriving DecidableEq, Repr

/-- What one bridge does (R328). -/
inductive Bridge where
  | off | slow | pos | neg
  deriving DecidableEq, Repr

/-- A homing in progress (R331, R337): target switch, direction, moving away from the switch first. -/
structure Homing where
  sw   : Nat
  up   : Bool
  away : Bool
  travelled : Rat := 0
  /-- VHOME and A1 as the homing took them at its start (R333) -/
  vhome : Nat := 0
  a1 : Nat := 1
  deriving DecidableEq, Repr

/-- One coil phase (R334, R335). -/
structure Phase where
  bridge : Bridge := .off
  /-- SDCLK cycles left in which the phase is not re-evaluated -/
  blank : Nat := 0
  ofs : Int := 0
  /-- error sum and samples of the present window, and whether a bridge was off in it -/
  esum : Int := 0
  en : Nat := 0
  dirty : Bool := false
  deriving DecidableEq, Repr

/-- The loupe carriage (R328–R343). -/
structure Mot where
  st : MotSt := .disabled
  pos : Int := 0
  /-- fraction of a microstep travelled beyond `pos` -/
  frac : Rat := 0
  tgt : Int := 0
  /-- signed speed in microsteps/s -/
  vel : Rat := 0
  homed : Bool := false
  /-- the standstill option is applied -/
  ss : Bool := false
  /-- the 1 ms after re-energising the coils is running (R336) -/
  delay : Bool := false
  /-- V_START, V_STOP of the present move; D1 and D2 in force for it (R333) -/
  vstart : Nat := 0
  vstop : Nat := 0
  d1 : Nat := 1
  d2 : Nat := 1
  /-- the move has begun to decelerate towards its target (R332) -/
  braking : Bool := false
  home : Option Homing := none
  /-- accepted levels of the input pins: bit 0 LIM_LO, 1 LIM_HI, 2 HOME (R337) -/
  raw : Nat := 0
  a : Phase := {}
  b : Phase := {}
  /-- last target accepted from RPT (R341) -/
  rptTgt : Option Int := none
  deriving DecidableEq, Repr

/-- States of the Flacon (R370, FL_STATE). -/
inductive FlSt where
  | boot | counting | noFw | framFail | integrity | blank
  deriving DecidableEq, Repr

/-- What waits for a FRAM commit to complete (R363): a mailbox reply, with the window change it makes. -/
structure FlCommit where
  /-- bytes of the record being written, and its slot -/
  record : List Byte
  slot   : Nat
  seq    : Nat
  onPfail : Bool
  /-- reply of mailbox 4 that waits for this commit -/
  reply  : Option (List Word) := none
  /-- ticket that becomes the latest one when the commit is done, its number, and whether it closes the lot -/
  ticket : Option (List Byte) := none
  number : Nat := 0
  closes : Bool := false
  /-- FAULTCNT as the ticket shows it -/
  faultsAt : Nat := 0
  /-- the image written by an INSTALL becomes the next active one when the commit is done -/
  installs : Bool := false
  /-- an accepted change that EVCNT counts when the commit is done, and whether it is an image activation (R363, R366) -/
  bumps : Bool := false
  activates : Bool := false
  deriving DecidableEq, Repr

/-- The open lot (R359, R371). -/
structure FlLot where
  h0 : Int
  /-- reverse travel in counts -/
  rev : Nat := 0
  sec : Nat := 0
  ns : Nat := 0
  fault : Bool := false
  unclean : Bool := false
  deriving DecidableEq, Repr

/-- A sinc3 decimator of the Flacon's interpolator: integrators and comb history (R357). -/
structure Sinc3 where
  i1 : Int := 0
  i2 : Int := 0
  i3 : Int := 0
  c1 : Int := 0
  c2 : Int := 0
  c3 : Int := 0
  deriving DecidableEq, Repr

/-- The stored complements of the Flacon's total length and area, p and h (R361); the complement of x is −1 − x. -/
structure FlComp where
  len  : Int := -1
  area : Int := -1
  p    : Int := -1
  h    : Int := -1
  deriving DecidableEq, Repr

/-- The Flacon metrology partition (R354–R374). -/
structure Flacon where
  st : FlSt := .boot
  /-- position, high-water mark, mark of the last parameter change, in counts (R359) -/
  p : Int := 0
  h : Int := 0
  hBase : Int := 0
  lBase : Nat := 0
  aBase : Nat := 0
  /-- parameters (R356) -/
  form : Nat := 0
  dir : Nat := 0
  num : Nat := 0
  den : Nat := 0
  finterp : Nat := 0
  wnom : Nat := 0
  pulse : Nat := 0
  /-- accepted changes since the last init, and the generation fuses (R366) -/
  chg : Nat := 0
  gen : Nat := 0
  faults : Nat := 0
  uncleanCnt : Nat := 0
  ticketNo : Nat := 0
  seq : Nat := 0
  /-- slot holding the newest record -/
  slot : Nat := 0
  lot : Option FlLot := none
  /-- a fault, an unclean start, since the previous ticket (R371) -/
  faultSince : Bool := false
  uncleanSince : Bool := false
  sealOpen : Bool := false
  still : Bool := false
  measErr : Bool := false
  uncleanStart : Bool := false
  pfail : Bool := false
  slotB : Bool := false
  /-- h at the last commit (R363) -/
  hCommit : Int := 0
  commits : List FlCommit := []
  /-- A and B after the 10 ns filter, last edge time per pin in ns (R357, R358) -/
  a : Bool := false
  b : Bool := false
  edgeA : Option Int := none
  edgeB : Option Int := none
  /-- FORM 1: position at the last sample, and the last angle in counts -/
  angle : Option Rat := none
  /-- FORM 1: the decimators of SD8 (sin) and SD9 (cos) (R357) -/
  sinDec : Sinc3 := {}
  cosDec : Sinc3 := {}
  ticket : List Byte := []
  /-- the Flacon secret: 64 bytes in fuses, filled at manufacture (R372; log 144) -/
  secret : List Byte := (List.range 64).map Config.flaconSecretByte
  tkey : List Byte := []
  tkid : List Byte := []
  fwid : List Byte := []
  devId : Nat := 0
  /-- digest of the Flacon public key in ROM (R410) -/
  romKey : List Byte := (List.range 64).map Config.flaconRomKeyByte
  /-- the stored complements of the totals, p and h (R361) -/
  comp : FlComp := {}
  /-- an installed image waits in the inactive slot for the next exit from Off (R369) -/
  installed : Bool := false
  /-- external FRAM -/
  fram : Memory := []
  deriving DecidableEq, Repr

/-- A header of a profile (R403). -/
structure ProfHdr where
  number : Nat
  family : Nat
  engines : Nat
  d : Nat
  maxRate : Nat
  lcam : Nat
  lmin : Nat
  depth : List Nat
  lampEn : Nat
  refCols : Nat
  rsh : Nat
  halo : Nat
  name : List Byte
  deriving DecidableEq, Repr

/-- An item of a profile (R403): type, target, data. -/
structure ProfItem where
  typ : Nat
  target : Nat
  data : List Byte
  deriving DecidableEq, Repr

/-- A splice in progress (R407): profile, requested line, items left for tick S + D, the line once it is fixed, tick
S + D done. -/
structure Splice where
  prof : ProfHdr
  items : List ProfItem
  line : Int
  s : Option Int := none
  old : Nat
  applied : Bool := false
  /-- it came from mailbox 0, whose reply names S once it is fixed (R405) -/
  mail : Bool := true
  deriving DecidableEq, Repr

/-- Images, profiles and boot (R399–R411). -/
structure Boot where
  /-- boot flash on XSPI -/
  flash : Memory := []
  /-- verified configuration image, as bytes -/
  cfg : List Byte := []
  /-- client authorities (R400) -/
  auth : List (List Byte) := []
  /-- slot used per kind 0–2 and FALLBACK, device certificate presented (R399, R411) -/
  slots : Tab Nat (Nat × Bool) := []
  cert : Nat := 0
  certChain : List Byte := []
  /-- level of the PROFILE_SEL pins -/
  sel : Nat := 0
  chip : Nat := 0
  /-- the profile that applies (R403) -/
  prof : Option ProfHdr := none
  /-- the window decoder of main memory, once the boot has enabled it (R288, R401) -/
  mainDec : Option Nat := none
  splice : Option Splice := none
  /-- splice line of the pending or last splice (SYS_SPLICE) -/
  lastS : Nat := 0
  /-- access-table entries skipped (R402) -/
  skipped : Nat := 0
  /-- the system log of R313, as bytes -/
  log : List Byte := []
  deriving DecidableEq, Repr

/-- Last answer of the bus to a master: response code, data, and the bit COLLIDE (R2, R3, R256). -/
structure BusResp where
  code : Nat := 0
  data : Nat := 0
  collide : Bool := false
  deriving DecidableEq, Repr

/-- The whole device. -/
structure State where
  /-- commands waiting, first in, first out -/
  pending : List Instr := []
  /-- stored registers; an absent entry holds its reset value (`regReset`) -/
  regs : Tab RegKey Word := []
  /-- last answer of the bus -/
  resp : BusResp := {}
  pwr  : Power := {}
  sec  : Sec := {}
  tick : Tick := {}
  times : Tab Nat TimeDom := []
  encs : Tab Nat Enc := []
  pt   : PassThrough := {}
  evt  : Evt := {}
  lanes : Tab Nat Lane := []
  cams : Tab Nat Cam := []
  ius  : Tab Nat Iu := []
  /-- last valid lamp gain per lamp channel; absent before the first valid sample (R94) -/
  lamp : Tab Nat Nat := []
  engs : Tab Nat Eng := []
  accord : Accord := {}
  ref  : Ref := {}
  sil  : Sil := {}
  rpt  : Rpt := {}
  span : Span := {}
  spanPorts : Tab Nat SpanPort := []
  /-- stripe banks, shared pool and CXL windows, by device address -/
  mem  : Memory := []
  blt  : Option BltTest := none
  /-- a port 0 write that meets the next port 1 write of its pool word in one cycle: its master and the word (R256, log 124) -/
  meet : Option (Nat × Nat) := none
  cxl  : Tab Nat CxlPort := []
  /-- 64-byte lines of main memory that the level-2 cache of the service cores may hold, newest first (R288, log 129) -/
  l2   : List Nat := []
  /-- a write of ETH_HWACT that comes in the cycle of the next one, with which it is carried out (R314, log 124) -/
  hwHeld : Option Word := none
  dmas : Tab Nat Dma := []
  cmp  : Cmp := {}
  eths : Tab Nat EthPort := []
  mboxes : Tab Nat Mailbox := []
  zsp  : Zsp := {}
  sigs : Tab Nat SigCh := []
  mot  : Mot := {}
  fl   : Flacon := {}
  boot : Boot := {}
  /-- the MODEL's own counter of free values drawn (no register of the device) -/
  freeCtr : Nat := 0
  deriving DecidableEq, Repr

/-- What stops the device. The spec names no event after which the device has no next state: Off is a state, a refused
access is an answer, and a fault of an engine is a state of that engine. So there is no fault: safe, nothing raises one. -/
inductive Fault
  deriving DecidableEq, Repr

/-- Why a command is refused. -/
inductive Refusal where
  /-- raised by the arm of a command that has no meaning yet; safe: the model stops where the hardware goes on -/
  | notModelled (mnemonic : String)
  deriving DecidableEq, Repr

/-- The device right after the release of PORST_N and before the boot sequence has run: every register at its reset
value, every unit at the default of its structure, in Hold (SYS_PWRSTATE resets to 1). -/
def State.reset : State := {}

end Sys2Proof.Machine
end

