-- ==== Sys2Proof/Machine/Ops.lean ====
section
/-!
DEFINITION. Sys2Proof/Machine/Ops.lean: the operations every unit shares: registers and fields, flags with their
counters, complement-protected pairs, free values, power conditions, the access check of the bus and the effect of a
register write on the stored fields.
-/
namespace Sys2Proof.Machine

/-! ### Registers -/

/-- Reset value of a register: its table's value, but for the registers whose value depends on the index: the owner
registers of the Flacon's channels (R348), the access tables (R384) and the fixed skew (R318). -/
def regReset (r : Reg) (i : Nat) : Word :=
  match r with
  | .EVT_OWN => if i = 19 ∨ i = 20 then 6 else 1
  | .SEC_AT => if i / 8 % 16 = 0 then
      (if i % 8 = 0 then 0x80000000 else if i % 8 = 1 then 0x7FFFFFFF
       else if i % 2 = 1 then 0x00010000 else 0) else 0
  | .SEC_ATC => if i / 8 % 16 = 0 then
      (if i % 8 = 0 then 0x7FFFFFFF else if i % 8 = 1 then 0x80000000
       else if i % 2 = 1 then 0xFFFEFFFF else 0xFFFFFFFF) else 0xFFFFFFFF
  | .SIG_K_SKEW => BitVec.ofNat 32 (12 * i)
  | _ => BitVec.ofNat 32 (regRow r).reset

/-- The stored value of a register. -/
def State.reg (s : State) (r : Reg) (i : Nat := 0) : Word := look (regReset r i) s.regs (r, i)

/-- Store a register. -/
def State.setReg (s : State) (r : Reg) (i : Nat) (v : Word) : State := { s with regs := put v s.regs (r, i) }

/-- A field of a stored register. -/
def State.fld (s : State) (f : Fld) (i : Nat := 0) : Nat := bits (s.reg f.reg i).toNat f.hi f.lo

/-- Store a field. -/
def State.setFld (s : State) (f : Fld) (i : Nat) (v : Nat) : State :=
  s.setReg f.reg i (BitVec.ofNat 32 (setBits (s.reg f.reg i).toNat f.hi f.lo v))

/-- A one-bit field. -/
def State.on (s : State) (f : Fld) (i : Nat := 0) : Bool := s.fld f i == 1

/-- A field read as a signed number. -/
def State.sfld (s : State) (f : Fld) (i : Nat := 0) : Int := toSigned (f.hi + 1 - f.lo) (s.fld f i)

/-- A 64-bit value held in a LO and a HI register. -/
def State.wide (s : State) (lo hi : Reg) (i : Nat := 0) : Nat := (s.reg lo i).toNat + 2 ^ 32 * (s.reg hi i).toNat

/-- Store a 64-bit value in a LO and a HI register. -/
def State.setWide (s : State) (lo hi : Reg) (i v : Nat) : State :=
  (s.setReg lo i (BitVec.ofNat 32 v)).setReg hi i (BitVec.ofNat 32 (v / 2 ^ 32))

/-- A counter register that saturates at `top`. -/
def State.count (s : State) (r : Reg) (i : Nat := 0) (n : Nat := 1) (top : Nat := 0xFFFF) : State :=
  s.setReg r i (BitVec.ofNat 32 (min top ((s.reg r i).toNat + n)))

/-- Hardware sets a W1C flag: the flag reads 1 and its 16-bit counter counts, saturating (R7). -/
def State.raise (s : State) (f : Flag) (i : Nat := 0) : State :=
  (s.setReg f.reg i (s.reg f.reg i ||| BitVec.ofNat 32 (2 ^ f.bit))).count f.cnt i

/-- A flag reads 1. -/
def State.flag (s : State) (f : Flag) (i : Nat := 0) : Bool := (s.reg f.reg i).getLsbD f.bit

/-- Raise a flag under a condition. -/
def State.raiseIf (s : State) (c : Bool) (f : Flag) (i : Nat := 0) : State := if c then s.raise f i else s

/-- Do something under a condition. -/
def State.doIf (s : State) (c : Bool) (f : State → State) : State := if c then f s else s

/-- The next free value (log 1). -/
def State.free (s : State) : Nat := Config.freeNat s.freeCtr

/-- Count a free value as drawn. -/
def State.drawn (s : State) : State := { s with freeCtr := s.freeCtr + 1 }

/-- Result codes (R11). -/
def rOK : Nat := 0
def rSTATE_REFUSED : Nat := 1
def rBUSY : Nat := 2
def rRANGE : Nat := 3
def rDENIED : Nat := 4
def rAUTH_FAIL : Nat := 5
def rSUPERSEDED : Nat := 6
def rNOT_FOUND : Nat := 7
def rBUDGET_EXCEEDED : Nat := 8
def rOVERLAP : Nat := 9
def rLOOP_REJECTED : Nat := 10
def rINTEGRITY : Nat := 11
def rFROZEN : Nat := 12
def rERROR : Nat := 13

/-! ### Power conditions (R392) -/

/-- The main domain is powered: Run or Hold. -/
def State.live (s : State) : Bool := s.pwr.st == .run || s.pwr.st == .hold

/-- The always-on domain is powered: every state but Off. -/
def State.powered (s : State) : Bool := s.pwr.st != .off

def State.inHold (s : State) : Bool := s.pwr.st == .hold
def State.inRun (s : State) : Bool := s.pwr.st == .run

/-- An effect of the main domain: nothing happens while it is unpowered. -/
def State.whenLive (s : State) (f : State → State) : State := if s.live then f s else s

/-- An effect of the always-on domain. -/
def State.whenPowered (s : State) (f : State → State) : State := if s.powered then f s else s

/-- A master's access is answered: after a boot that halted, only JTAG's is, and what the root core does itself (R409). -/
def State.hears (s : State) (m : Nat) : Bool := !s.on SYS_BOOT_HALTED || m == 48 || m == 50

/-! ### Complement-protected pairs (R8, R9, R386) -/

/-- The complement register of a value register. -/
def complementOf : Reg → Reg
  | .SYS_PROFILE => .SYS_PROFILEC
  | .SEC_KPOL => .SEC_KPOLC
  | .SEC_AT => .SEC_ATC
  | .TICK_TOFF => .TICK_TOFFC
  | .RPT_MK_DIST => .RPT_MK_DISTC
  | r => r

/-- The value register of a complement register. -/
def valueOf : Reg → Reg
  | .SYS_PROFILEC => .SYS_PROFILE
  | .SEC_KPOLC => .SEC_KPOL
  | .SEC_ATC => .SEC_AT
  | .TICK_TOFFC => .TICK_TOFF
  | .RPT_MK_DISTC => .RPT_MK_DIST
  | r => r

/-- The stored pair passes its check. -/
def State.pairOk (s : State) (r : Reg) (i : Nat := 0) : Bool := s.reg (complementOf r) i == ~~~ s.reg r i

/-- The block's INTEGRITY flag for a value register; SEC's own flag is named by R386 for every source. -/
def integrityFlag : Reg → Option Flag
  | .SYS_PROFILE => some SYS_STAT_INTEGRITY
  | .RPT_MK_DIST => some RPT_MK_STAT_INTEGRITY
  | .SEC_KPOL | .SEC_AT => some SEC_STAT_INTEGRITY
  | _ => none

/-- Source number and detail of a value register (R386, SEC_INTSRC). -/
def integritySrc (r : Reg) (i : Nat) : Nat × Nat :=
  match r with
  | .SEC_AT => (1, i / 128)
  | .SYS_PROFILE => (2, 0)
  | .RPT_MK_DIST => (3, i)
  | .TICK_TOFF => (4, i)
  | .SEC_KPOL => (6, i)
  | _ => (7, 0)

/-- SEC's part of raising INTEGRITY for a source (R9, R386). -/
def State.secIntegrity (s : State) (src detail : Nat) : State :=
  let s := (s.raise SEC_STAT_INTEGRITY).setFld SEC_INTSRC_SRC 0 src
  let s := s.setFld SEC_INTSRC_DETAIL 0 detail
  { s with pwr := { s.pwr with intSinceBoot := true } }

/-- Check a pair where the device uses it: the first check that finds it failed raises INTEGRITY once (R9). -/
def State.checkPair (s : State) (r : Reg) (i : Nat := 0) : State :=
  if s.pairOk r i then s
  else if s.sec.raised.contains (r, i) then s
  else
    let s := { s with sec := { s.sec with raised := (r, i) :: s.sec.raised } }
    let s := match integrityFlag r with
      | some f => if f = SEC_STAT_INTEGRITY then s else s.raise f i
      | none => s
    s.secIntegrity (integritySrc r i).1 (integritySrc r i).2

/-- Store a pair: the value and its complement; a pair that failed is valid again (R9). -/
def State.storePair (s : State) (r : Reg) (i : Nat) (v : Word) : State :=
  let s := (s.setReg r i v).setReg (complementOf r) i (~~~ v)
  { s with sec := { s.sec with raised := s.sec.raised.filter (· != (r, i)) } }

/-! ### Addresses of registers (R423) -/

/-- Split an offset by the dimensions of a register array; the flat index of the element. -/
def splitOfs : List (Nat × Nat) → Nat → Nat → Option Nat
  | [], off, k => if off = 0 then some k else none
  | (c, st) :: ds, off, k => if off / st < c then splitOfs ds (off % st) (k * c + off / st) else none

/-- The register at a bus address, within a list of registers. -/
def locateIn : List Reg → Nat → Option RegKey
  | [], _ => none
  | r :: rs, a =>
    let row := regRow r
    if row.addr ≤ a then
      match splitOfs row.dims (a - row.addr) 0 with
      | some i => if (r = .SEC_KPOL ∨ r = .SEC_KPOLC) ∧ i = 0 then locateIn rs a else some (r, i)
      | none => locateIn rs a
    else locateIn rs a

/-- The register at a bus address; none where an offset holds no register (R3). -/
def locate (a : Nat) : Option RegKey :=
  if a < 0x40000000 ∨ 0x41800000 ≤ a then none else locateIn (blockRegs (a / 2 ^ 20 - 0x400)) a

/-- Offset of an element of a register array. -/
def elemOfs : List (Nat × Nat) → Nat → Nat
  | [], _ => 0
  | (_, st) :: ds, i =>
    let n := (ds.map Prod.fst).foldl (· * ·) 1
    i / n * st + elemOfs ds (i % n)

/-- Bus address of a register. -/
def regAddr (r : Reg) (i : Nat) : Nat := (regRow r).addr + elemOfs (regRow r).dims i

/-- Target number of a register block (R382 table): 21 for SYS and on in the order of the map. -/
def regTarget (a : Nat) : Nat := 21 + (a / 2 ^ 20 - 0x400)

/-- Index of the block's CFG_ERR flag for an element of a register array: the outermost index where the flag is an
array. -/
def cfgIdx (r : Reg) (f : Flag) (i : Nat) : Nat :=
  if (regRow f.reg).dims = [] then 0 else i / (((regRow r).dims.drop 1).map Prod.fst).foldl (· * ·) 1

/-- Set the block's CFG_ERR once for a write of register `r` (R424). -/
def State.cfgErr (s : State) (r : Reg) (i : Nat := 0) : State :=
  match (regRow r).cfg with
  | some f => s.raise f (cfgIdx r f i)
  | none => s

/-! ### Access check (R382–R385, R10) -/

/-- Kinds of access. -/
inductive Kind where
  | r | w | x
  deriving DecidableEq, Repr

/-- Number of a kind in a denied log (SEC_DLOG_t_B). -/
def Kind.code : Kind → Nat
  | .r => 0 | .w => 1 | .x => 2

/-- Flat index of pair k of entry e of table t (R382). -/
def atIdx (t e k : Nat) : Nat := (t * 16 + e) * 8 + k

/-- The eight pairs of an entry pass their checks. -/
def State.entryOk (s : State) (t e : Nat) : Bool :=
  (List.range 8).all fun k => s.pairOk .SEC_AT (atIdx t e k)

/-- An entry covers the pages and grants the kind to the master (R383). -/
def State.entryGrants (s : State) (t e m p0 p1 : Nat) (kind : Kind) : Bool :=
  let first := (s.reg .SEC_AT (atIdx t e 0)).toNat
  let last := (s.reg .SEC_AT (atIdx t e 1)).toNat % 2 ^ 31
  let k := 2 + 2 * kind.code + m / 32
  s.entryOk t e && first.testBit 31 && decide (first % 2 ^ 31 ≤ p0) && decide (p1 ≤ last)
    && (s.reg .SEC_AT (atIdx t e k)).getLsbD (m % 32)

/-- Some entry of the table grants the access. -/
def State.tableGrants (s : State) (t m p0 p1 : Nat) (kind : Kind) : Bool :=
  (List.range 16).any fun e => s.entryGrants t e m p0 p1 kind

/-- Debug level (SEC_DBG.LEVEL). -/
def State.dbgLevel (s : State) : Nat := s.fld SEC_DBG_LEVEL

/-- The access is permitted: the rules of R383 that stand above the tables, what R354 leaves the Flacon core outside its partition
(its window, TIME, the event links, and the pool where the table grants it, for the image of INSTALL; DEDUCED, log 140), the debug
rules of R389, then the table. -/
def State.permitted (s : State) (m t p0 p1 : Nat) (kind : Kind) : Bool :=
  if m = 52 then false
  else if t = 43 ∧ kind = .w then m == 49
  else if t = 22 ∧ kind = .w ∧ 0x10 ≤ p1 ∧ p0 ≤ 0x2F ∧ ¬(m = 48 ∨ (m = 50 ∧ s.dbgLevel = 2)) then false
  else if m = 49 then
    (t == 43 && kind == .r) || (t == 25 && kind == .r) || (t == 41 && kind != .x)
      || (t == 16 && kind == .r && s.tableGrants t m p0 p1 kind)
  else if m = 50 then
    if s.dbgLevel = 2 then true
    else if t = 22 ∧ p1 ≤ 1 then true
    else s.dbgLevel == 1 && s.tableGrants t 40 p0 p1 kind
  else s.tableGrants t m p0 p1 kind

/-- In EVT the Flacon core reaches the links only (R354, log 140). -/
def flLinksOnly (m t ofs : Nat) : Bool := m != 49 || t != 41 || (decide (0x400 ≤ ofs) && decide (ofs < 0x568))

/-- Every pair of the target's table is checked at every access (R386 source 1). -/
def State.checkTable (s : State) (t : Nat) : State :=
  (List.range 128).foldl (fun s j => s.checkPair .SEC_AT (t * 128 + j)) s

/-- Log a denial at a target (R385). -/
def State.logDenied (s : State) (m t ofs : Nat) (kind : Kind) : State :=
  let s := s.setReg .SEC_DLOG_A t (BitVec.ofNat 32 ofs)
  let s := s.setReg .SEC_DLOG_B t (BitVec.ofNat 32 (m % 64 + 256 * kind.code))
  (s.count .SEC_DLOG_CNT t 1 0xFFFFFFFF).raise SEC_STAT_DENIED

/-- Check an access of `len` bytes at byte offset `ofs` of target `t`: permitted or not, and the state with what the check
itself records. -/
def State.access (s : State) (m t ofs len : Nat) (kind : Kind) : Bool × State :=
  let s' := s.checkTable t
  if s'.permitted m t (ofs / 4096) ((ofs + len - 1) / 4096) kind && flLinksOnly m t ofs then (true, s')
  else (false, s'.logDenied m t ofs kind)

/-- What an access check set in the cycle in which the write it let through clears the same flag or counter: the flag's
set wins and the counter keeps the coinciding increments (R6, R7). `s0` and `s1` are the states before and after the check. -/
def State.setWins (s s0 s1 : State) (r : Reg) : State :=
  let k := s1.sec.raised.length - s0.sec.raised.length
  if k = 0 then s
  else match r with
    | .SEC_STAT => s.setReg r 0 (s.reg r 0 ||| 1)
    | .SEC_INT_CNT => s.setReg r 0 (BitVec.ofNat 32 k)
    | _ => s

/-! ### A register write -/

/-- A value of a field rule: which values are refused, and whether refusal sets CFG_ERR. -/
def ruleOk (rule : Rule) (v : Nat) : Bool × Bool :=
  match rule with
  | .any => (true, false)
  | .range lo hi => (decide (lo ≤ v) && decide (v ≤ hi), true)
  | .rangeQuiet lo hi => (decide (lo ≤ v) && decide (v ≤ hi), false)
  | .align n => (decide (v % 2 ^ n = 0), true)
  | .alignQuiet n => (decide (v % 2 ^ n = 0), false)
  | .special _ => (true, true)

/-- π to 40 digits, as the rational number the model computes with (log 3). -/
def piRat : Rat := 31415926535897932384626433832795028841971 / 10000000000000000000000000000000000000000

/-- The rules that relate several fields: is the write of whole register value `v` at index `i` accepted for the fields
the rule names? (R54, R49, R178, R97, R94, R163, R184, R209, R223, R234, R318, R319, R293) A bandwidth is checked with the
update period that holds after the write, the sample-pair period in sin/cos mode, and any value with x ≤ 0.1 is accepted
(DESIGN CHOICE, log 116). -/
def State.specialOk (s : State) (k : Special) (i v : Nat) : Bool × Bool :=
  match k with
  | .bw =>
    let u := bits v 27 16
    let upd := if s.fld ENC_CTL_MODE i = 2 then s.fld SIG_K_OPER_PERIOD (8 + 2 * i)
      else if s.inHold && decide (20 ≤ u) && decide (u ≤ 4000) then u else s.fld ENC_OBS_UPD i
    (decide (2 * piRat * ((max 1 (bits v 15 0) * upd * 5 : Nat) : Rat) ≤ 100000000), true)
  | .ampPair => (decide (bits v 15 0 ≤ bits v 31 16), true)
  | .pix => (decide (1 ≤ bits v 14 0 ∧ bits v 14 0 ≤ 16384 ∧
      (s.fld CAM_CTL_LANES i = 3 → bits v 14 0 % 2 = 0)), true)
  | .stlo =>
    let hi := if bits v 29 16 < s.fld CAM_PIX_PIX i then bits v 29 16 else s.fld IU_STWIN_HI i
    (decide (bits v 13 0 ≤ hi), true)
  | .sthi => (decide (bits v 13 0 ≤ bits v 29 16 ∧ bits v 29 16 < s.fld CAM_PIX_PIX i), true)
  | .gmin =>
    let g := bits v 31 16
    (decide (bits v 15 0 ≤ if 8192 ≤ g ∧ g ≤ 32767 then g else s.fld IU_LLIM_GMAX), false)
  | .gmax => (decide (8192 ≤ bits v 31 16 ∧ bits v 31 16 ≤ 32767 ∧ bits v 15 0 ≤ bits v 31 16), false)
  | .swidth => (decide (bits v 31 18 = 0 ∨ (64 ≤ bits v 31 18 ∧ bits v 31 18 ≤ 8576)), true)
  | .markPair => (decide (bits v 31 20 + 16 ≤ bits v 15 0), true)
  | .qPair => (decide (bits v 15 0 ≤ bits v 31 16), true)
  | .qrd => (decide (seqSub (s.fld RPT_QWR_SEQ) v ≤ 2 ^ s.fld RPT_QCFG_QLOG), true)
  | .loupe => (!(v.testBit 1 && (List.range 4).any fun c => c != i && s.on RPT_MK_CTL_LOUPE c), true)
  | .frame =>
    let d := if 10 ≤ bits v 13 8 ∧ bits v 13 8 ≤ 40 then bits v 13 8 else s.fld SIG_CTL_SDDIV
    (decide (16 ≤ bits v 24 16 ∧ bits v 24 16 ≤ 256 ∧ 192 ≤ bits v 24 16 * d), true)
  | .sddiv =>
    let fr := if 16 ≤ bits v 24 16 ∧ bits v 24 16 ≤ 256 then bits v 24 16 else s.fld SIG_CTL_FR
    (decide (10 ≤ bits v 13 8 ∧ bits v 13 8 ≤ 40 ∧ 192 ≤ bits v 13 8 * fr), true)
  | .nrange => (decide (16 ≤ (bits v 7 4 + 1) * s.fld SIG_CTL_FR ∧ (bits v 7 4 + 1) * s.fld SIG_CTL_FR ≤ 256), true)
  | .embrd => (decide (seqSub (s.fld ETH_EMB_WR_IDX) v ≤ 2 ^ s.fld ETH_EMB_CFG_ELOG), true)

/-- May a field with this condition change now? -/
def State.unlocked (s : State) (l : Lock) (i : Nat) : Bool :=
  match l with
  | .none => true
  | .hold | .holdChg | .dec => s.inHold
  | .sig => !s.on SIG_CTL_EN
  | .sigch => !s.on SIG_K_CFG_EN i
  | .mot => !s.on MOT_CTL_EN
  | .eth => !s.on ETH_CTL_EN i
  | .emb => !s.on ETH_EMB_CFG_EN
  | .own | .lnk | .coef => false

/-- The write is refused for a field with this condition. Where the spec says that a write at another time sets CFG_ERR, any
write of the field does; where it speaks of a write that would change the field (R29, R47, R60), or names the condition only,
a write that repeats the value does not (DEDUCED, log 4). -/
def State.lockRefuses (s : State) (l : Lock) (i : Nat) (same : Bool) : Bool :=
  !s.unlocked l i && !(l == .holdChg && same)

/-- New contents of one field of a register under its access type (R5, R424), and whether CFG_ERR is called for. -/
def State.fieldWrite (s : State) (i old v : Nat) (f : FieldRow) : Nat × Bool :=
  let o := bits old f.hi f.lo
  let n := bits v f.hi f.lo
  match f.acc with
  | .rw =>
    if s.lockRefuses f.lock i (n == o) then (o, true)
    else
      let (ok, err) := match f.rule with
        | .special k => s.specialOk k i v
        | rule => ruleOk rule n
      if ok then (n, false) else (o, err)
  | .w1c => (o &&& (2 ^ (f.hi + 1 - f.lo) - 1 - n), false)
  | .w1s => (o ||| n, false)
  | .w0c => (o &&& n, false)
  | .clr => (0, false)
  | _ => (o, false)

/-- Fold the fields of a register over a written value: the new contents and whether any field calls for CFG_ERR. -/
def State.fieldsWrite (s : State) (i old v : Nat) : List FieldRow → Nat → Bool → Nat × Bool
  | [], acc, e => (acc, e)
  | f :: fs, acc, e =>
    let (n, e') := s.fieldWrite i old v f
    s.fieldsWrite i old v fs (setBits acc f.hi f.lo n) (e || e')

/-- The mask of the fields of a register. -/
def fieldMask (r : Reg) : Nat := (regRow r).fields.foldl (fun a f => setBits a f.hi f.lo (2 ^ 32 - 1)) 0

/-- Write a register under the access types of its fields: RW, RO, WO, W1C, W1S and the counters of R7 (R4, R5, R424);
the complement register of a pair is held until the next value write, and the value register is compared with it as the two words
were written, reserved bits with them (R8; DESIGN CHOICE, log 42). -/
def State.regStore (s : State) (r : Reg) (i : Nat) (v : Word) : State :=
  match (regRow r).fields with
  | ⟨_, _, .rwcc, _, _⟩ :: _ => { s with sec := { s.sec with held := put v s.sec.held (valueOf r, i) } }
  | ⟨_, _, .rwc, l, _⟩ :: _ =>
    let held := s.sec.held.find? fun e => decide (e.1 = (r, i))
    let s := { s with sec := { s.sec with held := s.sec.held.filter fun e => !decide (e.1 = (r, i)) } }
    match held with
    | some (_, c) =>
      if c = ~~~ v then
        let n := v &&& BitVec.ofNat 32 (fieldMask r)
        if s.lockRefuses l i (n == s.reg r i) then s.cfgErr r i else s.storePair r i n
      else integrityMismatch s
    | none => integrityMismatch s
  | fs =>
    let old := (s.reg r i).toNat
    let (n, err) := s.fieldsWrite i old v.toNat fs old false
    let s := s.setReg r i (BitVec.ofNat 32 n)
    if err then s.cfgErr r i else s
where
  /-- R8: a value write without its complement is ignored; the result is INTEGRITY and the block's flag is set. -/
  integrityMismatch (s : State) : State :=
    let s := match integrityFlag r with
      | some f => s.raise f (if (regRow f.reg).dims = [] then 0 else i)
      | none => s
    { s with resp := { code := rINTEGRITY } }

/-- A target answers now: in Standby only SEC, ENC, TIME, EVT and the Flacon window do, in Off none (R392, R398). -/
def State.answers (s : State) (t : Nat) : Bool :=
  s.live || (s.powered && (t == 22 || t == 24 || t == 25 || t == 41 || t == 43))

/-- A bank is retained through Standby (R261). -/
def State.retained (s : State) (b : Nat) : Bool :=
  if b < 16 then (s.reg .MEM_RET_SB).getLsbD b else (s.reg .MEM_RET_SP).getLsbD (b - 16)

/-- A master's write to a register: the access check of its target, then the effect, answered OK unless the effect itself
answers otherwise; a denied write has none (R10). Nothing answers in Off, in Standby only the always-on blocks do, and after a boot that
halted only JTAG is heard (R409). -/
def State.guardWrite (s : State) (m : Nat) (r : Reg) (i : Nat) (eff : State → State) : State :=
  let a := regAddr r i
  let t := regTarget a
  if !s.hears m then s
  else if s.answers t then
    match s.access m t (a % 2 ^ 20) 4 .w with
    | (true, s) => eff { s with resp := {} }
    | (false, s) => { s with resp := { code := rDENIED } }
  else if s.powered then { s with resp := { code := rERROR } }
  else s

/-! ### Ranges of lines -/

/-- A line appended to ranges of lines, newest first. -/
def tickedAdd (l : List (Int × Int)) (n : Int) : List (Int × Int) :=
  match l with
  | (a, b) :: rest => if n = b + 1 then (a, n) :: rest else (n, n) :: l
  | [] => [(n, n)]

/-- A line lies in one of the ranges. -/
def inRanges (l : List (Int × Int)) (n : Int) : Bool := l.any fun (a, b) => decide (a ≤ n) && decide (n ≤ b)

/-- Line n has been ticked since the entry into Run. -/
def State.lineLive (s : State) (n : Int) : Bool := inRanges s.tick.ticked n

end Sys2Proof.Machine
end

