-- ==== Sys2Proof/Machine/Events.lean ====
section
/-!
DEFINITION. Sys2Proof/Machine/Events.lean: device time, the layout of a time-stamped entry, interrupts, the Hold request,
and the event router: strobes, coincidence, consumer inputs and their actions (R42, R344–R353, R394).
-/
namespace Sys2Proof.Machine

/-- A value whose rounding the spec does not state, at the named place: an integer next to it (log 5). -/
def freeRound (place : Nat) (q : Rat) : Int :=
  if q.den = 1 then q.num else if Config.roundUp place q then q.floor + 1 else q.floor

/-- Round to the nearest integer, halves up. -/
def roundNear (q : Rat) : Int := (q + 1 / 2).floor

/-! ### Device time -/

/-- One time domain: 0 A, 1 B. -/
def State.dom (s : State) (x : Nat) : TimeDom := look {} s.times x

/-- Change one time domain. -/
def State.updDom (s : State) (x : Nat) (f : TimeDom → TimeDom) : State := { s with times := upd {} f s.times x }

/-- The primary domain (R46). -/
def State.pri (s : State) : Nat := s.fld TIME_CTL_PRI

/-- Seconds and nanoseconds of a domain, `back` nanoseconds of the time base ago, which the domain counted at its own rate, with
2 ns resolution (R42, R43). -/
def TimeDom.stamp (d : TimeDom) (back : Rat) : Nat × Nat :=
  let t : Rat := ((1000000000 * d.sec + d.ns : Nat) : Rat) + (d.sub : Rat) / 4294967296
    - back * (1 + (d.freq : Rat) / 65536000000000)
  let n : Nat := (t / 2).floor.toNat * 2
  (n / 1000000000 % 2 ^ 48, n % 1000000000)

/-- The 32-byte layout of R42: line index 48.16, both domains, and the bits of bytes 30–31. -/
def State.entry (s : State) (pos : Nat) (back : Rat) (flags : Nat) : List Byte :=
  let a := (s.dom 0).stamp back
  let b := (s.dom 1).stamp back
  leBytes 8 pos ++ leBytes 4 a.2 ++ leBytes 6 a.1 ++ leBytes 2 0 ++ leBytes 4 b.2 ++ leBytes 6 b.1
    ++ leBytes 2 (s.pri + flags)

/-- The web position counter as 48.16 (R30): in Span mode the fraction the tick master supplied. -/
def State.posWord (s : State) : Nat :=
  let frac := if s.fld TICK_CTL_SRC = 2 then s.tick.spanFrac
    else if s.fld TICK_CTL_SRC = 3 then 0
    else s.tick.rem * 65536 / max 1 (s.fld TICK_DEN_DEN)
  65536 * ofSigned 48 s.tick.line + frac % 65536

/-- Line of a waiting TICK packet. -/
def packetLine (pos : Nat) : Int := toSigned 48 (pos / 65536)

/-- The high-water mark of the counter: the last line issued or, in an array, waiting for its issue time (R31, R241). -/
def State.tickLast (s : State) : Int := s.span.ticks.foldl (fun m t => max m (packetLine t.1)) s.tick.hw

/-- Pipeline depth D (R37). -/
def State.depth (s : State) : Nat := s.fld TICK_DEPTH_D

/-! ### Interrupts -/

/-- Interrupt the service cores, for the named cause. -/
def State.irq (s : State) (cause : String) : State := { s with zsp := { s.zsp with irqs := cause :: s.zsp.irqs } }

/-! ### Messages to the clients (R294, R296, R298, R299, R302) -/

/-- Classes a role grants (R298). -/
def Role.grants : Role → Nat → Bool
  | .operator, c => [1, 2, 4, 5, 6, 7].contains c
  | .service, c => decide (1 ≤ c) && decide (c ≤ 8)
  | .none, _ => false

/-- Transmit queue q is stopped (R302). -/
def State.txStopped (s : State) (q : Nat) : Bool :=
  (q == 2 && s.on ETH_HWACT_STOP_REPORTS) || (q == 3 && s.on ETH_HWACT_STOP_EXPORT)

/-- Remove the oldest message of transmit queue q. -/
def dropFirst (q : Nat) : List (Nat × Msg) → List (Nat × Msg)
  | [] => []
  | e :: l => if e.1 = q then l else e :: dropFirst q l

/-- Frames of at most 1,522 bytes that a message takes: 1,438 bytes of it in each, beside a tag, the framing and the TLS record
(R296; DESIGN CHOICE, log 127). -/
def Msg.frames (m : Msg) : Nat := (16 + m.payload.length + 1437) / 1438

/-- The oldest message of the highest-priority queue that is not stopped (R296). -/
def State.ethPick (s : State) (tx : List (Nat × Msg)) : Option (Nat × Msg) :=
  [0, 1, 2, 3].findSome? fun q => if s.txStopped q then none else tx.find? fun e => e.1 == q

/-- An idle wire takes the next frame; a frame on the wire is never cut (R296). -/
def State.ethNext (s : State) (p : Nat) : State :=
  let e := look {} s.eths p
  if e.wire.isSome || !s.on ETH_CTL_EN p || !s.on ETH_STAT_LINK p then s
  else match s.ethPick e.tx with
    | some m => { s with eths := put { e with tx := dropFirst m.1 e.tx, wire := some m } s.eths p }
    | none => s

/-- A message enters the transmit queue of its session's port; a closed session sends nothing. -/
def State.zspSend (s : State) (q : Nat) (m : Msg) : State :=
  match s.zsp.sessions.find? fun e => e.1 == m.sid with
  | some (_, c) => ({ s with eths := upd {} (fun e => { e with tx := e.tx ++ [(q, m)] }) s.eths c.port }).ethNext c.port
  | none => s

/-- Queue of a session's replies: 0 for a control session, else 3 (R294). -/
def State.zspQueue (s : State) (sid : Nat) : Nat :=
  match s.zsp.sessions.find? fun e => e.1 == sid with
  | some (_, c) => if c.data then 3 else 0
  | none => 0

/-- A payload in parts of at most 1,048,560 bytes (R299, R308). -/
def zspParts : Nat → List Byte → List (List Byte)
  | 0, l => [l]
  | n + 1, l => if l.length ≤ 1048560 then [l] else l.take 1048560 :: zspParts n (l.drop 1048560)

/-- A reply in its parts: REPLY, and MORE on all but the last (R299). -/
def State.zspParted (s : State) (sid cls typ rid res : Nat) (payload : List Byte) : State :=
  let ps := zspParts (payload.length / 1048560) payload
  (List.range ps.length).foldl (fun s i =>
    let fl := if i + 1 < ps.length then 3 else 1
    s.zspSend (s.zspQueue sid) ⟨sid, cls, typ, fl, res, rid, ps.getD i []⟩) s

/-- Change the slots of a session. -/
def State.zspSlots (s : State) (sid : Nat) (f : List ZspSlot → List ZspSlot) : State :=
  { s with zsp := { s.zsp with sessions := s.zsp.sessions.map fun e =>
      if e.1 = sid then (sid, { e.2 with slots := f e.2.slots }) else e } }

/-- The slots of a session. -/
def State.zspSlotsOf (s : State) (sid : Nat) : List ZspSlot :=
  match s.zsp.sessions.find? fun e => e.1 == sid with
  | some (_, c) => c.slots
  | none => []

/-- The answers known leave, up to the first request that has none (R299). -/
def State.zspDrain (s : State) (sid : Nat) : State :=
  let l := s.zspSlotsOf sid
  let s := s.zspSlots sid fun l => l.dropWhile (·.answer.isSome)
  (l.takeWhile (·.answer.isSome)).foldl (fun s c => match c.answer with
    | some (res, pl) => s.zspParted sid c.cls c.typ c.rid res pl
    | none => s) s

/-- A request is answered at once. -/
def State.zspReply (s : State) (sid cls typ rid res : Nat) (payload : List Byte := []) : State :=
  (s.zspSlots sid (· ++ [⟨cls, typ, rid, some (res, payload)⟩])).zspDrain sid

/-- A request will be answered later. -/
def State.zspWait (s : State) (sid cls typ rid : Nat) : State := s.zspSlots sid (· ++ [⟨cls, typ, rid, none⟩])

/-- The oldest slot of this request that has no answer gets one. -/
def fillSlot (cls typ rid res : Nat) (pl : List Byte) : List ZspSlot → List ZspSlot
  | [] => []
  | c :: l => if c.cls = cls ∧ c.typ = typ ∧ c.rid = rid ∧ c.answer.isNone then { c with answer := some (res, pl) } :: l
    else c :: fillSlot cls typ rid res pl l

/-- A request that waited is answered. -/
def State.zspFill (s : State) (sid cls typ rid res : Nat) (payload : List Byte := []) : State :=
  (s.zspSlots sid (fillSlot cls typ rid res payload)).zspDrain sid

/-- An event of a class goes to every open data session whose role grants it. -/
def State.zspEvent (s : State) (cls typ : Nat) (payload : List Byte) : State :=
  s.zsp.sessions.foldl (fun s e =>
    if e.2.data && e.2.role.grants cls then s.zspSend 3 ⟨e.1, cls, typ, 4, 0, 0, payload⟩ else s) s

/-- SYS_PSTAT after a request: profile, result, failing check and engine. -/
def State.pstat (s : State) (n res chk eng : Nat) : State :=
  (((s.setFld SYS_PSTAT_PROF 0 n).setFld SYS_PSTAT_RESULT 0 res).setFld SYS_PSTAT_CHK 0 chk).setFld SYS_PSTAT_ENG 0 eng

/-- PROFILE_APPLIED, for the request whose outcome SYS_PSTAT has just taken (R310). -/
def State.profEvent (s : State) (line : Nat) : State :=
  s.zspEvent 3 0x0101 ((leBytes 1 (s.fld SYS_PSTAT_PROF) ++ leBytes 1 (s.fld SYS_PSTAT_RESULT)
    ++ leBytes 1 (s.fld SYS_PSTAT_CHK) ++ leBytes 1 (s.fld SYS_PSTAT_ENG)) ++ leBytes 4 0 ++ leBytes 8 line)

/-! ### Hold request (R394, R408) -/

/-- Discard every staged program. -/
def State.dropStaged (s : State) : State :=
  { s with engs := s.engs.map fun e => (e.1, { e.2 with staged := none, spliceAt := none }) }

/-- End a pending splice with a result, and the check and engine that failed; SYS_PSTAT and PROFILE_APPLIED name its profile; its
staged programs are discarded (R310, R407, R408). -/
def State.endSplice (s : State) (res : Nat) (chk : Nat := 0) (eng : Nat := 0) : State :=
  let n := (s.boot.splice.map (·.prof.number)).getD (s.fld SYS_PSTAT_PROF)
  let s := ((s.pstat n res chk eng).setFld SYS_PSTAT_BUSY 0 0).setFld SYS_PSTAT_PEND 0 0
  let line := ((s.boot.splice.bind (·.s)).getD 0).toNat
  { s.dropStaged with boot := { s.boot with splice := none } }.profEvent line

/-- A Hold request: in Run it latches L_h and starts the drain; requests that meet share one drain; in Hold it changes
nothing (R394, R397). A splice whose line lies past L_h ends STATE_REFUSED (R408). -/
def State.requestHold (s : State) : State :=
  if s.inRun && !s.pwr.drain then
    let lh := s.tick.hw.toNat
    let top := max s.tickLast s.tick.line
    let s := { s with
      pwr := { s.pwr with drain := true, drainAt := lh, holdLine := lh }
      tick := { s.tick with hw := top, holdAdv := (top - s.tick.hw).toNat } }
    match s.boot.splice with
    | some sp =>
      match sp.s with
      | some line => if !sp.applied && decide ((lh : Int) < line) then s.endSplice rSTATE_REFUSED else s
      | none => s
    | none => s
  else s

/-! ### Immediate stop of the carriage (R330) -/

/-- An immediate stop into IDLE; above V_START it clears HOMED. -/
def motHalt (m : Mot) : Mot :=
  { m with
    st := .idle, vel := 0, delay := false, home := none, frac := 0, ss := false, braking := false
    homed := m.homed && decide (m.vel ≤ (m.vstart : Rat)) && decide (-(m.vstart : Rat) ≤ m.vel) }

/-- ESTOP: outside MOVING, STOPPING and HOMING it changes nothing (R331). -/
def State.motEstop (s : State) : State :=
  match s.mot.st with
  | .moving | .stopping | .homing => { s with mot := motHalt s.mot }
  | _ => s

/-! ### Event router -/

/-- Links wired to a consumer input (R345). -/
def evtWired (c ch : Nat) : Bool :=
  if c < 24 then ch < 64
  else if c = 24 then ch == 6 || ch == 7 || ch == 15 || ch == 21 || (24 ≤ ch && ch ≤ 47) || (56 ≤ ch && ch ≤ 63)
  else if c = 25 then ch == 4 || ch == 5 || ch == 8 || ch == 14 || (24 ≤ ch && ch ≤ 63)
  else if c = 26 then 24 ≤ ch && ch ≤ 63
  else if c = 27 then ch == 15 || (24 ≤ ch && ch ≤ 63)
  else c < 45 && ch < 64

/-- The wiring of a consumer input as 64 bits (EVT_WIRE_c). -/
def evtWireWord (c : Nat) : Nat :=
  (List.range 64).foldl (fun a ch => if evtWired c ch then a + 2 ^ ch else a) 0

/-- A link is enabled. -/
def State.evtLinked (s : State) (c ch : Nat) : Bool :=
  evtWired c ch &&
    (if ch < 32 then (s.reg .EVT_LNK_LO c).getLsbD ch else (s.reg .EVT_LNK_HI c).getLsbD (ch - 32))

/-- Producers that produce in Standby (R344). -/
def evtStandby (ch : Nat) : Bool :=
  ch == 6 || ch == 7 || ch == 15 || ch == 19 || ch == 20 || ch == 21 || (24 ≤ ch && ch ≤ 47) || (56 ≤ ch && ch ≤ 63)

/-- Capture an occurrence on CAPk (R353). -/
def State.evtCapture (s : State) (k : Nat) : State :=
  let c := look {} s.evt.caps k
  if c.reading then
    let s := s.raiseIf c.held.isSome EVT_STAT_CAP_OVR
    { s with evt := { s.evt with caps := put { c with held := some (s.entry s.posWord 0 0) } s.evt.caps k } }
  else
    let e := s.entry s.posWord 0 (if c.unread then 4 else 0)
    let s := (List.range 8).foldl (fun s i =>
      s.setReg .EVT_CAP (k * 8 + i) (BitVec.ofNat 32 (leNat ((e.drop (4 * i)).take 4)))) s
    { s with evt := { s.evt with caps := put { c with unread := true } s.evt.caps k } }

/-- An occurrence at relay input n (R352). -/
def State.evtRelay (s : State) (n : Nat) : State :=
  let cnt := look 0 s.evt.rlyCount n + 1
  if cnt < max 1 (s.fld EVT_RLY_DIV_DIV n) then
    { s with evt := { s.evt with rlyCount := put cnt s.evt.rlyCount n } }
  else
    let s := { s with evt := { s.evt with rlyCount := put 0 s.evt.rlyCount n } }
    let held := look 0 s.evt.rlyHeld n
    if held < 16 then { s with evt := { s.evt with rlyHeld := put (held + 1) s.evt.rlyHeld n } }
    else s.raise EVT_STAT_RLY_OVF

/-- A strobe that rises holds an output input high for one EVCLK cycle of 10 ns, whatever else holds it (R347, R351). -/
def State.evtHigh (s : State) (c : Nat) : State :=
  if c < 24 then { s with evt := { s.evt with out := put 5 s.evt.out c } } else s

/-- The action of a consumer input on an occurrence (R345); `ch` is the lowest channel that rose. -/
def State.evtConsume (s : State) (c ch : Nat) : State :=
  if c < 24 then
    let s := { s with evt := { s.evt with pulses := upd 0 (· + 1) s.evt.pulses c } }
    if s.on EVT_PIN_OMODE c then
      { s with evt := { s.evt with stretch := if s.evt.stretch.contains c then s.evt.stretch else c :: s.evt.stretch } }
    else s
  else if c = 24 then
    if s.pwr.st == .standby || s.pwr.entering then
      { s with pwr := { s.pwr with wake := some (s.pwr.wake.getD ch) } }
    else s
  else if 37 ≤ c then s.evtRelay (c - 37)
  else if !s.live then s
  else if c = 25 then s.requestHold
  else if c = 26 then { s with ref := { s.ref with press := s.ref.press ++ [s.tick.line] } }
  else if c = 27 then s.motEstop
  else if c < 32 then s.evtCapture (c - 28)
  else
    (s.setReg .EVT_ISTAT 0 (s.reg .EVT_ISTAT ||| BitVec.ofNat 32 (2 ^ (c - 32)))).count .EVT_IRQ_CNT (c - 32)

/-- Record a merge at a consumer input (R347). -/
def State.evtCoin (s : State) (c : Nat) : State :=
  let r : Reg := if c < 32 then .EVT_COIN_LO else .EVT_COIN_HI
  (s.setReg r 0 (s.reg r ||| BitVec.ofNat 32 (2 ^ (c % 32)))).count .EVT_COIN_CNT c

/-- What one consumer input makes of channels rising in one EVCLK cycle (R345, R347). -/
def State.evtInput (s : State) (high rising : List Nat) (c : Nat) : State :=
  match rising.filter (s.evtLinked c) with
  | [] => s
  | ch :: more =>
    let up := high.any (s.evtLinked c)
    let s := (if up || !more.isEmpty then s.evtCoin c else s).evtHigh c
    if up then s else s.evtConsume c ch

/-- Channels whose strobes rise in one EVCLK cycle, in increasing order: silent in Off, and in Standby but for the
producers that produce there (R344). -/
def State.strobe (s : State) (chs : List Nat) : State :=
  if !s.powered then s
  else
    let rising := if s.live then chs else chs.filter evtStandby
    (List.range 45).foldl (fun s c => s.evtInput s.evt.level rising c) s

/-- `n` occurrences of one channel, one after another. -/
def State.strobeTimes (s : State) (ch : Nat) : Nat → State
  | 0 => s
  | n + 1 => (s.strobe [ch]).strobeTimes ch n

/-- A level producer's strobe rises and stays high. -/
def State.strobeUp (s : State) (ch : Nat) : State :=
  if s.evt.level.contains ch then s
  else
    let s := s.strobe [ch]
    { s with evt := { s.evt with level := ch :: s.evt.level } }

/-- A level producer's strobe falls. -/
def State.strobeDown (s : State) (ch : Nat) : State :=
  { s with evt := { s.evt with level := s.evt.level.filter (· != ch) } }

/-- The strobe of event pin n's input: its accepted level, inverted when IINV = 1 (R351). -/
def State.evtPinStrobe (s : State) (n : Nat) : State :=
  if s.evt.pins.contains n != s.on EVT_PIN_IINV n then s.strobeUp (24 + n) else s.strobeDown (24 + n)

/-- A write to EVT_PIN_n: a changed inversion acts at once, since the pin has long been stable (DEDUCED, log 132). -/
def State.evtPinWrite (s : State) (n : Nat) (v : Word) : State := (s.regStore .EVT_PIN n v).evtPinStrobe n

/-- Interrupt lines that EVT_ISTAT holds active: 0–3 to the service cores, 4 to the root core. -/
def State.evtLines (s : State) : List Nat := (List.range 5).filter fun n => (s.reg .EVT_ISTAT).getLsbD n

/-- Level driven on event pin n, none while it is an input only: in DIRECT mode the union of the strobes at its input, levels and
pulses (R347, R351). -/
def State.evtPinOut (s : State) (n : Nat) : Option Bool :=
  if s.on EVT_PIN_OE n then
    let act := if s.on EVT_PIN_OMODE n then s.evt.stretch.contains n
      else s.evt.level.any (s.evtLinked n) || decide (0 < look 0 s.evt.out n)
    some (act != s.on EVT_PIN_OINV n)
  else none

/-- Owner code of a channel, with 3 read as 0 (R348, R425). -/
def State.evtOwner (s : State) (ch : Nat) : Nat := s.fld EVT_OWN_OWNER ch % 3

/-- The owner a master stands for: SEC, SVC or FLACON; debug access stands for the service cores (DEDUCED, log 6). -/
def ownerOfMaster (m : Nat) : Option Nat :=
  if m = 48 then some 0 else if 40 ≤ m ∧ m ≤ 47 then some 1 else if m = 49 then some 2 else if m = 50 then some 1 else none

/-- Channel a consumer input drives by a fixed path (R350). -/
def evtFixed (c : Nat) : Option Nat :=
  if c = 26 then some 2 else if c = 25 then some 23 else if 37 ≤ c ∧ c < 45 then some (c + 19) else none

/-- Channels reachable from the output of consumer `c` over fixed paths and enabled links. -/
def State.evtReach (s : State) : Nat → List Nat → List Nat
  | 0, seen => seen
  | n + 1, seen =>
    let more := seen.flatMap fun ch =>
      (List.range 45).filterMap fun c => if s.evtLinked c ch then evtFixed c else none
    s.evtReach n (seen ++ more.filter fun ch => !seen.contains ch).eraseDups

/-- Store the outcome of an EVT_LNK or EVT_SWTRIG write (EVT_RES). -/
def State.evtRes (s : State) (res cons ch : Nat) : State :=
  ((s.setFld EVT_RES_RESULT 0 res).setFld EVT_RES_CONS 0 cons).setFld EVT_RES_CH 0 ch

/-- DENIED for an EVT_LNK or EVT_SWTRIG write (R349): nothing changes, the access is logged, flag and result say so. -/
def State.evtDeny (s : State) (m ofs cons ch : Nat) : State :=
  let s := ((s.logDenied m 41 ofs .w).raise EVT_STAT_DENIED).evtRes rDENIED cons ch
  { s with resp := { code := rDENIED } }

/-- A write to EVT_LNK_c_LO or _HI (R345, R349, R350). -/
def State.evtLnkWrite (s : State) (m : Nat) (r : Reg) (c : Nat) (v : Word) : State :=
  let base := if r = .EVT_LNK_LO then 0 else 32
  let new := v &&& BitVec.ofNat 32 (evtWireWord c / 2 ^ base)
  let old := s.reg r c
  let bad := (List.range 32).filter fun b =>
    new.getLsbD b != old.getLsbD b &&
      (some (s.evtOwner (base + b)) != ownerOfMaster m
        || (c == 36 && new.getLsbD b && !s.on EVT_OWN_SECURE (base + b)))
  match bad with
  | b :: _ => s.evtDeny m (regAddr r c % 2 ^ 20) c (base + b)
  | [] =>
    let set := (List.range 32).filter fun b => new.getLsbD b && !old.getLsbD b
    let reach := match evtFixed c with
      | some ch => s.evtReach 10 [ch]
      | none => []
    match set.filter fun b => reach.contains (base + b) with
    | b :: _ => ((s.raise EVT_STAT_LOOP_REJ).evtRes rLOOP_REJECTED c (base + b))
    | [] => (s.setReg r c new).evtRes rOK c 0

/-- A write to EVT_SWTRIG (R349): the bits written 1 are the bits it would change. EVT_RES names no consumer for such a
write: its field CONS holds a free value (log 1). -/
def State.evtSwWrite (s : State) (m : Nat) (v : Word) : State :=
  let chs := ((List.range 8).filter fun b => v.getLsbD b).map (48 + ·)
  let cons := s.free % 64
  let s := s.drawn
  match chs.filter fun ch => some (s.evtOwner ch) != ownerOfMaster m with
  | ch :: _ => s.evtDeny m 0x120 cons ch
  | [] => (s.evtRes rOK cons 0).strobe chs

/-- A write to EVT_OWN_ch (R348). -/
def State.evtOwnWrite (s : State) (m ch : Nat) (v : Word) : State :=
  if m = 48 ∧ s.fld EVT_LOCK_LOCK = 0 ∧ ch ≠ 19 ∧ ch ≠ 20 then s.setReg .EVT_OWN ch (v &&& 7)
  else s.raise EVT_STAT_CFG_ERR

/-- A write to EVT_RLY_n: the stored field changes, the count restarts and the delayed occurrences are discarded
(R352). -/
def State.evtRlyWrite (s : State) (r : Reg) (n : Nat) (v : Word) : State :=
  let s := s.regStore r n v
  { s with evt := { s.evt with rlyCount := put 0 s.evt.rlyCount n, rlyHeld := put 0 s.evt.rlyHeld n } }

/-- A write to EVT_ISTAT: bit 4 is writable by the root core only. -/
def State.evtIstatWrite (s : State) (m : Nat) (v : Word) : State :=
  s.regStore .EVT_ISTAT 0 (if m = 48 then v else v &&& 0xF)

/-- A read of word 7 of capture k (R353). -/
def State.evtCapRead (s : State) (k : Nat) : State :=
  let c := look {} s.evt.caps k
  match c.held with
  | some e =>
    let s := (List.range 8).foldl (fun s i =>
      s.setReg .EVT_CAP (k * 8 + i) (BitVec.ofNat 32 (leNat ((e.drop (4 * i)).take 4)))) s
    { s with evt := { s.evt with caps := put { unread := true } s.evt.caps k } }
  | none => { s with evt := { s.evt with caps := put {} s.evt.caps k } }

/-- A read of word 0 of a capture entry begins its reading (R353). -/
def State.evtCapBegin (s : State) (k : Nat) : State :=
  { s with evt := { s.evt with caps := upd {} (fun c => { c with reading := true }) s.evt.caps k } }

/-- A master's read of a register: the access check, the answer and what the read itself does (R5, R10). -/
def State.guardRead (s : State) (m : Nat) (r : Reg) (i : Nat) (val : State → Word) (eff : State → State) : State :=
  let a := regAddr r i
  let t := regTarget a
  if s.answers t then
    match s.access m t (a % 2 ^ 20) 4 .r with
    | (true, s) => eff { s with resp := { code := rOK, data := (val s).toNat } }
    | (false, s) => { s with resp := { code := rDENIED } }
  else if s.powered then { s with resp := { code := rERROR } }
  else s

end Sys2Proof.Machine
end

