-- ==== Sys2Proof/Machine/Angle.lean ====
section
/-!
DEFINITION. Sys2Proof/Machine/Angle.lean: square root and angle of integers in exact or fixed-point arithmetic (R49, R212,
R325, R334, R357). The angle is a fraction of a turn, exact at every multiple of an eighth of a turn and within 2⁻⁶⁰
of a turn elsewhere (log 3).
-/
namespace Sys2Proof.Machine

/-- Fixed-point scale of the angle computation. -/
def fxScale : Int := 2 ^ 80

/-- Terms of the arctangent series: Σ (−1)^k t^(2k+1) / (2k+1), with `p` = t^(2k+1). -/
def atanTerms (t2 : Int) : Nat → Int → Int → Int → Int
  | 0, _, _, acc => acc
  | n + 1, k, p, acc =>
    let term := p / (2 * k + 1)
    atanTerms t2 n (k + 1) (p * t2 / fxScale) (if k % 2 = 0 then acc + term else acc - term)

/-- arctan of y/x in turns for 0 ≤ y ≤ x, 0 < x: exact at 0 and at an eighth of a turn. -/
def atanOctant (y x : Nat) : Rat :=
  if y = 0 then 0
  else if y = x then 1 / 8
  else
    -- above tan(π/8) the argument is reduced: atan t = π/4 − atan((1 − t) / (1 + t))
    let big := decide (5 * x < 12 * y)
    let (n, d) := if big then (x - y, x + y) else (y, x)
    let t := (n : Int) * fxScale / (d : Int)
    let a : Rat := (atanTerms (t * t / fxScale) 40 0 t 0 : Rat) / (fxScale : Rat) / (2 * piRat)
    if big then 1 / 8 - a else a

/-- The angle of the vector (cosine `x`, sine `y`) as a fraction of a turn in [0, 1); 0 for the zero vector. -/
def turnOf (y x : Int) : Rat :=
  let a := y.natAbs
  let b := x.natAbs
  if a = 0 ∧ b = 0 then 0
  else
    let q := if a ≤ b then atanOctant a b else 1 / 4 - atanOctant b a
    if 0 ≤ y then (if 0 ≤ x then q else 1 / 2 - q)
    else if x < 0 then 1 / 2 + q
    else if q = 0 then 0 else 1 - q

/-- Taylor terms of the sine: Σ (−1)^k z^(2k+1) / (2k+1)!. -/
def sinTerms (z2 : Int) : Nat → Int → Int → Int → Int
  | 0, _, _, acc => acc
  | n + 1, k, p, acc =>
    sinTerms z2 n (k + 1) (p * z2 / fxScale / ((2 * k + 2) * (2 * k + 3))) (if k % 2 = 0 then acc + p else acc - p)

/-- sin(2π e / 1,024) in units of 2⁻⁸⁰ for 0 ≤ e ≤ 256: exact at 0 and 256. -/
def sinQuarter (e : Nat) : Int :=
  if e = 256 then fxScale
  else
    let z := (e : Int) * 2 * piRat.num * fxScale / (1024 * (piRat.den : Int))
    sinTerms (z * z / fxScale) 24 0 z 0

/-- sin(2π e / 1,024) in units of 2⁻⁸⁰. -/
def sinTurn (e : Nat) : Int :=
  let k := e % 1024
  if k ≤ 256 then sinQuarter k
  else if k ≤ 512 then sinQuarter (512 - k)
  else if k ≤ 768 then -sinQuarter (k - 512)
  else -sinQuarter (1024 - k)

/-- cos(2π e / 1,024) in units of 2⁻⁸⁰. -/
def cosTurn (e : Nat) : Int := sinTurn (e + 256)

end Sys2Proof.Machine
end

