-- ==== Sys2Proof/Machine/Mail.lean ====
section
/-!
DEFINITION. Sys2Proof/Machine/Mail.lean: the eight-word mailboxes between the service cores and their targets (R290–R292).
-/
namespace Sys2Proof.Machine

/-- Exactly `n` bytes: cut, or padded with zeros. -/
def fit (n : Nat) (l : List Byte) : List Byte := (l ++ List.replicate n 0).take n

/-- A mailbox. -/
def State.mbox (s : State) (n : Nat) : Mailbox := look {} s.mboxes n

/-- The request with this opcode that waits in mailbox n and has not been taken up. -/
def State.mbReq (s : State) (n op : Nat) : Option (List Word) :=
  let b := s.mbox n
  match b.req with
  | some (w :: ws) => if !b.work && b.rsp.isNone && bits w.toNat 7 0 == op then some (w :: ws) else none
  | _ => none

/-- A word of a request. -/
def reqWord (ws : List Word) (i : Nat) : Nat := (ws.getD i 0).toNat

/-- The target takes the request up and answers later. -/
def State.mbTake (s : State) (n : Nat) : State :=
  { s with mboxes := upd {} (fun b => { b with work := true }) s.mboxes n }

/-- The target answers: RSP0 holds the result and the tag of REQ0 (R290); without a request the answer is discarded
(R292). -/
def State.mbAnswer (s : State) (n res : Nat) (more : List Nat := []) : State :=
  let b := s.mbox n
  match b.req with
  | some (w :: _) =>
    let r := (BitVec.ofNat 32 (res + 256 * bits w.toNat 15 8)) :: more.map (BitVec.ofNat 32)
    { s with mboxes := put { b with rsp := some ((r ++ List.replicate 8 0).take 8), work := false } s.mboxes n }
  | _ => s

end Sys2Proof.Machine
end

