-- ==== Sys2Proof/Machine/Flacon.lean ====
section
/-!
DEFINITION. Sys2Proof/Machine/Flacon.lean: the metrology partition: counting, totals, the FRAM record and its commits, the
seal, tickets, and the opcodes of mailbox 4 (R354–R374).
-/
namespace Sys2Proof.Machine

/-- Change the Flacon's own state. -/
def State.updFl (s : State) (f : Flacon → Flacon) : State := { s with fl := f s.fl }

/-! ### Totals (R359) -/

/-- Length of `d` counts in µm: ⌊d × NUM ÷ DEN⌋. -/
def Flacon.lenOf (f : Flacon) (d : Int) : Nat := (d.toNat * f.num) / f.den

/-- Area of `d` counts in mm²: ⌊d × NUM × WNOM ÷ (DEN × 10⁶)⌋. -/
def Flacon.areaOf (f : Flacon) (d : Int) : Nat := (d.toNat * f.num * f.wnom) / (1000000 * f.den)

/-- Total length in µm and total area in mm². -/
def Flacon.len (f : Flacon) : Nat := f.lBase + f.lenOf (f.h - f.hBase)
def Flacon.area (f : Flacon) : Nat := f.aBase + f.areaOf (f.h - f.hBase)

/-- The complements that belong to the present totals, p and h (R361). -/
def Flacon.compOf (f : Flacon) : FlComp := { len := -1 - f.len, area := -1 - f.area, p := -1 - f.p, h := -1 - f.h }

/-- The totals, p and h stored with their complements. -/
def Flacon.paired (f : Flacon) : Flacon := { f with comp := f.compOf }

/-- Some pair of the totals, p and h fails its check. -/
def Flacon.badPair (f : Flacon) : Bool := f.comp != f.compOf

/-- EVCNT: init generation in bits 31:26, accepted changes below (R366). -/
def Flacon.evcnt (f : Flacon) : Nat := f.gen * 2 ^ 26 + f.chg % 2 ^ 26

/-- FL_STATE.STATE code. -/
def FlSt.code : FlSt → Nat
  | .boot => 0 | .counting => 1 | .noFw => 2 | .framFail => 3 | .integrity => 4 | .blank => 5

/-- FL_STATE. -/
def Flacon.stateWord (f : Flacon) : Nat :=
  f.st.code + 8 * f.sealOpen.toNat + 16 * f.lot.isSome.toNat + 32 * f.still.toNat + 64 * f.measErr.toNat
    + 128 * f.uncleanStart.toNat + 256 * f.pfail.toNat + 512 * f.slotB.toNat

/-- The stored pairs of totals, p and h are checked where they are used: on failure INTEGRITY is raised once and the
Flacon stops adding (R361, R386 source 7). -/
def State.flCheck (s : State) : State :=
  if s.fl.badPair && s.fl.st == .counting then
    (s.updFl fun f => { f with st := .integrity }).secIntegrity 7 0
  else s

/-- The position moves by `d` counts: only the advance of h is delivered length; backward counts add to the reverse
travel of an open lot (R359); FL_PULSE occurs for each multiple of PULSE mm that the total length passes (R361). -/
def State.flMove (s : State) (d : Int) : State :=
  let s := s.flCheck
  if s.fl.st != .counting || d = 0 then s
  else
    let f := s.fl
    let p := f.p + d
    let lot := f.lot.map fun l => if d < 0 then { l with rev := l.rev + d.natAbs } else l
    let f' := { f with p := p, h := max f.h p, lot := lot, still := false }.paired
    let step := 1000 * f.pulse
    let n := if step = 0 then 0 else f'.len / step - f.len / step
    ({ s with fl := f' }).strobeTimes 20 n

/-- A measurement fault (R358). -/
def State.flFault (s : State) : State :=
  if s.fl.st != .counting then s
  else s.updFl fun f =>
    { f with faults := f.faults + 1, measErr := true, faultSince := true, lot := f.lot.map fun l => { l with fault := true } }

/-- New stable levels of ENC0_A and ENC0_B at time `t` in 5 ns cycles, in FORM 0 (R357, R358). The order in which A leads
B counts forward (PRESUMED, log 8). -/
def State.flEdge (s : State) (a b : Bool) (t : Int) : State :=
  let f := s.fl
  if f.form ≠ 0 then s.updFl fun f => { f with a := a, b := b }
  else if a != f.a && b != f.b then (s.flFault).updFl fun f => { f with a := a, b := b, edgeA := some t, edgeB := some t }
  else if a != f.a then
    let close := match f.edgeA with | some t0 => decide (t - t0 < 4) | none => false
    let fwd := (a != b) != (f.dir == 1)
    let s := if close then s.flFault else s.flMove (if fwd then 1 else -1)
    s.updFl fun f => { f with a := a, edgeA := some t }
  else if b != f.b then
    let close := match f.edgeB with | some t0 => decide (t - t0 < 4) | none => false
    let fwd := (a == b) != (f.dir == 1)
    let s := if close then s.flFault else s.flMove (if fwd then 1 else -1)
    s.updFl fun f => { f with b := b, edgeB := some t }
  else s

/-- One modulator bit through the integrators (R357). -/
def Sinc3.bit (d : Sinc3) (b : Bool) : Sinc3 :=
  let i1 := d.i1 + (if b then 1 else -1)
  let i2 := d.i2 + i1
  { d with i1 := i1, i2 := i2, i3 := d.i3 + i2 }

/-- The output of the combs, in units of full scale ÷ 4,096. -/
def Sinc3.comb (d : Sinc3) : Int × Sinc3 :=
  let y1 := d.i3 - d.c1
  let y2 := y1 - d.c2
  (y2 - d.c3, { d with c1 := d.i3, c2 := y1, c3 := y2 })

/-- The 16 bits of one decimation period, the first at bit 15, and the sample they end with (R357). -/
def Sinc3.run (d : Sinc3) (w : BitVec 16) : Int × Sinc3 :=
  (((List.range 16).map fun k => w.getLsbD (15 - k)).foldl Sinc3.bit d).comb

/-- A decimated sin/cos sample in FORM 1, in units of full scale ÷ 4,096 (R357, R358). -/
def State.flAngle (s : State) (sn cs : Int) : State :=
    let f := s.fl
    let r2 := (sn * sn + cs * cs).toNat
    -- r² × 65,536 ÷ 4,096² = r² ÷ 256
    if r2 < 4096 * 256 ∨ 36864 * 256 < r2 then s.flFault
    else
      let u := turnOf sn cs
      match f.angle with
      | none => s.updFl fun f => { f with angle := some u }
      | some last =>
        let k := roundNear (last - u)
        let move : Rat := u + k - last
        if 1 / 4 < move ∨ move < -1 / 4 then s.flFault
        else
          let d := (u * f.finterp).floor + k * f.finterp - (last * f.finterp).floor
          (s.flMove (if f.dir = 1 then -d else d)).updFl fun f => { f with angle := some u }

/-- The 16 bits of SD8 and SD9 of one decimation period: in FORM 1 the decimators give a sample (R357). -/
def State.flSample (s : State) (w8 w9 : BitVec 16) : State :=
  if s.fl.form ≠ 1 then s
  else
    let a := s.fl.sinDec.run w8
    let b := s.fl.cosDec.run w9
    (s.updFl fun f => { f with sinDec := a.2, cosDec := b.2 }).flAngle a.1 b.1

/-! ### The FRAM record (R362, R363) -/

/-- Bytes 0–111 of the record of the present state with the given sequence number. -/
def Flacon.record0 (f : Flacon) (seq : Nat) (onPfail : Bool) : List Byte :=
  let lot := f.lot.getD { h0 := 0 }
  [0x5A, 0x46, 0x52, 0x31] ++ leBytes 4 seq ++ leBytes 8 f.devId ++ leBytes 8 (ofSigned 64 f.h)
    ++ leBytes 8 (ofSigned 64 f.hBase) ++ leBytes 8 f.lBase ++ leBytes 8 f.aBase ++ leBytes 8 (ofSigned 64 lot.h0)
    ++ leBytes 1 (f.lot.isSome.toNat + 2 * onPfail.toNat + 4 * f.slotB.toNat) ++ leBytes 7 0
    ++ leBytes 4 f.evcnt ++ leBytes 4 f.faults ++ leBytes 4 f.uncleanCnt ++ leBytes 4 f.ticketNo
    ++ leBytes 4 f.wnom ++ leBytes 4 f.num ++ leBytes 4 f.den ++ leBytes 2 f.finterp
    ++ leBytes 1 (f.form + 2 * f.dir) ++ leBytes 1 0 ++ leBytes 4 f.pulse
    ++ leBytes 6 lot.sec ++ leBytes 4 lot.ns ++ leBytes 2 0

/-- The 128-byte record: bytes 0–111 and their 16-byte digest. -/
def Flacon.record (f : Flacon) (seq : Nat) (onPfail : Bool) : List Byte :=
  f.record0 seq onPfail ++ fit 16 (Config.shake256 (f.record0 seq onPfail) 16)

/-- The fields of the record once a commit is done: its ticket and the change it counts (R363, R366). -/
def Flacon.after (f : Flacon) (c : FlCommit) : Flacon :=
  let f := if c.ticket.isSome then { f with ticketNo := c.number, lot := if c.closes then none else f.lot } else f
  if c.bumps then { f with chg := f.chg + 1 } else f

/-- The Flacon as it will be once the commits that wait are done. -/
def Flacon.ahead (f : Flacon) : Flacon := f.commits.foldl Flacon.after f

/-- Commits queued behind `k` others, numbered and formed again from the present state; `g` is the Flacon as those leave it. -/
def Flacon.requeue (f g : Flacon) : Nat → List FlCommit → List FlCommit
  | _, [] => []
  | k, c :: l =>
    let seq := (f.seq + k + 1) % 2 ^ 32
    let g := g.after c
    { c with record := g.record seq c.onPfail, slot := (f.slot + k + 1) % 2, seq := seq } :: f.requeue g (k + 1) l

/-- The tickets not yet done are cancelled; the commits queued behind one are formed again without it (R370). -/
def Flacon.cancelTickets (f : Flacon) : Flacon :=
  let first := f.commits.takeWhile (·.ticket.isNone)
  let rest := (f.commits.dropWhile (·.ticket.isNone)).filter (·.ticket.isNone)
  { f with commits := first ++ f.requeue (first.foldl Flacon.after f) first.length rest }

/-- Begin a commit: the record of the present state, for the older slot, with the next sequence number (R363). -/
def State.flCommit (s : State) (onPfail : Bool) (edit : FlCommit → FlCommit := id) : State :=
  s.updFl fun f =>
    let n := f.commits.length + 1
    let seq := (f.seq + n) % 2 ^ 32
    let c := edit { record := [], slot := (f.slot + n) % 2, seq := seq, onPfail := onPfail }
    { f with commits := f.commits ++ [{ c with record := (f.ahead.after c).record seq onPfail }], hCommit := f.h }

/-- The oldest commit completes: its record lies in its slot, and its change, ticket or reply is done (R363, R374). -/
def State.flCommitDone (s : State) : State :=
  match s.fl.commits with
  | [] => s
  | c :: rest =>
    let s := s.updFl fun f =>
      { f with fram := memWrite f.fram (128 * c.slot) c.record, commits := rest, seq := c.seq, slot := c.slot }
    let s := match c.ticket with
      | some t => s.updFl fun f =>
        { f with ticket := t, ticketNo := c.number, faultSince := f.faults != c.faultsAt, uncleanSince := false
                 lot := if c.closes then none else f.lot }
      | none => s
    let s := if c.bumps then s.updFl fun f => { f with chg := f.chg + 1 } else s
    let s := if c.installs || c.activates then s.updFl fun f => { f with installed := c.installs } else s
    match c.reply with
    | some ws => s.mbAnswer 4 ((ws.getD 0 0).toNat) ((ws.drop 1).map (·.toNat))
    | none => s

/-- A record read from a slot: valid when magic, device id and digest match (R362). -/
def Flacon.slotRec (f : Flacon) (slot : Nat) : Option (List Byte) :=
  let r := memRead f.fram (128 * slot) 128
  let body := r.take 112
  if r.take 4 = [0x5A, 0x46, 0x52, 0x31] ∧ leNat ((r.drop 8).take 8) = f.devId
      ∧ r.drop 112 = fit 16 (Config.shake256 body 16) then some r else none

/-- A little-endian field of a record. -/
def recNat (r : List Byte) (at_ n : Nat) : Nat := leNat ((r.drop at_).take n)

/-- Take over the fields of a record, the totals, p and h with their complements; p has changed unless it already stood there. -/
def Flacon.load (f : Flacon) (slot : Nat) (r : List Byte) : Flacon :=
  let h := toSigned 64 (recNat r 16 8)
  let fl := recNat r 56 1
  let ev := recNat r 64 4
  { f with
    still := f.still && decide (f.p = h), p := h, h := h, hBase := toSigned 64 (recNat r 24 8), lBase := recNat r 32 8, aBase := recNat r 40 8
    lot := if fl % 2 = 1 then
      some { h0 := toSigned 64 (recNat r 48 8), sec := recNat r 100 6, ns := recNat r 106 4 } else none
    chg := ev % 2 ^ 26, faults := recNat r 68 4, uncleanCnt := recNat r 72 4, ticketNo := recNat r 76 4
    wnom := recNat r 80 4, num := recNat r 84 4, den := recNat r 88 4, finterp := recNat r 92 2
    form := recNat r 94 1 % 2, dir := recNat r 94 1 / 2 % 2, pulse := recNat r 96 4
    seq := recNat r 4 4, slot := slot, slotB := fl / 4 % 2 == 1, hCommit := h, angle := none : Flacon }.paired

/-- The newest valid record and its slot (R364). -/
def Flacon.newest (f : Flacon) : Option (Nat × List Byte) :=
  match f.slotRec 0, f.slotRec 1 with
  | some a, some b => if recNat a 4 4 < recNat b 4 4 then some (1, b) else some (0, a)
  | some a, none => some (0, a)
  | none, some b => some (1, b)
  | none, none => none

/-! ### Key and ticket (R371, R372) -/

/-- Seed of the ticket key: the first 57 bytes of SHAKE256(secret ‖ "ZT9-FLACON-TICKET" ‖ g). -/
def Flacon.seed (f : Flacon) : List Byte :=
  fit 57 (Config.shake256 (f.secret
    ++ [0x5A, 0x54, 0x39, 0x2D, 0x46, 0x4C, 0x41, 0x43, 0x4F, 0x4E, 0x2D, 0x54, 0x49, 0x43, 0x4B, 0x45, 0x54]
    ++ leBytes 1 f.gen) 57)

/-- Form the ticket key and publish it. -/
def Flacon.newKey (f : Flacon) : Flacon :=
  let pub := fit 57 (Config.ed448Pub f.seed)
  { f with tkey := pub, tkid := fit 8 (Config.shake256 pub 8) }

/-- The signed ticket of the present state (R371): type 1 SNAPSHOT, 2 LOT. -/
def State.flTicket (s : State) (typ number : Nat) : List Byte :=
  let f := s.fl
  let lot := f.lot.getD { h0 := f.h }
  let isLot := typ == 2
  let d := if isLot then f.h - lot.h0 else 0
  let t := (s.dom s.pri).stamp 0
  let flags := f.sealOpen.toNat + 2 * (if isLot then lot.fault else f.faultSince).toNat
    + 4 * (if isLot then lot.unclean else f.uncleanSince).toNat
    + 8 * (s.fld TIME_STAT_X_LOCKED s.pri == 0).toNat + 16 * (lot.rev != 0).toNat
  let body := [0x5A, 0x46, 0x54, 0x4B] ++ leBytes 1 1 ++ leBytes 1 typ ++ leBytes 2 flags ++ leBytes 4 number
    ++ leBytes 4 f.ahead.evcnt ++ leBytes 4 f.faults ++ leBytes 4 f.uncleanCnt ++ fit 8 f.fwid ++ leBytes 8 f.devId
    ++ leBytes 8 f.len ++ leBytes 8 f.area ++ leBytes 8 (f.lenOf d) ++ leBytes 8 (f.areaOf d)
    ++ leBytes 8 (f.lenOf lot.rev) ++ leBytes 4 f.wnom ++ leBytes 4 f.num ++ leBytes 4 f.den
    ++ leBytes 1 (f.form + 2 * f.dir) ++ leBytes 3 0 ++ leBytes 6 t.1 ++ leBytes 4 t.2
    ++ leBytes 1 s.pri ++ leBytes 1 0 ++ leBytes 6 lot.sec ++ leBytes 4 lot.ns ++ leBytes 10 0
  body ++ fit 8 f.tkid ++ fit 114 (Config.ed448Sign f.seed (Config.shake256 body 64)) ++ leBytes 6 0

/-! ### Mailbox 4 (R370) -/

/-- What an opcode of mailbox 4 ends with outside COUNTING, none where it is accepted there (R370). In BOOT the core is
not released and nothing is answered. -/
def Flacon.gate (f : Flacon) (op : Nat) : Option Nat :=
  match f.st with
  | .counting => none
  | .noFw => some rAUTH_FAIL
  | .framFail | .blank => if op = 6 then none else some rINTEGRITY
  | .integrity => if op = 7 then none else some rINTEGRITY
  | .boot => none

/-- Run an opcode of mailbox 4: the waiting request is checked against the state, then handled. -/
def State.flOp (s : State) (op : Nat) (run : List Word → State → State) : State :=
  match s.mbReq 4 op with
  | some ws =>
    if s.fl.st == .boot then s
    else
      let s := s.flCheck
      match s.fl.gate op with
      | some res => s.mbAnswer 4 res
      | none => run ws s
  | none => s

/-- Answer OK once a commit of the changed state completes. -/
def State.flDone (s : State) (installs : Bool := false) (bumps : Bool := false) : State :=
  (s.mbTake 4).flCommit false fun c => { c with reply := some [0], installs := installs, bumps := bumps }

/-- TICKET and LOT_END: the ticket is written at the completion of its commit; PFAIL_N low, then or before, ends the request
with BUSY, and an open D2 session with DENIED (R370, R391). -/
def State.flIssue (s : State) (typ : Nat) : State :=
  if s.dbgLevel = 2 then s.mbAnswer 4 rDENIED
  else if s.fl.pfail then s.mbAnswer 4 rBUSY
  else
    let n := (s.fl.ahead.ticketNo + 1) % 2 ^ 32
    let t := s.flTicket typ n
    (s.mbTake 4).flCommit false fun c => { c with
      reply := some ((0 :: [n]).map (BitVec.ofNat 32)), ticket := some t, number := n, closes := typ == 2
      faultsAt := s.fl.faults }

/-- The range of a parameter (R356). -/
def flParamOk (id v : Nat) : Bool :=
  match id with
  | 1 | 2 => v ≤ 1
  | 3 | 4 => 1 ≤ v
  | 5 => 4 ≤ v && v ≤ 4096
  | 6 => 1 ≤ v && v ≤ 10000000
  | 7 => v ≤ 1000000
  | _ => false

/-- Set a parameter by its id. -/
def Flacon.setParam (f : Flacon) (id v : Nat) : Flacon :=
  match id with
  | 1 => { f with form := v, angle := none, edgeA := none, edgeB := none, sinDec := {}, cosDec := {} }
  | 2 => { f with dir := v }
  | 3 => { f with num := v }
  | 4 => { f with den := v }
  | 5 => { f with finterp := v, angle := none }
  | 6 => { f with wnom := v }
  | 7 => { f with pulse := v }
  | _ => f

/-- Bits 25:0 of EVCNT would overflow, with the changes that wait for their commits. -/
def Flacon.chgFull (f : Flacon) : Bool := decide (2 ^ 26 ≤ f.ahead.chg + 1)

/-- TOTALS. -/
def State.flTotals (s : State) : State :=
  let f := s.fl
  s.mbAnswer 4 rOK [f.len % 2 ^ 32, f.len / 2 ^ 32, f.area % 2 ^ 32, f.area / 2 ^ 32, f.evcnt, f.stateWord]

/-- PARAM (R365): the parameter holds at once, and EVCNT counts the change when its commit is done (R363, R366). -/
def State.flParam (s : State) (id v : Nat) : State :=
  let f := s.fl
  if !f.sealOpen then s.mbAnswer 4 rDENIED
  else if f.lot.isSome || !f.still then s.mbAnswer 4 rSTATE_REFUSED
  else if !flParamOk id v || f.chgFull then s.mbAnswer 4 rRANGE
  else (s.updFl fun f =>
    { f with lBase := f.len, aBase := f.area, hBase := f.h }.setParam id v).flDone false true

/-- INIT (R366). The spec states no parameter values after an INIT: each holds a free value of its range (log 1). -/
def State.flInit (s : State) : State :=
  let f := s.fl
  if !f.sealOpen then s.mbAnswer 4 rDENIED
  else if f.st == .counting then s.mbAnswer 4 rSTATE_REFUSED
  else if 63 ≤ f.gen then s.mbAnswer 4 rRANGE
  else
    let v := fun k => Config.freeNat (s.freeCtr + k)
    let s := { s with freeCtr := s.freeCtr + 7 }
    (s.updFl fun f => ({ f with
      st := .counting, gen := f.gen + 1, chg := 0, p := 0, h := 0, hBase := 0, lBase := 0, aBase := 0, lot := none
      comp := {}, angle := none, still := f.still && decide (f.p = 0), sinDec := {}, cosDec := {}
      form := v 0 % 2, dir := v 1 % 2, num := 1 + v 2 % (2 ^ 32 - 1), den := 1 + v 3 % (2 ^ 32 - 1)
      finterp := 4 + v 4 % 4093, wnom := 1 + v 5 % 10000000, pulse := v 6 % 1000001 : Flacon }).newKey).flDone

/-- RESTORE (R366). -/
def State.flRestore (s : State) : State :=
  let f := s.fl
  if !f.sealOpen then s.mbAnswer 4 rDENIED
  else if f.st == .counting then s.mbAnswer 4 rSTATE_REFUSED
  else match f.newest with
  | some (slot, r) =>
    if (f.load slot r).chgFull then s.mbAnswer 4 rRANGE
    else (s.updFl fun f => { f.load slot r with st := .counting }).flDone false true
  | none => s.mbAnswer 4 rINTEGRITY

/-- A Flacon image verifies with the key whose digest the Flacon ROM holds: the key field of 64 bytes before the 128-byte
signature block carries the key, whose SHAKE256 digest is in ROM; the signature covers every byte before the block (R368,
R410). -/
def flImageOk (romKey img : List Byte) : Bool :=
  let n := img.length
  let block := img.drop (n - 128)
  let key := (img.drop (n - 192)).take 57
  decide (192 ≤ n) && (img.drop (n - 135)).take 7 == List.replicate 7 0
    && Config.shake256 key 64 == romKey
    && Config.ed448Verify key (Config.shake256 (img.take (n - 128)) 64) ((block.drop 8).take 114)

/-! ### Commands -/

/-- FLACON_SINCOS_SAMPLE: the 16 SDCLK cycles of one decimation period end; `sn` and `cs` are the bits of SD8 and SD9, the first at
bit 15. -/
def execFlaconSincosSample (sn cs : BitVec 16) (s : State) : Host.Outcome State Fault Refusal :=
  .next (s.whenPowered fun s => s.flSample sn cs)

/-- PERIODIC_COMMIT: once per second while h has advanced since the last commit. -/
def execPeriodicCommit (s : State) : Host.Outcome State Fault Refusal :=
  .next (s.whenPowered fun s =>
    let s := s.flCheck
    if s.fl.st == .counting && s.fl.h != s.fl.hCommit then s.flCommit false else s)

/-- PFAIL: PFAIL_N low for 1 µs. A TICKET or LOT_END in progress ends with BUSY; the state is committed. -/
def execPfail (s : State) : Host.Outcome State Fault Refusal :=
  .next (s.whenPowered fun s =>
    let s := (s.updFl fun f => { f with pfail := true }).strobeUp 19
    let asked := s.fl.commits.any fun c => c.ticket.isSome && c.reply.isSome
    let s := s.updFl (·.cancelTickets)
    let s := (if asked then s.mbAnswer 4 rBUSY else s).flCheck
    if s.fl.st == .counting then s.flCommit true else s)

/-- PFAIL_RECOMMIT: every 250 µs while PFAIL_N stays low. -/
def execPfailRecommit (s : State) : Host.Outcome State Fault Refusal :=
  .next (s.whenPowered fun s =>
    if s.fl.pfail then
      let s := s.flCheck
      if s.fl.st == .counting then s.flCommit true else s
    else s)

/-- PFAIL_N_RELEASE: PFAIL_N returns high. -/
def execPfailNRelease (s : State) : Host.Outcome State Fault Refusal :=
  .next (s.whenPowered fun s => (s.updFl fun f => { f with pfail := false }).strobeDown 19)

/-- In Off a commit that PFAIL_N started before PORST_N fell is still written (R419). -/
def Flacon.lastDone (f : Flacon) : Flacon :=
  match f.commits with
  | c :: l => { f with fram := memWrite f.fram (128 * c.slot) c.record, commits := l }
  | [] => f

/-- COMMIT_DONE: the oldest FRAM commit completes; in Off it is one that the partition finishes before its reset (R419). -/
def execCommitDone (s : State) : Host.Outcome State Fault Refusal :=
  .next (if s.powered then s.flCommitDone else s.updFl Flacon.lastDone)

/-- SEAL_CHANGE: a debounced change of MET_WE_N; low opens the seal. -/
def execSealChange (low : Bool) (s : State) : Host.Outcome State Fault Refusal :=
  .next (s.whenPowered fun s => s.updFl fun f => { f with sealOpen := low })

/-- MEAS_ERR_NOW_END: 1 s after the last measurement fault. -/
def execMeasErrNowEnd (s : State) : Host.Outcome State Fault Refusal :=
  .next (s.whenPowered fun s => s.updFl fun f => { f with measErr := false })

/-- FLACON_STILL: p has been unchanged for 1 s. -/
def execFlaconStill (s : State) : Host.Outcome State Fault Refusal :=
  .next (s.whenPowered fun s => s.updFl fun f => { f with still := true })

/-- TOTALS: mailbox 4, opcode 0x01. -/
def execTotals (s : State) : Host.Outcome State Fault Refusal :=
  .next (s.whenLive fun s => s.flOp 1 fun _ s => s.flTotals)

/-- TICKET: mailbox 4, opcode 0x02. -/
def execTicket (s : State) : Host.Outcome State Fault Refusal :=
  .next (s.whenLive fun s => s.flOp 2 fun _ s => s.flIssue 1)

/-- LOT_START: mailbox 4, opcode 0x03. -/
def execLotStart (s : State) : Host.Outcome State Fault Refusal :=
  .next (s.whenLive fun s => s.flOp 3 fun _ s =>
    if s.fl.lot.isSome then s.mbAnswer 4 rSTATE_REFUSED
    else
      let t := (s.dom s.pri).stamp 0
      (s.updFl fun f => { f with lot := some { h0 := f.h, sec := t.1, ns := t.2 } }).flDone)

/-- LOT_END: mailbox 4, opcode 0x04. -/
def execLotEnd (s : State) : Host.Outcome State Fault Refusal :=
  .next (s.whenLive fun s => s.flOp 4 fun _ s =>
    if s.fl.lot.isNone then s.mbAnswer 4 rSTATE_REFUSED else s.flIssue 2)

/-- PARAM: mailbox 4, opcode 0x05. -/
def execParam (s : State) : Host.Outcome State Fault Refusal :=
  .next (s.whenLive fun s => s.flOp 5 fun ws s => s.flParam (reqWord ws 1) (reqWord ws 2))

/-- INIT: mailbox 4, opcode 0x06. -/
def execInit (s : State) : Host.Outcome State Fault Refusal :=
  .next (s.whenLive fun s => s.flOp 6 fun _ s => s.flInit)

/-- RESTORE: mailbox 4, opcode 0x07. -/
def execRestore (s : State) : Host.Outcome State Fault Refusal :=
  .next (s.whenLive fun s => s.flOp 7 fun _ s => s.flRestore)

end Sys2Proof.Machine
end

