-- ==== Sys2Proof/Machine/Encoder.lean ====
section
/-!
DEFINITION. Sys2Proof/Machine/Encoder.lean: the web position counter (R30–R33), the encoder channels and their observer
(R47–R57), and the pass-through (R58–R60). Times are in signal-chain cycles of 5 ns.
-/
namespace Sys2Proof.Machine

/-! ### Web position counter -/

/-- Ticks are being issued: Run, no drain, TICK_CTL.EN = 1. -/
def State.issuing (s : State) : Bool := s.inRun && !s.pwr.drain && s.on TICK_CTL_EN

/-- The counter moves to a line and remainder at instant `at_` (ns) after `dt` ns. The first backward step of an excursion
sets REVERSE; while no ticks are issued the high-water mark follows the counter, and from a Hold request on its advance
counts in HOLDADV (R31, R33). -/
def State.tickTo (s : State) (line : Int) (rem : Nat) (at_ dt : Rat) : State :=
  let k := s.tick
  let den : Rat := (max 1 (s.fld TICK_DEN_DEN) : Nat)
  let old : Rat := k.line + (k.rem : Rat) / den
  let new : Rat := line + (rem : Rat) / den
  let hw := if s.issuing then k.hw else max k.hw line
  let adv := if s.inRun && !s.pwr.drain then k.holdAdv else (hw - s.pwr.holdLine).toNat
  let first := decide (new < old) && !k.reverse
  let s := { s with tick := { k with
    line := line, rem := rem, hw := hw, holdAdv := adv
    reverse := if new < old then true else k.reverse && decide (line ≤ s.tickLast)
    dispFrom := old, dispTo := new, dispAt := at_, dispDt := dt } }
  s.raiseIf first TICK_STAT_REVERSE

/-- The counter advances by `dc` observer counts: × NUM ÷ DEN with the remainder carried (R30). -/
def State.tickCounts (s : State) (dc : Int) (at_ dt : Rat) : State :=
  let den : Int := (max 1 (s.fld TICK_DEN_DEN) : Nat)
  let t : Int := (s.tick.rem : Int) + dc * (s.fld TICK_NUM_NUM : Int)
  s.tickTo (s.tick.line + t / den) (t % den).toNat at_ dt

/-- An overspeed condition holds: the observer speed, or the mean of the last 4 tick intervals (R40). The speed is taken
as a magnitude (DEDUCED, log 10). -/
def State.overspeed (s : State) : Bool :=
  let f : Rat := (s.fld TICK_FMAX_FMAX : Nat)
  decide (f < s.tick.speed) || decide (s.tick.speed < -f) ||
    (match s.tick.instants with
     | [t0, _, _, _, t4] => decide ((t0 - t4) * f < 4000000000)
     | _ => false)

/-- The overspeed conditions are judged (R40): while one holds the ticks since it last held count from 0, and its onset sets
OVS_NOW and OVERSPEED, raises the event and interrupts, once. -/
def State.ovsOnset (s : State) : State :=
  if s.overspeed then
    let s := { s with tick := { s.tick with ovsClear := 0 } }
    if s.fld TICK_STAT_OVS_NOW = 0 then
      (((s.setFld TICK_STAT_OVS_NOW 0 1).raise TICK_STAT_OVERSPEED).strobe [4]).irq "OVERSPEED"
    else s
  else s

/-- The fixed-rate generator starts a period now (R30). The clock of the instants is the device's time base, and never runs
behind the last tick (DESIGN CHOICE, log 115). -/
def State.genStart (s : State) : State :=
  { s with tick := { s.tick with genAt := max (s.tick.instants.headD 0) (s.span.time : Rat) } }

/-! ### Encoder channel -/

/-- One encoder channel. -/
def State.enc (s : State) (e : Nat) : Enc := look {} s.encs e

/-- Change one encoder channel. -/
def State.updEnc (s : State) (e : Nat) (f : Enc → Enc) : State := { s with encs := upd {} f s.encs e }

/-- An encoder fault flag is set: ENC_FAULT and the interrupt (R57). -/
def State.encFault (s : State) (f : Flag) (e : Nat) : State := ((s.raise f e).strobe [5]).irq "ENC_FAULT"

/-- ENCx_MOVE: an occurrence each time the count has moved MOVEN counts from its value at the previous one (R344). -/
def State.encMoved (s : State) (e : Nat) : State :=
  let n : Int := (max 1 (s.fld (if e = 0 then EVT_MOVE_MOVEN0 else EVT_MOVE_MOVEN1)) : Nat)
  let d := (s.enc e).count - look 0 s.evt.moveAt e
  let k : Nat := d.natAbs / n.toNat
  if k = 0 then s
  else
    let step : Int := if d < 0 then -n else n
    let s := { s with evt := { s.evt with moveAt := upd 0 (· + step * k) s.evt.moveAt e } }
    s.strobeTimes (6 + e) k

/-! ### Pass-through (R58–R60) -/

/-- DIV as treated. -/
def State.ptDiv (s : State) : Int := (max 1 (s.fld ENC_PT_CTL_DIV) : Nat)

/-- Queue `d` output states; the excess over 65,535 sets PT_OVF and stays as lag (R59). -/
def State.ptQueue (s : State) (d : Int) : State :=
  if d = 0 then s
  else
    let fwd := decide (0 < d)
    let room := 65535 - s.pt.queue.length
    let n := min d.natAbs room
    let excess := d.natAbs - n
    let lag : Int := if fwd then (excess : Int) else -(excess : Int)
    let s := { s with pt := { s.pt with queue := s.pt.queue ++ List.replicate n fwd, lag := s.pt.lag + lag } }
    s.raiseIf (excess != 0) ENC_PT_STAT_PT_OVF

/-- The pass-through follows an input count: states for ⌊count ÷ DIV⌋ not yet followed (R58, R59). -/
def State.ptFollow (s : State) (count : Int) : State :=
  let k := count / s.ptDiv
  let d := k - s.pt.seen
  { s.ptQueue d with pt := { (s.ptQueue d).pt with seen := k } }

/-- Levels of PT_A, PT_B and PT_Z: low while EN = 0 (R60), while the states behind them go on (DESIGN CHOICE, log 116); the output count modulo 4 in the order in which A leads B. -/
def State.ptPins (s : State) : Bool × Bool × Bool :=
  let k := s.pt.out % 4
  let en := s.on ENC_PT_CTL_EN
  (en && (k == 1 || k == 2), en && (k == 2 || k == 3),
    en && s.pt.z && (s.fld ENC_CTL_MODE 0 == 1 || s.fld ENC_PT_ZPER_ZPER != 0))

/-- The count the pass-through reproduces: the A/B edge count of ENC0, else ⌊p⌋ of its observer (R58). -/
def State.ptInput (s : State) : Int :=
  if s.fld ENC_CTL_MODE 0 = 1 then (s.enc 0).count else (s.enc 0).p.floor

/-- Send the oldest queued state; in sin/cos and serial modes PT_Z is high for the state that passes a multiple of ZPER
forward (R58). -/
def State.ptSend (s : State) : State :=
  match s.pt.queue with
  | [] => s
  | fwd :: q =>
    let out := s.pt.out + (if fwd then 1 else -1)
    let zper : Int := s.fld ENC_PT_ZPER_ZPER
    let z := if s.fld ENC_CTL_MODE 0 = 1 then s.pt.z else fwd && zper != 0 && out % zper == 0
    { s with pt := { s.pt with queue := q, out := out, z := z } }

/-- A write of ENC_PT_CTL: the queued states and any lag are discarded, and the states that take the output count to
⌊count ÷ DIV⌋ are queued (R59). -/
def State.ptWrite (s : State) (v : Word) : State :=
  let s := s.regStore .ENC_PT_CTL 0 v
  let k := s.ptInput / s.ptDiv
  { s with pt := { s.pt with queue := [], lag := 0, seen := k } }.ptQueue (k - s.pt.out)

/-! ### A/B mode -/

/-- Quadrature decoding of one changed pin (R48): the count it gives, if any. A leading B is forward (PRESUMED, log 8). -/
def State.encDecode (s : State) (e : Nat) (pinA a b : Bool) : Option Bool :=
  let fwd := (if pinA then a != b else a == b) != s.on ENC_CTL_INV e
  match s.fld ENC_CTL_DECODE e with
  | 0 => if pinA && (a == fwd) then some fwd else none
  | 1 => if pinA then some fwd else none
  | _ => some fwd

/-- What a counted edge does to the observer (R56): `t` is its time, `fwd` its direction. -/
def Enc.edge (c : Enc) (fwd : Bool) (t : Int) : Enc :=
  let d : Int := if fwd then 1 else -1
  let n := { c with count := c.count + d, edgeAt := t, back := !fwd }
  match c.phase with
  | .still => { n with phase := .first (!fwd), p := (n.count : Rat), v := 0, acc := 0, fresh := false }
  | .first back =>
    if back = !fwd then
      { n with
        phase := .seeded, p := (n.count : Rat), acc := 0, fresh := false, seedAt := t
        v := (d : Rat) * 200000000 / ((max 1 (t - c.edgeAt) : Int) : Rat) }
    else { n with phase := .first (!fwd), p := (n.count : Rat), v := 0, acc := 0, fresh := false }
  | .seeded | .moving => { n with fresh := c.back == !fwd }

/-- A stable change of levels at an encoder's A and B inputs (R48, R56); in Standby only the count, ENCx_MOVE and the
pass-through live. -/
def State.encEdge (s : State) (e : Nat) (a b : Bool) (t : Int) : State :=
  let c := s.enc e
  let both := a != c.a && b != c.b
  let one := (a != c.a) != (b != c.b)
  let pinA := a != c.a
  let s := s.updEnc e fun c => { c with a := a, b := b }
  if s.fld ENC_CTL_MODE e ≠ 1 then s
  else if both then (if s.live then s.encFault ENC_STAT_PHASE_JUMP e else s)
  else if !one then s
  else match s.encDecode e pinA a b with
  | none => s
  | some fwd =>
    let s := if s.live then
        (s.updEnc e fun c => c.edge fwd t).setFld ENC_STAT_DIR e (!fwd).toNat
      else s.updEnc e fun c => { c with count := c.count + (if fwd then 1 else -1), edgeAt := t, back := !fwd }
    let s := if (s.enc e).phase == .seeded then s.setFld ENC_STAT_STILL e 0 else s
    let s := s.encMoved e
    if e = 0 then s.ptFollow (s.enc 0).count else s

/-! ### Observer (R54–R57) -/

/-- The prediction at an update with period T seconds. -/
def Enc.predict (c : Enc) (T : Rat) : Enc :=
  let a := if c.coast then 0 else c.acc
  { c with p := c.p + c.v * T + a * T * T / 2, v := c.v + a * T, acc := a }

/-- The correction of R54 of a prediction (position, speed, acceleration) at an update: bandwidth BW in Hz, period T,
measurement `m` taken `lag` seconds before the update, or none. -/
def Enc.correct (c : Enc) (bw : Nat) (T p v a : Rat) (m : Option (Rat × Rat)) : Enc :=
  match m with
  | none => { c with p := p, v := v, acc := a }
  | some (m, lag) =>
    let x := 2 * piRat * (bw : Rat) * T
    let e := m - (p - v * lag)
    { c with p := p + 3 * x * e, v := v + 3 * x * x * e / T, acc := a + x * x * x * e / (T * T) }

/-- One update of R54. -/
def Enc.observe (c : Enc) (bw : Nat) (T : Rat) (m : Option (Rat × Rat)) : Enc :=
  let q := c.predict T
  c.correct bw T q.p q.v q.acc m

/-- R55: the position is kept strictly within one count of the last edge count. -/
def Enc.clampAB (c : Enc) : Enc :=
  let g : Rat := 1 / ((Config.obsGap + 2 : Nat) : Rat)
  let lo : Rat := (c.count : Rat) - 1
  let hi : Rat := (c.count : Rat) + 1
  { c with p := if c.p ≤ lo then lo + g else if hi ≤ c.p then hi - g else c.p }

/-- The observer update of an A/B channel at time `t` (R54–R56). The seeding edge gives the prediction of its own update; an
edge after it in the same direction corrects that prediction, one in the other direction does not. -/
def Enc.updateAB (c : Enc) (bw : Nat) (T : Rat) (t : Int) : Enc :=
  let m := if c.fresh then some ((c.count : Rat), ((t - c.edgeAt : Int) : Rat) * 5 / 1000000000) else none
  let n := match c.phase with
    | .still | .first _ => { c with p := (c.count : Rat), v := 0, acc := 0 }
    | .seeded => { c.correct bw T (c.p + c.v * (((t - c.seedAt : Int) : Rat) * 5 / 1000000000)) c.v 0 m with phase := .moving }
    | .moving => c.observe bw T m
  { n with fresh := false, updAt := t }.clampAB

/-- BW as treated: 0 as 1 (R425). -/
def State.encBw (s : State) (e : Nat) : Nat := max 1 (s.fld ENC_OBS_BW e)

/-- Deliver ⌊p⌋ to TICK (R55, R30): the displacement counts when TICK takes this encoder; its speed is the observer's. The
pass-through follows ⌊p⌋ in sin/cos and serial modes. -/
def State.encDeliver (s : State) (e : Nat) (T : Rat) : State :=
  let c := s.enc e
  let f := c.p.floor
  let d := f - c.given
  let s := s.updEnc e fun c => { c with given := f }
  let s := if e = 0 ∧ s.fld ENC_CTL_MODE 0 ≠ 1 then s.ptFollow f else s
  if s.fld TICK_CTL_SRC = e then
    let s := if d = 0 then
        { s with tick := { s.tick with dispAt := (c.updAt : Rat) * 5, dispDt := T * 1000000000
                                       dispFrom := s.tick.dispTo } }
      else s.tickCounts d ((c.updAt : Rat) * 5) (T * 1000000000)
    let num : Rat := (s.fld TICK_NUM_NUM : Nat)
    let den : Rat := (max 1 (s.fld TICK_DEN_DEN) : Nat)
    { s with tick := { s.tick with speed := (s.enc e).v * num / den } }.ovsOnset
  else s

/-- The observer update every UPD cycles, in A/B and serial modes (R54). In serial mode the measurement is the position
latched by the last frame. -/
def State.encUpdate (s : State) (e : Nat) (t : Int) : State :=
  let T : Rat := ((s.fld ENC_OBS_UPD e * 5 : Nat) : Rat) / 1000000000
  match s.fld ENC_CTL_MODE e with
  | 1 => (s.updEnc e fun c => c.updateAB (s.encBw e) T t).encDeliver e T
  | 3 =>
    let s := s.updEnc e fun c =>
      let lag : Rat := ((t - c.edgeAt : Int) : Rat) * 5 / 1000000000
      { c.observe (s.encBw e) T (if c.fresh then some ((c.count : Rat), lag) else none) with fresh := false, updAt := t }
    s.encDeliver e T
  | _ => s

/-! ### Sin/cos mode (R49, R50) -/

/-- A rejected sample: the observer receives no correction. -/
def State.encReject (s : State) (e : Nat) (T : Rat) (t : Int) : State :=
  (s.updEnc e fun c => { c.observe (s.encBw e) T none with bad := c.bad + 1, updAt := t }).encDeliver e T

/-- A pair of sin and cos samples of the signal chain, `flagged` when either carries SETTLING or INVALID, for the instant
`t`; the observer runs once per pair (R49, R50, R54). INV negates the sine, R2 saturates, a sample already rejected sets no
PHASE_JUMP, and one flagged sets AMPLITUDE as any other (DESIGN CHOICE, log 116). -/
def State.encSinCos (s : State) (e : Nat) (sn cs : Int) (flagged : Bool) (t : Int) : State :=
  let T : Rat := ((s.fld SIG_K_OPER_PERIOD (8 + 2 * e) * 5 : Nat) : Rat) / 1000000000
  let y : Int := (sn - s.sfld ENC_SCOFS_OFS_S e) * 16384
  let x : Int := (cs - s.sfld ENC_SCOFS_OFS_C e) * (s.fld ENC_SCGAIN_GAIN_C e : Int)
  -- r² × 65,536 with full scale 32,768 and the common factor 16,384
  let r2 : Rat := ((y * y + x * x : Int) : Rat) / (16384 * 16384 * 16384 : Nat)
  let inside := decide ((s.fld ENC_AMPWIN_AMP_LO e : Rat) ≤ r2) && decide (r2 ≤ (s.fld ENC_AMPWIN_AMP_HI e : Rat))
  let s := (s.setFld ENC_AMP_R2 e (clampInt 0 65535 (freeRound 2 r2)).toNat).setFld ENC_STAT_AMP_NOW e (!inside).toNat
  if !inside then (s.encFault ENC_STAT_AMPLITUDE e).encReject e T t
  else if flagged then s.encReject e T t
  else
    let n : Int := s.fld ENC_INTERP_INTERP e
    let u := turnOf (if s.on ENC_CTL_INV e then -y else y) x
    let q := ((s.enc e).predict T).p
    let k := roundNear (q / n - u)
    let ang : Rat := ((k : Rat) + u) * n - q
    if (n : Rat) / 4 < ang ∨ ang < -((n : Rat) / 4) then (s.encFault ENC_STAT_PHASE_JUMP e).encReject e T t
    else
      let m := k * n + (u * n).floor
      let s := s.updEnc e fun c =>
        { ({ c with coast := false }).observe (s.encBw e) T (some ((m : Rat), 0)) with
          count := m, bad := 0, updAt := t, back := if m < c.count then true else if c.count < m then false else c.back }
      let s := s.setFld ENC_STAT_DIR e (s.enc e).back.toNat
      (s.encMoved e).encDeliver e T

/-! ### Serial mode (R51) -/

/-- Remainder of a bit string, most significant bit first, by x⁶ + x + 1 (polynomial 0x43), over `n` bits of `w`. -/
def crc6 (w : Nat) : Nat → Nat → Nat
  | 0, r => r
  | n + 1, r =>
    let top := (r.testBit 5) != w.testBit n
    let r' := r * 2 % 64
    crc6 w n (if top then r' ^^^ 3 else r')

/-- Binary value of a Gray code of `n` bits. -/
def ungray (g : Nat) : Nat → Nat → Nat
  | 0, acc => acc
  | n + 1, acc => ungray g n (acc * 2 + ((acc % 2) ^^^ (g / 2 ^ n % 2)))

/-- Parity of the low `n` bits. -/
def parity (w n : Nat) : Nat := ((List.range n).map fun i => w / 2 ^ i % 2).foldl (· ^^^ ·) 0

/-- The outcome of a frame. -/
inductive FrameRes where
  | crc | berr | word (w : Nat)
  deriving DecidableEq, Repr

/-- Check a received frame (R51), first bit most significant: BiSS-C carries the position, the error bit, the warning bit and
the inverted CRC of all of them, with the error bit active low (PRESUMED, log 8); SSI carries the position and, when PAR = 1,
the even parity bit. -/
def State.frameCheck (s : State) (e w : Nat) : FrameRes :=
  let n := s.fld ENC_SER_BITS e
  if s.fld ENC_CTL_SERIAL e = 0 then
    if crc6 (w / 64) (n + 2) 0 ≠ 63 - w % 64 then .crc
    else if w / 128 % 2 = 0 then .berr
    else .word (w / 256 % 2 ^ n)
  else
    let par := s.on ENC_SER_PAR e
    let pos := (if par then w / 2 else w) % 2 ^ n
    if par && parity (w % 2 ^ (n + 1)) (n + 1) == 1 then .crc
    else .word (if s.on ENC_SER_GRAY e then ungray pos n 0 else pos)

/-- The end of a serial frame (R51). The first word after a change of mode counts as no movement, and INV negates the
difference (DESIGN CHOICE, log 116). -/
def State.encFrameEnd (s : State) (e w : Nat) : State :=
  let c := s.enc e
  match c.frame with
  | none => s
  | some t =>
    let s := s.updEnc e fun c => { c with frame := none }
    match s.frameCheck e w with
    | .crc => (s.encFault ENC_STAT_CRC_ERR e).updEnc e fun c => { c with bad := c.bad + 1 }
    | .berr => (s.encFault ENC_STAT_BISS_ERR e).updEnc e fun c => { c with bad := c.bad + 1 }
    | .word w =>
      let n := s.fld ENC_SER_BITS e
      let d : Int := match c.word with
        | some old => toSigned n (w + 2 ^ n - old)
        | none => 0
      let d := if s.on ENC_CTL_INV e then -d else d
      let s := s.updEnc e fun c =>
        { c with count := c.count + d, word := some w, bad := 0, coast := false, fresh := true, edgeAt := t
                 back := if d < 0 then true else if 0 < d then false else c.back }
      (s.setFld ENC_STAT_DIR e (s.enc e).back.toNat).encMoved e

/-! ### Index (R52, R53) -/

/-- A rising edge of ENCx_Z at time `t`. In sin/cos mode the index lies at the period boundary nearest the edge, where the
observer's prediction for the edge's own time places it. The counts moved are a magnitude in the direction of travel, and a
correction reaches the pass-through of A/B mode with the next counted edge (DESIGN CHOICE, log 116). -/
def State.encIndex (s : State) (e : Nat) (t : Int) : State :=
  let mode := s.fld ENC_CTL_MODE e
  if !(s.live && s.on ENC_CTL_IDX_EN e && (mode == 1 || mode == 2)) then s
  else
    let c := s.enc e
    let n : Int := s.fld ENC_INTERP_INTERP e
    let p := (c.predict (((t - c.updAt : Int) : Rat) * 5 / 1000000000)).p
    let at_ := if mode = 2 then roundNear (p / n) * n else c.count
    let per : Int := s.fld ENC_IDXPER_IDXPER e
    match c.idx with
    | none => s.updEnc e fun c => { c with idx := some (at_, c.back) }
    | some (old, back) =>
      if back != c.back ∨ per = 0 then s.updEnc e fun c => { c with idx := some (at_, c.back) }
      else
        let moved := if back then old - at_ else at_ - old
        let diff := moved - per
        let s := s.updEnc e fun c => { c with idx := some (at_, c.back) }
        if diff = 0 then s
        else
          let s := (s.setFld ENC_IDXDIFF_DIFF e (ofSigned 32 diff)).encFault ENC_STAT_INDEX_ERR e
          if s.on ENC_CTL_INDEX_CORR e && s.inHold then
            let d := if back then diff else -diff
            let s := s.updEnc e fun c =>
              { c with count := c.count + d, p := c.p + d, idx := some (at_ + d, c.back) }
            s.encDeliver e ((s.fld ENC_OBS_UPD e * 5 : Nat) / 1000000000)
          else s

/-! ### Register writes -/

/-- A write of ENC_x_CTL: a change of MODE clears the observer state; into A/B mode it sets STILL, into any other it clears it
(R47, R57). The count starts again at 0, what follows it (ENCx_MOVE and the pass-through) starts from there, PT_Z takes the
level of ENC0_Z in A/B mode and is low in every other, and the speed that TICK has from this channel is 0 at once (DESIGN CHOICE,
log 116). -/
def State.encCtlWrite (s : State) (e : Nat) (v : Word) : State :=
  let old := s.fld ENC_CTL_MODE e
  let s := s.regStore .ENC_CTL e v
  let new := s.fld ENC_CTL_MODE e
  if new = old then s
  else
    let s := (s.updEnc e fun c => { a := c.a, b := c.b, z := c.z }).setFld ENC_STAT_STILL e (new == 1).toNat
    let s := { s with evt := { s.evt with moveAt := put 0 s.evt.moveAt e } }
    let s := if s.fld TICK_CTL_SRC = e then { s with tick := { s.tick with speed := 0 } } else s
    if e = 0 then { s with pt := { s.pt with seen := 0, z := new == 1 && (s.enc 0).z } } else s

/-- A rising or falling edge of ENC0_Z shows on PT_Z 10 ns later in A/B mode (R58). -/
def State.ptZ (s : State) (level : Bool) : State :=
  if s.fld ENC_CTL_MODE 0 = 1 then { s with pt := { s.pt with z := level } } else s

/-! ### Commands -/

/-- AB_EDGE: a stable change at an encoder's A and B inputs, at time `t`. ENC0's edges also reach the Flacon (R357). -/
def execAbEdge (e : Fin 2) (a b : Bool) (t : Int) (s : State) : Host.Outcome State Fault Refusal :=
  .next (s.whenPowered fun s =>
    let s := s.encEdge e a b t
    if e.val = 0 then s.flEdge a b t else s)

/-- SIGNAL_LOST: 64 consecutive rejected samples, or FAILLIM consecutive discarded frames (R50, R51, R57). -/
def execSignalLost (e : Fin 2) (s : State) : Host.Outcome State Fault Refusal :=
  .next (s.whenLive fun s =>
    let c := s.enc e
    let lim := if s.fld ENC_CTL_MODE e = 2 then 64 else max 1 (s.fld ENC_SER_FAILLIM e)
    if 2 ≤ s.fld ENC_CTL_MODE e ∧ lim ≤ c.bad ∧ !c.coast then
      (s.encFault ENC_STAT_SIGNAL_LOST e).updEnc e fun c => { c with coast := true, acc := 0 }
    else s)

/-- SERIAL_FRAME_START: a new frame is clocked, its position latched at time `t`. -/
def execSerialFrameStart (e : Fin 2) (t : Int) (s : State) : Host.Outcome State Fault Refusal :=
  .next (s.whenLive fun s =>
    if s.fld ENC_CTL_MODE e = 3 ∧ (s.enc e).frame = none then s.updEnc e fun c => { c with frame := some t } else s)

/-- SERIAL_FRAME_END: the frame's bits, the first most significant. -/
def execSerialFrameEnd (e : Fin 2) (w : Nat) (s : State) : Host.Outcome State Fault Refusal :=
  .next (s.whenLive fun s => s.encFrameEnd e w)

/-- INDEX_PULSE: a rising edge of ENCx_Z. -/
def execIndexPulse (z : IndexEdge) (s : State) : Host.Outcome State Fault Refusal :=
  .next (s.whenPowered fun s =>
    let s := (s.updEnc z.ch fun c => { c with z := true }).encIndex z.ch z.t
    if z.ch.val = 0 then s.ptZ true else s)

/-- ENC0_Z_FALLING_EDGE. -/
def execEnc0ZFallingEdge (s : State) : Host.Outcome State Fault Refusal :=
  .next (s.whenPowered fun s => (s.updEnc 0 fun c => { c with z := false }).ptZ false)

/-- STANDSTILL_TIMEOUT: no A/B edge for T_still (R56). -/
def execStandstillTimeout (e : Fin 2) (s : State) : Host.Outcome State Fault Refusal :=
  .next (s.whenLive fun s =>
    if s.fld ENC_CTL_MODE e = 1 then
      (s.updEnc e fun c => { c with phase := .still, p := (c.count : Rat), v := 0, acc := 0, fresh := false }).setFld
        ENC_STAT_STILL e 1
    else s)

/-- PT_STATE_SEND: at least MINSEP cycles after the previous state (R59). In Standby the outputs follow in A/B mode only. -/
def execPtStateSend (s : State) : Host.Outcome State Fault Refusal :=
  .next (s.whenPowered fun s => if s.live || s.fld ENC_CTL_MODE 0 == 1 then s.ptSend else s)

/-- PT_REALIGN: a write of ENC_PT_CTL. -/
def execPtRealign (m : Master) (v : Word) (s : State) : Host.Outcome State Fault Refusal :=
  .next (s.guardWrite m .ENC_PT_CTL 0 (·.ptWrite v))

end Sys2Proof.Machine
end

