-- ==== Sys2Proof/Machine/Lane.lean ====
section
/-!
DEFINITION. Sys2Proof/Machine/Lane.lean: the frame of a 112 Gbit/s lane: its Reed-Solomon code, its scrambler, its bit
layout (R63–R65), and the elastic buffer (R69). A frame is a number whose bit t is the t-th bit transmitted.
-/
namespace Sys2Proof.Machine

/-! ### GF(2¹⁰) with x¹⁰ + x³ + 1 -/

/-- Product in the field. -/
def gfMul (a b : Nat) : Nat :=
  (List.range 10).foldl (fun acc i =>
    let d := acc * 2
    let d := if 1024 ≤ d then d ^^^ 0x409 else d
    if b.testBit (9 - i) then d ^^^ a else d) 0

/-- Power, by the low ten bits of the exponent. -/
def gfPow (a n : Nat) : Nat :=
  (List.range 10).foldl (fun acc i => let q := gfMul acc acc; if n.testBit (9 - i) then gfMul q a else q) 1

/-- αⁿ, with α = 2. -/
def gfAlpha (n : Nat) : Nat := gfPow 2 (n % 1023)

/-- Inverse of a nonzero element. -/
def gfInv (a : Nat) : Nat := gfPow a 1022

/-- Value at `x` of a polynomial, highest coefficient first. -/
def gfEval (p : List Nat) (x : Nat) : Nat := p.foldl (fun acc c => gfMul acc x ^^^ c) 0

/-! ### RS(544,514), roots α⁰ … α²⁹, message symbol 0 the highest coefficient (PRESUMED, log 11) -/

/-- Multiply a polynomial, lowest coefficient first, by x + r. -/
def gfTimes (r : Nat) (p : List Nat) : List Nat :=
  List.zipWith (· ^^^ ·) (0 :: p) (p.map (gfMul r) ++ [0])

/-- The generator polynomial without its leading 1, highest coefficient first. -/
def rsGen : List Nat := (((List.range 30).foldl (fun p i => gfTimes (gfAlpha i) p) [1]).reverse).drop 1

/-- The 30 parity symbols of a message, first transmitted first. -/
def rsParity (msg : List Nat) : List Nat :=
  msg.foldl (fun rem c =>
    let f := c ^^^ rem.headD 0
    List.zipWith (· ^^^ ·) (rem.drop 1 ++ [0]) (rsGen.map (gfMul f))) (List.replicate 30 0)

/-- The 30 syndromes of a received word. -/
def rsSyndromes (w : List Nat) : List Nat := (List.range 30).map fun j => gfEval w (gfAlpha j)

/-- State of the error-locator search: locator and previous locator (lowest coefficient first), length, shift, previous
discrepancy. -/
structure RsSearch where
  c : List Nat := [1]
  b : List Nat := [1]
  len : Nat := 0
  m : Nat := 1
  d : Nat := 1

/-- One step of the search (Berlekamp and Massey) with the syndromes up to index `i`. -/
def RsSearch.next (syn : List Nat) (q : RsSearch) (i : Nat) : RsSearch :=
  let d := (List.range (q.len + 1)).foldl (fun a k => a ^^^ gfMul (q.c.getD k 0) (syn.getD (i - k) 0)) 0
  if d = 0 then { q with m := q.m + 1 }
  else
    let f := gfMul d (gfInv q.d)
    let sh := List.replicate q.m 0 ++ q.b.map (gfMul f)
    let n := max q.c.length sh.length
    let c := (List.range n).map fun k => q.c.getD k 0 ^^^ sh.getD k 0
    if 2 * q.len ≤ i then { c := c, b := q.c, len := i + 1 - q.len, m := 1, d := d }
    else { q with c := c, m := q.m + 1 }

/-- Decode a received word of 544 symbols: the corrected word and the number of symbols corrected; none when more than
15 symbols are in error (R68). -/
def rsDecode (w : List Nat) : Option (List Nat × Nat) :=
  let syn := rsSyndromes w
  if syn.all (· == 0) then some (w, 0)
  else
    let q := (List.range 30).foldl (RsSearch.next syn) {}
    let loc := q.c
    let omega := (List.range 30).map fun k =>
      (List.range (k + 1)).foldl (fun a i => a ^^^ gfMul (loc.getD i 0) (syn.getD (k - i) 0)) 0
    let deriv := (List.range loc.length).map fun k => if k % 2 = 0 then loc.getD (k + 1) 0 else 0
    let roots := (List.range 544).filter fun p => gfEval loc.reverse (gfAlpha (1023 - p)) == 0
    if 15 < q.len ∨ roots.length ≠ q.len then none
    else
      let fixed := (List.range 544).map fun i =>
        let p := 543 - i
        let c := w.getD i 0
        if roots.contains p then
          let xi := gfAlpha (1023 - p)
          c ^^^ gfMul (gfAlpha p) (gfMul (gfEval omega.reverse xi) (gfInv (gfEval deriv.reverse xi)))
        else c
      if (rsSyndromes fixed).all (· == 0) then some (fixed, q.len) else none

/-- The 10-bit symbols of a frame. -/
def frameSymbols (w : Nat) : List Nat := (List.range 544).map fun i => bits w (10 * i + 9) (10 * i)

/-- A frame from its symbols. -/
def symbolsFrame (l : List Nat) : Nat := l.foldr (fun c acc => acc * 1024 + c) 0

/-! ### Scrambler 1 + x³⁹ + x⁵⁸ (R64); the register holds the last 58 scrambled bits, newest at bit 0 -/

/-- Scramble one payload. -/
def scramble (reg w : Nat) : Nat × Nat :=
  (List.range 64).foldl (fun (a : Nat × Nat) i =>
    let o := (w.testBit i != a.1.testBit 38) != a.1.testBit 57
    ((a.1 * 2 + o.toNat) % 2 ^ 58, a.2 + o.toNat * 2 ^ i)) (reg, 0)

/-- Descramble one payload. -/
def descramble (reg w : Nat) : Nat × Nat :=
  (List.range 64).foldl (fun (a : Nat × Nat) i =>
    let o := (w.testBit i != a.1.testBit 38) != a.1.testBit 57
    ((a.1 * 2 + (w.testBit i).toNat) % 2 ^ 58, a.2 + o.toNat * 2 ^ i)) (reg, 0)

/-! ### Fields of a frame (R63) -/

/-- The sync header of block k as received: some true = control, some false = data, none = invalid. -/
def frameHeader (w k : Nat) : Option Bool :=
  let l := w.testBit (66 * k)
  let r := w.testBit (66 * k + 1)
  if l == r then none else some l

/-- Payload of block k. -/
def framePayload (w k : Nat) : Nat := bits w (66 * k + 65) (66 * k + 2)

/-- All 77 headers are valid. -/
def frameValid (w : Nat) : Bool := (List.range 77).all fun k => (frameHeader w k).isSome

/-- The polarity mask of a frame that begins at an even or odd bit: inverting a PAM4 symbol inverts the first of its two
bits (R64). -/
def polarity (odd : Bool) : Nat :=
  (List.range 544).foldl (fun a _ => a * 1024 + (if odd then 0x2AA else 0x155)) 0

/-- The data and control blocks of a corrected frame, descrambled; a block with an invalid header is none. -/
def frameBlocks (w reg : Nat) : List (Option Block) × Nat :=
  (List.range 77).foldl (fun (a : List (Option Block) × Nat) k =>
    let (reg, p) := descramble a.2 (framePayload w k)
    (a.1 ++ [(frameHeader w k).map fun c => { ctl := c, w := p }], reg)) ([], reg)

/-! ### Elastic buffer (R69) -/

/-- An IDLE block (R65). -/
def idleBlock : Block := { ctl := true, w := 0x1E }

/-- A block is IDLE. -/
def Block.idle (b : Block) : Bool := b.ctl && b.w % 256 == 0x1E

/-- What one slot of the buffer yields. -/
inductive EbOut where
  | none | block (b : Block) | error
  deriving DecidableEq, Repr

/-- The buffer empty, as at an entry into LOCKED and after an error (R69). -/
def Lane.ebClear (l : Lane) : Lane := { l with eb := [], ebFilling := true, ebDel := false, ebIns := false, gap := false }

/-- Write one block, marked where discarded blocks preceded it: at 20 blocks the next IDLE that leaves is deleted. With 32
present the buffer overflows, and the contents are discarded (`true`). -/
def Lane.ebPush (l : Lane) (b : Block) : Lane × Bool :=
  if 32 ≤ l.eb.length then ({ l with eb := l.eb ++ [b] }, true)
  else
    let eb := l.eb ++ [{ b with gap := b.gap || l.gap }]
    ({ l with eb := eb, gap := false, ebDel := l.ebDel || (!l.ebFilling && eb.length == 20) }, false)

/-- Delete the IDLE block that would leave next; its mark passes to the block after it. -/
def Lane.ebDrop (l : Lane) : Lane :=
  match l.eb with
  | [] => l
  | [b] => { l with eb := [], gap := l.gap || b.gap, ebDel := false }
  | b :: c :: eb => { l with eb := { c with gap := c.gap || b.gap } :: eb, ebDel := false }

/-- Take one block out, noting a fall of the fill to 12. -/
def Lane.ebTake (l : Lane) : Lane × EbOut :=
  match l.eb with
  | [] => (l, .error)
  | b :: eb => ({ l with eb := eb, ebIns := l.ebIns || eb.length == 12 }, .block b)

/-- One delivery slot of the buffer; the numbers count an inserted and a deleted IDLE. -/
def Lane.ebSlot (l : Lane) : Lane × EbOut × Nat × Nat :=
  if l.ebFilling && l.eb.length < 16 then (l, .none, 0, 0)
  else
    let l := { l with ebFilling := false }
    if l.ebIns then ({ l with ebIns := false }, .block idleBlock, 1, 0)
    else if l.ebDel && (l.eb.head?.map Block.idle).getD false then
      let r := l.ebDrop.ebTake
      (r.1, r.2, 0, 1)
    else
      let r := l.ebTake
      (r.1, r.2, 0, 0)

/-! ### Lanes of the state -/

/-- One lane. -/
def State.lane (s : State) (j : Nat) : Lane := look {} s.lanes j

/-- Change one lane. -/
def State.updLane (s : State) (j : Nat) (f : Lane → Lane) : State := { s with lanes := upd {} f s.lanes j }

/-- A lane is LOCKED. -/
def State.locked (s : State) (j : Nat) : Bool := (s.lane j).st == .locked

/-- Queue a control word on a lane (R75); a lane whose transmitter is off (EN = 0) sends none. -/
def State.laneWord (s : State) (j w : Nat) : State :=
  if s.on LANE_CTL_EN j then s.updLane j fun l => { l with ctlOut := l.ctlOut ++ [w] } else s

/-- LOCKED lanes of a Span port in order. -/
def State.spanLanes (s : State) (p : Nat) : List Nat := ((List.range 4).map (28 + 4 * p + ·)).filter s.locked

/-- Change one Span port. -/
def State.updSpan (s : State) (p : Nat) (f : SpanPort → SpanPort) : State :=
  { s with spanPorts := upd {} f s.spanPorts p }

/-- Queue a packet on a Span port (R237), with the record it carries, if any. -/
def State.spanSend (s : State) (p ch : Nat) (bytes : List Byte) (rec_ : List Byte := []) : State :=
  s.updSpan p fun q => { q with outbox := q.outbox ++ [{ ch := ch, bytes := bytes, rec_ := rec_ }] }

/-! ### Building a frame (R63, R66, R69, R75, R84) -/

/-- The data blocks of a packet. -/
def Packet.blocks (p : Packet) : Nat := (p.bytes.length + 7) / 8

/-- The START block of a packet (R65). -/
def Packet.start (p : Packet) : Block :=
  { ctl := true, w := 0x78 + 2 ^ 8 * (p.ch % 8) + 2 ^ 16 * (p.blocks % 2 ^ 16) }

/-- The blocks a packet is sent as. -/
def Packet.wire (p : Packet) : List Block :=
  p.start :: (List.range p.blocks).map fun i => { ctl := false, w := leNat ((p.bytes.drop (8 * i)).take 8) }

/-- The packet that starts next of those that wait for this lane: the first of the lowest channel whose first packet has credit
for all of its blocks (R84, R237). -/
def Lane.nextPacket (l : Lane) (q : List Packet) : Option Packet :=
  (List.range 8).findSome? fun c =>
    match q.find? (·.ch == c) with
    | some p => if p.blocks ≤ look 0 l.credit c then some p else none
    | none => none

/-- A packet as it leaves at span time t: t1 of ECHO_REQ and t3 of ECHO_RSP are those of its START block (R238, R240). -/
def Packet.stamp (p : Packet) (t : Nat) : Packet :=
  if p.ch ≠ 1 then p
  else
    let put := fun (i : Nat) => { p with bytes := p.bytes.take i ++ leBytes 8 t ++ p.bytes.drop (i + 8) }
    match (p.bytes.headD 0).toNat with
    | 2 => put 8
    | 3 => put 24
    | _ => p

/-- A lane at work on a frame: the lane, the packets that wait for it, those it has started with their contents as they left, and
the blocks put into the frame, newest first. -/
structure TxFrame where
  lane    : Lane
  wait    : List Packet
  started : List (Packet × Packet) := []
  blocks  : List Block := []

/-- Start packets while the transmit queue is empty and credit suffices, at span time t. -/
def TxFrame.startPacket (x : TxFrame) (t : Nat) : TxFrame :=
  let l := x.lane
  if !l.txq.isEmpty then x
  else match l.nextPacket x.wait with
  | none => x
  | some p =>
    { x with
      wait := x.wait.erase p, started := x.started ++ [(p, p.stamp t)]
      lane := { l with txq := (p.stamp t).wire, credit := put (look 0 l.credit p.ch - p.blocks) l.credit p.ch } }

/-- The next block to send: one IDLE at least every 1,024 blocks (R69). -/
def TxFrame.nextBlock (x : TxFrame) (t : Nat) : TxFrame :=
  let x := x.startPacket t
  let l := x.lane
  if 1023 ≤ l.sinceIdle then { x with lane := { l with sinceIdle := 0 }, blocks := idleBlock :: x.blocks }
  else match l.txq with
  | [] => { x with lane := { l with sinceIdle := 0 }, blocks := idleBlock :: x.blocks }
  | b :: q => { x with lane := { l with txq := q, sinceIdle := if b.idle then 0 else l.sinceIdle + 1 }, blocks := b :: x.blocks }

/-- Priority of a control word by its type (R75): trigger words first, then FMT, REG_A, REG_D, CREDIT. -/
def ctlPriority (w : Nat) : Nat :=
  match w / 2 ^ 28 with
  | 1 | 2 => 0
  | 6 => 1
  | 4 => 2
  | 5 => 3
  | _ => 4

/-- The control word of the next frame: the oldest of the highest priority, else NOP. -/
def Lane.nextWord (l : Lane) : Lane × Nat :=
  match (List.range 5).findSome? fun p => l.ctlOut.find? (ctlPriority · == p) with
  | some w => ({ l with ctlOut := l.ctlOut.erase w }, w)
  | none => (l, 0)

/-- Send one frame of the packets `q` at span time t; `inv` inverts the transmit polarity. The lane, and what it has started. -/
def Lane.transmit (l : Lane) (q : List Packet) (t : Nat) (inv : Bool) : Lane × List (Packet × Packet) :=
  let x := (List.range 77).foldl (fun (x : TxFrame) _ => x.nextBlock t) { lane := l, wait := q }
  let (l, cw) := x.lane.nextWord
  let (scr, msg) := x.blocks.reverse.foldl (fun (a : Nat × Nat × Nat) b =>
    let (r, p) := scramble a.1 b.w
    (r, a.2.1 + ((if b.ctl then 1 else 2) + 4 * p) * 2 ^ a.2.2, a.2.2 + 66)) (l.scr, 0, 0) |> fun a => (a.1, a.2.1)
  let msg := msg + l.txCnt * 2 ^ 5082 + (cw % 2 ^ 32) * 2 ^ 5098
  let syms := (List.range 514).map fun i => bits msg (10 * i + 9) (10 * i)
  let frame := symbolsFrame (syms ++ rsParity syms)
  ({ l with scr := scr, txCnt := (l.txCnt + 1) % 65536, txLast := if inv then frame ^^^ polarity false else frame }, x.started)

/-- Apply a CREDIT word to the transmitter: bits 27:25 channel, 24 reset, 15:0 units of 16 blocks (R74, R84). -/
def Lane.addCredit (l : Lane) (w : Nat) : Lane :=
  let c := bits w 27 25
  let n := 16 * bits w 15 0
  { l with credit := put (if w.testBit 24 then n else look 0 l.credit c + n) l.credit c }

end Sys2Proof.Machine
end

