-- ==== Sys2Proof/Machine/Camera.lean ====
section
/-!
DEFINITION. Sys2Proof/Machine/Camera.lean: camera ports: formats and port states (R79–R83, R428), camera lines from data
blocks (R76, R77), register access to the camera (R78) and the camera control words (R74).
-/
namespace Sys2Proof.Machine

/-- One camera port. -/
def State.cam (s : State) (p : Nat) : Cam := look {} s.cams p

/-- Change one camera port. -/
def State.updCam (s : State) (p : Nat) (f : Cam → Cam) : State := { s with cams := upd {} f s.cams p }

/-- Lanes of a port named by a LANES code: 0b01 even, 0b10 odd, 0b11 both. -/
def lanesOf (p code : Nat) : List Nat :=
  (if code.testBit 0 then [2 * p] else []) ++ (if code.testBit 1 then [2 * p + 1] else [])

/-- LANES code of one lane. -/
def laneCode (j : Nat) : Nat := j % 2 + 1

/-- Bits of a sample by a WIDTH code. -/
def widthBits (w : Nat) : Nat := if w = 0 then 8 else if w = 1 then 10 else 12

/-- The lane that carries the device's control words to a camera: the lowest LOCKED lane of CAM_CTL.LANES, else the lowest
enabled one, else the lowest (DESIGN CHOICE, log 12). -/
def State.camWordLane (s : State) (p : Nat) : Nat :=
  let ls := lanesOf p (s.fld CAM_CTL_LANES p)
  ((ls.find? s.locked).orElse fun _ => ls.find? (s.on LANE_CTL_EN ·)).getD (ls.headD (2 * p))

/-- Send a control word to a camera. -/
def State.camWord (s : State) (p w : Nat) : State := s.laneWord (s.camWordLane p) w

/-- The four effects of a change into DEGRADED or STOPPED, or of a change of cause (R81). -/
def State.camAlarm (s : State) (f : Flag) (p : Nat) : State := ((s.raise f p).strobe [8]).irq "LINK_FAULT"

/-- Into STOPPED with a cause. -/
def State.camStop (s : State) (p cause : Nat) : State :=
  let c := s.cam p
  if c.st == .stopped && c.cause == cause then s
  else (s.updCam p fun c => { c with st := .stopped, cause := cause, calm := 0, half := [] }).camAlarm CAM_STAT_STOPPED p

/-- Into NORMAL. -/
def State.camNormal (s : State) (p : Nat) : State := s.updCam p fun c => { c with st := .normal, cause := 0 }

/-- Into DEGRADED. -/
def State.camDegraded (s : State) (p : Nat) : State :=
  if (s.cam p).st == .degraded then s
  else (s.updCam p fun c => { c with st := .degraded, cause := 0 }).camAlarm CAM_STAT_DEGRADED p

/-- A camera port delivers no lines (R80). -/
def State.camSilent (s : State) (p : Nat) : Bool := (s.cam p).st == .stopped || (s.cam p).st == .off

/-- A valid route entry names the camera (R165). -/
def State.camNamed (s : State) (p : Nat) : Bool :=
  (List.range 64).any fun i => s.on ACCORD_RTA_V i && s.fld ACCORD_RTA_CAM i == p

/-- Line n passes: it is a lost line of a port that is STOPPED now, and of one that is OFF where a valid route names its camera
(R80). -/
def State.camPass (s : State) (n : Int) (p : Nat) : State :=
  if (s.cam p).st == .stopped || ((s.cam p).st == .off && s.camNamed p) then s.updCam p fun c => { c with away := (tickedAdd c.away n).filter fun r => decide (n - 512 < r.2) }
  else s

/-- CAM_SFMAX as R83 gives it. The register holds its table's reset value until a write of CAM_CTL or CAM_PIX (DEDUCED, log
136). -/
def State.camSfmax (s : State) (p : Nat) : Nat :=
  min 300000 (98400000000 / max 1 (s.fld CAM_PIX_PIX p * s.fld CAM_CTL_CH p * 8))

/-- The observer speed does not exceed SFMAX. -/
def State.camSlow (s : State) (p : Nat) : Bool :=
  let f : Rat := (s.fld CAM_SFMAX_SFMAX p : Nat)
  decide (s.tick.speed ≤ f) && decide (-f ≤ s.tick.speed)

/-- The observer speed is at or below 0.98 × SFMAX. -/
def State.camCalm (s : State) (p : Nat) : Bool :=
  let f : Rat := (s.fld CAM_SFMAX_SFMAX p : Nat) * (98 / 100)
  decide (s.tick.speed ≤ f) && decide (-f ≤ s.tick.speed)

/-- Send FMT with an effective release index 16 ticks after the last tick (R82); its outcome waits for the FMT_ACK. -/
def State.camFmt (s : State) (p width lanes : Nat) (target : CamSt) : State :=
  let eff := s.tick.hw + 16
  let s := s.camWord p (6 * 2 ^ 28 + width * 2 ^ 26 + lanes * 2 ^ 24 + ofSigned 24 eff)
  s.updCam p fun c => { c with
    fmt := some { width := width, lanes := lanes, eff := eff, target := target }
    work := if target == .degraded then lanes else c.work }

/-- Width of the single-lane fallback: 8 bit, or the profile's on a port declared with one lane (R81). -/
def State.camFallWidth (s : State) (p : Nat) : Nat :=
  if s.fld CAM_CTL_LANES p = 3 then 0 else s.fld CAM_CTL_WIDTH p

/-- The fallback on a lane. -/
def State.camFall (s : State) (p lanes : Nat) : State := s.camFmt p (s.camFallWidth p) lanes .degraded

/-- The profile's format is the present one. -/
def State.camAtProfile (s : State) (p : Nat) : Bool :=
  let c := s.cam p
  c.curLanes == s.fld CAM_CTL_LANES p && c.curWidth == s.fld CAM_CTL_WIDTH p

/-- All lanes of a format are LOCKED. -/
def State.camLocked (s : State) (p lanes : Nat) : Bool := (lanesOf p lanes).all s.locked

/-- The LANES code of the one LOCKED lane of a port, when the other is not LOCKED. -/
def State.camOne (s : State) (p : Nat) : Option Nat :=
  match s.locked (2 * p), s.locked (2 * p + 1) with
  | true, false => some 1
  | false, true => some 2
  | _, _ => none

/-- A lane of the format is FAILED. -/
def State.camFailed (s : State) (p lanes : Nat) : Bool := (lanesOf p lanes).any fun j => (s.lane j).st == .failed

/-- The fallback that R81 allows now: the LANES code of its lane. -/
def State.camFallback (s : State) (p : Nat) : Option Nat :=
  if s.on CAM_CTL_FB_EN p && s.camSlow p then s.camOne p else none

/-- The rows of R81 whose conditions hold, at a change of a lane, of the speed or of the port's settings; none while an FMT
awaits its FMT_ACK (R428). -/
def State.camEval (s : State) (p : Nat) : State :=
  let c := s.cam p
  if !s.on CAM_CTL_EN p || c.fmt.isSome then s
  else
    let lanes := s.fld CAM_CTL_LANES p
    let width := s.fld CAM_CTL_WIDTH p
    match c.st with
    | .off =>
      if (lanesOf p lanes).all fun j => s.on LANE_CTL_EN j then
        (s.updCam p fun c => { c with curWidth := width, curLanes := lanes, oldWidth := width, oldLanes := lanes }).camNormal p
      else s
    | .normal => s
    | .degraded =>
      if !s.camSlow p then (s.camFmt p c.curWidth 0 .stopped).camStop p 3
      else if !s.camAtProfile p && s.camLocked p lanes then s.camFmt p width lanes .normal
      else s
    | .stopped =>
      if c.cause = 1 then
        if s.camFailed p c.curLanes then
          match s.camFallback p with
          | some l => s.camFall p l
          | none => s.camStop p 2
        else if s.camLocked p c.curLanes then (if s.camAtProfile p then s.camNormal p else s.camDegraded p)
        else s
      else if c.cause = 2 then
        if s.camLocked p lanes then s.camFmt p width lanes .normal
        else match s.camFallback p with
        | some l => s.camFall p l
        | none => s
      else s

/-- Evaluate every port. -/
def State.camEvalAll (s : State) : State := (List.range 12).foldl State.camEval s

/-- A lane of a port changed into a state (R73, R81, R428). -/
def State.camLaneChanged (s : State) (j : Nat) (st : LaneSt) : State :=
  let p := j / 2
  let c := s.cam p
  let code := laneCode j
  let s :=
    if st == .retrain && s.on CAM_CTL_EN p then
      match c.fmt with
      | some f => if f.lanes &&& code ≠ 0 then s.camStop p 1 else s
      | none =>
        if (c.st == .normal || c.st == .degraded) && (c.curLanes &&& code) != 0 then s.camStop p 1 else s
    else s
  s.camEval p

/-- The FMT_ACK of the pending FMT (R82, R428). -/
def State.camAck (s : State) (p : Nat) (f : FmtReq) : State :=
  let s := s.updCam p fun c => { c with
    fmt := none, oldWidth := c.curWidth, oldLanes := c.curLanes, effAt := f.eff, curWidth := f.width, curLanes := f.lanes }
  let s :=
    if s.camLocked p f.lanes then
      match f.target with
      | .normal => s.camNormal p
      | .degraded => s.camDegraded p
      | _ => s.camStop p 3
    else if s.camFailed p f.lanes && (s.camFallback p).isNone then s.camStop p 2
    else s.camStop p 1
  s.camEval p

/-! ### Lines (R76, R77, R82) -/

/-- The release index of the last 256 ticks that a 21-bit index names (R77). -/
def State.camExtend (s : State) (idx : Nat) : Option Int :=
  s.tick.rel.find? fun l => ofSigned 21 l == idx % 2 ^ 21

/-- Data blocks outside a line: discarded with STRAY, once for a run of them (R77). -/
def State.camStray (s : State) (p k : Nat) : State :=
  if (s.cam p).skip.contains k then s
  else (s.updCam p fun c => { c with skip := k :: c.skip, half := c.half.filter (·.1 != k) }).raise CAM_STAT_STRAY p

/-- The blocks of a line on a lane are discarded up to the next LSTART. -/
def State.camSkip (s : State) (j : Nat) : State :=
  s.updCam (j / 2) fun c => { c with
    skip := if c.skip.contains (j % 2) then c.skip else (j % 2) :: c.skip
    half := c.half.filter (·.1 != j % 2) }

/-- Blocks of a lane are lost: a line being received is cut, and the rest of it is discarded. `more`: a line began among the
lost blocks. -/
def State.camCut (s : State) (j : Nat) (more : Bool) : State :=
  if more || (s.cam (j / 2)).half.any (·.1 == j % 2) then s.camSkip j else s

/-- The samples of a line packed least significant bit first into block payloads (R77), aligned to the profile's width
(R82). -/
def unpackSamples (payloads : List Nat) (width n up : Nat) : List Nat :=
  let v := payloads.foldr (fun w acc => w + acc * 2 ^ 64) 0
  (List.range n).map fun i => bits v (i * width + width - 1) (i * width) * 2 ^ up

/-- A half-line, or a whole line on a single lane, is complete. -/
def State.camHalf (s : State) (p k : Nat) (h : Half) : State :=
  let wp := widthBits (s.fld CAM_CTL_WIDTH p)
  let c := s.cam p
  let lanes := if h.line < c.effAt then c.oldLanes else c.curLanes
  let px := s.fld CAM_PIX_PIX p
  let n := (if lanes = 3 then px / 2 else px) * s.fld CAM_CTL_CH p
  let line : CamLine := { line := h.line, width := wp, used := h.width, samples := unpackSamples h.data.reverse h.width n (wp - h.width) }
  if lanes = 3 then
    match c.done.find? fun d => d.1 == 1 - k && d.2.line == h.line with
    | some d =>
      let (e, o) := if k = 0 then (line, d.2) else (d.2, line)
      s.updCam p fun c => { c with
        done := c.done.filter fun d => d.2.line != h.line
        lines := c.lines ++ [{ e with samples := e.samples ++ o.samples }] }
    | none => s.updCam p fun c => { c with done := ((k, line) :: c.done).take 16 }
  else s.updCam p fun c => { c with lines := c.lines ++ [line] }

/-- Add a block to the line being received on lane k. -/
def State.camAdd (s : State) (p k : Nat) (h : Half) (w : Nat) : State :=
  let h := { h with data := w :: h.data }
  if h.data.length < h.need then s.updCam p fun c => { c with half := put h c.half k }
  else (s.updCam p fun c => { c with half := c.half.filter (·.1 != k), skip := c.skip.filter (· != k) }).camHalf p k h

/-- A data block delivered by a camera lane. A stopped port delivers no lines, and no line that passed while it was stopped
(R80); while an FMT awaits its FMT_ACK lines at and after its effective index are lost (R82). -/
def State.camBlock (s : State) (j : Nat) (b : Block) : State :=
  let p := j / 2
  let k := j % 2
  let c := s.cam p
  match b.start with
  | some idx =>
    match s.camExtend idx with
    | none => (s.updCam p fun c => { c with skip := c.skip.filter (· != k) }).camStray p k
    | some line =>
      let old := decide (line < c.effAt)
      let width := widthBits (if old then c.oldWidth else c.curWidth)
      let lanes := if old then c.oldLanes else c.curLanes
      let pending := (c.fmt.map fun f => decide (f.eff ≤ line)).getD false
      if s.camSilent p || inRanges c.away line || pending || !lanes.testBit k then s.camSkip j
      else
        let px := s.fld CAM_PIX_PIX p
        let need := ((if lanes = 3 then px / 2 else px) * s.fld CAM_CTL_CH p * width + 63) / 64
        let s := s.updCam p fun c => { c with skip := c.skip.filter (· != k) }
        s.camAdd p k { line := line, need := need, width := width } b.w
  | none =>
    match (c.half.find? (·.1 == k)).map Prod.snd with
    | some h => s.camAdd p k h b.w
    | none => if s.camSilent p then s else s.camStray p k

/-! ### Control words from the camera (R74) -/

/-- The oldest control word of a type received on the port, even lane first, and the state without it. -/
def State.camTake (s : State) (p typ : Nat) : Option (Nat × State) :=
  [2 * p, 2 * p + 1].findSome? fun j =>
    ((s.lane j).ctlIn.find? fun w => w / 2 ^ 28 == typ).map fun w =>
      (w, s.updLane j fun l => { l with ctlIn := l.ctlIn.erase w })

/-- Bits 27:0 of the FMT word of a request (R74). -/
def FmtReq.word (f : FmtReq) : Nat := f.width * 2 ^ 26 + f.lanes * 2 ^ 24 + ofSigned 24 f.eff

/-! ### Register access to the camera (R78) -/

/-- A register access ends. -/
def State.camRegDone (s : State) (p res : Nat) : State :=
  (((s.setFld CAM_REGRES_RESULT p res).setFld CAM_REGRES_DONE p 1).setFld CAM_REGRES_BUSY p 0).updCam p
    fun c => { c with reg := none }

/-- A camera's result code: OK, RANGE, DENIED or ERROR; any other value is ERROR. -/
def camResult (r : Nat) : Nat := if r = rOK ∨ r = rRANGE ∨ r = rDENIED then r else rERROR

/-- A write of CAM_REGCMD: GO sends REG_A and, for a write, REG_D with halves 0 and 1. -/
def State.camRegWrite (s : State) (p : Nat) (v : Word) : State :=
  let s := s.regStore .CAM_REGCMD p v
  if !v.getLsbD 31 || (s.cam p).reg.isSome then s
  else
    let t := (s.cam p).tag
    let wr := s.on CAM_REGCMD_WRITE p
    let a := s.fld CAM_REGCMD_ADDR p
    let d := (s.reg .CAM_REGWD p).toNat
    let s := s.camWord p (4 * 2 ^ 28 + wr.toNat * 2 ^ 27 + t * 2 ^ 24 + a)
    let s := if wr then
        (s.camWord p (5 * 2 ^ 28 + t * 2 ^ 24 + d % 2 ^ 16)).camWord p (5 * 2 ^ 28 + 2 ^ 27 + t * 2 ^ 24 + d / 2 ^ 16)
      else s
    let s := (s.setFld CAM_REGRES_DONE p 0).setFld CAM_REGRES_BUSY p 1
    s.updCam p fun c => { c with reg := some { write := wr, tag := t, addr := a }, tag := (t + 1) % 8 }

/-- A REG_D word from the camera. -/
def State.camRegData (s : State) (p w : Nat) : State :=
  match (s.cam p).reg with
  | none => s
  | some a =>
    if bits w 26 24 ≠ a.tag then s
    else
      let r := camResult (bits w 23 16)
      let res := if a.res = rOK then r else a.res
      if a.write then s.camRegDone p res
      else
        let a := if w.testBit 27 then { a with hi := some (w % 2 ^ 16), res := res }
          else { a with lo := some (w % 2 ^ 16), res := res }
        match a.lo, a.hi with
        | some lo, some hi => (s.setFld CAM_REGRD_DATA p (lo + 2 ^ 16 * hi)).camRegDone p res
        | _, _ => s.updCam p fun c => { c with reg := some a }

/-! ### Register writes -/

/-- A write of CAM_CTL_p: clearing EN takes the port to OFF from any state; SFMAX follows the channels (R81, R83). A port in
NORMAL takes a format changed in Hold at once (DESIGN CHOICE, log 13). -/
def State.camCtlWrite (s : State) (p : Nat) (v : Word) : State :=
  let s := s.regStore .CAM_CTL p v
  let s := s.setFld CAM_SFMAX_SFMAX p (s.camSfmax p)
  if !s.on CAM_CTL_EN p then
    s.updCam p fun c => { c with st := .off, cause := 0, fmt := none, half := [], done := [] }
  else
    let w := s.fld CAM_CTL_WIDTH p
    let l := s.fld CAM_CTL_LANES p
    let s := if (s.cam p).st == .normal then
        s.updCam p fun c => { c with curWidth := w, curLanes := l, oldWidth := w, oldLanes := l }
      else s
    s.camEval p

/-- A write of CAM_PIX_p (R83). -/
def State.camPixWrite (s : State) (p : Nat) (v : Word) : State :=
  let s := s.regStore .CAM_PIX p v
  s.setFld CAM_SFMAX_SFMAX p (s.camSfmax p)

/-! ### Commands -/

/-- CAM_PORT_ENABLE: a write of CAM_CTL with EN set. -/
def execCamPortEnable (m : Master) (p : Fin 12) (v : Word) (s : State) : Host.Outcome State Fault Refusal :=
  .next (s.guardWrite m .CAM_CTL p (·.camCtlWrite p (v ||| 1)))

/-- CAM_PORT_DISABLE: a write of CAM_CTL with EN clear. -/
def execCamPortDisable (m : Master) (p : Fin 12) (v : Word) (s : State) : Host.Outcome State Fault Refusal :=
  .next (s.guardWrite m .CAM_CTL p (·.camCtlWrite p (v &&& 0xFFFFFFFE)))

/-- FMT_ACK: the port takes the oldest FMT_ACK word received; one that is no copy of the pending FMT has no effect. -/
def execFmtAck (p : Fin 12) (s : State) : Host.Outcome State Fault Refusal :=
  .next (s.whenLive fun s =>
    match s.camTake p 7 with
    | none => s
    | some (w, s) =>
      match (s.cam p).fmt with
      | some f => if w % 2 ^ 28 = f.word then s.camAck p f else s
      | none => s)

/-- CSTAT: the oldest camera status word; an exposure overrun or a hold overflow sets EXPO_OVR (R74). -/
def execCstat (p : Fin 12) (s : State) : Host.Outcome State Fault Refusal :=
  .next (s.whenLive fun s =>
    match s.camTake p 9 with
    | none => s
    | some (w, s) => s.raiseIf (w.testBit 2 || w.testBit 3) CAM_STAT_EXPO_OVR p)

/-- CAMERA_REG_ACCESS: a write of CAM_REGCMD. -/
def execCameraRegAccess (m : Master) (p : Fin 12) (v : Word) (s : State) : Host.Outcome State Fault Refusal :=
  .next (s.guardWrite m .CAM_REGCMD p (·.camRegWrite p v))

/-- REG_D: the oldest answer word of the camera. -/
def execRegD (p : Fin 12) (s : State) : Host.Outcome State Fault Refusal :=
  .next (s.whenLive fun s =>
    match s.camTake p 5 with
    | none => s
    | some (w, s) => s.camRegData p w)

/-- CAMERA_REG_TIMEOUT: no complete answer within 64 µs. -/
def execCameraRegTimeout (p : Fin 12) (s : State) : Host.Outcome State Fault Refusal :=
  .next (s.whenLive fun s =>
    if (s.cam p).reg.isSome then (s.raise CAM_STAT_REG_TO p).camRegDone p rERROR else s)

/-- SINGLE_LANE_SPEED_RECOVERY: 64 consecutive ticks at or below 0.98 × SFMAX in STOPPED with cause 3 (R81). -/
def execSingleLaneSpeedRecovery (p : Fin 12) (s : State) : Host.Outcome State Fault Refusal :=
  .next (s.whenLive fun s =>
    let c := s.cam p
    if c.st == .stopped && c.cause == 3 && c.fmt.isNone && decide (64 ≤ c.calm) && s.on CAM_CTL_EN p then
      s.camFall p c.work
    else s)

/-- FMT_TIMEOUT: no FMT_ACK by the effective index (R81). -/
def execFmtTimeout (p : Fin 12) (s : State) : Host.Outcome State Fault Refusal :=
  .next (s.whenLive fun s =>
    match (s.cam p).fmt with
    | some f =>
      if !f.late && decide (f.eff ≤ s.tick.hw) then
        ((s.updCam p fun c => { c with fmt := some { f with late := true } }).raise CAM_STAT_FMT_TO p).camStop p 4
      else s
    | none => s)

/-- FMT_REPEAT: 256 ticks after the last FMT that found no FMT_ACK, it is sent again with a new effective index (R81). -/
def execFmtRepeat (p : Fin 12) (s : State) : Host.Outcome State Fault Refusal :=
  .next (s.whenLive fun s =>
    match (s.cam p).fmt with
    | some f => if f.late && decide (f.eff + 240 ≤ s.tick.hw) then s.camFmt p f.width f.lanes f.target else s
    | none => s)

end Sys2Proof.Machine
end

