-- ==== Sys2Proof/Machine/LaneRx.lean ====
section
/-!
DEFINITION. Sys2Proof/Machine/LaneRx.lean: the receiver of a lane (R66–R73, R84), the channel credit REF grants (R181), the
state of a Span port as its lanes change (R239, R249), and the commands of the lanes.
-/
namespace Sys2Proof.Machine

/-! ### Credit of the feed lanes (R84, R181) -/

/-- Blocks of channel 1 credit outstanding on all feed lanes. -/
def State.refOutst (s : State) : Nat := (s.ref.outst.map Prod.snd).foldl (· + ·) 0

/-- REF may grant one further unit of channel 1 credit (R181). A descriptor received and not yet queued counts beside those the
credit allows. -/
def State.refMayGrant (s : State) : Bool :=
  let descs := (s.refOutst + 16) / 2 + s.ref.inbox.countP fun x => x.2.ch == 1
  decide (s.ref.queue.length + descs ≤ 64) &&
    decide (descs * s.fld REF_PMAX_PMAX + (s.ref.nextRow - s.ref.freed) ≤ s.fld REF_RROWS_ROWS)

/-- Grant units to a lane while R181 permits, at most `n`; the number granted. -/
def State.refUnits (s : State) (j : Nat) : Nat → State × Nat
  | 0 => (s, 0)
  | n + 1 =>
    if s.refMayGrant then
      let (s', k) := { s with ref := { s.ref with outst := upd 0 (· + 16) s.ref.outst j } }.refUnits j n
      (s', k + 1)
    else (s, 0)

/-- A CREDIT word (R74). -/
def creditWord (ch : Nat) (reset : Bool) (units : Nat) : Nat :=
  8 * 2 ^ 28 + ch * 2 ^ 25 + reset.toNat * 2 ^ 24 + units % 2 ^ 16

/-- REF grants what R181 permits, one unit a word, on its lowest LOCKED lane (DESIGN CHOICE, log 14). -/
def State.refGrant (s : State) : State :=
  match [24, 25, 26, 27].find? s.locked with
  | none => s
  | some j =>
    let (s, n) := s.refUnits j 8
    (List.range n).foldl (fun s _ => s.laneWord j (creditWord 1 false 1)) s

/-- Channel 0 blocks of a lane consumed by CMP: each full unit of 16 is returned (R181). -/
def State.refReturn (s : State) (j blocks : Nat) : State :=
  let u := look 0 s.ref.used j + blocks
  let s := { s with ref := { s.ref with used := put (u % 16) s.ref.used j } }
  if u < 16 then s else s.laneWord j (creditWord 0 false (u / 16))

/-- Blocks of a channel leave the buffer of a Span lane, passed to SPAN or discarded: each full unit of 16 is granted again (R84;
the instant is a DESIGN CHOICE, log 138). -/
def State.spanReturn (s : State) (j ch blocks : Nat) : State :=
  let u := look 0 (s.lane j).used ch + blocks
  let s := s.updLane j fun l => { l with used := put (u % 16) l.used ch }
  if u < 16 then s else s.laneWord j (creditWord ch false (u / 16))

/-- The CREDIT words after an entry into LOCKED: one per channel with reset = 1 and the full allocation (R84). The spec
states no allocation for a Span channel: free values (log 1). -/
def State.laneCredits (s : State) (j : Nat) : State :=
  if j < 24 then s
  else if j < 28 then
    let s := { s with ref := { s.ref with used := put 0 s.ref.used j } }
    let s := s.laneWord j (creditWord 0 true (s.fld REF_TILE_FEEDCR))
    let (s, n) := s.refUnits j 8
    s.laneWord j (creditWord 1 true n)
  else
    let s := s.updLane j fun l => { l with used := [] }
    (List.range 6).foldl (fun s c => (s.laneWord j (creditWord c true s.free)).drawn) s

/-! ### Span port state (R239, R249) -/

/-- One Span port. -/
def State.spanPort (s : State) (p : Nat) : SpanPort := look {} s.spanPorts p

/-- A port is a seam. -/
def State.spanSeam (s : State) (p : Nat) : Bool := s.on (if p = 0 then SPAN_CTL_SEAM0 else SPAN_CTL_SEAM1)

/-- Send HELLO on a port (R238). -/
def State.spanHello (s : State) (p : Nat) : State :=
  s.spanSend p 1 (leBytes 1 1 ++ leBytes 1 s.span.chip ++ leBytes 1 (s.fld SPAN_ID_ARRAY)
    ++ leBytes 1 ((s.on SPAN_CTL_MASTER).toNat + 2 * (s.spanSeam p).toNat) ++ leBytes 4 (s.fld SPAN_XBASE_XBASE)
    ++ leBytes 4 (s.fld ACCORD_OUTW_OUTW) ++ leBytes 4 0)

/-- A region lies within 1 + BRIDGE_X pixels of the edge a port faces (R249). -/
def State.silNearEdge (s : State) (p : Nat) (r : Region) : Bool :=
  let w := 1 + min 8 (s.fld SIL_CONN_BRIDGE_X)
  if p = 0 then decide (r.xmin < w) else decide (s.fld ACCORD_OUTW_OUTW < r.xmax + 1 + w)

/-- What a loss of a seam port does in Sillage: BLIND_ADJ near the edge, and the links across the port are dropped
(R249). -/
def State.silSeamLost (s : State) (p : Nat) : State :=
  if !s.spanSeam p then s
  else
    { s with sil := { s.sil with
        regions := s.sil.regions.map fun r =>
          if s.silNearEdge p r then { r with blind := true }
          else if s.sil.links.any fun l => l.1 == r.id && l.2.2 == p then { r with blind := true, chip := true }
          else r
        links := s.sil.links.filter fun l => l.2.2 != p
        kept := s.sil.kept.filter fun k =>
          k.region / 2 ^ 30 == s.span.chip || k.region / 2 ^ 30 != s.fld SPAN_NB_CHIPID p
        seam := s.sil.seam.filter fun e => e.2.port != p } }

/-- A device that a port no longer reaches may still be reached over the other one, in a ring: it is where the other port is UP
and ends at the same device; past another device this one cannot tell, and a free value decides (log 122). -/
def State.otherWay (s : State) (p : Nat) : Bool × State :=
  if (s.spanPort (1 - p)).st != .up then (false, s)
  else if s.fld SPAN_NB_CHIPID p == s.fld SPAN_NB_CHIPID (1 - p) then (true, s)
  else (s.free.testBit 0, s.drawn)

/-- The extent of the device behind a port that went DOWN begins, unless the device is still reached; that of a device whose only
other way led over this port begins too. A port on which no HELLO has been taken has no device behind it (R251). -/
def State.spanLost (s : State) (p : Nat) : State :=
  let (still, s) := s.otherWay p
  let start := fun (q : SpanPort) => { q with lost := some (q.lost.getD (s.tick.hw + 1)) }
  let s := if still then s else s.updSpan p start
  let q := s.spanPort (1 - p)
  if q.st == .down && q.met then s.updSpan (1 - p) start else s

/-- What a port holds is given up but for service-core control messages; the records among it are to be queued again (R250). -/
def State.spanGiveUp (s : State) (p : Nat) : State :=
  let q := s.spanPort p
  let busy := q.sending.filter fun x => !(s.lane x.1).txq.isEmpty
  let recs := ((busy.map (·.2)) ++ (q.outbox.map (·.rec_)).filter (!·.isEmpty)).eraseDups
  { s with rpt := { s.rpt with back := s.rpt.back ++ recs } }.updSpan p fun q =>
    { q with outbox := q.outbox.filter (·.ch == 0), sending := [] }

/-- A port goes from UP to DOWN (R239, R249, R250, R251). -/
def State.spanDown (s : State) (p : Nat) : State :=
  let s := ((s.updSpan p fun q => { q with st := .down }).spanLost p).spanGiveUp p
  (((s.raise SPAN_STAT_LINK_DOWN).strobe [8]).irq "LINK_FAULT").silSeamLost p

/-- A lane of a Span port changed state (R73, R239). -/
def State.spanLaneChanged (s : State) (p : Nat) (st : LaneSt) : State :=
  let q := s.spanPort p
  if st == .locked && q.st == .down then (s.updSpan p fun q => { q with st := .wait }).spanHello p
  else if q.st == .up && (s.spanLanes p).isEmpty then s.spanDown p
  else s

/-! ### Lane state (R67) -/

/-- A packet being received is cut: discarded and counted (R84). -/
def State.laneDrop (s : State) (j : Nat) : State :=
  match (s.lane j).open_ with
  | some (ch, n, _) =>
    let s := (s.updLane j fun l => { l with open_ := none }).count .LANE_PKTDROP j 1 0xFFFFFFFF
    if j < 28 then s else s.spanReturn j ch n
  | none => s

/-- Blocks of a lane are lost where the buffer delivers: a camera line or a packet is cut. -/
def State.laneLoss (s : State) (j : Nat) : State := if j < 24 then s.camCut j false else s.laneDrop j

/-- The block opens a packet (R65). -/
def Block.opens (b : Block) : Bool := b.ctl && b.w % 256 == 0x78 && bits b.w 31 16 != 0

/-- The elastic buffer's contents are discarded, at an error of the buffer and at a loss of lock (R69; DESIGN CHOICE for the
latter, log 117): the line or packet in progress is cut, and every packet that opens in the contents is discarded too. -/
def State.laneFlush (s : State) (j : Nat) : State :=
  let eb := (s.lane j).eb
  let s := if j < 24 then s.camCut j (eb.any (·.start.isSome))
    else
      let s := (s.laneDrop j).count .LANE_PKTDROP j (eb.countP Block.opens) 0xFFFFFFFF
      if j < 28 then s else (eb.filter Block.opens).foldl (fun s b => s.spanReturn j (bits b.w 10 8) (bits b.w 31 16)) s
  s.updLane j Lane.ebClear

/-- A lane changes state; its owner is told (R73). -/
def State.laneTo (s : State) (j : Nat) (st : LaneSt) : State :=
  let old := (s.lane j).st
  if old = st then s
  else
    let s := if old = .locked then (s.laneFlush j).updLane j fun l => { l with csym := 0 } else s
    let s := s.updLane j fun l => { l with st := st }
    let s := if st = .locked then
        (s.updLane j fun l => { l with
          hdrs := [], rxCnt := none, csym := 0 }).laneCredits j
      else s
    if j < 24 then s.camLaneChanged j st
    else if j < 28 then
      let s := s.raiseIf (st == .failed) REF_STAT_FEED_LANE
      if old = .locked then { s with ref := { s.ref with outst := put 0 s.ref.outst j } }.refGrant else s
    else s.spanLaneChanged ((j - 28) / 4) st

/-- A write of LANE_CTL_j (R66, R67). -/
def State.laneCtlWrite (s : State) (j : Nat) (v : Word) : State :=
  let old := s.on LANE_CTL_EN j
  let s := s.regStore .LANE_CTL j v
  let new := s.on LANE_CTL_EN j
  let s :=
    if old && !new then (s.laneTo j .off).updLane j fun l => { l with ctlOut := [], txq := [], sinceIdle := 0 }
    else if !old && new then
      let s := (s.updLane j fun l => { l with cand := 0, good := 0 }).laneTo j .hunt
      if j < 24 then s.camEval (j / 2) else s
    else s
  if v.getLsbD 13 && (s.lane j).st != .off then s.laneTo j .retrain else s

/-! ### Received blocks and words -/

/-- A control block type other than IDLE, START and ABORT, or one that this lane does not use (R65). -/
def State.laneBadBlock (s : State) (j : Nat) : State := s.raise LANE_STAT_CTL_RSVD j

/-- A block delivered on a feed or Span lane (R65, R84). -/
def State.packetBlock (s : State) (j : Nat) (b : Block) : State :=
  if b.ctl then
    let t := b.w % 256
    if t = 0x78 then
      let s := s.laneDrop j
      let n := bits b.w 31 16
      if n = 0 then s else s.updLane j fun l => { l with open_ := some (bits b.w 10 8, n, []), openAt := s.span.time }
    else if t = 0x55 then s.laneDrop j
    else s.laneBadBlock j
  else
    match (s.lane j).open_ with
    | none => s
    | some (ch, n, d) =>
      let d := b.w :: d
      if d.length < n then s.updLane j fun l => { l with open_ := some (ch, n, d) }
      else s.updLane j fun l => { l with
        open_ := none, pkts := l.pkts ++ [{ ch := ch, bytes := d.reverse.flatMap (leBytes 8), at_ := l.openAt }] }

/-- A block delivered by a lane; IDLE blocks are dropped (R65). -/
def State.laneBlock (s : State) (j : Nat) (b : Block) : State :=
  if b.idle then s
  else if j < 24 then (if b.ctl then s.laneBadBlock j else s.camBlock j b)
  else s.packetBlock j b

/-- One delivery slot of a lane's elastic buffer (R69). -/
def State.laneSlot (s : State) (j : Nat) : State :=
  let (l, out, ins, del) := (s.lane j).ebSlot
  let s := s.updLane j fun _ => l
  let s := if ins = 0 then s else s.setFld LANE_EBCNT_INS j (s.fld LANE_EBCNT_INS j + 1)
  let s := if del = 0 then s else s.setFld LANE_EBCNT_DEL j (s.fld LANE_EBCNT_DEL j + 1)
  match out with
  | .none => s
  | .block b => (if b.gap then s.laneLoss j else s).laneBlock j b
  | .error => (s.raise LANE_STAT_EB_ERR j).laneFlush j

/-- `n` delivery slots. -/
def State.laneSlots (s : State) (j : Nat) : Nat → State
  | 0 => s
  | n + 1 => (s.laneSlot j).laneSlots j n

/-- Write the blocks of a frame into the buffer, with `reads` delivery slots spread over the frame. -/
def State.laneFill (s : State) (j reads : Nat) : Nat → List (Option Block) → State
  | _, [] => s
  | i, b :: bs =>
    let s := match b with
      | none => s
      | some b =>
        let (l, ovf) := (s.lane j).ebPush b
        let s := s.updLane j fun _ => l
        if ovf then (s.raise LANE_STAT_EB_ERR j).laneFlush j else s
    (s.laneSlots j ((i + 1) * reads / 77 - i * reads / 77)).laneFill j reads (i + 1) bs

/-- The control word of a received frame: LSTART marks its block; other words for this side wait for their unit; a word of
a reserved type, or of a type not meant for this side, is discarded with CTL_RSVD (R74). -/
def State.laneCtl (s : State) (j w : Nat) (bs : List (Option Block)) : State × List (Option Block) :=
  let t := w / 2 ^ 28
  if t = 0 then (s, bs)
  else if j < 24 ∧ t = 3 then
    let k := bits w 27 21
    (s, bs.mapIdx fun i b => if i = k then b.map fun b => if b.ctl then b else { b with start := some (bits w 20 0) } else b)
  else if (j < 24 ∧ (t = 5 ∨ t = 7 ∨ t = 9)) ∨ (28 ≤ j ∧ t = 8) then
    (s.updLane j fun l => { l with ctlIn := l.ctlIn ++ [w] }, bs)
  else (s.raise LANE_STAT_CTL_RSVD j, bs)

/-- 16 or more of some 64 consecutive headers are invalid; `old` holds the last 63, newest first (R67). -/
def headersLost : List Bool → List Bool → Bool
  | _, [] => false
  | old, h :: hs =>
    let win := h :: old.take 63
    (win.countP (!·) ≥ 16) || headersLost win hs

/-- A frame received in LOCKED (R67–R69, R74). -/
def State.laneFrame (s : State) (j w reads : Nat) : State :=
  let s := s.setReg .LANE_CW j (s.reg .LANE_CW j + 1)
  let l := s.lane j
  let hs := (List.range 77).map fun k => (frameHeader w k).isSome
  if headersLost l.hdrs hs then ((s.raise LANE_STAT_LOCK_LOST j).updLane j fun l => { l with good := 0 }).laneTo j .hunt
  else
    let s := s.updLane j fun l => { l with hdrs := (hs.reverse ++ l.hdrs).take 63 }
    match rsDecode (frameSymbols w) with
    | none =>
      let s := (s.raise LANE_STAT_UCW j).count .LANE_UCWTOT j 1 0xFFFFFFFF
      s.updLane j fun l => { l with
        descr := (frameBlocks w l.descr).2, rxCnt := l.rxCnt.map (fun c => (c + 1) % 65536), gap := true }
    | some (syms, n) =>
      let f := symbolsFrame syms
      let cnt := bits f 5097 5082
      let s := s.raiseIf ((l.rxCnt.map fun c => (c + 1) % 65536 != cnt).getD false) LANE_STAT_FCNT_ERR j
      let s := s.count .LANE_CSYM j n 0xFFFFFFFF
      let (bs, reg) := frameBlocks f l.descr
      let s := s.updLane j fun l => { l with rxCnt := some cnt, descr := reg, csym := l.csym + n }
      let (s, bs) := s.laneCtl j (bits f 5129 5098) bs
      s.laneFill j reads 0 bs

/-- A codeword at the candidate offset (R67). -/
def State.laneCodeword (s : State) (j w reads : Nat) : State :=
  let l := s.lane j
  let w := if s.on LANE_CTL_LPBK j then l.txLast else w
  let w := if s.on LANE_CTL_RX_INV j then w ^^^ polarity (l.cand % 2 == 1) else w
  match l.st with
  | .hunt =>
    if frameValid w then (s.updLane j fun l => { l with good := 1 }).laneTo j .verify
    else s.updLane j fun l => { l with cand := (l.cand + 1) % 5440 }
  | .verify =>
    if !frameValid w then (s.updLane j fun l => { l with good := 0, cand := (l.cand + 1) % 5440 }).laneTo j .hunt
    else if l.good + 1 < 4 then s.updLane j fun l => { l with good := l.good + 1 }
    else (s.updLane j fun l => { l with good := 4, descr := (descramble 0 (framePayload w 76)).1 }).laneTo j .locked
  | .locked => s.laneFrame j w reads
  | _ => s

/-- The outcome of a sweep: the working code with the largest height, the lowest of equals (R72). -/
def sweepBest (hmin : Nat) (heights : List (Option Nat)) : Option (Nat × Nat) :=
  (heights.mapIdx fun i h => (i, h)).foldl (fun best e =>
    match e.2 with
    | some h =>
      if h < hmin then best
      else match best with
        | some (_, hb) => if hb < h then some (e.1, h) else best
        | none => some (e.1, h)
    | none => best) none

/-- A packet passed to REF (R177). -/
def State.refPacket (s : State) (j : Nat) (p : Packet) : State :=
  let n := p.blocks
  let s := if p.ch = 1 then { s with ref := { s.ref with outst := upd 0 (· - n) s.ref.outst j } } else s
  if (p.ch = 1 ∧ n = 2) ∨ (p.ch = 0 ∧ 2 < n) then { s with ref := { s.ref with inbox := s.ref.inbox ++ [(j, p)] } }
  else
    let s := s.raise REF_STAT_PKT_ERR
    if p.ch = 0 then s.refReturn j n else if p.ch = 1 then s.refGrant else s

/-- A packet passed to SPAN (R237, R239). -/
def State.spanPacket (s : State) (p : Nat) (k : Packet) : State :=
  if 6 ≤ k.ch then s.raise SPAN_STAT_PKT_ERR
  else if 2 ≤ k.ch ∧ (s.spanPort p).st ≠ .up then s
  else if (s.spanPort p).st = .off then s
  else s.updSpan p fun q => { q with inbox := q.inbox ++ [k] }

/-! ### Commands -/

/-- LANE_ENABLE: a write of LANE_CTL with EN set. -/
def execLaneEnable (m : Master) (j : Fin 36) (v : Word) (s : State) : Host.Outcome State Fault Refusal :=
  .next (s.guardWrite m .LANE_CTL j (·.laneCtlWrite j (v ||| 1)))

/-- LANE_DISABLE: a write of LANE_CTL with EN clear. -/
def execLaneDisable (m : Master) (j : Fin 36) (v : Word) (s : State) : Host.Outcome State Fault Refusal :=
  .next (s.guardWrite m .LANE_CTL j (·.laneCtlWrite j (v &&& 0xFFFFFFFE)))

/-- LANE_RETRAIN: a write of LANE_CTL with RETRAIN set. -/
def execLaneRetrain (m : Master) (j : Fin 36) (v : Word) (s : State) : Host.Outcome State Fault Refusal :=
  .next (s.guardWrite m .LANE_CTL j (·.laneCtlWrite j (v ||| 0x2000)))

/-- Packets of a Span port that its lane j carries (R237): channels 0–2 travel on the lowest LOCKED lane, channel 3 on the next,
channels 4 and 5 on the one after, wrapping back; channels 2–5 only while the port is UP (R239). -/
def State.spanQueue (s : State) (p j : Nat) : List Packet :=
  let ls := s.spanLanes p
  let q := s.spanPort p
  q.outbox.filter fun k =>
    let n := if k.ch ≤ 2 then 0 else if k.ch = 3 then 1 else 2
    ls[n % ls.length]? == some j && (k.ch < 2 || q.st == .up)

/-- A Span port after lane j has started packets: they have left its queue, an ECHO_REQ awaits its answer, and the record whose
packet the lane is sending is noted. -/
def SpanPort.sent (q : SpanPort) (j : Nat) (started : List (Packet × Packet)) (idle : Bool) : SpanPort :=
  let echoes := started.filterMap fun (_, k) =>
    if k.ch = 1 ∧ (k.bytes.headD 0).toNat = 2 then some (leNat ((k.bytes.drop 1).take 1), leNat ((k.bytes.drop 8).take 8)) else none
  let last := (started.getLast?.map (·.1.rec_)).getD (((q.sending.find? (·.1 == j)).map (·.2)).getD [])
  { q with
    outbox := started.foldl (fun l k => l.erase k.1) q.outbox
    echo := (echoes.reverse ++ q.echo).take 256
    sending := (if idle || last.isEmpty then [] else [(j, last)]) ++ q.sending.filter (·.1 != j) }

/-- The next frame of lane j leaves: on a Span lane with the packets that wait for it. -/
def State.laneTransmit (s : State) (j : Nat) : State :=
  let inv := s.on LANE_CTL_TX_INV j
  if j < 28 then s.updLane j fun l => (l.transmit [] 0 inv).1
  else
    let p := (j - 28) / 4
    let (l, started) := (s.lane j).transmit (s.spanQueue p j) s.span.time inv
    (s.updLane j fun _ => l).updSpan p fun q => q.sent j started l.txq.isEmpty

/-- FRAME_TRANSMIT: the next frame of an enabled lane. -/
def execFrameTransmit (j : Fin 36) (s : State) : Host.Outcome State Fault Refusal :=
  .next (s.whenLive fun s => if s.on LANE_CTL_EN j then s.laneTransmit j else s)

/-- CODEWORD_RECEIVE: the 5,440 bits at the candidate offset, and how many blocks the delivering side takes from the elastic
buffer meanwhile. -/
def execCodewordReceive (j : Fin 36) (w reads : Nat) (s : State) : Host.Outcome State Fault Refusal :=
  .next (s.whenLive fun s => s.laneCodeword j (w % 2 ^ 5440) reads)

/-- LOCK_TIMEOUT: no LOCKED within LOCK_TO (R67). -/
def execLockTimeout (j : Fin 36) (s : State) : Host.Outcome State Fault Refusal :=
  .next (s.whenLive fun s =>
    let st := (s.lane j).st
    if (st == .hunt || st == .verify) && s.on LANE_CTL_AUTO_RT j then s.laneTo j .retrain else s)

/-- RETRY_TIMEOUT: RETRY seconds in FAILED. -/
def execRetryTimeout (j : Fin 36) (s : State) : Host.Outcome State Fault Refusal :=
  .next (s.whenLive fun s =>
    if (s.lane j).st == .failed && s.fld LANE_RT_RETRY j != 0 then s.laneTo j .retrain else s)

/-- CORRECTED_SYMBOL_WINDOW: the end of a 1 ms window (R71). -/
def execCorrectedSymbolWindow (j : Fin 36) (s : State) : Host.Outcome State Fault Refusal :=
  .next (s.whenLive fun s =>
    let n := (s.lane j).csym
    let lim := s.fld LANE_CSLIM_CSYM_LIM j
    let s := s.updLane j fun l => { l with csym := 0 }
    if s.locked j && s.on LANE_CTL_AUTO_RT j && lim != 0 && decide (lim < n) then s.laneTo j .retrain else s)

/-- RETRAIN_SWEEP_END: the height of each code from 0 on, none for a code that did not lock (R72). -/
def execRetrainSweepEnd (j : Fin 36) (heights : List (Option Nat)) (s : State) : Host.Outcome State Fault Refusal :=
  .next (s.whenLive fun s =>
    if (s.lane j).st ≠ .retrain then s
    else match sweepBest (s.fld LANE_RT_HMIN j) (heights.take 32) with
      | some (code, h) =>
        let s := (s.setFld LANE_CTL_PEAK j code).raise LANE_STAT_RT_DONE j
        (s.updLane j fun l => { l with height := min 63 h, cand := 0, good := 0 }).laneTo j .hunt
      | none => (s.raise LANE_STAT_FAILED j).laneTo j .failed)

/-- A write of LANE_ESCAN_CTL_j (R70). -/
def State.laneScanWrite (s : State) (j : Nat) (v : Word) : State :=
  let s := s.regStore .LANE_ESCAN_CTL j v
  if !v.getLsbD 31 || s.on LANE_ESCAN_RES_BUSY j then s
  else if s.locked j then (s.setFld LANE_ESCAN_RES_DONE j 0).setFld LANE_ESCAN_RES_BUSY j 1
  else (s.setFld LANE_ESCAN_RES_DONE j 1).setReg .LANE_ESCAN_ERR j 0xFFFFFFFF

/-- EYE_SCAN_START: a write of LANE_ESCAN_CTL. -/
def execEyeScanStart (m : Master) (j : Fin 36) (v : Word) (s : State) : Host.Outcome State Fault Refusal :=
  .next (s.guardWrite m .LANE_ESCAN_CTL j (·.laneScanWrite j v))

/-- EYE_SCAN_DONE: the disagreements counted over 2^(16 + DWELL) bits. A scan that is running when its lane leaves LOCKED stays BUSY
until this command gives its count (DESIGN CHOICE, log 136). -/
def execEyeScanDone (j : Fin 36) (n : Nat) (s : State) : Host.Outcome State Fault Refusal :=
  .next (s.whenLive fun s =>
    if s.on LANE_ESCAN_RES_BUSY j then
      let dw := min 12 (s.fld LANE_ESCAN_CTL_DWELL j)
      let s := (s.setFld LANE_ESCAN_RES_DONE j 1).setFld LANE_ESCAN_RES_BUSY j 0
      s.setReg .LANE_ESCAN_ERR j (BitVec.ofNat 32 (min n (2 ^ (16 + dw))))
    else s)

/-- PACKET_RECEIVE: the oldest whole packet of a feed or Span lane goes to REF or SPAN. -/
def execPacketReceive (j : Fin 12) (s : State) : Host.Outcome State Fault Refusal :=
  .next (s.whenLive fun s =>
    let lane := 24 + j.val
    match (s.lane lane).pkts with
    | [] => s
    | p :: ps =>
      let s := s.updLane lane fun l => { l with pkts := ps }
      if lane < 28 then s.refPacket lane p
      else (s.spanPacket ((lane - 28) / 4) p).doIf (decide (p.ch < 6)) (·.spanReturn lane p.ch p.blocks))

/-- CREDIT: the oldest CREDIT word of a Span lane (R84). -/
def execCredit (j : Fin 12) (s : State) : Host.Outcome State Fault Refusal :=
  .next (s.whenLive fun s =>
    let lane := 24 + j.val
    match (s.lane lane).ctlIn.find? fun w => w / 2 ^ 28 == 8 with
    | none => s
    | some w => s.updLane lane fun l => ({ l with ctlIn := l.ctlIn.erase w }).addCredit w)

end Sys2Proof.Machine
end

