-- ==== Sys2Proof/Machine/Memory.lean ====
section
/-!
DEFINITION. Sys2Proof/Machine/Memory.lean: accesses of the masters to stripe banks, shared pool and CXL window: regions
(R253), the access check (R10), banks under test (R258), window decoders (R264), freezing and poison lists (R265–R267).
SRAM bytes lie in `State.mem` at their bus address; a byte of a CXL device lies at `dpaKey port address`.
-/
namespace Sys2Proof.Machine

/-- Addresses of the register blocks and the Flacon window. -/
def regSpace (a : Nat) : Bool := decide (0x40000000 ≤ a) && decide (a < 0x41800000)

/-- Bus address of a stripe bank. -/
def stripeBase (e : Nat) : Nat := 0x10000000 + 0x300000 * e

/-- Bus address of the shared pool. -/
def poolBase : Nat := 0x14000000

/-- Where a byte of a CXL device lies in `State.mem`. -/
def dpaKey (port dpa : Nat) : Nat := (port + 1) * 2 ^ 48 + dpa

/-- One CXL port. -/
def State.cxlp (s : State) (p : Nat) : CxlPort := look {} s.cxl p

/-- Change one CXL port. -/
def State.updCxl (s : State) (p : Nat) (f : CxlPort → CxlPort) : State := { s with cxl := upd {} f s.cxl p }

/-! ### Window decoders (R264) -/

/-- Ways of a decoder. -/
def State.decWays (s : State) (k : Nat) : Nat := 2 ^ s.fld CXL_DEC_CTL_WAYS k

/-- Base and size of a decoder in bytes. -/
def State.decBase (s : State) (k : Nat) : Nat := s.fld CXL_DEC_BASE_BASE k * 2 ^ 28
def State.decSize (s : State) (k : Nat) : Nat := s.fld CXL_DEC_SIZE_SIZE k * 2 ^ 28

/-- Target i of a decoder. -/
def State.decTgt (s : State) (k i : Nat) : Nat :=
  s.fld (match i with | 0 => CXL_DEC_CTL_TGT0 | 1 => CXL_DEC_CTL_TGT1 | 2 => CXL_DEC_CTL_TGT2 | _ => CXL_DEC_CTL_TGT3) k

/-- Targets of a decoder. -/
def State.decTgts (s : State) (k : Nat) : List Nat := (List.range (min 4 (s.decWays k))).map (s.decTgt k)

/-- The enabled decoder that maps an address. -/
def State.decOf (s : State) (a : Nat) : Option Nat :=
  [0, 1, 2, 3].find? fun k => s.on CXL_DEC_CTL_EN k && decide (s.decBase k ≤ a) && decide (a < s.decBase k + s.decSize k)

/-- Port and device physical address of an address in decoder k. -/
def State.decMap (s : State) (k a : Nat) : Nat × Nat :=
  let o := a - s.decBase k
  let page := o / 4096
  let w := s.decWays k
  (s.decTgt k (page % w), 2 ^ 28 * s.fld CXL_DEC_DPA_DPA k + 4096 * (page / w) + o % 4096)

/-- A decoder is frozen: some target of it is (R265). -/
def State.decFrozen (s : State) (k : Nat) : Bool := (s.decTgts k).any fun p => (s.cxlp p).frozen

/-! ### Poison list (R267) -/

/-- Line addresses of a port's list, entry by entry. -/
def State.poisonEntry (s : State) (p i : Nat) : Option Nat :=
  if s.on CXL_P_PL_LO_V (p * 8 + i) then
    some (s.fld CXL_P_PL_LO_ADDR_L (p * 8 + i) * 64 + s.fld CXL_P_PL_HI_ADDR_H (p * 8 + i) * 2 ^ 32)
  else none

/-- A request touches a listed line, other than a write that covers all 64 bytes of it. -/
def State.poisonHit (s : State) (p a n : Nat) (write : Bool) : Bool :=
  (List.range 8).any fun i =>
    match s.poisonEntry p i with
    | some l => decide (l < a + n) && decide (a < l + 64) && !(write && decide (a ≤ l) && decide (l + 64 ≤ a + n))
    | none => false

/-- Free bytes (log 1). -/
def State.freeBytes (s : State) (n : Nat) : List Byte × State :=
  ((List.range n).map fun i => BitVec.ofNat 8 (Config.freeNat (s.freeCtr + i)), { s with freeCtr := s.freeCtr + n })

/-! ### Access of one part -/

/-- The region of an address: target, offset in it, and where its bytes lie; none outside the map (R253). -/
inductive Where where
  | rom
  | sram (t ofs : Nat)
  | cxl (k : Nat)
  | none
  deriving DecidableEq, Repr

/-- Find the region of a part. -/
def State.region (s : State) (a n : Nat) : Where :=
  if a + n ≤ 0x40000 then .rom
  else if 0x10000000 ≤ a ∧ a + n ≤ 0x13000000 then .sram ((a - 0x10000000) / 0x300000) ((a - 0x10000000) % 0x300000)
  else if poolBase ≤ a ∧ a + n ≤ poolBase + 0x1000000 then .sram 16 (a - poolBase)
  else match s.decOf a with
    | some k => if a + n ≤ s.decBase k + s.decSize k then .cxl k else .none
    | Option.none => .none

/-- A bank the part touches is under a DESTRUCTIVE test (R258). -/
def State.underTest (s : State) (t ofs n : Nat) : Bool :=
  match s.blt with
  | some b =>
    !b.preserving && (if t < 16 then b.sb.testBit t
      else (List.range (n / 32 + 2)).any fun i => decide (32 * i < n + 32) && b.sp.testBit ((ofs / 32 + i) % 32)
        && decide ((ofs / 32 + i) * 32 < ofs + n))
  | none => false

/-! ### Freezing (R265–R267) -/

/-- The port freezes: the log names the failing request, and the history stays as it is now (R265, R269). -/
def State.cxlFreeze (s : State) (p kind : Nat) (r : CxlReq) : State :=
  if (s.cxlp p).frozen then s
  else
    let s := s.updCxl p fun c => { c with frozen := true, logrd := false, shown := c.hist }
    let s := s.setWide .CXL_P_LOG_LO .CXL_P_LOG_HI p (r.addr % 2 ^ 40)
    s.setReg .CXL_P_LOG_INFO p (BitVec.ofNat 32 (kind + 16 * r.write.toNat + 256 * (r.master % 64)))

/-- The history shows the response of a request. -/
def cxlMark (r : CxlReq) : List CxlReq → List CxlReq
  | [] => []
  | x :: xs => if x = { r with tag := none, grp := 0, undo := [] } then { x with result := rERROR } :: xs else x :: cxlMark r xs

/-- A line enters the poison list, or sets PLIST_FULL. -/
def State.poisonAdd (s : State) (p line : Nat) : State :=
  let idx := List.range 8
  if idx.any fun i => s.poisonEntry p i == some line then s
  else match idx.find? fun i => (s.poisonEntry p i).isNone with
    | some i =>
      let s := (s.setFld CXL_P_PL_LO_V (p * 8 + i) 1).setFld CXL_P_PL_LO_ADDR_L (p * 8 + i) (line / 64 % 2 ^ 26)
      s.setFld CXL_P_PL_HI_ADDR_H (p * 8 + i) (line / 2 ^ 32)
    | none => s.raise CXL_P_STAT_PLIST_FULL p

/-- A write answered OK removes the entries whose 64 bytes it covers. -/
def State.poisonClear (s : State) (p a n : Nat) : State :=
  (List.range 8).foldl (fun s i =>
    match s.poisonEntry p i with
    | some l => if a ≤ l ∧ l + 64 ≤ a + n then s.setFld CXL_P_PL_LO_V (p * 8 + i) 0 else s
    | none => s) s

/-- The flag of a failure: 1 poison, 2 an uncorrectable error, 3 a timeout, 4 a lost link. -/
def cxlFlag (kind : Nat) : Flag :=
  match kind with
  | 1 => CXL_P_STAT_POISON
  | 2 => CXL_P_STAT_UCE
  | 3 => CXL_P_STAT_TIMEOUT
  | _ => CXL_P_STAT_LINK_DOWN

/-- A request fails: its flag, its mark in the history, the freeze, and for poison its line l in the list (R265–R267). -/
def State.cxlFault (s : State) (p kind l : Nat) (r : CxlReq) : State :=
  let s := (s.raise (cxlFlag kind) p).updCxl p fun c => { c with hist := (cxlMark r c.hist.reverse).reverse }
  let s := s.cxlFreeze p kind r
  if kind = 1 then s.poisonAdd p ((r.addr / 64 + l % max 1 r.lines) * 64) else s

/-! ### Requests (R265, R266, R270) -/

/-- Masters whose requests wait for their response while other commands are taken: the engines, REF's reads, the DMA channels
and CMP. Every other master takes its response within the command that makes the request (log 123). -/
def waitsCxl (m : Nat) : Bool := decide (m < 16) || m == 17 || (decide (20 ≤ m) && decide (m ≤ 36))

/-- A CXL request is issued: the history, the exit from L1, and the request waiting for its response; or the response at once, an
ERROR where the device has been told to fail this request. -/
def State.cxlIssue (s : State) (p m a n : Nat) (write : Bool) : Nat × State :=
  let r : CxlReq :=
    { addr := a, master := m, write := write, lines := (a % 64 + n + 63) / 64, bytes := n, time := s.span.time, result := rOK }
  let now := (s.cxlp p).early.find? (·.1 == 0)
  let s := s.updCxl p fun c =>
    { c with
      st := if c.st == .l1 then .up else c.st, hist := (r :: c.hist).take 64
      early := (c.early.filter (·.1 != 0)).map fun e => (e.1 - 1, e.2) }
  match now with
  | some (_, kind, l) => (rERROR, s.cxlFault p kind l r)
  | none =>
    (rOK, if waitsCxl m then s.updCxl p fun c => { c with outst := c.outst ++ [r] }
      else if write then s.poisonClear p a n else s)

/-- What an access of a master that has just been made is for, on its parts that wait (R264, R268, R277); `a` is 9 where the access
has failed already. -/
def State.tagNew (s : State) (m a b : Nat) : State :=
  let mine := fun (r : CxlReq) => r.master == m && r.tag.isNone
  let g := 1 + (([0, 1, 2, 3].flatMap fun p => (s.cxlp p).outst.map (·.grp)).foldl max 0)
  [0, 1, 2, 3].foldl (fun s p =>
    if (s.cxlp p).outst.any mine then
      s.updCxl p fun c => { c with outst := c.outst.map fun r => if mine r then { r with tag := some (a, b), grp := g } else r }
    else s) s

/-- A master gives up the requests of its that fit `q`: their responses have no more effect on it. -/
def State.tagDrop (s : State) (m : Nat) (q : CxlReq → Bool) : State :=
  let mine := fun (r : CxlReq) => r.master == m && q r
  [0, 1, 2, 3].foldl (fun s p =>
    if (s.cxlp p).outst.any mine then
      s.updCxl p fun c => { c with outst := c.outst.map fun r => if mine r then { r with tag := some (9, 0) } else r }
    else s) s

/-- A request of a master waits that fits `q`, other than those it has given up. -/
def State.tagWaits (s : State) (m : Nat) (q : Nat × Nat → Bool) : Bool :=
  [0, 1, 2, 3].any fun p => (s.cxlp p).outst.any fun r => r.master == m && (r.tag.map fun t => t.1 != 9 && q t).getD true

/-! ### The level-2 cache of the service cores (R288) -/

/-- 64-byte lines of an access. -/
def linesOf (a n : Nat) : List Nat := (List.range ((a % 64 + n + 63) / 64)).map (a / 64 + ·)

/-- A service core's read of main memory that the cache may answer: every line of it has been taken in and not invalidated. -/
def State.l2May (s : State) (m k a n : Nat) : Bool :=
  decide (40 ≤ m) && decide (m ≤ 47) && s.boot.mainDec == some k && (linesOf a n).all s.l2.contains

/-- An access to main memory has been issued: a service core's lines enter the cache, and a write of any other master invalidates its
lines. -/
def State.l2Note (s : State) (m k a n : Nat) (write : Bool) : State :=
  if s.boot.mainDec != some k then s
  else if 40 ≤ m ∧ m ≤ 47 then { s with l2 := ((linesOf a n) ++ s.l2.filter fun l => !(linesOf a n).contains l).take 4096 }
  else if write then { s with l2 := s.l2.filter fun l => !(linesOf a n).contains l }
  else s

/-- One part of an access: its response, where its bytes lie, and the state with what the access records. The boot ROM is
read by the root core, and by master 50 at D2 (R427). A port that is not up answers ERROR (DEDUCED, log 15). Whether the cache still
holds a line is not stated: a free value decides (R288, log 129). -/
def State.memPart (s : State) (m : Nat) (kind : Kind) (a n : Nat) : Nat × Nat × State :=
  match s.region a n with
  | .none => (rERROR, 0, s)
  | .rom =>
    if kind = .w then (rERROR, 0, s)
    else if m = 48 ∨ (m = 50 ∧ kind = .r ∧ s.dbgLevel = 2) then (rOK, a, s)
    else (rDENIED, 0, s.logDenied m 45 a kind)
  | .sram t ofs =>
    match s.access m t ofs n kind with
    | (false, s) => (rDENIED, 0, s)
    | (true, s) => if s.underTest t ofs n && m != 51 then (rBUSY, 0, s) else (rOK, a, s)
  | .cxl k =>
    match s.access m (17 + k) (a - s.decBase k) n kind with
    | (false, s) => (rDENIED, 0, s)
    | (true, s) =>
      let (p, dpa) := s.decMap k a
      let may := kind = .r && s.l2May m k a n
      let hit := may && s.free.testBit 0
      let s := s.doIf may State.drawn
      if hit then (rOK, dpaKey p dpa, s)
      else if s.decFrozen k then (rFROZEN, 0, s)
      else if s.poisonHit p a n (kind = .w) then (rERROR, 0, s)
      else if (s.cxlp p).st = .up ∨ (s.cxlp p).st = .l1 then
        let (r, s) := s.cxlIssue p m a n (kind = .w)
        (r, dpaKey p dpa, s.doIf (r = rOK) (·.l2Note m k a n (kind = .w)))
      else (rERROR, 0, s)

/-- Where a permitted write of a part puts its bytes, whatever its target answers. -/
def State.placeOf (s : State) (m a n : Nat) : Option Nat :=
  match s.region a n with
  | .sram t ofs => if (s.access m t ofs n .w).1 then some a else none
  | .cxl k => if (s.access m (17 + k) (a - s.decBase k) n .w).1 then
      let (p, dpa) := s.decMap k a
      some (dpaKey p dpa)
    else none
  | _ => none

/-! ### Writes that meet, and writes that wait (R256, R266) -/

/-- What stands at `n` bytes from `k`, cell by cell. -/
def memCells (mem : Memory) (k n : Nat) : List (Nat × Byte) := ((List.range n).map (k + ·)).zip (memRead mem k n)

/-- A write puts its bytes where they lie; on a CXL device the request that waits holds what they replace, and an older one no
longer gives those bytes back. -/
def State.putBytes (s : State) (m k : Nat) (bs : List Byte) : State :=
  let t := { s with mem := memWrite s.mem k bs }
  if k < 2 ^ 48 then t
  else
    let old := if waitsCxl m then memCells s.mem k bs.length else []
    t.updCxl (k / 2 ^ 48 - 1) fun c =>
      if waitsCxl m then { c with outst := c.outst.dropLast ++ (c.outst.getLast?.map fun r => { r with undo := old }).toList }
      else { c with outst := c.outst.map fun r =>
        { r with undo := r.undo.filter fun u => decide (u.1 < k) || decide (k + bs.length ≤ u.1) } }

/-- Masters of port 0 of the shared pool: the cores, and the hardware units in the cycles they leave idle (R255). -/
def port0Masters : List Nat := [48, 40, 41, 42, 43, 44, 45, 46, 47, 16, 18, 19, 17, 36, 37]

/-- Masters of port 1 of the shared pool: the hardware units, the DMA channels and Blotter (R255). -/
def poolPort1 (m : Nat) : Bool := (decide (16 ≤ m) && decide (m ≤ 37)) || m == 51

/-- The write of a part that is permitted: its response, with the bytes written. A write of port 1 that meets a port 0 write of the
same 32-byte word writes nothing there and ends with ERROR; MEM latches the collision (R256). -/
def State.partWrite (s : State) (m a k : Nat) (bs : List Byte) : Nat × State :=
  match s.meet with
  | some (win, w) =>
    let lo := poolBase + 32 * w
    if poolPort1 m ∧ m ≠ win ∧ a < lo + 32 ∧ lo < a + bs.length then
      let s := { s with mem := memWrite s.mem a (bs.take (lo - a)), meet := none }
      let s := { s with mem := memWrite s.mem (lo + 32) (bs.drop (lo + 32 - a)) }
      (rERROR, ((s.raise MEM_STAT_WCOLL).setFld MEM_COLL_ADDR_OFS 0 (max a lo - poolBase)).setReg .MEM_COLL_INFO 0
        (BitVec.ofNat 32 (win + 256 * m)))
    else (rOK, s.putBytes m k bs)
  | none => (rOK, s.putBytes m k bs)

/-- The parts of an access, split at 4 KiB pages, each with its own check and response. R264 says so of the window decoders;
for a stripe bank or the pool the spec does not say whether an access that crosses a page is judged by part or as a whole
(R383), and the model judges it by part (DESIGN CHOICE, log 113). -/
def memParts : Nat → Nat → Nat → List (Nat × Nat)
  | 0, _, _ => []
  | fuel + 1, a, n =>
    if n = 0 then []
    else
      let k := min n (4096 - a % 4096)
      (a, k) :: memParts fuel (a + k) (n - k)

/-- Combine responses: the first part that is not OK (R264). -/
def worse (r r' : Nat) : Nat := if r = rOK then r' else r

/-- Read `n` bytes at a bus address as a master: response and data; a refused part reads as 0. -/
def State.busRead (s : State) (m a n : Nat) : Nat × List Byte × State :=
  (memParts (n / 4096 + 2) a n).foldl (fun (acc : Nat × List Byte × State) p =>
    let (r, k, s) := acc.2.2.memPart m .r p.1 p.2
    (worse acc.1 r, acc.2.1 ++ (if r ≠ rOK then List.replicate p.2 0
      else if k < 0x40000 then (List.range p.2).map fun i => Config.romByte (k + i)
      else memRead s.mem k p.2), s)) (rOK, [], s)

/-- Write bytes at a bus address as a master: the response; a refused part writes nothing. -/
def State.busWrite (s : State) (m a : Nat) (bs : List Byte) : Nat × State :=
  ((memParts (bs.length / 4096 + 2) a bs.length).foldl (fun (acc : Nat × List Byte × State) p =>
    let (r, k, s) := acc.2.2.memPart m .w p.1 p.2
    let (r, s) := if r = rOK then s.partWrite m p.1 k (acc.2.1.take p.2) else (r, s)
    (worse acc.1 r, acc.2.1.drop p.2, s)) (rOK, bs, s)) |> fun t => (t.1, t.2.2)

/-- Bytes of a row store, read as 0 while its bank is under a DESTRUCTIVE test (R258). -/
def State.rowBytes (s : State) (e ofs n : Nat) : List Byte :=
  if s.underTest e ofs n then List.replicate n 0 else memRead s.mem (stripeBase e + ofs) n

/-- Write into a row store as its engine; a bank under a DESTRUCTIVE test takes nothing (R258). -/
def State.rowWrite (s : State) (e ofs : Nat) (bs : List Byte) : State :=
  if s.underTest e ofs bs.length then s else { s with mem := memWrite s.mem (stripeBase e + ofs) bs }

end Sys2Proof.Machine
end

