-- ==== Sys2Proof/Machine/Ingest.lean ====
section
/-!
DEFINITION. Sys2Proof/Machine/Ingest.lean: the ingest units: correction of a line (R85–R89), calibration tables (R90–R93),
lamp gain (R94, R95), statistics (R97, R98), the calibration accumulator (R99), and the copies Accord and SPAN make of a
corrected line (R100–R102, R165, R244).
-/
namespace Sys2Proof.Machine

/-! ### Engines and rings -/

/-- One engine. -/
def State.eng (s : State) (e : Nat) : Eng := look {} s.engs e

/-- Change one engine. -/
def State.updEng (s : State) (e : Nat) (f : Eng → Eng) : State := { s with engs := upd {} f s.engs e }

/-- Element size of a ring in bytes (R110). -/
def Ring.esize (r : Ring) : Nat := if r.elem = 0 then 8 else 4

/-- Slot pitch of a ring (R110). -/
def Ring.pitch (r : Ring) : Nat := (r.width * r.esize + 511) / 512 * 512

/-- Row-store offset of a slot and of its header. -/
def Ring.slotOfs (r : Ring) (i : Nat) : Nat := r.base + i * r.pitch
def Ring.hdrOfs (r : Ring) (i : Nat) : Nat := r.hdr + 32 * i

/-- Slot of a line: n mod DEPTH. -/
def Ring.slotOf (r : Ring) (n : Int) : Nat := (n % ((max 1 r.depth : Nat) : Int)).toNat

/-- A ring of an engine's active program. -/
def State.engRing (s : State) (e k : Nat) : Option Ring := ((s.eng e).prog.map Prog.rings).bind fun l => l[k]?

/-- Integer line a slot header carries (R101). -/
def hdrLine (h : List Byte) : Nat := leNat (h.take 8) / 65536

/-! ### Camera geometry -/

/-- Camera pixels, channels. -/
def State.camPx (s : State) (c : Nat) : Nat := s.fld CAM_PIX_PIX c
def State.camCh (s : State) (c : Nat) : Nat := s.fld CAM_CTL_CH c

/-- Trigger offset: lines and fraction (R34). -/
def State.camI (s : State) (c : Nat) : Nat := s.fld TICK_TOFF_I c
def State.camF (s : State) (c : Nat) : Nat := s.fld TICK_TOFF_F c

/-! ### Correction (R85–R87) -/

/-- What the correction of one line reads. -/
structure IuIn where
  px   : Nat
  ch   : Nat
  w    : Nat
  used : Nat
  samples : Array Nat
  /-- dark and gain of sample position p × 4 + ch, and the defect byte of pixel p -/
  cal  : Array (Nat × Nat)
  code : Array Nat
  dpr  : Bool
  satmax : Bool
  g    : Nat
  /-- free value for a coded sample without a good pixel in reach -/
  open_ : Nat

/-- Sample of pixel p, channel c. -/
def IuIn.s (i : IuIn) (p c : Nat) : Nat := i.samples.getD (p * i.ch + c) 0

/-- x: the sample aligned to 14 bits. -/
def IuIn.x (i : IuIn) (p c : Nat) : Nat := i.s p c * 2 ^ (14 - i.w)

/-- t of the sample itself. -/
def IuIn.t (i : IuIn) (p c : Nat) : Nat :=
  let k := i.cal.getD (p * 4 + c) (0, 0)
  (clampInt 0 65535 ((((i.x p c : Int) - k.1) * k.2 + 8192) / 16384)).toNat

/-- x − dark with gain 1. -/
def IuIn.dark (i : IuIn) (p c : Nat) : Nat :=
  (clampInt 0 65535 ((i.x p c : Int) - (i.cal.getD (p * 4 + c) (0, 0)).1)).toNat

/-- Defect code. -/
def IuIn.defect (i : IuIn) (p c : Nat) : Nat := bits (i.code.getD p 0) (2 * c + 1) (2 * c)

/-- The sample is saturated (R86). -/
def IuIn.sat (i : IuIn) (p c : Nat) : Bool := i.s p c == (2 ^ i.used - 1) * 2 ^ (i.w - i.used)

/-- Nearest good pixels to the left and to the right, at most 4 away (R87). -/
def IuIn.left (i : IuIn) (p c : Nat) : Option Nat :=
  ([1, 2, 3, 4].find? fun d => decide (d ≤ p) && i.defect (p - d) c == 0).map (p - ·)
def IuIn.right (i : IuIn) (p c : Nat) : Option Nat :=
  ([1, 2, 3, 4].find? fun d => decide (p + d < i.px) && i.defect (p + d) c == 0).map (p + ·)

/-- Pixels whose t stands for the sample. -/
def IuIn.source (i : IuIn) (p c : Nat) : List Nat :=
  let code := i.defect p c
  if !i.dpr || code = 0 then [p]
  else
    let l := i.left p c
    let r := i.right p c
    match l, r with
    | some a, some b => if code = 1 then [a] else if code = 2 then [b] else [a, b]
    | some a, none => [a]
    | none, some b => [b]
    | none, none => []

/-- The corrected sample y. -/
def IuIn.y (i : IuIn) (p c : Nat) : Nat :=
  let src := i.source p c
  let t := match src with
    | [] => i.open_ % 65536
    | [a] => i.t a c
    | a :: b :: _ => (i.t a c + i.t b c + 1) / 2
  if i.satmax && src.any (i.sat · c) then 65535
  else min 65535 ((t * i.g + 8192) / 16384)

/-- A corrected line as Accord copies it. -/
structure IuOut where
  line : Int
  px   : Nat
  ch   : Nat
  /-- y in pixel order, 4 channels a pixel -/
  y    : Array Nat
  /-- saturated samples of good positions, per pixel -/
  sat  : Array Nat
  g    : Nat
  held : Bool
  fb8  : Bool
  tsw  : Bool

/-- Correct a line. -/
def IuIn.correct (i : IuIn) (line : Int) (held tsw : Bool) : IuOut where
  line := line
  px := i.px
  ch := i.ch
  y := ((List.range i.px).flatMap fun p =>
    (List.range 4).map fun c => if c < i.ch then i.y p c else 0).toArray
  sat := ((List.range i.px).map fun p => (List.range i.ch).countP fun c => i.sat p c && i.defect p c == 0).toArray
  g := i.g
  held := held
  fb8 := decide (i.used < i.w)
  tsw := tsw

/-! ### Copies of a line (R100, R101, R244) -/

/-- Header of a slot (R101). -/
def slotHeader (line : Int) (frac g cam flags first count sat b20 : Nat) : List Byte :=
  leBytes 8 (65536 * ofSigned 48 line + frac) ++ leBytes 2 g ++ leBytes 1 cam ++ leBytes 1 flags ++ leBytes 2 first
    ++ leBytes 2 count ++ leBytes 4 sat ++ leBytes 12 b20

/-- Pixels FIRST to FIRST + COUNT − 1, 8 bytes each. -/
def IuOut.pixels (o : IuOut) (first count : Nat) : List Byte :=
  (List.range (4 * count)).flatMap fun k => leBytes 2 (o.y.getD (4 * first + k) 0)

/-- Header of a window of a corrected line. -/
def IuOut.header (o : IuOut) (frac cam first count b20 : Nat) : List Byte :=
  let n := (List.range count).foldl (fun a k => a + o.sat.getD (first + k) 0) 0
  slotHeader o.line frac o.g cam
    (2 * o.held.toNat + 4 * o.fb8.toNat + 8 * o.tsw.toNat + 16 * (decide (n ≠ 0)).toNat) first count n b20

/-- The valid routes of a camera, while Accord routes: entry numbers. -/
def State.routesOf (s : State) (c : Nat) : List Nat :=
  if s.on ACCORD_CTL_EN then
    (List.range 64).filter fun i => s.on ACCORD_RTA_V i && s.fld ACCORD_RTA_CAM i == c
  else []

/-- Ring of a route. -/
def State.routeRing (s : State) (i : Nat) : Option Ring := s.engRing (s.fld ACCORD_RTA_ENG i) (s.fld ACCORD_RTA_RING i)

/-- Copy a line into the ring of one route, pixels first and header last (R100). -/
def State.routeCopy (s : State) (c i : Nat) (o : IuOut) : State :=
  match s.routeRing i with
  | none => s
  | some r =>
    let e := s.fld ACCORD_RTA_ENG i
    let first := s.fld ACCORD_RTB_FIRST i
    let count := s.fld ACCORD_RTB_COUNT i
    let k := r.slotOf o.line
    let (res, s) := s.busWrite 16 (stripeBase e + r.slotOfs k) ((o.pixels first count).take r.pitch)
    if res = rOK then (s.busWrite 16 (stripeBase e + r.hdrOfs k) (o.header (s.camF c) c first count 0)).2 else s

/-- What stands for a lost line in the ring of one route: pixel contents that are undefined, a free value (log 1), and a
header with BLIND = 1 (R89). -/
def State.routeBlind (s : State) (c i : Nat) (line : Int) : State :=
  match s.routeRing i with
  | none => s
  | some r =>
    let base := stripeBase (s.fld ACCORD_RTA_ENG i)
    let k := r.slotOf line
    let h := slotHeader line (s.camF c) 0 c 1 (s.fld ACCORD_RTB_FIRST i) (s.fld ACCORD_RTB_COUNT i) 0 0
    let s := (s.drawn.busWrite 16 (base + r.slotOfs k) (leBytes r.pitch s.free)).2
    (s.busWrite 16 (base + r.hdrOfs k) h).2

/-- Send packets of undescribed layout on a Span port (log 16), with the record they carry, if any. -/
def State.spanOpaque (s : State) (p ch kind : Nat) (nums : List Nat) (rec_ : List Byte := []) : State :=
  (Config.spanPackets kind nums).foldl (fun s b => s.spanSend p ch (b.take (if ch ≤ 2 then 64 else 512)) rec_) s

/-- Halo transmit entries that name a camera: port and entry (R244). -/
def State.haloOf (s : State) (c : Nat) : List (Nat × Nat) :=
  [(0, 0), (0, 1), (1, 0), (1, 1)].filter fun (p, k) =>
    s.on SPAN_HTX_V (2 * p + k) && s.fld SPAN_HTX_CAM (2 * p + k) == c && (s.spanPort p).st == .up

/-- Send the halo windows of a line. -/
def State.haloSend (s : State) (c : Nat) (o : IuOut) : State :=
  (s.haloOf c).foldl (fun s (p, k) =>
    let first := s.fld SPAN_HTX_FIRST (2 * p + k)
    let count := s.fld SPAN_HTX_COUNT (2 * p + k)
    s.spanOpaque p 3 3 (k :: ((o.header (s.camF c) c first count s.span.chip ++ o.pixels first count).map (·.toNat)))) s

/-- Send a lost line as headers with BLIND = 1 and no pixels. -/
def State.haloBlind (s : State) (c : Nat) (line : Int) : State :=
  (s.haloOf c).foldl (fun s (p, k) =>
    s.spanOpaque p 3 3 (k :: ((slotHeader line (s.camF c) 0 c 1 (s.fld SPAN_HTX_FIRST (2 * p + k))
      (s.fld SPAN_HTX_COUNT (2 * p + k)) 0 s.span.chip).map (·.toNat)))) s

/-! ### Ingest unit state -/

/-- One ingest unit. -/
def State.iu (s : State) (c : Nat) : Iu := look {} s.ius c

/-- Change one ingest unit. -/
def State.updIu (s : State) (c : Nat) (f : Iu → Iu) : State := { s with ius := upd {} f s.ius c }

/-! ### Lamp gain (R94, R95) -/

/-- Offset in the shared pool of a lamp history entry. -/
def State.lampOfs (s : State) (l : Nat) (t : Int) : Nat :=
  s.fld IU_LHBASE_OFS + 2 * (16384 * l + (t % 16384).toNat)

/-- Write the entry of lamp channel l for tick t from its tick-locked sample, none when it is not valid, with the LREF that
held at that tick (R94). -/
def State.lampEntry (s : State) (l : Nat) (t : Int) (lref : Nat) (sample : Option Nat) : State :=
  let last := s.lamp.find? (·.1 == l)
  let keep := (last.map Prod.snd).getD 16384
  let (entry, range, s) :=
    if lref = 0 then (16384, false, s)
    else match sample with
    | some v =>
      let g := lref * 16384 / v
      if v = 0 then (keep + 32768, false, s)
      else if s.fld IU_LLIM_GMIN ≤ g ∧ g ≤ s.fld IU_LLIM_GMAX then (g, false, { s with lamp := put g s.lamp l })
      else (keep + 32768, true, s)
    | none => (keep + 32768, false, s)
  let s := if range then
      (List.range 12).foldl (fun s c => if s.fld IU_CTL_LAMP_SEL c = l then s.raise IU_STAT_LAMP_RANGE c else s) s
    else s
  (s.busWrite 16 (poolBase + s.lampOfs l t) (leBytes 2 entry)).2

/-- Lamp gain of a line and whether its entry is held (R95), read from the pool as ingest (R10). -/
def State.lampGain (s : State) (c : Nat) (n : Int) : Nat × Bool × State :=
  if s.on IU_CTL_LAMP_EN c then
    let (_, b, s) := s.busRead 16 (poolBase + s.lampOfs (s.fld IU_CTL_LAMP_SEL c) (n - s.camI c)) 2
    (leNat b % 32768, (leNat b).testBit 15, s)
  else (16384, false, s)

/-! ### Statistics (R97, R98) -/

/-- Lines of a statistics block. -/
def State.iuBlock (s : State) (c : Nat) : Int := ((2 ^ min 16 (s.fld IU_SBLK_K c) : Nat) : Int)

/-- Go on to the block of line n where that is a later one; a block with something to say then waits for its entry. -/
def State.iuTurn (s : State) (c : Nat) (n : Int) : State :=
  let first := n - n % s.iuBlock c
  s.updIu c fun u =>
    if first ≤ u.stats.first then u
    else { u with
      ended := if u.stats.count ≠ 0 || u.stats.lost then u.ended ++ [u.stats] else u.ended
      stats := { first := first } }

/-- Line n is lost: its block carries LOST, unless that block's entry has been written. -/
def State.iuLost (s : State) (c : Nat) (n : Int) : State :=
  let first := n - n % s.iuBlock c
  let mark := fun (b : IuStats) => if b.first = first then { b with lost := true } else b
  (s.iuTurn c n).updIu c fun u => { u with last := max u.last n, stats := mark u.stats, ended := u.ended.map mark }

/-- Line m has come to the ingest unit: the ticked lines it did not get before are lost (R79). A camera sends its lines in
order. -/
def State.iuReach (s : State) (c : Nat) (m : Int) : State :=
  let gap := ((List.range (min 512 (m - 1 - (s.iu c).last).toNat)).map fun (k : Nat) => m - 1 - (k : Int)).reverse.filter s.lineLive
  gap.foldl (fun s n => s.iuLost c n) s

/-- Add a corrected line to the statistics; one that came too late for a run that reads it is lost and adds nothing. -/
def State.iuStat (s : State) (c : Nat) (o : IuOut) : State :=
  let s := s.iuTurn c o.line
  let lo := s.fld IU_STWIN_LO c
  let n := s.fld IU_STWIN_HI c + 1 - lo
  if (s.cam c).lost.any (fun x => x.1 == o.line && x.2 != 0) || o.line - o.line % s.iuBlock c < (s.iu c).stats.first then s
  else s.updIu c fun u => { u with stats := { u.stats with
    count := u.stats.count + 1
    sum := (List.range 4).foldl (fun t ch =>
      upd 0 (· + (List.range n).foldl (fun a k => a + o.y.getD (4 * (lo + k) + ch) 0) 0) t ch) u.stats.sum
    satn := min 0xFFFFFFFF (u.stats.satn + o.sat.foldl (· + ·) 0)
    held := u.stats.held || o.held
    tsw := u.stats.tsw || o.tsw
    gain := u.stats.gain + o.g } }

/-- The end of a block: its registers, its ring entry and the drift check. A mean over no line is a free value (log 1). -/
def State.iuBlockEnd (s : State) (c : Nat) (b : IuStats) : State :=
  let n := s.fld IU_STWIN_HI c + 1 - s.fld IU_STWIN_LO c
  let free := s.free
  let s := if b.count = 0 then s.drawn else s
  let mean := fun ch => if b.count = 0 then (free / 2 ^ (16 * ch)) % 65536 else look 0 b.sum ch / (b.count * n) % 65536
  let g := if b.count = 0 then (free / 2 ^ 64) % 65536 else b.gain / b.count % 65536
  let num := (b.first / s.iuBlock c) % 256
  let idx := num.toNat
  let s := (s.setFld IU_MEAN_RG_CH0 c (mean 0)).setFld IU_MEAN_RG_CH1 c (mean 1)
  let s := (s.setFld IU_MEAN_BN_CH2 c (mean 2)).setFld IU_MEAN_BN_CH3 c (mean 3)
  let s := (s.setFld IU_SATN_SATN c b.satn).setFld IU_SRIDX_IDX c ((idx + 1) % 256)
  let e := leBytes 8 (65536 * ofSigned 48 b.first) ++ leBytes 2 b.count
    ++ leBytes 2 (b.held.toNat + 2 * b.lost.toNat + 4 * b.tsw.toNat) ++ leBytes 4 b.satn
    ++ (List.range 4).flatMap (fun ch => leBytes 2 (mean ch)) ++ leBytes 2 g ++ leBytes 6 0
  let s := (s.busWrite 16 (poolBase + s.fld IU_SRBASE_OFS + 8192 * c + 32 * idx) e).2
  let refs := [s.fld IU_DREF_RG_CH0 c, s.fld IU_DREF_RG_CH1 c, s.fld IU_DREF_BN_CH2 c, s.fld IU_DREF_BN_CH3 c]
  let tol := s.fld IU_DTOL_TOL c
  let drift := (List.range 4).any fun ch =>
    let r := refs.getD ch 0
    r != 0 && (decide (r + tol < mean ch) || decide (mean ch + tol < r))
  let s := s.raiseIf drift IU_STAT_DRIFT c
  if s.on IU_SBLK_SINT c then s.irq "IU_BLOCK" else s

/-! ### Accumulator (R99) -/

/-- Value an accumulation stage takes. -/
def IuIn.stage (i : IuIn) (k p c : Nat) : Nat := if k = 0 then i.x p c else if k = 1 then i.dark p c else i.y p c

/-- Accumulate one line into CXL memory: the first line writes the entries, later lines add. -/
def State.iuAccumulate (s : State) (c : Nat) (a : IuAcc) (i : IuIn) : State :=
  let base := s.fld IU_ACC_LO_ADDR_L c + 2 ^ 32 * s.fld IU_ACC_HI_ADDR_H c
  let done := s.fld IU_ACC_STAT_COUNT c
  let s := (List.range i.px).foldl (fun s p => (List.range i.ch).foldl (fun s ch =>
    let v := i.stage a.stage p ch
    let at_ := base + 16 * (4 * p + ch)
    let (_, old, s) := if done = 0 then (rOK, [], s) else s.busRead 16 at_ 12
    let sum := leNat (old.take 4) + v
    let sq := leNat ((old.drop 4).take 8) + v * v
    (s.busWrite 16 at_ (leBytes 4 sum ++ leBytes 8 sq ++ leBytes 4 0)).2) s) s
  (s.setFld IU_ACC_STAT_COUNT c (done + 1)).updIu c fun u => { u with acc := some { a with left := a.left - 1 } }

/-! ### A line -/

/-- The table a line is corrected with: an accepted table whose switch line is reached takes over (R92). -/
def State.iuSwitch (s : State) (c : Nat) (n : Int) : State :=
  match (s.iu c).pend with
  | some (ofs, line) =>
    if line ≤ n then
      ((s.setFld IU_TBASE_OFS c ofs).setFld IU_TRES_PEND c 0).updIu c fun u => { u with pend := none, tsw := true }
    else s
  | none => s

/-- Correct and copy one complete line (R85, R91, R100); `late`: the table read is not complete at the line's last sample;
`busy`: the accumulator's update of the previous line is still in progress. -/
def State.iuLine (s : State) (c : Nat) (l : CamLine) (late busy : Bool) : State :=
  if !s.on IU_CTL_EN c then s
  else
    let s := (s.iuSwitch c l.line).iuReach c l.line
    let px := s.camPx c
    let base := poolBase + s.fld IU_TBASE_OFS c
    let (r0, cal, s) := s.busRead 16 base (16 * px)
    let (r1, code, s) := s.busRead 16 (base + 32 * px) px
    if late ∨ r0 ≠ rOK ∨ r1 ≠ rOK then (s.raise IU_STAT_TABLE_ERR c).iuLost c l.line
    else
      let (g, held, s) := s.lampGain c l.line
      let s := s.raiseIf held IU_STAT_LAMP_HELD c
      let calA := cal.toArray
      let i : IuIn :=
        { px := px, ch := s.camCh c, w := l.width, used := l.used, samples := l.samples.toArray
          cal := ((List.range (4 * px)).map fun k =>
            ((calA.getD (4 * k) 0).toNat + 256 * (calA.getD (4 * k + 1) 0).toNat,
             (calA.getD (4 * k + 2) 0).toNat + 256 * (calA.getD (4 * k + 3) 0).toNat)).toArray
          code := (code.map (·.toNat)).toArray
          dpr := s.on IU_CTL_DPR_EN c, satmax := s.on IU_CTL_SATMAX c, g := g, open_ := s.free }
      let openUsed := (List.range px).any fun p => (List.range i.ch).any fun ch => (i.source p ch).isEmpty
      let s := if openUsed then s.drawn else s
      let o := i.correct l.line held (s.iu c).tsw
      let s := s.updIu c fun u => { u with tsw := false, last := max u.last l.line, seen := (l.line :: u.seen).take 512 }
      let s := s.iuStat c o
      let s := match (s.iu c).acc with
        | some a =>
          if a.left = 0 then s
          else if busy && s.fld IU_ACC_STAT_COUNT c != 0 then s.raise IU_STAT_ACC_SKIP c
          else s.iuAccumulate c a i
        | none => s
      let s := (s.routesOf c).foldl (fun s k => s.routeCopy c k o) s
      s.haloSend c o

/-! ### Table commit (R92) -/

/-- First pixel of a table with a coded sample that has no good pixel within 4 on either side; ingest reads the codes (R10). -/
def State.iuBadPixel (s : State) (c ofs : Nat) : Option Nat × State :=
  let px := s.camPx c
  let (_, codes, s) := s.busRead 16 (poolBase + ofs + 32 * px) px
  let i : IuIn :=
    { px := px, ch := s.camCh c, w := 8, used := 8, samples := #[], cal := #[]
      code := (codes.map (·.toNat)).toArray
      dpr := true, satmax := false, g := 0, open_ := 0 }
  ((List.range px).find? fun p => (List.range i.ch).any fun ch => (i.source p ch).isEmpty, s)

/-- A write of IU_TCMD_c. -/
def State.iuCmdWrite (s : State) (c : Nat) (v : Word) : State :=
  if !v.getLsbD 0 then s
  else
    let u := s.iu c
    if u.check.isSome || u.pend.isSome then (s.setFld IU_TRES_RESULT c rSTATE_REFUSED).setFld IU_TRES_DONE c 1
    else
      let line : Int := s.wide .IU_TLINE_LO .IU_TLINE_HI c
      let s := s.updIu c fun u => { u with check := some (s.fld IU_TNEW_OFS c, line) }
      (s.setFld IU_TRES_DONE c 0).setFld IU_TRES_BUSY c 1

/-- A write of IU_ACC_CTL_c: a START while BUSY reads 1 is ignored (R99). -/
def State.iuAccWrite (s : State) (c : Nat) (v : Word) : State :=
  let s := s.regStore .IU_ACC_CTL c v
  if !v.getLsbD 0 || s.on IU_ACC_STAT_BUSY c then s
  else
    let s := ((s.setFld IU_ACC_STAT_DONE c 0).setFld IU_ACC_STAT_BUSY c 1).setFld IU_ACC_STAT_COUNT c 0
    s.updIu c fun u => { u with
      acc := some { stage := min 2 (s.fld IU_ACC_CTL_STAGE c), left := max 1 (s.fld IU_ACC_CTL_N c) } }

/-! ### Commands -/

/-- CAMERA_LINE_ARRIVAL: the oldest complete line of port c reaches its ingest unit. -/
def execCameraLineArrival (c : Fin 12) (k : LineCase) (s : State) : Host.Outcome State Fault Refusal :=
  .next (s.whenLive fun s =>
    match (s.cam c).lines with
    | [] => s
    | l :: ls => (s.updCam c fun q => { q with lines := ls }).iuLine c l k.late k.busy)

/-- TABLE_COMMIT: a write of IU_TCMD with COMMIT. -/
def execTableCommit (m : Master) (c : Fin 12) (s : State) : Host.Outcome State Fault Refusal :=
  .next (s.guardWrite m .IU_TCMD c (·.iuCmdWrite c 1))

/-- TABLE_CHECK_DONE: the check of R92 ends. -/
def execTableCheckDone (c : Fin 12) (s : State) : Host.Outcome State Fault Refusal :=
  .next (s.whenLive fun s =>
    match (s.iu c).check with
    | none => s
    | some (ofs, line) =>
      let (bad, s) := ((s.setFld IU_TRES_DONE c 1).setFld IU_TRES_BUSY c 0).iuBadPixel c ofs
      match bad with
      | some p =>
        ((s.setFld IU_TRES_RESULT c rRANGE).setFld IU_TRES_BADPIX c p).updIu c fun u => { u with check := none }
      | none =>
        ((s.setFld IU_TRES_RESULT c rOK).setFld IU_TRES_PEND c 1).updIu c
          fun u => { u with check := none, pend := some (ofs, line) })

/-- STATS_BLOCK_END: the end of a block of 2^K lines. -/
def execStatsBlockEnd (c : Fin 12) (s : State) : Host.Outcome State Fault Refusal :=
  .next (s.whenLive fun s =>
    let u := s.iu c
    match u.ended with
    | b :: bs => (s.updIu c fun u => { u with ended := bs }).iuBlockEnd c b
    | [] =>
      if (u.stats.count ≠ 0 || u.stats.lost) && decide (u.stats.first + s.iuBlock c ≤ u.last + 1) then
        (s.updIu c fun u => { u with stats := { first := u.stats.first + s.iuBlock c } }).iuBlockEnd c u.stats
      else s)

/-- ACCUMULATION_START: a write of IU_ACC_CTL. -/
def execAccumulationStart (m : Master) (c : Fin 12) (v : Word) (s : State) : Host.Outcome State Fault Refusal :=
  .next (s.guardWrite m .IU_ACC_CTL c (·.iuAccWrite c v))

/-- ACCUMULATION_DONE: the N lines are accumulated. -/
def execAccumulationDone (c : Fin 12) (s : State) : Host.Outcome State Fault Refusal :=
  .next (s.whenLive fun s =>
    match (s.iu c).acc with
    | some a =>
      if a.left = 0 then
        ((s.setFld IU_ACC_STAT_DONE c 1).setFld IU_ACC_STAT_BUSY c 0).updIu c fun u => { u with acc := none }
      else s
    | none => s)

end Sys2Proof.Machine
end

