-- ==== Sys2Proof/Machine/Accord.lean ====
section
/-!
DEFINITION. Sys2Proof/Machine/Accord.lean: Accord's route check (R163–R167) and map check (R171). Its copies of lines are in
Ingest.lean.
-/
namespace Sys2Proof.Machine

/-- Stripe of an engine: first output pixel and width. -/
def State.stripeStart (s : State) (e : Nat) : Nat := s.fld SE_STRIPE_START e
def State.stripeWidth (s : State) (e : Nat) : Nat := s.fld SE_STRIPE_WIDTH e

/-- Engines in use: those whose SE_STRIPE.WIDTH is nonzero. -/
def State.enginesInUse (s : State) : List Nat := (List.range 16).filter fun e => s.stripeWidth e != 0

/-- The stripes tile the output line (R163). -/
def State.stripesTile (s : State) : Bool :=
  let m := s.enginesInUse.length
  let r := (List.range 16).foldl (fun (a : Bool × Nat) e =>
    if e < m then (a.1 && s.stripeWidth e != 0 && s.stripeStart e == a.2, a.2 + s.stripeWidth e) else a) (true, 0)
  r.1 && r.2 == s.fld ACCORD_OUTW_OUTW

/-- Valid route entries in order. -/
def State.validRoutes (s : State) : List Nat := (List.range 64).filter fun i => s.on ACCORD_RTA_V i

/-- Check 3 of R166 for one entry. -/
def State.routeCam (s : State) (i : Nat) : Bool :=
  let c := s.fld ACCORD_RTA_CAM i
  let n := s.fld ACCORD_RTB_COUNT i
  decide (c < 12) && decide (s.fld ACCORD_RTB_FIRST i + n ≤ s.camPx c) && decide (1 ≤ n)

/-- Check 4 for one entry: OK, NOT_FOUND or RANGE. -/
def State.routeRingRes (s : State) (i : Nat) : Nat :=
  match s.routeRing i with
  | some r => if r.kind ≠ 0 then rNOT_FOUND else if r.width < s.fld ACCORD_RTB_COUNT i then rRANGE else rOK
  | none => rNOT_FOUND

/-- Two entries name the same engine and ring. -/
def State.routeSame (s : State) (i j : Nat) : Bool :=
  s.fld ACCORD_RTA_ENG i == s.fld ACCORD_RTA_ENG j && s.fld ACCORD_RTA_RING i == s.fld ACCORD_RTA_RING j

/-- Checks 2–6 of R166 in order: result, check and entry. -/
def State.accordCheck (s : State) : Nat × Nat × Nat :=
  let v := s.validRoutes
  if !s.stripesTile then (rRANGE, 2, 0)
  else match v.find? fun i => !s.routeCam i with
  | some i => (rRANGE, 3, i)
  | none =>
  match v.find? fun i => s.routeRingRes i != rOK with
  | some i => (s.routeRingRes i, 4, i)
  | none =>
  match v.findSome? fun i => v.find? fun j => decide (i < j) && s.routeSame i j with
  | some j => (rOVERLAP, 5, j)
  | none =>
  match s.enginesInUse.findSome? fun e => (v.filter fun i => s.fld ACCORD_RTA_ENG i == e)[4]? with
  | some i => (rRANGE, 6, i)
  | none => (rOK, 0, 0)

/-- Report in ACCORD_RES. -/
def State.accordRes (s : State) (res chk entry : Nat) : State :=
  ((s.setFld ACCORD_RES_RESULT 0 res).setFld ACCORD_RES_CHK 0 chk).setFld ACCORD_RES_ENTRY 0 entry

/-- A write of ACCORD_CTL (R166, R167). -/
def State.accordCtlWrite (s : State) (v : Word) : State :=
  if v.getLsbD 0 then
    if !s.inHold then (s.accordRes rSTATE_REFUSED 1 0).raise ACCORD_STAT_CFG_ERR
    else
      let (res, chk, entry) := s.accordCheck
      (s.accordRes res chk entry).setFld ACCORD_CTL_EN 0 (decide (res = rOK)).toNat
  else s.regStore .ACCORD_CTL 0 v

/-- Make a route inactive (R167). -/
def State.routeDrop (s : State) (i : Nat) : State := (s.setFld ACCORD_RTA_V i 0).raise ACCORD_STAT_ROUTE_ERR

/-- Checks 3–5 repeated for an engine's entries after a load with SPLICE = 0 (R167). -/
def State.accordRecheck (s : State) (e : Nat) : State :=
  if !s.on ACCORD_CTL_EN then s
  else
    let mine := s.validRoutes.filter fun i => s.fld ACCORD_RTA_ENG i == e
    let bad := mine.filter fun i => !s.routeCam i || s.routeRingRes i != rOK
      || mine.any fun j => decide (j < i) && s.routeSame i j
    bad.foldl State.routeDrop s

/-! ### Map check (R171) -/

/-- Valid slots of ACCORD_MCHK_SET: slot, area, ring. -/
def mapSlots (set : Nat) : List (Nat × Nat × Nat) :=
  (List.range 4).filterMap fun i =>
    if set.testBit (8 * i + 7) then some (i, bits set (8 * i + 3) (8 * i), bits set (8 * i + 6) (8 * i + 4)) else none

/-- Blend weight and integer part of a map entry (R169). -/
def mapWt (w : Nat) : Nat := w % 1024
def mapD (w : Nat) : Int := toSigned 16 (w / 65536)

/-- Check 7 on one pair: the entries where both weights lie in 1–511 form one range of 16–256, over which one of them rises
monotonically. -/
def mapPairOk (a b : List Nat) : Bool :=
  let both := (List.range a.length).filter fun k =>
    decide (1 ≤ mapWt (a.getD k 0)) && decide (mapWt (a.getD k 0) ≤ 511)
      && decide (1 ≤ mapWt (b.getD k 0)) && decide (mapWt (b.getD k 0) ≤ 511)
  match both with
  | [] => true
  | f :: _ =>
    let n := both.length
    let rises := fun (m : List Nat) => (List.range (n - 1)).all fun k => decide (mapWt (m.getD (f + k) 0) ≤ mapWt (m.getD (f + k + 1) 0))
    both == (List.range n).map (f + ·) && decide (16 ≤ n) && decide (n ≤ 256) && (rises a || rises b)

/-- First entry of a pair at which check 7 fails. -/
def mapPairBad (a b : List Nat) : Nat :=
  ((List.range a.length).find? fun k =>
    decide (1 ≤ mapWt (a.getD k 0)) && decide (mapWt (a.getD k 0) ≤ 511)
      && decide (1 ≤ mapWt (b.getD k 0)) && decide (mapWt (b.getD k 0) ≤ 511)).getD 0

/-- The map check of engine e: result, check, entry, slot. -/
def State.mapCheck (s : State) (e set : Nat) : Nat × Nat × Nat × Nat :=
  let slots := mapSlots set
  match (s.eng e).prog with
  | none => (rNOT_FOUND, 1, 0, 0)
  | some p =>
    match slots.find? fun (_, a, r) => decide (p.areas.length ≤ a) || decide (p.rings.length ≤ r) with
    | some (i, _, _) => (rNOT_FOUND, 1, 0, i)
    | none =>
      let area := fun (a : Nat) => p.areas.getD a (0, 0)
      let need := (s.stripeWidth e + 128 + 63) / 64 * 64
      let size := (slots.head?.map fun (_, a, _) => (area a).2).getD 0
      match slots.find? fun (_, a, _) => (area a).2 != size || decide ((area a).2 < 4 * need) with
      | some (i, _, _) => (rRANGE, 2, 0, i)
      | none =>
        let n := size / 4
        let maps := slots.map fun (i, a, r) =>
          (i, r, (List.range n).map fun k => leNat (s.rowBytes e ((area a).1 + 4 * k) 4))
        let at_ := fun (m : List Nat) k => m.getD k 0
        match (List.range n).findSome? fun k => (maps.find? fun (_, _, m) => decide (512 < mapWt (at_ m k))).map fun (i, _, _) => (k, i) with
        | some (k, i) => (rRANGE, 3, k, i)
        | none =>
        match (List.range n).find? fun k =>
            !maps.isEmpty && ((maps.map fun (_, _, m) => mapWt (at_ m k)).foldl (· + ·) 0 != 512
              || decide (2 < maps.countP fun (_, _, m) => mapWt (at_ m k) != 0)) with
        | some k => (rRANGE, 4, k, (maps.head?.map (·.1)).getD 0)
        | none =>
        match (List.range n).findSome? fun k => (maps.find? fun (_, _, m) =>
            mapWt (at_ m k) != 0 && (decide (mapD (at_ m k) < -28) || decide (28 < mapD (at_ m k)))).map fun (i, _, _) => (k, i) with
        | some (k, i) => (rRANGE, 5, k, i)
        | none =>
        match (List.range (s.stripeWidth e)).findSome? fun x => (maps.find? fun (_, r, m) =>
            let ring := p.rings[r]?
            mapWt (at_ m (x + 64)) != 0 && !((ring.map fun g => decide (g.outlo ≤ x) && decide (x ≤ g.outhi)).getD false)).map
              fun (i, _, _) => (x + 64, i) with
        | some (k, i) => (rRANGE, 6, k, i)
        | none =>
        match maps.findSome? fun (i, _, a) => (maps.find? fun (j, _, b) => decide (i < j) && !mapPairOk a b).map
            fun (j, _, b) => (mapPairBad a b, j) with
        | some (k, i) => (rRANGE, 7, k, i)
        | none => (rOK, 0, 0, 0)

/-- A write of ACCORD_MCHK_CMD: a GO while BUSY reads 1 is ignored. -/
def State.mapCmdWrite (s : State) (v : Word) : State :=
  let s := s.regStore .ACCORD_MCHK_CMD 0 v
  if !v.getLsbD 31 || s.on ACCORD_MRES_BUSY then s
  else
    let s := { s with accord := { s.accord with
      check := some (s.fld ACCORD_MCHK_CMD_ENG, s.fld ACCORD_MCHK_SET_SLOTS) } }
    (s.setFld ACCORD_MRES_DONE 0 0).setFld ACCORD_MRES_BUSY 0 1

/-- ACCORD_ENABLE: a write of ACCORD_CTL. -/
def execAccordEnable (m : Master) (v : Word) (s : State) : Host.Outcome State Fault Refusal :=
  .next (s.guardWrite m .ACCORD_CTL 0 (·.accordCtlWrite v))

/-- MAP_CHECK_START: a write of ACCORD_MCHK_CMD. -/
def execMapCheckStart (m : Master) (v : Word) (s : State) : Host.Outcome State Fault Refusal :=
  .next (s.guardWrite m .ACCORD_MCHK_CMD 0 (·.mapCmdWrite v))

/-- MAP_CHECK_DONE: the check that GO started ends. -/
def execMapCheckDone (s : State) : Host.Outcome State Fault Refusal :=
  .next (s.whenLive fun s =>
    match s.accord.check with
    | none => s
    | some (e, set) =>
      let (res, chk, ent, slot) := s.mapCheck e set
      let s := { s with accord := { s.accord with check := none } }
      let s := ((s.setFld ACCORD_MRES_RESULT 0 res).setFld ACCORD_MRES_CHK 0 chk).setFld ACCORD_MRES_BADENT 0 ent
      ((s.setFld ACCORD_MRES_SLOT 0 slot).setFld ACCORD_MRES_DONE 0 1).setFld ACCORD_MRES_BUSY 0 0)

end Sys2Proof.Machine
end

