-- ==== Sys2Proof/Machine/Motion.lean ====
section
/-!
DEFINITION. Sys2Proof/Machine/Motion.lean: the loupe carriage (R328–R343). Speeds and positions between microsteps are exact
rational numbers; within an update of 1 µs the speed changes at a constant rate (log 21).
-/
namespace Sys2Proof.Machine

/-- Change the carriage. -/
def State.updMot (s : State) (f : Mot → Mot) : State := { s with mot := f s.mot }

/-! ### Gates (R328) -/

/-- Switches of one phase: terminal 1 high, terminal 1 low, terminal 2 high, terminal 2 low. -/
def Bridge.gates : Bridge → List Bool
  | .off => [false, false, false, false]
  | .slow => [false, true, false, true]
  | .pos => [true, false, false, true]
  | .neg => [false, true, true, false]

/-- Levels of MOT_G0–MOT_G7, once the dead time of the last change has passed. -/
def State.motGates (s : State) : List Bool := s.mot.a.bridge.gates ++ s.mot.b.bridge.gates

/-- A phase's bridge is set; after a change the phase is not evaluated again for `tb` SDCLK cycles (R334). -/
def Phase.drive (p : Phase) (b : Bridge) (tb : Nat) : Phase :=
  if b = p.bridge then p else { p with bridge := b, blank := tb }

/-- A phase set to a bridge state without the chopper. -/
def Phase.hold (p : Phase) (b : Bridge) (tb : Nat) : Phase := { p.drive b tb with dirty := true }

/-- Both phases set to a bridge state without the chopper. -/
def State.motHold (s : State) (b : Bridge) : State :=
  let tb := s.fld MOT_CHOP_TBLANK
  s.updMot fun m => { m with a := m.a.hold b tb, b := m.b.hold b tb }

/-- SSMODE as treated: 3 as 1. -/
def State.ssMode (s : State) : Nat := if s.fld MOT_CTL_SSMODE = 3 then 1 else s.fld MOT_CTL_SSMODE

/-- Apply the standstill option (R336). In FAULT the chopper does not run, so mode 0 leaves the gates off. -/
def State.ssApply (s : State) : State :=
  let mode := s.ssMode
  let s := s.updMot fun m => { m with ss := true }
  if mode = 2 then s.motHold .slow
  else if mode = 1 ∨ s.mot.st = .fault then s.motHold .off else s

/-! ### States (R330) -/

/-- Entry into FAULT. -/
def State.motFault (s : State) : State :=
  ((s.updMot fun m => { m with st := .fault, vel := 0, frac := 0, delay := false, home := none }).strobe [14]).irq "MOT_FAULT"

/-- EN cleared. -/
def State.motDisable (s : State) : State :=
  (s.motHold .off).updMot fun m => { m with st := .disabled, vel := 0, frac := 0, delay := false, home := none, ss := false }

/-- EN set in DISABLED. -/
def State.motEnable (s : State) : State :=
  (s.updMot fun m => { m with
    st := .idle, homed := false, a := { m.a with ofs := 0, esum := 0, en := 0 }, b := { m.b with ofs := 0, esum := 0, en := 0 } }).ssApply

/-- A write of MOT_CTL. At a standstill whose option is applied, a change of SSMODE applies the new option at once (R336). -/
def State.motCtlWrite (s : State) (v : Word) : State :=
  let old := s.on MOT_CTL_EN
  let mode := s.ssMode
  let s := s.regStore .MOT_CTL 0 v
  let new := s.on MOT_CTL_EN
  if !old && new then s.motEnable else if old && !new then s.motDisable
  else if s.mot.ss && s.ssMode != mode then s.ssApply else s

/-- Entry into Standby (R342). -/
def State.motStandby (s : State) : State :=
  ((s.updMot motHalt).motDisable.updMot fun m => { m with homed := false }).setFld MOT_CTL_EN 0 0

/-- A write of MOT_D1 or MOT_D2: a larger value acts at once, a smaller one from the end of the move (R333). -/
def State.motDecWrite (s : State) (r : Reg) (v : Word) : State :=
  let s := s.regStore r 0 v
  let n := max 1 v.toNat
  if r = .MOT_D1 then s.updMot fun m => { m with d1 := max m.d1 n } else s.updMot fun m => { m with d2 := max m.d2 n }

/-! ### Commands (R331, R341) -/

/-- Position of a target in µm (R329). -/
def State.motOfUm (s : State) (um : Int) : Int :=
  (((um - s.sfld MOT_ORIGIN_VALUE : Int) : Rat) * 65536000 / ((max 1 (s.fld MOT_NMQ_VALUE) : Nat) : Rat) + 1 / 2).floor

/-- An input is active by its accepted level and its POL bit: 0 LIM_LO, 1 LIM_HI, 2 HOME (R337). -/
def State.motActive (s : State) (i : Nat) : Bool := s.mot.raw.testBit i != (s.fld MOT_LIM_POL).testBit i

/-- The limits of R332 on the speeds of a move. -/
def State.motSpeedsOk (s : State) : Bool :=
  decide (s.fld MOT_VSTART_V ≤ s.fld MOT_VBREAK_V) && decide (s.fld MOT_VBREAK_V ≤ s.fld MOT_VMAX_V)
    && decide (s.fld MOT_VSTOP_V ≤ s.fld MOT_VBREAK_V)

/-- ARRIVED and its event. -/
def State.motArrived (s : State) : State := (s.raise MOT_STAT_ARRIVED).strobe [13]

/-- The parameters a move takes at its start (R333), and the start delay after a standstill with the coils released. -/
def State.motBegin (s : State) (st : MotSt) (v0 : Rat) : State :=
  let delay := s.mot.ss && s.ssMode != 0
  let vs := s.fld MOT_VSTART_V
  let ve := s.fld MOT_VSTOP_V
  let d1 := max 1 (s.fld MOT_D1_A)
  let d2 := max 1 (s.fld MOT_D2_A)
  s.updMot fun m => { m with
    st := st, ss := false, delay := delay, vstart := vs, vstop := ve, d1 := d1, d2 := d2, braking := false
    frac := 0, vel := if delay then 0 else v0 }

/-- A move to a position, once its target has been formed: the result and the state. `soft`: the soft limits apply. -/
def State.motMove (s : State) (tgt : Int) (needHomed soft : Bool) : Nat × State :=
  let m := s.mot
  if m.st ≠ .idle ∨ (needHomed && !m.homed) then (rSTATE_REFUSED, s)
  else if soft && (decide (tgt < s.sfld MOT_SMIN_VALUE) || decide (s.sfld MOT_SMAX_VALUE < tgt)) then (rRANGE, s)
  else if tgt < -2147483648 ∨ 2147483647 < tgt then (rRANGE, s)
  else if tgt = m.pos then (rOK, (s.updMot fun m => { m with tgt := tgt }).motArrived)
  else if !s.motSpeedsOk then (rRANGE, s)
  else if (decide (tgt < m.pos) && s.motActive 0) || (decide (m.pos < tgt) && s.motActive 1) then (rSTATE_REFUSED, s)
  else
    let v : Rat := (s.fld MOT_VSTART_V : Nat)
    (rOK, (s.updMot fun m => { m with tgt := tgt }).motBegin .moving (if tgt < m.pos then -v else v))

/-- HOME: switch 0 HOME, 1 LIM_LO, 2 LIM_HI (R331, R337). -/
def State.motHome (s : State) (sw : Nat) (up : Bool) : Nat × State :=
  if s.mot.st ≠ .idle then (rSTATE_REFUSED, s)
  else if 2 < sw ∨ s.fld MOT_VSTART_V < s.fld MOT_VHOME_V then (rRANGE, s)
  else
    let away := s.motActive (match sw with | 0 => 2 | 1 => 0 | _ => 1)
    let h : Homing :=
      { sw := sw, up := up, away := away, vhome := s.fld MOT_VHOME_V, a1 := max 1 (s.fld MOT_A1_A) }
    (rOK, (s.updMot fun m => { m with home := some h }).motBegin .homing 0)

/-- STOP. -/
def State.motStop (s : State) : State :=
  if s.mot.st = .moving then s.updMot fun m => { m with st := .stopping } else s

/-- A request of mailbox 3 with this opcode is carried out and answered (R290). -/
def State.motMail (s : State) (op : Nat) (run : List Word → Nat × State) : State :=
  match s.mbReq 3 op with
  | some ws =>
    let (r, s) := run ws
    s.mbAnswer 3 r
  | none => s

/-- SETPOS: position and HOMED, in IDLE. -/
def State.motSetpos (s : State) (pos : Int) : Nat × State :=
  if s.mot.st = .idle then (rOK, s.updMot fun m => { m with pos := pos, frac := 0, homed := true }) else (rSTATE_REFUSED, s)

/-- CLEAR: FAULT is left for IDLE. -/
def State.motClear (s : State) : Nat × State :=
  if s.mot.st = .fault then (rOK, s.updMot fun m => { m with st := .idle, homed := false, ss := false }) else (rSTATE_REFUSED, s)

/-- What a command of mailbox 3 does: its result and the state (R331). -/
def State.motRun (s : State) (op : Nat) (ws : List Word) : Nat × State :=
  match op with
  | 1 => s.motMove (toSigned 32 (reqWord ws 1)) true true
  | 2 => s.motMove (s.motOfUm (toSigned 32 (reqWord ws 1))) true true
  | 3 => s.motMove (s.mot.pos + toSigned 32 (reqWord ws 1)) false s.mot.homed
  | 4 => (rOK, s.motStop)
  | 5 => (rOK, s.motEstop)
  | 6 => s.motHome (bits (reqWord ws 1) 1 0) ((reqWord ws 1).testBit 4)
  | 7 => s.motSetpos (toSigned 32 (reqWord ws 1))
  | _ => s.motClear

/-- The command that waits in mailbox 3 is taken (R339). -/
def State.motFirst (s : State) : State :=
  [1, 2, 3, 4, 5, 6, 7, 8].foldl (fun s op => s.motMail op fun ws => s.motRun op ws) s

/-- A command of RPT (R341): accepted or not. A command that waits in mailbox 3 is taken before it (R339). -/
def State.motRpt (s : State) (um : Int) : Bool × State :=
  let s := s.motFirst
  if !s.on MOT_CTL_RPT_EN then (false, s)
  else
    let t := s.motOfUm um
    let c := clampInt (s.sfld MOT_SMIN_VALUE) (s.sfld MOT_SMAX_VALUE) t
    let (r, s) := s.motMove c true true
    if r = rOK then (true, (s.raiseIf (c != t) MOT_STAT_CLAMPED).updMot fun m => { m with rptTgt := some c }) else (false, s)

/-- RPT counts the carriage as arrived (R341). -/
def State.motAtRpt (s : State) : Bool := s.mot.st == .idle && s.mot.rptTgt == some s.mot.pos

/-! ### Profile (R332) -/

/-- One update, in seconds. -/
def motT : Rat := 1 / 1000000

/-- Braking distance from speed v. -/
def State.motBrake (s : State) (v : Rat) : Rat :=
  let vb : Rat := (s.fld MOT_VBREAK_V : Nat)
  let ve : Rat := (s.mot.vstop : Nat)
  let d1 : Rat := (max 1 s.mot.d1 : Nat)
  let d2 : Rat := (max 1 s.mot.d2 : Nat)
  if vb < v then (v * v - vb * vb) / (2 * d2) + (vb * vb - ve * ve) / (2 * d1) else (v * v - ve * ve) / (2 * d1)

/-- The speed after one update of deceleration towards `floor`. -/
def State.motSlow (s : State) (v floor : Rat) : Rat :=
  let vb : Rat := (s.fld MOT_VBREAK_V : Nat)
  let d : Rat := if vb < v then (max 1 s.mot.d2 : Nat) else (max 1 s.mot.d1 : Nat)
  max floor (v - d * motT)

/-- The speed after one update of a move with `rem` microsteps to go. -/
def State.motNext (s : State) (v rem : Rat) : Rat :=
  let vb : Rat := (s.fld MOT_VBREAK_V : Nat)
  let vm : Rat := (s.fld MOT_VMAX_V : Nat)
  if rem ≤ s.motBrake v ∨ (s.mot.braking && decide (0 < v)) then s.motSlow v (min v (s.mot.vstop : Nat))
  else if vm < v then s.motSlow v vm
  else
    let a : Rat := if v < vb then (max 1 (s.fld MOT_A1_A) : Nat) else (max 1 (s.fld MOT_A2_A) : Nat)
    min vm (v + a * motT)

/-- Travel by a signed distance. The position is a signed 32-bit count, which wraps (R329, log 21). -/
def Mot.travel (m : Mot) (d : Rat) : Mot :=
  let x : Rat := (m.pos : Rat) + m.frac + d
  { m with pos := toSigned 32 (ofSigned 32 x.floor), frac := x - (x.floor : Rat) }

/-- One profile update. -/
def State.motUpdate (s : State) : State :=
  let m := s.mot
  let v : Rat := if m.vel < 0 then -m.vel else m.vel
  if m.delay && m.st != .stopping then s
  else
    match m.st with
    | .moving =>
      let at_ : Rat := (m.pos : Rat) + m.frac
      let up := decide (at_ < (m.tgt : Rat))
      let rem : Rat := if up then (m.tgt : Rat) - at_ else at_ - (m.tgt : Rat)
      let slows := decide (rem ≤ s.motBrake v)
      let v' := s.motNext v rem
      let d := (v + v') / 2 * motT
      if rem ≤ d then
        (s.updMot fun m => { m with st := .idle, pos := m.tgt, frac := 0, vel := 0, ss := false }).motArrived
      else s.updMot fun m =>
        { m.travel (if up then d else -d) with vel := if up then v' else -v', braking := m.braking || slows }
    | .stopping =>
      let ve : Rat := (m.vstop : Nat)
      let v' := if v ≤ ve then 0 else s.motSlow v ve
      let d := (v + v') / 2 * motT
      let d := if m.vel < 0 then -d else d
      if v' = 0 then s.updMot fun m => { m.travel d with st := .idle, vel := 0, frac := 0, ss := false, delay := false }
      else s.updMot fun m => { m.travel d with vel := if m.vel < 0 then -v' else v' }
    | .homing =>
      match m.home with
      | none => s
      | some h =>
        let up := h.up != h.away
        let v' := min (h.vhome : Rat) (v + (h.a1 : Nat) * motT)
        let d := (v + v') / 2 * motT
        let h := { h with travelled := h.travelled + d }
        let s := s.updMot fun m => { m.travel (if up then d else -d) with vel := if up then v' else -v', home := some h }
        if (s.fld MOT_HMAX_VALUE : Rat) ≤ h.travelled then (s.updMot motHalt).raise MOT_STAT_HOMING_FAULT else s
    | _ => s

/-! ### Inputs (R337, R338) -/

/-- What occurs in FAULT or DISABLED is counted only: the counter of the flag counts, the flag stays (R339, log 131). -/
def State.motCounted (s : State) (f : Flag) : State := s.count f.cnt

/-- Action of an input that became active or inactive: 0 LIM_LO, 1 LIM_HI, 2 HOME (R330, R337). HOME stops no move but a
homing to HOME. -/
def State.motInputAct (s : State) (i : Nat) (act : Bool) : State :=
  let m := s.mot
  match m.st with
  | .moving | .stopping =>
    let down := decide (m.vel < 0) || (decide (m.vel = 0) && decide (m.tgt < m.pos))
    if act && ((i == 0 && down) || (i == 1 && !down)) then (s.updMot motHalt).raise MOT_STAT_LIMIT_HIT else s
  | .homing =>
    match m.home with
    | none => s
    | some h =>
      let target := match h.sw with | 0 => 2 | 1 => 0 | _ => 1
      if i = target then
        if h.away then
          if act then s else s.updMot fun m => { m with vel := 0, home := some { h with away := false } }
        else if act then
          let pos := s.sfld MOT_HOMEPOS_VALUE
          (s.updMot motHalt).updMot fun m => { m with pos := pos, homed := true }
        else s
      else if act && i != 2 then (s.updMot motHalt).raise MOT_STAT_HOMING_FAULT else s
  | .fault | .disabled => if act && i != 2 then s.motCounted MOT_STAT_LIMIT_HIT else s
  | .idle => s

/-- A debounced change of an input: its raw level. MOT acts on it, then its channel is strobed. -/
def State.motInput (s : State) (i : Nat) (level : Bool) : State :=
  let s := s.updMot fun m => { m with raw := setBits m.raw i i level.toNat }
  (s.doIf s.live (·.motInputAct i (s.motActive i))).strobe [15]

/-- Chatter on an input (R338, R339). -/
def State.motChatter (s : State) : State :=
  match s.mot.st with
  | .disabled | .fault => s.motCounted MOT_STAT_LIMIT_CHATTER
  | _ => ((s.raise MOT_STAT_LIMIT_CHATTER).updMot motHalt).motFault.ssApply

/-- FAST_OC reaches MOT (R330, R339, R340). -/
def State.motFastOc (s : State) : State :=
  if !s.on MOT_CTL_OCEN then s
  else
    match s.mot.st with
    | .disabled | .fault => s.motCounted MOT_STAT_OVERCURRENT
    | _ => ((s.motHold .off).updMot fun m => { m with ss := false }).motFault.raise MOT_STAT_OVERCURRENT

/-! ### Coil currents (R334, R335) -/

/-- Current level I: IRUN, or IHOLD once the standstill option is applied. -/
def State.motCurrent (s : State) : Nat :=
  if s.mot.st = .idle ∧ s.mot.ss then s.fld MOT_IRUN_IHOLD else s.fld MOT_IRUN_IRUN

/-- Target of a phase: 0 A, 1 B. DIRINV exchanges the phases (DEDUCED, log 21). -/
def State.motTarget (s : State) (ph : Nat) : Int :=
  let r := 2 ^ min 8 (s.fld MOT_CTL_MRES)
  let e := ((s.mot.pos % 1024).toNat) / r * r
  let sine := (ph == 1) != s.on MOT_CTL_DIRINV
  let f : Int := if sine then sinTurn e else cosTurn e
  roundNear ((s.motCurrent : Rat) * (f : Rat) / (fxScale : Rat))

/-- The chopper runs: the carriage is enabled, not in FAULT, and no standstill option releases the coils. -/
def State.motChops (s : State) : Bool :=
  match s.mot.st with
  | .disabled | .fault => false
  | .idle => !(s.mot.ss && s.ssMode != 0)
  | _ => true

/-- The bridge of R334 for a current i. -/
def State.motBridge (s : State) (p : Phase) (t i : Int) : Bridge :=
  let di : Int := s.fld MOT_CHOP_DI
  let a : Int := t.natAbs
  let m := if t < 0 then -i else i
  if a < di then .slow
  else if m < a - di - p.ofs then (if t < 0 then .neg else .pos)
  else if a + di - p.ofs < m then
    (if s.on MOT_CTL_DECAY then (if t < 0 then .pos else .neg) else .slow)
  else p.bridge

/-- SDCLK cycles of an adaptation window: 2^OLOG, values below 6 as 6 (R335). -/
def State.motWindow (s : State) : Nat := 2 ^ max 6 (s.fld MOT_ADAPT_OLOG)

/-- One SDCLK cycle of a phase with its fast-path current: the blanking of the bridge's last change runs down, the cycle enters
the adaptation window, and the chopper decides. -/
def State.motPhase (s : State) (ph : Nat) (i : Int) : State :=
  let p := if ph = 0 then s.mot.a else s.mot.b
  let rest := { p with blank := p.blank - 1 }
  let p :=
    if !s.motChops then rest
    else
      let t := s.motTarget ph
      let m := if t < 0 then -i else i
      let w := { rest with esum := p.esum + (m - t.natAbs), en := p.en + 1, dirty := p.dirty || p.bridge == .off }
      if 0 < p.blank then w else w.drive (s.motBridge p t i) (s.fld MOT_CHOP_TBLANK)
  s.updMot fun m => if ph = 0 then { m with a := p } else { m with b := p }

/-- The end of an adaptation window of a phase, once its 2^OLOG cycles have passed (R335). -/
def State.motAdapt (s : State) (ph : Nat) : State :=
  let p := if ph = 0 then s.mot.a else s.mot.b
  if p.en < s.motWindow then s
  else
    let lim : Int := s.fld MOT_ADAPT_OMAX
    let mean := freeRound 6 ((p.esum : Rat) / ((max 1 p.en : Nat) : Rat))
    let ofs := if p.dirty then p.ofs
      else clampInt (-lim) lim (p.ofs + mean / ((2 ^ s.fld MOT_ADAPT_OADJ : Nat) : Int))
    let p := { p with ofs := ofs, esum := 0, en := 0, dirty := p.bridge == .off }
    s.updMot fun m => if ph = 0 then { m with a := p } else { m with b := p }

/-! ### Commands -/

/-- OFFSET_ADAPT: a window of 2^OLOG SDCLK cycles of a phase ends; before its last cycle nothing does. -/
def execOffsetAdapt (ph : Fin 2) (s : State) : Host.Outcome State Fault Refusal := .next (s.whenLive (·.motAdapt ph))

/-- PROFILE_UPDATE: the profile's update of every microsecond. -/
def execProfileUpdate (s : State) : Host.Outcome State Fault Refusal := .next (s.whenLive (·.motUpdate))

/-- LIMIT_INPUT_CHANGE: a debounced change of LIM_LO (0), LIM_HI (1) or HOME (2). -/
def execLimitInputChange (i : Fin 3) (level : Bool) (s : State) : Host.Outcome State Fault Refusal :=
  .next (s.whenPowered (·.motInput i level))

/-- LIMIT_CHATTER: more than 4 raw transitions of one input within 10 ms. -/
def execLimitChatter (s : State) : Host.Outcome State Fault Refusal := .next (s.whenLive (·.motChatter))

/-- STANDSTILL_OPTION: SSDLY ms after entry into IDLE. -/
def execStandstillOption (s : State) : Host.Outcome State Fault Refusal :=
  .next (s.whenLive fun s => if s.mot.st = .idle ∧ !s.mot.ss then s.ssApply else s)

/-- MOVE_START_DELAY: 1 ms after the coils were re-energised. -/
def execMoveStartDelay (s : State) : Host.Outcome State Fault Refusal :=
  .next (s.whenLive fun s =>
    if s.mot.delay then
      let v : Rat := (s.mot.vstart : Nat)
      s.updMot fun m => { m with
        delay := false, vel := if m.st ≠ .moving then 0 else if m.tgt < m.pos then -v else v }
    else s)

/-- MOT_ENABLE: a write of MOT_CTL with EN set. -/
def execMotEnable (m : Master) (v : Word) (s : State) : Host.Outcome State Fault Refusal :=
  .next (s.guardWrite m .MOT_CTL 0 (·.motCtlWrite (v ||| 1)))

/-- MOT_DISABLE: a write of MOT_CTL with EN clear. -/
def execMotDisable (m : Master) (v : Word) (s : State) : Host.Outcome State Fault Refusal :=
  .next (s.guardWrite m .MOT_CTL 0 (·.motCtlWrite (v &&& 0xFFFFFFFE)))

/-- MOVE_ABS (mailbox 3). -/
def execMoveAbs (s : State) : Host.Outcome State Fault Refusal :=
  .next (s.whenLive fun s => s.motMail 1 fun ws => s.motRun 1 ws)

/-- MOVE_UM (mailbox 3). -/
def execMoveUm (s : State) : Host.Outcome State Fault Refusal :=
  .next (s.whenLive fun s => s.motMail 2 fun ws => s.motRun 2 ws)

/-- MOVE_REL (mailbox 3). -/
def execMoveRel (s : State) : Host.Outcome State Fault Refusal :=
  .next (s.whenLive fun s => s.motMail 3 fun ws => s.motRun 3 ws)

/-- STOP (mailbox 3). -/
def execStop (s : State) : Host.Outcome State Fault Refusal :=
  .next (s.whenLive fun s => s.motMail 4 fun ws => s.motRun 4 ws)

/-- ESTOP (mailbox 3). -/
def execEstop (s : State) : Host.Outcome State Fault Refusal :=
  .next (s.whenLive fun s => s.motMail 5 fun ws => s.motRun 5 ws)

/-- HOME (mailbox 3). -/
def execHome (s : State) : Host.Outcome State Fault Refusal :=
  .next (s.whenLive fun s => s.motMail 6 fun ws => s.motRun 6 ws)

/-- SETPOS (mailbox 3). -/
def execSetpos (s : State) : Host.Outcome State Fault Refusal :=
  .next (s.whenLive fun s => s.motMail 7 fun ws => s.motRun 7 ws)

/-- CLEAR (mailbox 3). -/
def execMotClear (s : State) : Host.Outcome State Fault Refusal :=
  .next (s.whenLive fun s => s.motMail 8 fun ws => s.motRun 8 ws)

end Sys2Proof.Machine
end

