-- ==== Sys2Proof/Machine/Codec.lean ====
section
/-!
DEFINITION. Sys2Proof/Machine/Codec.lean: the compressed stream of CMP, decoded and encoded (R282–R286).
-/
namespace Sys2Proof.Machine

/-! ### Decoder (R282–R284) -/

/-- What a decoder has done: output newest first, its length, the input it has used, and the failure with the input offset of
the part that failed. -/
structure Unpacked where
  rev  : List Byte := []
  len  : Nat := 0
  used : Nat := 0
  fail : Option (Nat × Nat) := none
  deriving DecidableEq, Repr

/-- The output in stream order. -/
def Unpacked.out (u : Unpacked) : List Byte := u.rev.reverse

/-- End with a failure. -/
def Unpacked.failAt (u : Unpacked) (kind ofs : Nat) : Unpacked := { u with fail := some (kind, ofs) }

/-- Copy a match of `n` bytes from `d` bytes back, byte by byte (R283). -/
def lzCopy : Nat → Nat → List Byte → List Byte
  | 0, _, rev => rev
  | n + 1, d, rev => lzCopy n d (rev.getD (d - 1) 0 :: rev)

/-- Extension bytes: their sum, their number and what follows; none where the data ends inside them. -/
def lzExt : List Byte → Option (Nat × Nat × List Byte)
  | [] => none
  | b :: bs =>
    if b = 255 then (lzExt bs).map fun r => (255 + r.1, r.2.1 + 1, r.2.2) else some (b.toNat, 1, bs)

/-- A length code with its extension bytes. -/
def lzLen (code : Nat) (bs : List Byte) : Option (Nat × Nat × List Byte) :=
  if code = 15 then (lzExt bs).map fun r => (15 + r.1, r.2.1, r.2.2) else some (code, 0, bs)

/-- Which bound `n` more bytes pass first: the block's (5) or the destination's (9). -/
def lzBound (n left lim : Nat) : Option Nat :=
  if n ≤ left ∧ n ≤ lim then none
  else if n ≤ lim then some 5
  else if n ≤ left then some 9
  else if lim ≤ left then some 9 else some 5

/-- The sequences of an LZ block: `data` what there is of the block's data at input offset `pos`, `short` that the input ends
before the declared length, `left` the block's uncompressed bytes still due, `lim` the destination's (R283, R284). -/
def lzSeqs : Nat → List Byte → Nat → Bool → Nat → Nat → Unpacked → Unpacked
  | 0, _, _, _, _, _, u => u
  | fuel + 1, data, pos, short, left, lim, u =>
    let endKind := if short then 8 else 6
    match data with
    | [] => if short then u.failAt 8 pos else if left = 0 then u else u.failAt 5 pos
    | t :: r0 =>
      match lzLen (t.toNat / 16) r0 with
      | none => u.failAt endKind (pos + 1)
      | some (ll, k, r1) =>
        let p1 := pos + 1 + k
        match lzBound ll left lim with
        | some kind => u.failAt kind p1
        | none =>
          if r1.length < ll then u.failAt endKind p1
          else
            let u := { u with rev := (r1.take ll).reverse ++ u.rev, len := u.len + ll }
            let r2 := r1.drop ll
            let p2 := p1 + ll
            let left := left - ll
            let lim := lim - ll
            let ml := t.toNat % 16
            if r2.isEmpty && !short && ml = 0 then (if left = 0 then u else u.failAt 5 p2)
            else
              match r2 with
              | d0 :: d1 :: r3 =>
                let d := d0.toNat + 256 * d1.toNat + 1
                if u.len < d then u.failAt 4 p2
                else
                  match lzLen ml r3 with
                  | none => u.failAt endKind (p2 + 2)
                  | some (m, k, r4) =>
                    let p3 := p2 + 2 + k
                    match lzBound (m + 4) left lim with
                    | some kind => u.failAt kind p3
                    | none =>
                      lzSeqs fuel r4 p3 short (left - (m + 4)) (lim - (m + 4))
                        { u with rev := lzCopy (m + 4) d u.rev, len := u.len + (m + 4) }
              | _ => u.failAt endKind p2

/-- The blocks of a stream from input offset `pos`, with at most `limit` bytes of output (R282, R284). -/
def zcmBlocks : Nat → List Byte → Nat → Nat → Unpacked → Unpacked
  | 0, _, _, _, u => u
  | fuel + 1, inp, pos, limit, u =>
    if inp.length < 8 then u.failAt 8 pos
    else
      let typ := leNat (inp.take 1)
      let dlen := leNat ((inp.drop 1).take 3)
      let ulen := leNat ((inp.drop 4).take 3)
      let body := inp.drop 8
      let okU := decide (1 ≤ ulen) && decide (ulen ≤ 65536)
      if typ = 0 then
        if !okU || dlen != ulen then u.failAt 3 pos
        else if limit - u.len < ulen then u.failAt 9 (pos + 8)
        else if body.length < dlen then u.failAt 8 (pos + 8)
        else
          zcmBlocks fuel (body.drop dlen) (pos + 8 + dlen) limit
            { u with rev := (body.take dlen).reverse ++ u.rev, len := u.len + dlen }
      else if typ = 1 then
        if !okU || dlen = 0 || decide (65535 < dlen) then u.failAt 3 pos
        else
          let u := lzSeqs (dlen + 1) (body.take dlen) (pos + 8) (decide (body.length < dlen)) ulen (limit - u.len) u
          if u.fail.isSome then u else zcmBlocks fuel (body.drop dlen) (pos + 8 + dlen) limit u
      else if typ = 2 then
        if dlen ≠ 0 then u.failAt 3 pos
        else if leNat ((inp.drop 4).take 4) ≠ u.len % 2 ^ 32 then u.failAt 7 pos
        else { u with used := pos + 8 }
      else u.failAt 2 pos

/-- Decode a stream into at most `limit` bytes. -/
def zcmDecode (inp : List Byte) (limit : Nat) : Unpacked :=
  if inp.length < 8 then ({} : Unpacked).failAt 8 0
  else if inp.take 5 ≠ [0x5A, 0x43, 0x4D, 0x31, 0x01] then ({} : Unpacked).failAt 1 0
  else zcmBlocks (inp.length + 1) (inp.drop 8) 8 limit {}

/-! ### Encoder (R285, R286) -/

/-- Candidates of a level (R286). -/
def zcmTries (level : Nat) : Nat := [0, 4, 8, 12, 16, 32, 48, 64, 128, 256].getD level 256

/-- Length of the common prefix of two lists, at most `n`. -/
def commonLen : Nat → List Byte → List Byte → Nat
  | 0, _, _ => 0
  | n + 1, a :: as, b :: bs => if a = b then commonLen n as bs + 1 else 0
  | _ + 1, _, _ => 0

/-- The longest match of at least 4 bytes at position `i`, `left` bytes before the end of the block; of equal lengths the
nearest: distance and length (R286). -/
def zcmMatch (inp : List Byte) (i left tries : Nat) : Option (Nat × Nat) :=
  if left < 4 then none
  else
    let here := inp.drop i
    let cands := (((List.range (min i 65536)).map (· + 1)).filter fun d =>
      (inp.drop (i - d)).take 4 == here.take 4).take tries
    cands.foldl (fun best d =>
      let n := commonLen left (inp.drop (i - d)) here
      match best with
      | some (_, m) => if m < n then some (d, n) else best
      | none => some (d, n)) none

/-- Extension bytes of a value of 15 or more. -/
def lzExtBytes : Nat → Nat → List Byte
  | 0, _ => []
  | fuel + 1, v => if 255 ≤ v then 255 :: lzExtBytes fuel (v - 255) else [BitVec.ofNat 8 v]

/-- One sequence: its literals, and its match as distance and length. -/
def lzSeq (lits : List Byte) (m : Option (Nat × Nat)) : List Byte :=
  let ll := lits.length
  let ml := (m.map fun x => x.2 - 4).getD 0
  let ext := fun (v : Nat) => if 15 ≤ v then lzExtBytes (v + 1) (v - 15) else []
  [BitVec.ofNat 8 (min ll 15 * 16 + min ml 15)] ++ ext ll ++ lits
    ++ (match m with
        | some (d, _) => leBytes 2 (d - 1) ++ ext ml
        | none => [])

/-- The data of an LZ block: from position `i`, with `left` bytes of the block to come and the literals held, newest first. -/
def lzData (inp : List Byte) (tries : Nat) : Nat → Nat → Nat → List Byte → List Byte
  | 0, _, _, _ => []
  | fuel + 1, i, left, lits =>
    if left = 0 then (if lits.isEmpty then [] else lzSeq lits.reverse none)
    else
      match zcmMatch inp i left tries with
      | some (d, n) => lzSeq lits.reverse (some (d, n)) ++ lzData inp tries fuel (i + n) (left - n) []
      | none => lzData inp tries fuel (i + 1) (left - 1) (inp.getD i 0 :: lits)

/-- One block of `n` bytes from position `i`: LZ where that is shorter, else STORED (R285). -/
def zcmBlock (inp : List Byte) (tries i n : Nat) : List Byte :=
  let d := lzData inp tries (n + 1) i n []
  if d.length < n then [1] ++ leBytes 3 d.length ++ leBytes 4 n ++ d
  else [0] ++ leBytes 3 n ++ leBytes 4 n ++ (inp.drop i).take n

/-- The blocks from position `i`. -/
def zcmBlocksOf (inp : List Byte) (tries : Nat) : Nat → Nat → List Byte
  | 0, _ => []
  | fuel + 1, i =>
    let n := min 65536 (inp.length - i)
    if n = 0 then [] else zcmBlock inp tries i n ++ zcmBlocksOf inp tries fuel (i + n)

/-- Stream header of a level. -/
def zcmHead (level : Nat) : List Byte := [0x5A, 0x43, 0x4D, 0x31, 0x01, BitVec.ofNat 8 level, 0, 0]

/-- Encode a whole input. -/
def zcmEncode (inp : List Byte) (level : Nat) : List Byte :=
  zcmHead level ++ zcmBlocksOf inp (zcmTries level) (inp.length / 65536 + 2) 0
    ++ [2, 0, 0, 0] ++ leBytes 4 (inp.length % 2 ^ 32)

/-- What the encoder can have sent once the bytes so far have been read: the stream header and the blocks that are whole. -/
def zcmSoFar (inp : List Byte) (level : Nat) : List Byte :=
  let whole := inp.take (inp.length / 65536 * 65536)
  zcmHead level ++ zcmBlocksOf whole (zcmTries level) (whole.length / 65536 + 1) 0

end Sys2Proof.Machine
end

