-- ==== Sys2Proof/Machine/QuezuBase.lean ====
section
/-!
DEFINITION. Sys2Proof/Machine/QuezuBase.lean: how an engine issues: registers and their delayed writes (R104, R107, R108,
R130, R131), kernel iteration (R135, R136), the run units (R154–R156), the E-slot queue (R123, R124) and the cycle that
carries out the instructions of one bundle.
-/
namespace Sys2Proof.Machine

/-! ### Registers (R104) -/

/-- Vector register, accumulator, predicate (P0 all ones), scalar (S0 zero). -/
def Eng.vreg (g : Eng) (k : Nat) : Vec := look zeroVec g.v k
def Eng.areg (g : Eng) (k : Nat) : AccV := look zeroAcc g.acc k
def Eng.preg (g : Eng) (k : Nat) : BitVec 64 := if k = 0 then BitVec.allOnes 64 else look 0 g.p k
def Eng.sreg (g : Eng) (k : Nat) : BitVec 64 := if k = 0 then 0 else look 0 g.sc k

/-- 40-bit saturation (R146). -/
def sat40 (x : Int) : BitVec 40 := BitVec.ofInt 40 (clampInt (-549755813888) 549755813887 x)

/-- Carry out one register write. -/
def Eng.write (g : Eng) : RegWr → Eng
  | .vec vd vals => { g with v := put (List.zipWith (fun (o : BitVec 16) n => n.getD o) (g.vreg vd) vals) g.v vd }
  | .acc a add vals =>
    { g with acc := put (List.zipWith (fun (o : BitVec 40) n =>
        match n with
        | some x => sat40 (if add then o.toInt + x else x)
        | none => o) (g.areg a) vals) g.acc a }
  | .pred pd v => if pd = 0 then g else { g with p := put v g.p pd }
  | .sca sd v => if sd = 0 then g else { g with sc := put v g.sc sd }
  | .row _ _ => g

/-- What a write names, for R108: kind and number; none for a store. -/
def RegWr.key : RegWr → Option (Nat × Nat)
  | .vec k _ => some (0, k)
  | .acc k _ _ => some (1, k)
  | .pred k _ => some (2, k)
  | .sca k _ => some (3, k)
  | .row _ _ => none

/-- Two accumulations do not exclude each other (R131). -/
def RegWr.adds : RegWr → Bool
  | .acc _ add _ => add
  | _ => false

/-- A write completing in a cycle loses to another of the same cycle that names the same register: the one from the slot at
the higher bit position takes effect, and of two from one slot, which the spec leaves open, the one the free bit names
(R108, log 1). -/
def PendWr.loses (ws : List PendWr) (free : Bool) (i : Nat) (w : PendWr) : Bool :=
  (ws.zipIdx).any fun (x, k) =>
    k != i && x.wr.key == w.wr.key && w.wr.key.isSome && !(x.wr.adds && w.wr.adds)
      && (decide (w.slot < x.slot) || (w.slot == x.slot && (if free then decide (k < i) else decide (i < k))))

/-! ### Kernel iteration (R135, R136) -/

/-- Launch of the loop in progress. -/
def Prog.launch (p : Prog) (k : Nat) : Launch :=
  p.launches.getD k { first := 0, p := 0, e := 0, ii := 1, v := 0, w := 0 }

/-- Iterations of a loop. -/
def LoopSt.iters (l : LoopSt) (n : Launch) : Nat := n.p / max 1 n.ii + l.count + n.e / max 1 n.ii

/-- Bundle issued at iteration j, position idx. -/
def LoopSt.bundle (l : LoopSt) (p : Prog) : Nat :=
  let n := p.launch l.k
  let ii := max 1 n.ii
  let pro := n.p / ii
  p.base + n.first +
    (if l.j < pro then l.j * ii + l.idx
     else if l.j < pro + l.count then n.p + l.idx
     else n.p + ii + (l.j - pro - l.count) * ii + l.idx)

/-- Vector base b of the iteration, for the W slot and LANEIX. -/
def Run.base (r : Run) : Int :=
  match r.loop with
  | some l => l.b0 + 64 * (l.j : Int)
  | none => 0

/-- Vector base b_v of stage s. -/
def Run.vbase (r : Run) (stg : Nat) : Int :=
  match r.loop with
  | some l => l.b0 + 64 * ((l.j : Int) - stg)
  | none => 0

/-- The kernel mask of stage s holds lane l (R136). -/
def Run.kmask (r : Run) (stg l : Nat) : Bool :=
  match r.loop with
  | some k =>
    let v : Int := (k.j : Int) - stg
    let x : Int := k.b0 + 64 * v + l
    decide (0 ≤ v) && decide (v < k.count) && decide (k.sa ≤ x) && decide (x < k.sb)
      && decide (x < k.b0 + 64 * k.count)
  | none => true

/-- The kernel mask of stage s holds no lane: what an E-slot instruction then pushes has no effect (R136). -/
def Run.kempty (r : Run) (stg : Nat) : Bool := (List.range 64).all fun l => !r.kmask stg l

/-! ### Blind lanes (R116) -/

/-- Rings whose BLINDMASK bit is set. -/
def Run.blindRings (r : Run) (p : Prog) : List Ring :=
  (p.rings.zipIdx.filter fun (_, k) => r.mask.testBit k).map (·.1)

/-- A stripe lane is blind. -/
def Run.blindLane (r : Run) (p : Prog) (x : Int) : Bool :=
  (r.blindRings p).any fun g => decide ((g.outlo : Int) ≤ x) && decide (x ≤ g.outhi)

/-- The disjoint ranges of a set of lane ranges, in order. -/
def mergeRanges (l : List (Nat × Nat)) : List (Nat × Nat) :=
  (sortBy (fun a b => decide (a.1 ≤ b.1)) (l.filter fun r => decide (r.1 ≤ r.2))).foldl (fun acc r =>
    match acc.reverse with
    | last :: more => if r.1 ≤ last.2 + 1 then (more.reverse ++ [(last.1, max last.2 r.2)]) else acc ++ [r]
    | [] => [r]) []

/-- The four blind ranges of the end-of-line entry: the fourth covers all later ones (R157). -/
def fourRanges (l : List (Nat × Nat)) : List (Nat × Nat) :=
  match l with
  | a :: b :: c :: d :: more => [a, b, c, (d.1, ((d :: more).getLastD d).2)]
  | l => l

/-! ### Run units and the run buffer (R154, R155) -/

/-- Saturation of a feature sum at ±2³¹, as a signed 32-bit number. -/
def sat32 (x : Int) : Int := clampInt (-2147483648) 2147483647 x

/-- Merge a run into record 255 (R155). -/
def RunRec.merge (a b : RunRec) : RunRec :=
  { a with
    first := min a.first b.first
    last := max a.last b.last
    sums := List.zipWith (fun x y => sat32 (x + y)) a.sums b.sums
    peak := max a.peak b.peak
    off := if a.peak < b.peak then b.off else a.off
    ovf := true }

/-- A run closes into the buffer. -/
def bufAdd (buf : List RunRec) (r : RunRec) : List RunRec :=
  if buf.length < 256 then buf ++ [r]
  else buf.take 255 ++ [((buf.drop 255).headD r).merge r]

/-- Close the open run of a unit: a blind lane after it sets CUT_RIGHT. -/
def closeUnit (blind : Int → Bool) (start : Nat) (u : RunUnit) (buf : List RunRec) : RunUnit × List RunRec :=
  match u.cur with
  | none => (u, buf)
  | some r => ({ u with cur := none }, bufAdd buf { r with cutR := blind ((r.last : Int) - start + 1) })

/-- One lane of an EMIT: sums and magnitude of the lane, flagged or not. -/
def emitLane (blind : Int → Bool) (start : Nat) (new : RunRec) (bv : Int) (psel : Nat) (lane : Nat × Bool × List (BitVec 16))
    (a : RunUnit × List RunRec) : RunUnit × List RunRec :=
  let (l, flagged, v) := lane
  if !flagged then closeUnit blind start a.1 a.2
  else
    let x := ofSigned 18 ((start : Int) + bv + l)
    let sums := v.map (·.toInt)
    let mag := ((v.getD psel 0).toInt).natAbs
    match a.1.cur with
    | none =>
      ({ a.1 with cur := some { new with
          first := x, last := x, sums := sums, peak := mag, off := 0, cutL := blind (bv + l - 1) } }, a.2)
    | some r =>
      ({ a.1 with cur := some { r with
          last := x, sums := List.zipWith (fun p q => sat32 (p + q)) r.sums sums
          peak := max r.peak mag, off := if r.peak < mag then x - r.first else r.off } }, a.2)

/-- Split a vector into lanes of four channels. -/
def lanes : Vec → List (List (BitVec 16))
  | a :: b :: c :: d :: rest => [a, b, c, d] :: lanes rest
  | _ => []

/-! ### Instructions of a bundle -/

/-- A control transfer of the C slot. -/
inductive Ctl where
  | none
  | branch (ofs : Nat)
  | loop (k : Nat) (sa sb : Int)
  | wait
  | mbox
  deriving DecidableEq, Repr

/-- What one instruction does: its writes with their latencies, the queue entries it pushes, the run after its EMIT, a control
transfer, whether it accessed its stripe bank and an access the bank refused, and how many free values it used. -/
structure Out where
  wr   : List (Nat × RegWr) := []
  push : List QEntry := []
  run  : Option Run := none
  ctl  : Ctl := .none
  bank : Bool := false
  deny : Option (Nat × Kind) := none
  draws : Nat := 0

/-- What an instruction reads at issue: the device, the engine's number, the engine, its program and its run. -/
structure Iss where
  s : State
  e : Nat
  g : Eng
  p : Prog
  r : Run

/-- An instruction of one slot. -/
abbrev Op := Iss → Out

/-- The NOP of a slot. -/
def opNop : Op := fun _ => {}

/-- Slot positions in the order of R106. -/
def slotC : Nat := 0
def slotW : Nat := 1
def slotU0 : Nat := 2
def slotU1 : Nat := 3
def slotM : Nat := 4
def slotE : Nat := 5

/-! ### Cycle -/

/-- Carry out the writes whose latency ends now (R107, R108). -/
def State.engRetire (s : State) (e : Nat) : State :=
  let g := s.eng e
  let pend := g.pend.map fun w => { w with left := w.left - 1 }
  let due := pend.filter (·.left == 0)
  let s := s.updEng e fun g => { g with pend := pend.filter (·.left != 0) }
  let tie := due.zipIdx.any fun (w, i) => due.zipIdx.any fun (x, k) =>
    decide (i < k) && x.slot == w.slot && x.wr.key == w.wr.key && w.wr.key.isSome && !(x.wr.adds && w.wr.adds)
  let free := s.free % 2 = 1
  let s := if tie then s.drawn else s
  due.zipIdx.foldl (fun s (w, i) =>
    if w.loses due free i then s.raise SE_STAT_WCOLL e
    else match w.wr with
      | .row a bs => s.rowWrite e a bs
      | wr => s.updEng e fun g => g.write wr) s

/-- Complete every outstanding write in order. -/
def State.engFlush (s : State) (e : Nat) : Nat → State
  | 0 => s
  | n + 1 => (s.engRetire e).engFlush e n

/-- Push the entries of one instruction; a push into a full queue discards them and is a fault (R123, R124). -/
def State.engPush (s : State) (e : Nat) (q : List QEntry) : State × Bool :=
  let g := s.eng e
  if q.isEmpty then (s, true)
  else if 64 < g.queue.length + q.length then (s, false)
  else
    let n := g.queue.length + q.length
    let s := s.updEng e fun g => { g with queue := g.queue ++ q }
    (s.setFld SE_QPEAK_PEAK e (max n (s.fld SE_QPEAK_PEAK e)), true)

/-- Bytes of a run record (R156). -/
def RunRec.bytes (r : RunRec) : List Byte :=
  leBytes 4 r.first ++ leBytes 4 r.last ++ r.sums.flatMap (fun x => leBytes 4 (ofSigned 32 x)) ++ leBytes 2 r.peak
    ++ leBytes 2 r.off
    ++ leBytes 1 (r.ovf.toNat + 2 * r.cutL.toNat + 4 * r.cutR.toNat + 8 * r.unit + 16 * r.user)
    ++ leBytes 1 r.eng ++ leBytes 2 r.line

/-- Close the open runs of both units and push the end-of-line entry with the records that TICKWAIT closed (R139, R155–R157), and
record 255 again where runs have merged into it since it was sent (DEDUCED, log 55). -/
def State.engEol (s : State) (e : Nat) : State × Bool :=
  let g := s.eng e
  match g.run, g.prog with
  | some r, some p =>
    let start := s.stripeStart e
    let (u0, b) := closeUnit (r.blindLane p) start r.u0 r.buf
    let (u1, b) := closeUnit (r.blindLane p) start r.u1 b
    let ranges := fourRanges (mergeRanges ((r.blindRings p).map fun g => (g.outlo, g.outhi)))
    let s := s.updEng e fun g => { g with run := some { r with u0 := u0, u1 := u1, buf := b } }
    let again := if r.buf.length = 256 ∧ b.any (·.ovf) then b.drop 255 else []
    s.engPush e [.eol (b.drop r.buf.length ++ again) r.line r.mask b.length (b.any (·.ovf)) ranges]
  | _, _ => (s, true)

/-- The run is over: outstanding writes complete, the cycle registers and the run count are written (R117, R139). -/
def State.engFinish (s : State) (e : Nat) : State :=
  match (s.eng e).run with
  | none => s
  | some r =>
    let s := s.engFlush e 8
    let s := (s.setFld SE_RUNCYC_CYCLES e r.cycles).setFld SE_RUNPEAK_CYCLES e (max r.cycles (s.fld SE_RUNPEAK_CYCLES e))
    s.updEng e fun g => { g with run := none, runs := g.runs + 1, lastLine := r.line }

/-- Worst-case tick cost of a program: C, and B + F (R120). -/
def Prog.cCost (p : Prog) : Nat := p.launches.foldl (fun a l => a + l.p + l.v * l.ii + l.e) p.cLine
def Prog.bankCost (p : Prog) : Nat :=
  p.launches.foldl (fun a l => a + l.v * l.w) p.wLine
    + 64 + (p.rings.filter fun r => decide (r.kind < 3)).foldl (fun a r => a + r.pitch / 512) 0
def Prog.cost (p : Prog) : Nat := max p.cCost p.bankCost

/-- Line rate of a cost (R121). -/
def costRate (c : Nat) : Nat := min 300000 (1500000000 / max 1 c)

/-- TICK_FMAX: the smallest line rate of the programs resident in any engine (R121). -/
def State.fmaxUpdate (s : State) : State :=
  let rates := s.engs.flatMap fun (_, g) => (g.prog.toList ++ (g.staged.map (·.1)).toList ++ g.nexts.map (·.1)).map fun p => costRate p.cost
  s.setFld TICK_FMAX_FMAX 0 (rates.foldl min 300000)

/-- The registers that describe the active program: SE_RINGk, SE_COST, SE_BANK. -/
def State.progRegs (s : State) (e : Nat) (p : Prog) : State :=
  let s := (s.setFld SE_COST_CYCLES e p.cCost).setFld SE_BANK_CYCLES e p.bankCost
  (List.range 8).foldl (fun s k =>
    let i := 8 * e + k
    match p.rings[k]? with
    | none => (((s.setReg .SE_RING_A i 0).setReg .SE_RING_B i 0).setReg .SE_RING_C i 0).setReg .SE_RING_D i 0
    | some r =>
      let a := r.base % 2 ^ 22 + r.kind * 2 ^ 24 + 2 ^ 31
      let b := r.width % 16384 + r.depth * 2 ^ 16 + r.elem * 2 ^ 24
      let c := r.hdr % 2 ^ 22 + r.h % 16 * 2 ^ 24 + r.req.toNat * 2 ^ 31
      let d := r.outlo % 2 ^ 14 + r.outhi % 2 ^ 14 * 2 ^ 16
      (((s.setReg .SE_RING_A i (BitVec.ofNat 32 a)).setReg .SE_RING_B i (BitVec.ofNat 32 b)).setReg .SE_RING_C i
        (BitVec.ofNat 32 c)).setReg .SE_RING_D i (BitVec.ofNat 32 d)) s

/-- Lines of the runs an engine has started or will start: the ticks queued in FAULT start none, since RESTART drops them. -/
def State.engLines (s : State) (e : Nat) : List Int :=
  let g := s.eng e
  (g.run.map (·.line)).toList ++ (if g.st == .fault then [] else g.due.toList ++ look [] s.tick.slack e)

/-- An engine changes to a program whose splice line has come, with the limit latched for it (R128, R129). -/
def State.engTake (s : State) (e : Nat) (p : Prog) (limit : Nat) : State :=
  let s := s.updEng e fun g => { g with prog := some p, firstSplice := true }
  ((s.setFld SE_BUDGET_LIMIT e limit).progRegs e p).fmaxUpdate

/-- The programs whose splice line is at or below `n` take over, in order. -/
def State.engNexts (s : State) (e : Nat) (n : Int) : State :=
  let due := (s.eng e).nexts.takeWhile fun x => decide (x.2.2 ≤ n)
  let s := s.updEng e fun g => { g with nexts := g.nexts.drop due.length }
  due.foldl (fun s x => s.engTake e x.1 x.2.1) s

/-- A program past its splice line takes over once no run of an earlier line is left to the engine, and the old one is released
(R128). -/
def State.engSettle (s : State) (e : Nat) : State :=
  match (s.eng e).nexts with
  | [] => s
  | (_, _, at_) :: _ => if (s.engLines e).any fun l => decide (l < at_) then s else s.engNexts e at_

/-- Entry into FAULT (R126): no run of the engine is left, so a program past its splice line takes over (R128). -/
def State.engFault (s : State) (e cause : Nat) : State :=
  let s := s.updEng e fun g => { g with st := .fault, fcause := cause, run := none, pend := [] }
  (s.engSettle e).raise SE_STAT_FAULT e |>.irq "SE_FAULT"

/-- The run ends (R126, R139): ARMED, or LOADED when GO was written 0; the oldest queued tick is due at once (R38). -/
def State.engEnd (s : State) (e : Nat) : State :=
  let s := s.engFinish e
  let g := s.eng e
  if g.stop then ((s.updEng e fun g => { g with st := .loaded, stop := false }).setFld SE_CTL_GO e 0).engSettle e
  else
    let q := look [] s.tick.slack e
    let s := s.updEng e fun g => { g with st := .armed, due := q.head? }
    { s with tick := { s.tick with slack := put (q.drop 1) s.tick.slack e } }.engSettle e

/-- Where the next bundle comes from, after a control transfer. -/
def Run.advance (r : Run) (p : Prog) (c : Ctl) : Run :=
  match r.loop with
  | some l =>
    let n := p.launch l.k
    let l := if l.idx + 1 < max 1 n.ii then { l with idx := l.idx + 1 } else { l with idx := 0, j := l.j + 1 }
    if l.j < l.iters n then { r with loop := some l, pc := l.bundle p } else { r with loop := none, pc := l.ret }
  | none =>
    match c with
    | .branch ofs => { r with pc := r.pc + max 1 ofs }
    | .loop k sa sb =>
      let n := p.launch k
      let b0 := sa / 64 * 64
      let cnt := min n.v ((sb + 63) / 64 - b0 / 64).toNat
      if cnt = 0 then { r with pc := r.pc + 1 }
      else
        let l : LoopSt := { k := k, b0 := b0, count := cnt, sa := sa, sb := sb, ret := r.pc + 1 }
        if 0 < l.iters n then { r with loop := some l, pc := l.bundle p } else { r with pc := r.pc + 1 }
    | _ => { r with pc := r.pc + 1 }

/-- What the slots of a bundle give, after the rules that span slots: the E slot beside a TICKWAIT or an MBOX gives nothing, and
an MBOX in a kernel bundle is a NOP (R134). -/
def slotOuts (r : Run) (outs : List (Nat × Out)) : Ctl × List (Nat × Out) :=
  let ctl0 : Ctl := ((outs.find? fun o : Nat × Out => o.2.ctl != Ctl.none).map fun o => o.2.ctl).getD Ctl.none
  let ctl : Ctl := if r.loop.isSome then Ctl.none else ctl0
  let outs := if ctl = .wait ∨ ctl = .mbox then outs.filter fun (k, _) => k != slotE else outs
  (ctl, if r.loop.isSome then outs.map fun (k, o) => if k = slotC && o.ctl == .mbox then (k, { o with push := [] }) else (k, o)
    else outs)

/-- An access of a slot to its bank checks the bank's table (R386); a refused one is logged there. -/
def State.slotDeny (s : State) (e : Nat) (o : Nat × Out) : State :=
  let s := if o.2.bank then s.checkTable e else s
  match o.2.deny with
  | some (ofs, kind) => s.logDenied e e ofs kind
  | none => s

/-- Issue the results of a bundle's slots: denials, free values drawn, writes pending, the run as the slots leave it, and the
writes that fall due (R107, R130). -/
def State.engIssue (s : State) (e : Nat) (r : Run) (outs : List (Nat × Out)) : State :=
  let s := outs.foldl (fun s o => s.slotDeny e o) s
  let s := { s with freeCtr := outs.foldl (fun n (o : Nat × Out) => n + o.2.draws) s.freeCtr }
  (s.updEng e fun g => { g with
    pend := g.pend ++ outs.flatMap fun (o : Nat × Out) => o.2.wr.map fun (w : Nat × RegWr) => { left := w.1, slot := o.1, wr := w.2 }
    run := some { outs.foldl (fun r (o : Nat × Out) => o.2.run.getD r) r with cycles := r.cycles + 1 } }).engRetire e

/-- Push the queue entries of a bundle's slots; whether all found room. -/
def State.slotPush (e : Nat) (a : State × Bool) (o : Nat × Out) : State × Bool :=
  ((a.1.engPush e o.2.push).1, a.2 && (a.1.engPush e o.2.push).2)

/-- A branch past the program's end (R134) ends the run with its end-of-line entry and a fault. -/
def State.engPast (s : State) (e : Nat) : State := ((s.engEol e).1.engFinish e).engFault e 1

/-- The end of a run at TICKWAIT: the end-of-line entry, then the engine's next state. -/
def State.engWait (s : State) (e : Nat) : State :=
  if (s.engEol e).2 then (s.engEol e).1.engEnd e else (s.engEol e).1.engFault e 2

/-- Go on after a bundle: to the end of the run, to a fault, or to the next bundle. -/
def State.engNext (s : State) (e : Nat) (p : Prog) (next : Run) (ctl : Ctl) : State :=
  if ctl = .wait then s.engWait e
  else if (match ctl with
    | .branch _ => decide (p.base + p.bundles ≤ next.pc)
    | _ => false) then s.engPast e
  else s.updEng e fun g => { g with run := some next }

/-- One cycle of a RUNNING engine with the instructions of its bundle, each at its slot. A run that has reached its worst-case
cost is stopped instead (R122). -/
def State.engCycle (s : State) (e : Nat) (ops : List (Nat × Op)) : State :=
  let g := s.eng e
  match g.st, g.run, g.prog with
  | .running, some r, some p =>
    if p.cost ≤ r.cycles then s.engFault e 1
    else
      let i : Iss := { s := s, e := e, g := g, p := p, r := r }
      let (ctl, outs) := slotOuts r (ops.map fun (k, op) => (k, op i))
      let next := { outs.foldl (fun r (o : Nat × Out) => o.2.run.getD r) r with cycles := r.cycles + 1 }.advance p ctl
      match outs.foldl (State.slotPush e) (s.engIssue e r outs, true) with
      | (s, true) => s.engNext e p next ctl
      | (s, false) => s.engFault e 2
  | _, _, _ => s

/-- A bundle that holds one instruction in one slot; in Hold the engines are clock-gated (R126). -/
def State.engOne (s : State) (e slot : Nat) (op : Op) : State := if s.inRun then s.engCycle e [(slot, op)] else s

end Sys2Proof.Machine
end

