-- ==== Sys2Proof/Machine/ReportBase.lean ====
section
/-!
DEFINITION. Sys2Proof/Machine/ReportBase.lean: what the pixel path tells RPT: notices, collectors of consecutive blind lines
(R25, R39, R429), the lines a camera loses (R79, R80), and the ticks that reach an engine (R38, R39).
-/
namespace Sys2Proof.Machine

/-- J, the first inspected line of the job (R36). -/
def State.jobLine (s : State) : Nat := s.fld RPT_JOB0_LO_LINE_L + 2 ^ 32 * s.fld RPT_JOB0_HI_LINE_H

/-- Blind web on a line is reported: RPT builds records, the line belongs to the job (R25). -/
def State.reports (s : State) (l : Int) : Bool :=
  s.on RPT_CTL_EN && decide ((s.jobLine : Int) ≤ l) && s.zsp.job != .cal

/-- The tick issued last: in a drain the last drain tick (R394). -/
def State.nowTick (s : State) : Int := if s.pwr.drain then max s.pwr.holdLine s.pwr.drainAt else s.tick.hw

/-- RPT is told something it may build from tick `due` on, and not before the next tick (R222). The buffer holds what waits
after the ticks at which it fell due: an entry beyond 16,384 of those is lost when it would have to wait (RECORD_BUILD). -/
def State.notice (s : State) (due : Int) (i : RptItem) : State :=
  if s.on RPT_CTL_EN then
    { s with rpt := { s.rpt with wait := s.rpt.wait ++ [{ due := max due (s.nowTick + 1), item := i }] } }
  else s

/-- A BLIND notice. -/
def State.noticeBlind (s : State) (cause detail src : Nat) (ext : Extent) : State :=
  s.notice 0 (.blind { cause := cause, detail := detail, src := src, ext := ext })

/-- A collector's record is emitted. -/
def State.collectEmit (s : State) (c : Collect) : State := s.noticeBlind c.cause c.detail c.src c.ext

/-- A one-line collector. -/
def blindLine (cause detail src : Nat) (l : Int) (p0 p1 : Nat) : Collect :=
  { cause := cause, detail := detail, src := src, ext := { l0 := l, l1 := l, p0 := p0, p1 := p1 } }

/-- Two collectors count the same cause, detail, source and pixels. -/
def Collect.same (a b : Collect) : Bool :=
  a.cause == b.cause && a.detail == b.detail && a.src == b.src && a.ext.p0 == b.ext.p0 && a.ext.p1 == b.ext.p1

/-- What line l makes of an open collector: kept or extended, or ended (R429). `hit`: the line is blind for it; `mine`: the
unit that processes the line is the collector's. -/
def Collect.step (c : Collect) (l : Int) (hit mine : Bool) : Collect × Bool :=
  if hit then
    if l ≤ c.ext.l1 then (c, true)
    else if l = c.ext.l1 + 1 ∧ l < c.ext.l0 + 4096 then ({ c with ext := { c.ext with l1 := l } }, true)
    else (c, false)
  else (c, !(mine && decide (c.ext.l1 < l)))

/-- A unit processes line l with its blind items (R429). -/
def State.collectLine (s : State) (l : Int) (mine : Collect → Bool) (items : List Collect) : State :=
  let items := if s.reports l then items else []
  let stepped := s.rpt.open_.map fun c => c.step l (items.any (·.same c)) (mine c)
  let kept := (stepped.filter (·.2)).map (·.1)
  let new := items.filter fun i => !kept.any fun c => c.same i && decide (c.ext.l0 ≤ l) && decide (l ≤ c.ext.l1)
  let s := { s with rpt := { s.rpt with open_ := kept ++ new } }
  (stepped.filter (!·.2)).foldl (fun s c => s.collectEmit c.1) s

/-- The records of dropped lines that engine e has open are emitted at its next run start (R39). -/
def State.dropsEmit (s : State) (e : Nat) : State :=
  let mine := fun (c : Collect) => c.cause == 1 && c.detail == 0 && c.src == e
  let s' := { s with rpt := { s.rpt with open_ := s.rpt.open_.filter fun c => !mine c } }
  (s.rpt.open_.filter mine).foldl (fun s c => s.collectEmit c) s'

/-- Output pixels of a stripe. -/
def State.stripeExt (s : State) (e : Nat) : Nat × Nat :=
  (s.stripeStart e, s.stripeStart e + s.stripeWidth e - 1)

/-- Last line that every count keeps: the larger of two. -/
def lineMax (o : Option Int) (n : Int) : Int := (o.map fun x => max x n).getD n

/-- Note a line an engine has completed or dropped, or has started. -/
def State.rptDone (s : State) (e : Nat) (n : Int) : State :=
  { s with rpt := { s.rpt with doneLine := put (lineMax ((s.rpt.doneLine.find? (·.1 == e)).map (·.2)) n) s.rpt.doneLine e } }
def State.rptStarted (s : State) (e : Nat) (n : Int) : State :=
  { s with rpt := { s.rpt with startLine := put (lineMax ((s.rpt.startLine.find? (·.1 == e)).map (·.2)) n) s.rpt.startLine e } }

/-! ### Lost camera lines (R79, R80, R89, R102, R167, R168, R244) -/

/-- Header of slot i of a ring. -/
def State.slotHdr (s : State) (e : Nat) (r : Ring) (i : Nat) : List Byte := s.rowBytes e (r.hdrOfs i) 32

/-- A slot header carries line n and BLIND = 0 (R115). -/
def hdrOk (h : List Byte) (n : Int) : Bool :=
  hdrLine h == ofSigned 48 n && !(leNat ((h.drop 11).take 1)).testBit 0

/-- Output pixel intervals that depend on a camera (R79). -/
def State.camSpans (s : State) (c : Nat) : List (Nat × Nat) :=
  mergeRanges ((s.routesOf c).filterMap fun i =>
    let start := s.stripeStart (s.fld ACCORD_RTA_ENG i)
    (s.routeRing i).map fun r => (start + r.outlo, start + r.outhi))

/-- H_max of a camera (R79). -/
def State.camHmax (s : State) (c : Nat) : Nat :=
  ((s.routesOf c).filterMap fun i => (s.routeRing i).map Ring.h).foldl max 1

/-- The camera of a camera ring, and whether Accord feeds it: that of the valid route into it, else that of the first route entry
that names it (R167). -/
def State.ringCam (s : State) (e k : Nat) : Option Nat × Bool :=
  let mine := (List.range 64).filter fun i => s.fld ACCORD_RTA_ENG i == e && s.fld ACCORD_RTA_RING i == k
  match mine.find? (s.on ACCORD_RTA_V ·) with
  | some i => (some (s.fld ACCORD_RTA_CAM i), s.on ACCORD_CTL_EN)
  | none => (mine.head?.map (s.fld ACCORD_RTA_CAM ·), false)

/-- Line n of camera c is counted as lost, once, with the detail of its record: 0 where only a ring without copies lost it (R79,
R80, R167). -/
def State.camLose (s : State) (c : Nat) (n : Int) (detail : Nat) : State :=
  match (s.cam c).lost.find? (·.1 == n) with
  | some (_, d) =>
    if d = 0 ∧ detail ≠ 0 then s.updCam c fun k => { k with lost := (n, detail) :: k.lost.filter (·.1 != n) } else s
  | none =>
    ((s.raise CAM_STAT_LINE_LOST c).count .CAM_LOST c 1 0xFFFFFFFF).updCam c fun k => { k with lost := ((n, detail) :: k.lost).take 512 }

/-- Line n of camera c passed while its port delivered none (R80). -/
def State.camGone (s : State) (c : Nat) (n : Int) : Bool := inRanges (s.cam c).away n

/-- Line n waits, complete, before the ingest unit. -/
def State.camWaits (s : State) (c : Nat) (n : Int) : Bool := (s.cam c).lines.any fun l => l.line == n

/-- No samples of line n have come, or it passed while the port delivered none: it is lost whatever comes later. -/
def State.camMissed (s : State) (c : Nat) (n : Int) : Bool :=
  s.camGone c n || (!(s.iu c).seen.contains n && !s.camWaits c n)

/-- A line without samples: what stands for it in the rings and on the halo ports, and its detail, once (R80, R89, R244). -/
def State.camMiss (s : State) (c : Nat) (n : Int) : State :=
  if (s.cam c).lost.any fun x => x.1 == n && x.2 != 0 then s
  else
    let s := (((s.routesOf c).foldl (fun s i => s.routeBlind c i n) s).haloBlind c n).iuLost c n
    s.camLose c n (if s.camGone c n then 2 else 1)

/-- The detail of the record that covers line n of camera c: that of the latest line in reach of line n's runs that was lost,
or was never ticked, so that no camera delivered it (R25, R79). -/
def State.camBlind (s : State) (c : Nat) (n : Int) : Option Nat :=
  (List.range (s.camHmax c)).findSome? fun (j : Nat) =>
    let m := n - (j : Int)
    match (s.cam c).lost.find? (fun x => x.1 == m && x.2 != 0) with
    | some (_, d) => some d
    | none => if s.lineLive m || inRanges s.tick.past m then none else some 1

/-- Line n of camera c is blind or not: its records are collected once, whichever engine comes to the line first (R79, R429). -/
def State.camCollect (s : State) (c : Nat) (n : Int) : State :=
  if (s.cam c).cover.contains n then s
  else
    let spans := s.camSpans c
    let mine := fun (b : Collect) => b.cause == 2 && b.src == c && spans.contains (b.ext.p0, b.ext.p1)
    match s.camBlind c n with
    | some d =>
      (s.updCam c fun k => { k with cover := (n :: k.cover).take 512 }).collectLine n mine
        (spans.map fun x => blindLine 2 d c n x.1 x.2)
    | none => s.collectLine n mine []

/-- Cameras that Accord routes into an engine. -/
def State.camsOf (s : State) (e : Nat) : List Nat :=
  (List.range 12).filter fun c => (s.routesOf c).any fun i => s.fld ACCORD_RTA_ENG i == e

/-- Camera c's line n, which engine e does not run. -/
def State.judgeCam (s : State) (n : Int) (c : Nat) : State :=
  (s.doIf (s.camMissed c n) (·.camMiss c n)).camCollect c n

/-- Lines up to m that engine e has not judged its cameras on: those ticked, of the last 512. -/
def State.unjudged (s : State) (e : Nat) (m : Int) : List Int :=
  ((List.range (min 512 (m - (s.eng e).judged).toNat)).map fun (i : Nat) => m - (i : Int)).reverse.filter s.lineLive

/-- Engine e has passed the lines up to m without a run: lost lines of its cameras among them are judged in their order. They count
as lost no later than the engine's next run, or at the drop of a line while it runs none (DESIGN CHOICE, log 137). -/
def State.judgeTo (s : State) (e : Nat) (m : Int) : State :=
  let s' := (s.unjudged e m).foldl (fun s n => (s.camsOf e).foldl (fun s c => s.judgeCam n c) s) s
  s'.updEng e fun g => { g with judged := max g.judged m }

/-- Camera c's line n is judged at the start of engine e's run for it: a copy that is not in its ring is late where the line waits
(R168), and in either case loses the line (R79, R102). -/
def State.judgeRunCam (s : State) (e : Nat) (n : Int) (c : Nat) : State :=
  let bad := ((s.routesOf c).filter fun i => s.fld ACCORD_RTA_ENG i == e).filter fun i =>
    match s.routeRing i with
    | some r => !hdrOk (s.slotHdr e r (r.slotOf n)) n
    | none => false
  let s :=
    if s.camMissed c n then s.camMiss c n
    else if bad.isEmpty then s
    else
      let s := if s.camWaits c n then (bad.foldl (fun s _ => s.raise ACCORD_STAT_LATE) s).iuLost c n else s
      s.camLose c n 1
  s.camCollect c n

/-- The cameras routed into engine e are judged on the line its run starts for. -/
def State.judgeRun (s : State) (e : Nat) (n : Int) : State :=
  ((s.camsOf e).foldl (fun s c => s.judgeRunCam e n c) s).updEng e fun g => { g with judged := max g.judged n }

/-- Tick n + D for a camera that Accord routes into no engine: its line is lost where it passed a silent port, or where a halo
entry waits for it (R80, R244). -/
def State.judgeFree (s : State) (n : Int) (c : Nat) : State :=
  if !(s.routesOf c).isEmpty then s
  else if s.camGone c n || (!(s.haloOf c).isEmpty && (s.cam c).st != .off && s.camMissed c n) then s.camMiss c n
  else s

/-- Line n is dropped in engine e's stripe (R39): counted, told to Sillage, reported, and its cameras judged. -/
def State.dropLine (s : State) (e : Nat) (n : Int) : State :=
  let x := s.stripeExt e
  let s := s.doIf ((s.eng e).st != .running && (s.eng e).st != .armed) (·.judgeTo e n)
  let s := (s.raise TICK_STAT_SLACK_LOST).setFld TICK_SLACK_LOST e (min 0xFFFF (s.fld TICK_SLACK_LOST e + 1))
  let s := (s.collectLine n (fun _ => false) [blindLine 1 0 e n x.1 x.2]).rptDone e n
  if s.on SIL_CTL_EN then
    { s with sil := { s.sil with eols := s.sil.eols ++ [{ eng := e, line := n, runs := [], blind := [x] }] } }
  else s

/-- Ticks queued in an engine's slack FIFO. -/
def State.slackOf (s : State) (e : Nat) : List Int := look [] s.tick.slack e

/-- The FIFO of an engine grows to `q'`: its peak, and SLACK_USED when it was empty (R38). -/
def State.slackGrow (s : State) (e : Nat) (q' : List Int) : State :=
  let q := s.slackOf e
  let s := { s with tick := { s.tick with slack := put q' s.tick.slack e } }
  let s := s.setFld TICK_SLACK_PEAK e (max q'.length (s.fld TICK_SLACK_PEAK e))
  if q.isEmpty then s.strobe [3] else s

/-- A tick is queued, or its line dropped when the FIFO is full (R38, R39). -/
def State.slackPush (s : State) (e : Nat) (n : Int) : State :=
  let q := s.slackOf e
  if 8 ≤ q.length then s.dropLine e n else s.slackGrow e (q ++ [n])

/-- The tick that an ARMED engine had taken and not started goes back to the front of the FIFO; from a full one the newest line
is dropped, as if that tick had been queued when it arrived (DEDUCED, log 67). -/
def State.slackReturn (s : State) (e : Nat) (n : Int) : State :=
  let q := s.slackOf e
  let s := s.slackGrow e (n :: q.take 7)
  (q.drop 7).foldl (fun s m => s.dropLine e m) s

/-- The tick for line n reaches engine e (R38, R39, R126). -/
def State.engTick (s : State) (e : Nat) (n : Int) : State :=
  let g := s.eng e
  match g.st with
  | .armed => if g.due.isNone then s.updEng e fun g => { g with due := some n } else s.slackPush e n
  | .running | .fault => s.slackPush e n
  | .empty | .loaded => if s.stripeWidth e = 0 then s else s.dropLine e n

/-- The ticks of an engine's slack are dropped (R126). -/
def State.slackDrop (s : State) (e : Nat) : State :=
  let q := s.slackOf e
  let s := { s with tick := { s.tick with slack := put [] s.tick.slack e } }
  q.foldl (fun s n => s.dropLine e n) s

end Sys2Proof.Machine
end

