-- ==== Sys2Proof/Machine/RefBase.lean ====
section
/-!
DEFINITION. Sys2Proof/Machine/RefBase.lean: which page and which reference row a line reads (R187–R191), the check of R192, and
the freeing of rows (R182).
-/
namespace Sys2Proof.Machine

/-- RS = 2^−RSH (R187). -/
def State.rs (s : State) : Rat := 1 / ((2 ^ s.fld REF_CTL_RSH : Nat) : Rat)

/-- REF runs in reference mode (R199). -/
def State.refMode (s : State) : Bool := s.fld REF_CTL_MODE == 0

/-- The tracker of a stripe. -/
def State.trk (s : State) (e : Nat) : Tracker := look {} s.ref.trk e

/-- Change the tracker of a stripe. -/
def State.updTrk (s : State) (e : Nat) (f : Tracker → Tracker) : State :=
  { s with ref := { s.ref with trk := upd {} f s.ref.trk e } }

/-- The latest page start at or before line n. -/
def State.pageAt (s : State) (n : Int) : Option RefPage :=
  s.ref.pages.find? fun p => match p.start with
    | some st => decide (st ≤ n)
    | none => false

/-- The reference rings of a program. -/
def Prog.refRings (p : Prog) : List Ring := p.rings.filter (·.kind == 1)

/-- RMAX of a program: the deepest read of its reference rings (R188). -/
def Prog.refMax (p : Prog) : Nat := (p.refRings.map Ring.rmax).foldl max 0

/-- The row index q of the run of line n in engine e; none where the line has no page (R187, R188). -/
def State.refRow (s : State) (e : Nat) (p : Prog) (n : Int) : Option Int :=
  match s.pageAt n with
  | none => none
  | some pg =>
    if pg.id = 0xFFFFFFFF then none
    else
      let v : Rat := s.rs * (((n - pg.start.getD 0 : Int) : Rat) + (s.trk e).md)
      if ((pg.len : Rat) + s.rs * (s.fld REF_OVR_OVR : Rat)) ≤ (v.floor : Rat) then none
      else
        let lead : Int := s.fld REF_CTL_LEAD
        some (clampInt (pg.qp + p.refMax - lead) (pg.qp + pg.len - 1 - lead) (pg.qp + v.floor))

/-- What a run context says of its page: page id, line within the page (none where no page applies), row index. -/
structure PageCtx where
  id  : Nat
  rel : Option Nat
  q   : Option Int

/-- The page context of a run. While REF_CTL.EN is 0 no job is open and no page applies (R183). -/
def State.pageCtx (s : State) (e : Nat) (p : Prog) (n : Int) : PageCtx :=
  if !s.on REF_CTL_EN then { id := 0xFFFFFFFF, rel := none, q := if s.refMode then none else some 0 }
  else
    let pg := s.pageAt n
    { id := (pg.map (·.id)).getD 0xFFFFFFFF
      rel := pg.map fun p => (n - p.start.getD 0).toNat
      q := if s.refMode then s.refRow e p n else some 0 }

/-- Slot of reference row k (R189). -/
def State.refSlot (s : State) (r : Ring) (k : Nat) : Nat := r.slotOf ((k : Int) - (s.fld REF_CTL_LEAD : Int))

/-- A slot of a reference ring carries row k of a page (R191). -/
def State.refHolds (s : State) (e : Nat) (r : Ring) (k id : Nat) : Bool :=
  let h := s.slotHdr e r (s.refSlot r k)
  (leNat ((h.drop 12).take 1)).testBit 0 && leNat ((h.drop 4).take 4) == id && leNat (h.take 4) == k % 2 ^ 32

/-- The check of R191: every row the run reads is in its slot. A q whose word reads 0xFFFF_FFFF fails it. -/
def State.refRingOk (s : State) (e : Nat) (r : Ring) (c : PageCtx) : Bool :=
  match c.q with
  | none => false
  | some q => !s.ref.barred.contains e && ofSigned 32 q != 0xFFFFFFFF && (List.range (r.rmax + 1)).all fun j =>
      let k : Int := q + s.fld REF_CTL_LEAD - j
      decide (0 ≤ k) && s.refHolds e r k.toNat c.id

/-- An engine passes the check of R192 (and in self-reference modes that of R199). Of several reference rings each must pass, since
REF fills them all (DEDUCED, log 118). -/
def State.refEngineOk (s : State) (e : Nat) : Bool :=
  match (s.eng e).prog with
  | none => !s.refMode
  | some p =>
    if s.refMode then
      !p.refRings.isEmpty && p.refRings.all fun r =>
        decide (r.rmax + (9 * s.rs).ceil.toNat + 3 ≤ r.depth) && decide (s.fld REF_EWIN_ECOUNT e ≤ r.width)
    else !p.rings.any fun r => r.kind == 1 && r.req

/-- The smaller of two rows, where there are any. -/
def rowMin (a : Option Int) (x : Int) : Option Int := some ((a.map (min x)).getD x)

/-- The row indexes q of the runs an engine has started or queued: a started run keeps the one it began with (R182, R188). -/
def State.engRows (s : State) (e : Nat) (p : Prog) : List Int :=
  let own := match (s.eng e).run with
    | some r => if ofSigned 32 r.q = 0xFFFFFFFF then [] else [r.q]
    | none => []
  own ++ ((s.eng e).due.toList ++ look [] s.tick.slack e).filterMap (s.refRow e p)

/-- The lowest row of a ring that a started or queued run of its engine may read. -/
def State.lowRow (s : State) (e : Nat) (p : Prog) (r : Ring) : Option Int :=
  ((s.engRows e p).map fun (q : Int) => q + s.fld REF_CTL_LEAD - r.rmax).foldl rowMin none

/-- REF frees the rows more than 64 below the lowest row a run may read, in index order (R182), and grants the credit this
makes room for (R181). -/
def State.refFree (s : State) : State :=
  let lows := (List.range 16).flatMap fun e => (s.eng e).prog.toList.flatMap fun p => p.refRings.filterMap (s.lowRow e p)
  match lows.foldl rowMin none with
  | some k =>
    let free := min s.ref.nextRow (k - 64).toNat
    if s.ref.freed < free then { s with ref := { s.ref with freed := free } }.refGrant else s
  | none => s

/-- A tile is discarded (R180): counted for FEED_STATUS (R309). -/
def State.tileLost (s : State) : State := { s with zsp := { s.zsp with tilesLost := s.zsp.tilesLost + 1 } }

end Sys2Proof.Machine
end

