-- ==== Sys2Proof/Machine/Time.lean ====
section
/-!
DEFINITION. Sys2Proof/Machine/Time.lean: the two PTP time domains and their servo (R43–R46).
-/
namespace Sys2Proof.Machine

/-- Time of a domain in ns. -/
def TimeDom.total (d : TimeDom) : Nat := 1000000000 * d.sec + d.ns

/-- A domain set to a time in ns; seconds are 48 bits wide. -/
def TimeDom.setTotal (d : TimeDom) (t : Int) : TimeDom :=
  let n := (t % ((2 ^ 48 * 1000000000 : Nat) : Int)).toNat
  { d with sec := n / 1000000000, ns := n % 1000000000 }

/-- One cycle of the 500 MHz time base: 2 ns × (1 + freq × 10⁻⁹), with a 32-bit fraction of a nanosecond (R43). -/
def TimeDom.cycle (d : TimeDom) : TimeDom :=
  let inc := freeRound 1 ((8589934592 : Rat) + (d.freq : Rat) * 131072 / 1000000000)
  let f : Int := (d.sub : Int) + inc
  { d.setTotal ((d.total : Int) + f / 4294967296) with sub := (f % 4294967296).toNat }

/-- What every step of a domain does (R44, R45): STEPPED, LOCKED cleared, both counts restarted. -/
def State.timeStepped (s : State) (x : Nat) : State :=
  ((s.raise TIME_STAT_X_STEPPED x).setFld TIME_STAT_X_LOCKED x 0).updDom x fun d => { d with inWin := 0, outWin := 0 }

/-- SLEW as treated: 1–1,000 ppm (R425). -/
def State.timeLim (s : State) (x : Nat) : Int :=
  ((min 1000 (max 1 (s.fld TIME_LIM_SLEW x)) * 1000 * 65536 : Nat) : Int)

/-- Count an update inside or outside the lock window and set or clear LOCKED (R44). -/
def State.timeWindow (s : State) (x : Nat) (inside : Bool) : State :=
  let d := s.dom x
  let i := if inside then d.inWin + 1 else 0
  let o := if inside then 0 else d.outWin + 1
  let s := s.updDom x fun d => { d with inWin := i, outWin := o }
  if 8 ≤ i then s.setFld TIME_STAT_X_LOCKED x 1
  else if 4 ≤ o then s.setFld TIME_STAT_X_LOCKED x 0 else s

/-- One servo update with the offset just written (R43); integ and freq are held in 1/65,536 ppb. -/
def State.timeServo (s : State) (x : Nat) : State :=
  let ofs := s.sfld TIME_OFS_OFS x
  let e := -ofs
  let big := decide (s.fld TIME_STEPTHR_THR x ≤ ofs.natAbs)
  if big && !(s.pri == x && s.inRun) then
    (s.updDom x fun d => d.setTotal ((d.total : Int) + e)).timeStepped x
  else
    let s := s.raiseIf big TIME_STAT_X_STEP_HELD x
    let lim := s.timeLim x
    let d := s.dom x
    let integ := clampInt (-lim) lim (d.integ + (s.fld TIME_GAIN_KI x : Int) * e)
    let freq := clampInt (-lim) lim ((s.fld TIME_GAIN_KP x : Int) * e * 256 + integ)
    (s.updDom x fun d => { d with integ := integ, freq := freq }).timeWindow x
      (decide (ofs.natAbs ≤ s.fld TIME_LIM_LOCK_WIN x))

/-- A write of TIME_x_OFS (R43). -/
def State.timeOfsWrite (s : State) (x : Nat) (v : Word) : State := (s.regStore .TIME_OFS x v).timeServo x

/-- A write of TIME_x_SET_NS (R45). The sub-nanosecond fraction after a load is not stated: a free value (log 1). A value out of
range is ignored before the primary in Run is refused (DESIGN CHOICE, log 115). -/
def State.timeSetWrite (s : State) (x : Nat) (v : Word) : State :=
  let ns := bits v.toNat 29 0
  if 1000000000 ≤ ns then s
  else if s.pri = x ∧ s.inRun then s.raise TIME_STAT_X_SET_REFUSED x
  else
    let s := s.regStore .TIME_SET_NS x v
    let sec := s.wide .TIME_SET_SEC_LO .TIME_SET_SEC_HI x
    ((s.updDom x fun d => { d with sec := sec % 2 ^ 48, ns := ns, sub := s.free % 2 ^ 32 }).drawn).timeStepped x

/-- A write of TIME_CTL (R46). The difference latched is that of the whole nanoseconds of the domains (DESIGN CHOICE, log 115). -/
def State.timeCtlWrite (s : State) (v : Word) : State :=
  let new := bits v.toNat 0 0
  if new = s.pri then s
  else if s.fld TIME_STAT_X_LOCKED new = 1 then
    let diff := clampInt (-(2 ^ 31 : Nat)) ((2 ^ 31 - 1 : Nat) : Int) (((s.dom new).total : Int) - (s.dom s.pri).total)
    (s.setFld TIME_SWSTEP_STEP 0 (ofSigned 32 diff)).setFld TIME_CTL_PRI 0 new
  else s.raise TIME_STAT_SW_REFUSED

/-- One 2 ns cycle of the pulses that hold event outputs high. -/
def State.evtCycle (s : State) : State :=
  { s with evt := { s.evt with out := (s.evt.out.filter fun x => decide (1 < x.2)).map fun x => (x.1, x.2 - 1) } }

/-- One cycle of the time base for both domains, span time and the event pulses (R43, R240, R351): what the device does while no
command waits (DESIGN CHOICE, log 7). -/
def State.timeBase (s : State) : State :=
  if s.powered then
    let s := (s.evtCycle.updDom 0 TimeDom.cycle).updDom 1 TimeDom.cycle
    if s.live then { s with span := { s.span with time := s.span.time + 2 } } else s
  else s

/-- SERVO_UPDATE: a write of TIME_x_OFS. -/
def execServoUpdate (m : Master) (x : Fin 2) (v : Word) (s : State) : Host.Outcome State Fault Refusal :=
  .next (s.guardWrite m .TIME_OFS x (·.timeOfsWrite x v))

/-- TIME_SET_LOAD: a write of TIME_x_SET_NS. -/
def execTimeSetLoad (m : Master) (x : Fin 2) (v : Word) (s : State) : Host.Outcome State Fault Refusal :=
  .next (s.guardWrite m .TIME_SET_NS x (·.timeSetWrite x v))

/-- PRIMARY_SWITCH: a write of TIME_CTL. -/
def execPrimarySwitch (m : Master) (v : Word) (s : State) : Host.Outcome State Fault Refusal :=
  .next (s.guardWrite m .TIME_CTL 0 (·.timeCtlWrite v))

end Sys2Proof.Machine
end

