-- ==== Sys2Proof/Machine/Security.lean ====
section
/-!
DEFINITION. Sys2Proof/Machine/Security.lean: keys and verification (R375–R377), measurement registers (R378), identity and
quotes (R379–R381), challenges and lifecycle (R387, R388), debug levels (R389–R391).
-/
namespace Sys2Proof.Machine

/-! ### Measurement registers (R378) -/

/-- A measurement register. -/
def State.mreg (s : State) (i : Nat) : List Byte := look (List.replicate 64 0) s.sec.mr i

/-- Extend a measurement register with kind k and digest d. -/
def State.mrExtend (s : State) (i k : Nat) (d : List Byte) : State :=
  { s with sec := { s.sec with
    mr := put (fit 64 (Config.shake256 (s.mreg i ++ leBytes 1 k ++ fit 64 d) 64)) s.sec.mr i } }

/-! ### Lifecycle state (R386, R426) -/

/-- The lifecycle state the device runs in: FIELD where the stored value failed its check. -/
def State.lcState (s : State) : Nat := if s.sec.lcInvalid then 2 else s.sec.lc % 4

/-! ### Verification (R375, R376) -/

/-- Id of a key. -/
def keyId (key : List Byte) : List Byte := fit 8 (Config.shake256 key 8)

/-- Public key of a slot: Dorsin's in slot 0, an owner's where programmed and not revoked. -/
def State.slotKey (s : State) (k : Nat) : Option (List Byte) :=
  if k = 0 then some Config.dorsinKey
  else if s.sec.revoked.contains k then none
  else (s.sec.keys.find? (·.1 == k)).map Prod.snd

/-- Slot 0 permits the kind in the present lifecycle state. -/
def State.slot0Permits (s : State) (bit : Nat) : Bool :=
  if bit ≤ 2 then s.lcState == 0 else bit == 4 || bit == 5 || bit == 6

/-- The policy pair of an owner slot is checked at each verification; its failure extends MR5 (R378, R386). -/
def State.checkPolicy (s : State) (k : Nat) : State :=
  if s.pairOk .SEC_KPOL k || s.sec.raised.contains (.SEC_KPOL, k) then s
  else (s.checkPair .SEC_KPOL k).mrExtend 5 0x83 (leBytes 1 6 ++ leBytes 1 k)

/-- The slot permits the kind; in BLANK only slot 0 verifies images (R426). -/
def State.slotPermits (s : State) (k bit : Nat) : Bool :=
  if k = 0 then s.slot0Permits bit
  else s.pairOk .SEC_KPOL k && (s.reg .SEC_KPOL k).getLsbD bit && bit != 5 && !(decide (bit ≤ 2) && s.lcState == 0)

/-- Verify a signature block (R159) over a digest for an object of the kind, by a slot that the condition admits: the verdict
and the state with what the check records. One key may lie in several slots: any of them that permits the kind serves. -/
def State.verify (s : State) (bit : Nat) (need : Nat → Bool) (block digest : List Byte) : Bool × State :=
  let id := block.take 8
  let named := [0, 1, 2, 3, 4].filter fun k => (s.slotKey k).any fun key => keyId key == id
  let s := named.foldl (fun s k => if k = 0 then s else s.checkPolicy k) s
  let ok := named.any fun k => need k && s.slotPermits k bit
    && (s.slotKey k).any fun key => Config.ed448Verify key digest ((block.drop 8).take 114)
  (ok, s.raiseIf (!ok) SEC_STAT_AUTH_FAIL)

/-- An image ends in its signature block of 128 bytes: verify it and give the digest of its signed bytes. -/
def State.verifyImage (s : State) (bit : Nat) (img : List Byte) : Bool × List Byte × State :=
  let d := Config.shake256 (img.take (img.length - 128)) 64
  let (ok, s) := s.verify bit (fun _ => decide (128 ≤ img.length)) (img.drop (img.length - 128)) d
  (ok, d, s)

/-- Words of a register array as bytes. -/
def State.regBytes (s : State) (r : Reg) (i n : Nat) : List Byte :=
  (List.range n).flatMap fun k => leBytes 4 (s.reg r (i + k)).toNat

/-- Store bytes in a register array. -/
def State.setRegBytes (s : State) (r : Reg) (i n : Nat) (bs : List Byte) : State :=
  (List.range n).foldl (fun s k => s.setReg r (i + k) (BitVec.ofNat 32 (leNat ((bs.drop (4 * k)).take 4)))) s

/-- Verify SEC_RESP for a purpose; the challenge is used up, and a failure is counted (R387). -/
def State.verifyAuth (s : State) (bit purpose : Nat) (need : Nat → Bool) : Bool × State :=
  let msg := leBytes 8 s.sec.devId ++ s.regBytes .SEC_CHAL 0 8 ++ leBytes 1 purpose
  let (ok, s) := s.verify bit (fun k => s.sec.chal && need k) (s.regBytes .SEC_RESP 0 32) (Config.shake256 msg 64)
  let s := ({ s with sec := { s.sec with chal := false } }).setRegBytes .SEC_CHAL 0 8 (List.replicate 32 0)
  (ok, if ok then s else s.setFld SEC_DBG_FAILS 0 (min 255 (s.fld SEC_DBG_FAILS + 1)))

/-! ### Identity (R379) -/

/-- Derive the identity key at a boot. -/
def State.deriveIdentity (s : State) : State :=
  match s.sec.secret with
  | some k =>
    let seed := fit 57 (Config.shake256 (k ++ "ZT9-IDENTITY".toUTF8.toList.map fun b => BitVec.ofNat 8 b.toNat) 57)
    { s with sec := { s.sec with idSeed := seed, idPub := fit 57 (Config.ed448Pub seed) } }
  | none => { s with sec := { s.sec with idSeed := [], idPub := [] } }

/-- The quote over SEC_QNONCE (R380). -/
def State.quote (s : State) : List Byte :=
  let body := leBytes 4 0x3154515A ++ leBytes 1 1 ++ leBytes 1 s.lcState ++ leBytes 1 s.dbgLevel
    ++ leBytes 1 (s.fld SEC_DBG_HIGH) ++ leBytes 8 s.sec.devId ++ s.regBytes .SEC_QNONCE 0 8
    ++ leBytes 4 (s.reg .SYS_WAKECNT).toNat ++ leBytes 4 (s.pwr.warm.toNat + 2 * s.pwr.intSinceBoot.toNat) ++ leBytes 8 0
    ++ (List.range 8).flatMap s.mreg ++ fit 57 s.sec.idPub ++ leBytes 7 0
  body ++ keyId s.sec.idPub ++ fit 114 (Config.ed448Sign s.sec.idSeed (Config.shake256 body 64)) ++ leBytes 6 0

/-- A device in BLANK or RETURN signs no quotes, nor one that has no identity key (R379). -/
def State.quoteRefused (s : State) : Bool := s.lcState == 0 || s.lcState == 3 || s.sec.idPub.isEmpty

/-- Report in SEC_QRES. -/
def State.quoteDone (s : State) (res : Nat) : State :=
  ((s.setFld SEC_QRES_BUSY 0 0).setFld SEC_QRES_RESULT 0 res).setFld SEC_QRES_DONE 0 1

/-- A write of SEC_QCMD: a GO while BUSY is ignored, a refused one ends at once, and any other sets BUSY until the quote is signed
(R379, R380). -/
def State.quoteWrite (s : State) (v : Word) : State :=
  if !v.getLsbD 0 || s.on SEC_QRES_BUSY then s
  else if s.quoteRefused then s.quoteDone rSTATE_REFUSED
  else (s.setFld SEC_QRES_DONE 0 0).setFld SEC_QRES_BUSY 0 1

/-- The root core signs the quote that is asked for, and BUSY ends (R380). -/
def State.quoteEnd (s : State) : State :=
  if s.live && s.on SEC_QRES_BUSY then
    if s.quoteRefused then s.quoteDone rSTATE_REFUSED else (s.setRegBytes .SEC_QOUT 0 192 s.quote).quoteDone rOK
  else s

/-- What the device does while no command waits: one cycle of the time base (log 7), and the root core signs a quote that has been
asked for (DESIGN CHOICE, log 61). -/
def State.idle (s : State) : State := s.quoteEnd.timeBase

/-! ### Keys (R377) -/

/-- The answer of a refused write that has no result register: its response (DEDUCED, log 19). -/
def State.respond (s : State) (code : Nat) : State := { s with resp := { code := code } }

/-- A write of SEC_KEYCMD. -/
def State.keyWrite (s : State) (v : Word) : State :=
  let s := s.regStore .SEC_KEYCMD 0 v
  let k := s.fld SEC_KEYCMD_SLOT
  let owner := decide (1 ≤ k) && decide (k ≤ 4)
  let s := if !v.getLsbD 8 then s
    else if 1 < s.lcState then s.respond rSTATE_REFUSED
    else if !owner then s
    else if (s.sec.keys.find? (·.1 == k)).isSome then s.respond rSTATE_REFUSED
    else { s with sec := { s.sec with keys := put ((s.regBytes .SEC_KBUF 0 15).take 57) s.sec.keys k } }
  if !v.getLsbD 9 then s
  else if s.lcState = 3 then s.respond rSTATE_REFUSED
  else if owner && !s.sec.revoked.contains k then { s with sec := { s.sec with revoked := k :: s.sec.revoked } }
  else s

/-- A value write of a key policy pair (R8, R377). -/
def State.kpolWrite (s : State) (k : Nat) (v : Word) : State :=
  if 1 < s.lcState then
    ({ s with sec := { s.sec with held := s.sec.held.filter fun e => !decide (e.1 = (Reg.SEC_KPOL, k)) } }).respond rSTATE_REFUSED
  else s.regStore .SEC_KPOL k v

/-- A write of SEC_MRX (R378). -/
def State.mrxWrite (s : State) (v : Word) : State :=
  let r := bits v.toNat 2 0
  if r < 6 then s.respond rDENIED
  else
    let s := s.regStore .SEC_MRX 0 v
    if v.getLsbD 31 then s.mrExtend r 0x84 (s.regBytes .SEC_MRXBUF 0 16) else s

/-! ### Challenge, lifecycle and debug (R387–R391) -/

/-- A write of SEC_CHALCMD; the challenge is a free value (log 1). -/
def State.chalWrite (s : State) (v : Word) : State :=
  if !v.getLsbD 0 then s
  else if 8 ≤ s.fld SEC_DBG_FAILS then s.respond rDENIED
  else
    let c := s.free
    let s := { s.drawn with sec := { s.sec with chal := true } }
    s.setRegBytes .SEC_CHAL 0 8 (leBytes 32 c)

/-- Close a debug session (R391). -/
def State.dbgClose (s : State) : State :=
  let l := s.dbgLevel
  if l = 0 then s else (s.setFld SEC_DBG_LEVEL 0 0).mrExtend 5 (3 + l) (leBytes 1 0)

/-- Report in SEC_DBGRES. -/
def State.dbgDone (s : State) (res : Nat) : State := (s.setFld SEC_DBGRES_RESULT 0 res).setFld SEC_DBGRES_DONE 0 1

/-- A write of SEC_DBG. -/
def State.dbgWrite (s : State) (v : Word) : State :=
  let s := s.regStore .SEC_DBG 0 v
  let s := if v.getLsbD 9 then s.dbgClose else s
  if !v.getLsbD 8 then s
  else
    let req := s.fld SEC_DBG_REQ
    if req = 0 ∨ req = 3 then s.dbgDone rRANGE
    else if !s.live || s.sec.lcInvalid || (req == 2 && (s.lcState == 1 || s.lcState == 2)) then s.dbgDone rSTATE_REFUSED
    else if req ≤ s.dbgLevel then s.dbgDone rOK
    else
      match s.verifyAuth (3 + req) req (fun k => decide (req = 1) || k == 0) with
      | (false, s) => s.dbgDone rAUTH_FAIL
      | (true, s) =>
        let s := (s.setFld SEC_DBG_LEVEL 0 req).setFld SEC_DBG_HIGH 0 (max req (s.fld SEC_DBG_HIGH))
        ((s.raise SEC_STAT_DBG_OPEN).mrExtend 5 (3 + req) (leBytes 1 req)).dbgDone rOK

/-- What master 50 does through the debug port beside accesses at addresses (R389). -/
inductive DebugUse where
  | bypass | idcode | samplePreload | extest | intest
  | haltServiceCore | stepServiceCore | regsOfServiceCore
  | haltRootCore | haltEngine | engineImem | flaconCore | flaconSram
  deriving DecidableEq, Repr

/-- The level that a use of the debug port needs. The spec gives none of these uses an address or a command: what is asked for here is
whether the port grants it (R389, R354; log 141). -/
def DebugUse.level : DebugUse → Nat
  | .bypass | .idcode | .samplePreload => 0
  | .haltServiceCore | .stepServiceCore | .regsOfServiceCore => 1
  | .extest | .intest | .haltRootCore | .haltEngine | .engineImem | .flaconCore | .flaconSram => 2

/-- The unit that a use reaches is powered: in Standby the pins' cells and the Flacon are (R395, R398). -/
def State.debugPowered (s : State) (u : DebugUse) : Bool :=
  s.live || (s.powered && [DebugUse.bypass, .idcode, .samplePreload, .extest, .intest, .flaconCore, .flaconSram].contains u)

/-- The debug port grants a use at the present level (R389, R398). -/
def State.debugGrants (s : State) (u : DebugUse) : Bool := s.debugPowered u && decide (u.level ≤ s.dbgLevel)

/-- Report in SEC_LCRES. -/
def State.lcDone (s : State) (res : Nat) : State := (s.setFld SEC_LCRES_RESULT 0 res).setFld SEC_LCRES_DONE 0 1

/-- Every SRAM bank cleared (R261, R388). -/
def State.clearBanks (s : State) : State := { s with mem := memClear s.mem 0x10000000 0x15000000 }

/-- Enter a lifecycle state: its fuses, the closed session and MR5 (R378, R388, R391). -/
def State.lcEnter (s : State) (dest : Nat) : State :=
  let s := s.dbgClose
  ({ s with sec := { s.sec with lc := dest, lcc := 3 - dest } }).mrExtend 5 6 (leBytes 1 dest)

/-- A write of SEC_LCCMD (R388). The device secret the TRNG fills is a free value (log 1). -/
def State.lcWrite (s : State) (v : Word) : State :=
  let s := s.regStore .SEC_LCCMD 0 v
  if !v.getLsbD 31 then s
  else
    let dest := s.fld SEC_LCCMD_TARGET
    let from_ := s.lcState
    if s.sec.lcInvalid then s.lcDone rINTEGRITY
    else if !s.inHold then s.lcDone rSTATE_REFUSED
    else if from_ = 0 ∧ dest = 1 ∧ s.sec.keys ≠ [] then
      match s.verifyAuth 6 0x11 (· == 0) with
      | (false, s) => s.lcDone rAUTH_FAIL
      | (true, s) =>
        let secret := leBytes 64 s.free
        let s := s.drawn.lcEnter 1
        ({ s with sec := { s.sec with secret := some secret } }).lcDone rOK
    else if from_ = 1 ∧ dest = 2 then
      match s.verifyAuth 6 0x12 (fun _ => true) with
      | (false, s) => s.lcDone rAUTH_FAIL
      | (true, s) => (s.lcEnter 2).lcDone rOK
    else if (from_ = 1 ∨ from_ = 2) ∧ dest = 3 then
      match s.verifyAuth 6 0x13 (· == 0) with
      | (false, s) => s.lcDone rAUTH_FAIL
      | (true, s) =>
        let s := (s.lcEnter 3).clearBanks
        ({ s with
          sec := { s.sec with secret := none, idSeed := [], idPub := [], revoked := [1, 2, 3, 4] }
          boot := { s.boot with cert := 0, certChain := [] } }).lcDone rOK
    else s.lcDone rSTATE_REFUSED

/-! ### Commands -/

/-- KEY_PROG: a write of SEC_KEYCMD with PROG. -/
def execKeyProg (m : Master) (v : Word) (s : State) : Host.Outcome State Fault Refusal :=
  .next (s.guardWrite m .SEC_KEYCMD 0 (·.keyWrite (v ||| 0x100)))

/-- KEY_REVOKE: a write of SEC_KEYCMD with REVOKE. -/
def execKeyRevoke (m : Master) (v : Word) (s : State) : Host.Outcome State Fault Refusal :=
  .next (s.guardWrite m .SEC_KEYCMD 0 (·.keyWrite (v ||| 0x200)))

/-- MEASUREMENT_EXTEND: a write of SEC_MRX with GO. -/
def execMeasurementExtend (m : Master) (v : Word) (s : State) : Host.Outcome State Fault Refusal :=
  .next (s.guardWrite m .SEC_MRX 0 (·.mrxWrite (v ||| 0x80000000)))

/-- QUOTE_SIGN: a write of SEC_QCMD with GO. -/
def execQuoteSign (m : Master) (s : State) : Host.Outcome State Fault Refusal :=
  .next (s.guardWrite m .SEC_QCMD 0 (·.quoteWrite 1))

/-- CHALLENGE_NEW: a write of SEC_CHALCMD with NEW. -/
def execChallengeNew (m : Master) (s : State) : Host.Outcome State Fault Refusal :=
  .next (s.guardWrite m .SEC_CHALCMD 0 (·.chalWrite 1))

/-- LIFECYCLE_TRANSITION: a write of SEC_LCCMD with GO. -/
def execLifecycleTransition (m : Master) (v : Word) (s : State) : Host.Outcome State Fault Refusal :=
  .next (s.guardWrite m .SEC_LCCMD 0 (·.lcWrite (v ||| 0x80000000)))

/-- DEBUG_UNLOCK: a write of SEC_DBG with VERIFY. -/
def execDebugUnlock (m : Master) (v : Word) (s : State) : Host.Outcome State Fault Refusal :=
  .next (s.guardWrite m .SEC_DBG 0 (·.dbgWrite (v ||| 0x100)))

/-- DEBUG_CLOSE: a write of SEC_DBG with CLOSE. -/
def execDebugClose (m : Master) (v : Word) (s : State) : Host.Outcome State Fault Refusal :=
  .next (s.guardWrite m .SEC_DBG 0 (·.dbgWrite (v ||| 0x200)))

end Sys2Proof.Machine
end

