-- ==== Sys2Proof/Machine/Engine.lean ====
section
/-!
DEFINITION. Sys2Proof/Machine/Engine.lean: the stripe engines outside their instructions: loading a program (R103, R110–R114,
R120, R121, R127–R129, R159–R162), control (R126), the start of a run (R79, R80, R115–R117, R128, R168, R188, R191–R193, R245,
R246) and the draining of the E-slot queue (R123, R125, R156–R158, R268, R293).
-/
namespace Sys2Proof.Machine

/-! ### Program image (R159–R162) -/

/-- A little-endian field of an image. -/
def imgNat (b : List Byte) (at_ n : Nat) : Nat := leNat ((b.drop at_).take n)

/-- Sizes of an image from its header: launches, rings, areas, sets, bundles. -/
def imgCounts (b : List Byte) : Nat × Nat × Nat × Nat × Nat :=
  (imgNat b 10 1, imgNat b 11 1, imgNat b 12 1, imgNat b 13 1, imgNat b 6 2)

/-- Bytes of an image, its signature block included. -/
def imgSize (b : List Byte) : Nat :=
  let (l, r, a, c, n) := imgCounts b
  64 + 16 * l + 32 * r + 8 * a + 1024 * c + 32 * n + 128

/-- Launch table. -/
def imgLaunches (b : List Byte) : List Launch :=
  let (l, _, _, _, _) := imgCounts b
  (List.range l).map fun i =>
    let o := 64 + 16 * i
    { first := imgNat b o 2, p := imgNat b (o + 2) 2, e := imgNat b (o + 4) 2, ii := imgNat b (o + 6) 1
      v := imgNat b (o + 8) 2, w := imgNat b (o + 10) 2 }

/-- Ring table. -/
def imgRings (b : List Byte) : List Ring :=
  let (l, r, _, _, _) := imgCounts b
  (List.range r).map fun i =>
    let o := 64 + 16 * l + 32 * i
    let k := imgNat b (o + 7) 1
    let w := imgNat b (o + 4) 2
    { base := imgNat b o 4, width := if w = 0 then 16384 else w, depth := imgNat b (o + 6) 1
      kind := k % 4, elem := bits k 2 2, req := k.testBit 3, hdr := imgNat b (o + 8) 4, h := imgNat b (o + 12) 1
      rmax := imgNat b (o + 13) 1, outlo := imgNat b (o + 14) 2, outhi := imgNat b (o + 16) 2 }

/-- Table areas: offset and size. -/
def imgAreas (b : List Byte) : List (Nat × Nat) :=
  let (l, r, a, _, _) := imgCounts b
  (List.range a).map fun i =>
    let o := 64 + 16 * l + 32 * r + 8 * i
    (imgNat b o 4, imgNat b (o + 4) 4)

/-- Coefficient sets. -/
def imgCoefs (b : List Byte) : List (List Nat) :=
  let (l, r, a, c, _) := imgCounts b
  (List.range c).map fun i => (List.range 512).map fun k => imgNat b (64 + 16 * l + 32 * r + 8 * a + 1024 * i + 2 * k) 2

/-- Bundles, in order. -/
def imgBundles (b : List Byte) : List (BitVec 256) :=
  let (l, r, a, c, n) := imgCounts b
  (List.range n).map fun i => BitVec.ofNat 256 (imgNat b (64 + 16 * l + 32 * r + 8 * a + 1024 * c + 32 * i) 32)

/-- The program of an image, at its first bundle. -/
def imgProg (b : List Byte) (base : Nat) : Prog :=
  { base := base, bundles := imgNat b 6 2, entry := imgNat b 8 2, launches := imgLaunches b, rings := imgRings b
    areas := imgAreas b, coefs := imgCoefs b, peak := imgNat b 14 1, cLine := imgNat b 16 4, wLine := imgNat b 20 4 }

/-- The header and tables are what R160–R162 allow. -/
def imgFormOk (b : List Byte) : Bool :=
  let p := imgProg b 0
  b.take 4 == [0x51, 0x5A, 0x55, 0x50] && imgNat b 4 2 == 1
    && decide (1 ≤ p.bundles ∧ p.bundles ≤ 2048 ∧ p.launches.length ≤ 16 ∧ p.rings.length ≤ 8 ∧ p.areas.length ≤ 16
      ∧ p.coefs.length ≤ 4 ∧ p.entry < p.bundles)
    && p.launches.all (fun l => decide (1 ≤ l.ii ∧ 1 ≤ l.v ∧ l.v ≤ 256 ∧ l.p % l.ii = 0 ∧ l.e % l.ii = 0 ∧ l.p ≤ 15 * l.ii
      ∧ l.e ≤ 15 * l.ii ∧ l.first + l.p + l.ii + l.e ≤ p.bundles))
    && p.rings.all fun r => decide (r.width ≤ 16384)

/-- Extents of rings, headers and areas in the row store. -/
def Prog.extents (p : Prog) : List (Nat × Nat) :=
  p.rings.flatMap (fun r => (r.base, r.depth * r.pitch) :: (if r.kind < 3 then [(r.hdr, 32 * r.depth)] else [])) ++ p.areas

/-- No two extents share a byte. -/
def disjoint : List (Nat × Nat) → Bool
  | [] => true
  | x :: xs => xs.all (fun y => decide (x.1 + x.2 ≤ y.1) || decide (y.1 + y.2 ≤ x.1) || x.2 == 0 || y.2 == 0) && disjoint xs

/-- L_min of the profile that applies; 0 while none does (DESIGN CHOICE, log 20). -/
def State.lMin (s : State) : Nat := (s.boot.prof.map (·.lmin)).getD 0

/-- Relative lines under R112 and camera ring depths under R103. -/
def State.ringLinesOk (s : State) (r : Ring) : Bool :=
  decide (r.rmax < r.depth) && (if r.kind = 0 ∨ r.kind = 2 then decide (r.rmax < r.h) else true)
    && (if r.kind = 0 then decide (s.depth + r.h + 8 - s.lMin ≤ r.depth) else true)

/-- The descriptors of the rings whose fillers stand outside the engine, by number (R110, R127 check 2); the deepest line read
is no field of a descriptor. -/
def Prog.fed (p : Prog) : List (Nat × Ring) :=
  (p.rings.zipIdx.filter fun r => decide (r.1.kind < 3)).map fun r => (r.2, { r.1 with rmax := 0 })

/-- The program that a spliced load follows: the newest that waits for its first run, else the active one. -/
def Eng.newest (g : Eng) : Option Prog := ((g.nexts.getLast?).map (·.1)).orElse fun _ => g.prog

/-- Checks 2–8 of R127 in order: result and step; OK is step 0. -/
def State.loadCheck (s : State) (e : Nat) (l : LoadReq) (b : List Byte) : Nat × Nat :=
  let g := s.eng e
  let p := imgProg b l.base
  if (if l.splice then (g.newest.map Prog.fed) != some p.fed else !s.inHold) then (rSTATE_REFUSED, 2)
  else if !imgFormOk b || decide (2048 < l.base + p.bundles) then (rRANGE, 3)
  else if l.splice && (g.prog.toList ++ g.nexts.map (·.1)).any (fun q =>
      decide (l.base < q.base + q.bundles) && decide (q.base < l.base + p.bundles)) then (rOVERLAP, 4)
  else if p.extents.any fun x => decide (0x300000 < x.1 + x.2) then (rRANGE, 5)
  else if !disjoint p.extents then (rOVERLAP, 5)
  else if p.rings.any fun r => !s.ringLinesOk r then (rRANGE, 6)
  else if 64 < p.peak then (rRANGE, 7)
  else if l.limit < p.cost then (rBUDGET_EXCEEDED, 8)
  else (rOK, 0)

/-- The registers of R104 read 0 (R105). -/
def Eng.zeroed (g : Eng) : Eng := { g with v := [], acc := [], p := [], sc := [], pend := [] }

/-- Bundles written to instruction memory. -/
def imemWrite (m : Tab Nat (BitVec 256)) (base : Nat) (b : List (BitVec 256)) : Tab Nat (BitVec 256) :=
  (b.zipIdx).foldl (fun m (w, i) => put w m (base + i)) m

/-- REF's check repeated after a load while EN = 1 (R192). -/
def State.refRecheck (s : State) (e : Nat) : State :=
  if !s.on REF_CTL_EN || s.stripeWidth e == 0 then s
  else if s.refEngineOk e then
    let s := { s with ref := { s.ref with barred := s.ref.barred.filter (· != e) } }
    (s.setFld REF_RES_RESULT 0 rOK).setFld REF_RES_ENG 0 0
  else
    let s := { s with ref := { s.ref with barred := e :: s.ref.barred.filter (· != e) } }
    (s.setFld REF_RES_RESULT 0 rRANGE).setFld REF_RES_ENG 0 e

/-- The check of R245 for receive entry i (port i / 2): OK, NOT_FOUND or RANGE. A receive entry holds no COUNT and the neighbour's
transmit entry is not seen here: the COUNT checked is that of this device's own transmit entry of the same port and number, where
that is valid (DEDUCED, log 16). -/
def State.haloCheck (s : State) (i : Nat) : Nat :=
  match s.engRing (s.fld SPAN_HRX_ENG i) (s.fld SPAN_HRX_RING i) with
  | none => rNOT_FOUND
  | some r =>
    if r.kind ≠ 2 then rNOT_FOUND
    else if s.on SPAN_HTX_V i && decide (r.width < s.fld SPAN_HTX_COUNT i) then rRANGE
    else if r.depth < s.depth + r.h + 8 - s.lMin then rRANGE else rOK

/-- The halo check repeated after a load while EN = 1 (R245). -/
def State.haloRecheck (s : State) (e : Nat) : State :=
  if !s.on SPAN_CTL_EN then s
  else
    let mine := (List.range 4).filter fun i => s.on SPAN_HRX_V i && s.fld SPAN_HRX_ENG i == e
    let bad := mine.filter fun i => s.haloCheck i != rOK
    let s := if mine.isEmpty || !bad.isEmpty then s
      else
        let s := { s with span := { s.span with barred := s.span.barred.filter (·.1 != e) } }
        (s.setFld SPAN_RES_RESULT 0 rOK).setFld SPAN_RES_ENG 0 0
    bad.foldl (fun s i =>
      let res := s.haloCheck i
      let s := ((s.setFld SPAN_HRX_V i 0).setFld SPAN_RES_RESULT 0 res).setFld SPAN_RES_ENG 0 e
      { s with span := { s.span with barred := (e, i / 2) :: s.span.barred.filter (· != (e, i / 2)) } }) s

/-- A write of SE_LDCMD (R127): a LOAD while BUSY reads 1 is ignored. -/
def State.ldcmdWrite (s : State) (e : Nat) (v : Word) : State :=
  let s := s.regStore .SE_LDCMD e v
  if !v.getLsbD 0 || s.on SE_LDRES_BUSY e then s
  else
    let splice := s.on SE_LDCMD_SPLICE e
    let req : LoadReq :=
      { addr := s.fld SE_IMG_LO_ADDR_L e + 2 ^ 32 * s.fld SE_IMG_HI_ADDR_H e, splice := splice
        base := s.fld SE_LDCMD_BASE e, limit := if splice then s.fld SE_SBUDGET_SLIMIT e else s.fld SE_BUDGET_LIMIT e }
    let s := s.updEng e fun g => { g with load := some req }
    (s.setFld SE_LDRES_DONE e 0).setFld SE_LDRES_BUSY e 1

/-- The result of a load. -/
def State.loadEnd (s : State) (e res step : Nat) : State :=
  let s := ((s.setFld SE_LDRES_RESULT e res).setFld SE_LDRES_STEP e step).setFld SE_LDRES_DONE e 1
  let s := (s.setFld SE_LDRES_BUSY e 0).updEng e fun g => { g with load := none }
  s.raiseIf (res != rOK) SE_STAT_LOAD_FAIL e

/-- A load that passed its checks takes effect (R105, R126–R129). -/
def State.loadTake (s : State) (e : Nat) (l : LoadReq) (b : List Byte) : State :=
  let p := imgProg b l.base
  let s := s.updEng e fun g => { g with imem := imemWrite g.imem l.base (imgBundles b), runs := 0 }
  let s :=
    if l.splice then s.updEng e fun g => { g with staged := some (p, l.limit) }
    else
      let s := (s.eng e).due.toList.foldl (fun s n => s.slackReturn e n) s
      let s := s.updEng e fun g => { g.zeroed with
        st := .loaded, prog := some p, staged := none, spliceAt := none, nexts := [], due := none, stop := false
        firstSplice := false }
      ((s.setFld SE_CTL_GO e 0).progRegs e p).accordRecheck e
  ((s.fmaxUpdate).refRecheck e).haloRecheck e

/-- The checks of a load on an image, and its end (R127). -/
def State.loadImage (s : State) (e : Nat) (l : LoadReq) (img : List Byte) (readOk : Bool) : State :=
  let (ok, digest, s) := s.verifyImage 2 img
  if !readOk || !ok then s.loadEnd e rAUTH_FAIL 1
  else
    let (res, step) := s.loadCheck e l img
    let s := if res = rOK ∨ step = 8 then s.setFld SE_FMAXC_FMAX e (costRate (imgProg img l.base).cost) else s
    let s := if res = rOK then (s.mrExtend 2 2 digest).loadTake e l img else s
    s.loadEnd e res step

/-- The load in progress ends (R127); in an engine whose stripe bank has FAILED it ends with ERROR (R259). -/
def State.loadDone (s : State) (e : Nat) : State :=
  match (s.eng e).load with
  | none => s
  | some l =>
    if s.on MEM_RPR_FAILED e then s.loadEnd e rERROR 0
    else
      let (r, hdr, s) := s.busRead 48 l.addr 64
      let size := imgSize hdr
      let (r', img, s) := if r = rOK then s.busRead 48 l.addr size else (r, [], s)
      s.loadImage e l img (r' == rOK)

/-! ### Control (R126) -/

/-- GO written 1. -/
def State.engGo (s : State) (e : Nat) : State :=
  let g := s.eng e
  match g.st with
  | .empty | .fault => s.cfgErr .SE_CTL e
  | .loaded =>
    let q := s.slackOf e
    let s := (s.updEng e fun g => { g with st := .armed, firstRun := true, due := q.head? }).setFld SE_CTL_GO e 1
    { s with tick := { s.tick with slack := put (q.drop 1) s.tick.slack e } }
  | .armed => s
  | .running => (s.updEng e fun g => { g with stop := false }).setFld SE_CTL_GO e 1

/-- GO written 0. -/
def State.engGoClear (s : State) (e : Nat) : State :=
  let g := s.eng e
  let s := s.setFld SE_CTL_GO e 0
  match g.st with
  | .armed =>
    let s := s.updEng e fun g => { g with st := .loaded, due := none }
    match g.due with
    | some n => s.slackReturn e n
    | none => s
  | .running => s.updEng e fun g => { g with stop := true }
  | _ => s

/-- RESTART written 1. -/
def State.engRestart (s : State) (e : Nat) : State :=
  if (s.eng e).st = .fault then
    let s := ((s.eng e).due.toList.foldl (fun s n => s.dropLine e n) s).slackDrop e
    let s := s.updEng e fun g => { g.zeroed with st := .armed, due := none, stop := false, firstRun := true }
    (s.setFld SE_CTL_GO e 1).engSettle e
  else s

/-- A write of SE_CTL: a GO of 1 in FAULT is ignored with CFG_ERR even when RESTART is written with it. -/
def State.seCtlWrite (s : State) (e : Nat) (v : Word) : State :=
  let s := if v.getLsbD 0 then s.engGo e else s.engGoClear e
  if v.getLsbD 1 then s.engRestart e else s

/-! ### Start of a run -/

/-- A run for line n starts: programs whose splice line has come take over first (R128), the staged one unless SYS_PROFILE fails
its check there: then every staged program is discarded (R386, R408). -/
def State.engSplice (s : State) (e : Nat) (n : Int) : State :=
  let s := s.engNexts e n
  let g := s.eng e
  match g.staged, g.spliceAt with
  | some (p, lim), some at_ =>
    if at_ ≤ n then
      let s := s.checkPair .SYS_PROFILE
      if !s.pairOk .SYS_PROFILE then s.endSplice rINTEGRITY
      else (s.updEng e fun g => { g with staged := none, spliceAt := none }).engTake e p lim
    else s
  | _, _ => s

/-- Tick S + D: no later load or drop concerns a program staged for S. It takes over at once in an engine that has no run of an
earlier line left, whatever its state (R128). -/
def State.engSwitch (s : State) (e : Nat) : State :=
  let g := s.eng e
  match g.staged, g.spliceAt with
  | some (p, lim), some at_ =>
    (s.updEng e fun g => { g with staged := none, spliceAt := none, nexts := g.nexts ++ [(p, lim, at_)] }).engSettle e
  | _, _ => s

/-- The blind item of a camera ring that gets no copies: the detail is that of its camera's line (R79, R80, R167). -/
def State.ringBlind (s : State) (c : Nat) (n : Int) (p0 p1 : Nat) : Collect :=
  blindLine 2 (if inRanges (s.cam c).away n then 2 else 1) c n p0 p1

/-- Receive port of a halo ring. -/
def State.haloPort (s : State) (e k : Nat) : Nat :=
  (([0, 1, 2, 3].find? fun i => s.fld SPAN_HRX_ENG i == e && s.fld SPAN_HRX_RING i == k).getD 0) / 2

/-- The check of one ring (R115, R191): whether it fails, and the blind item its failure gives (R167, R193, R246). A reference ring
of an engine that REF has barred fails whatever its REQ, and its record is that of the whole stripe (R192). A camera ring
that Accord feeds is covered by its camera (R79); one that no route entry names takes the camera number its header holds
(DESIGN CHOICE, log 117). The detail a sender's header carries for its lost line is not laid out: a free value (log 1). -/
def State.ringCheck (s : State) (e : Nat) (n : Int) (c : PageCtx) (k : Nat) (r : Ring) : Bool × List Collect :=
  if r.kind = 1 ∧ s.ref.barred.contains e then (true, [])
  else if !r.req then (false, [])
  else
    let p0 := s.stripeStart e + r.outlo
    let p1 := s.stripeStart e + r.outhi
    if r.kind = 0 ∨ r.kind = 2 then
      let hs := (List.range r.h).map fun (j : Nat) => (n - (j : Int), s.slotHdr e r (r.slotOf (n - (j : Int))))
      match hs.find? fun x => !hdrOk x.2 x.1 with
      | none => (false, [])
      | some (m, h) =>
        if r.kind = 0 then
          match s.ringCam e k with
          | (some _, true) => (true, [])
          | (cam, _) => (true, [s.ringBlind (cam.getD (leNat ((h.drop 10).take 1))) n p0 p1])
        else if hdrLine h = ofSigned 48 m then
          (true, [blindLine 2 (s.free % 256) (leNat ((h.drop 10).take 1)) n p0 p1])
        else (true, [blindLine 5 0 (s.haloPort e k) n p0 p1])
    else if r.kind = 1 then
      if s.refRingOk e r c then (false, [])
      else (true, [blindLine 4 (if c.q.isNone then 5 else 4) e n p0 p1])
    else (false, [])

/-- The eight words of a run context (R117, R188), with one free value for the line within a page that does not apply. -/
def State.runCtx (s : State) (e : Nat) (n : Int) (c : PageCtx) (mask : Nat) (g : Eng) : List (BitVec 64) :=
  let t := s.trk e
  let rel := c.rel.getD (s.free % 2 ^ 32)
  let q := ofSigned 32 (c.q.getD 0xFFFFFFFF)
  let md := ofSigned 32 (freeRound 3 (t.md * 65536))
  let cd := ofSigned 32 (freeRound 4 (t.cd * 65536))
  let k := ofSigned 32 (freeRound 5 (t.k * 1073741824))
  let (w2, w3) := if s.refMode then (md + 2 ^ 32 * cd, k + 2 ^ 32 * q) else (0, 0x40000000)
  let w4 := mask + 2 ^ 8 * (s.slackOf e).length + 2 ^ 16 * g.firstRun.toNat + 2 ^ 17 * g.firstSplice.toNat + 2 ^ 18 * t.lt.toNat
  ([65536 * ofSigned 48 n, c.id + 2 ^ 32 * (rel % 2 ^ 32), w2, w3, w4,
    s.stripeStart e + 2 ^ 18 * s.stripeWidth e, 0, g.runs]).map (BitVec.ofNat 64)

/-- The blind items of a run (R115, R191–R193, R245, R268): what the ring checks give, a stripe barred from REF, a barred halo
entry, a refused read of reference rows. -/
def State.runItems (s : State) (e : Nat) (n : Int) (checks : List (Nat × Bool × List Collect)) : List Collect :=
  let x := s.stripeExt e
  checks.flatMap (fun (_, _, l) => l)
    ++ (if s.ref.barred.contains e then [blindLine 4 4 e n x.1 x.2] else [])
    ++ (s.span.barred.filter (·.1 == e)).map (fun (_, p) => blindLine 5 0 p n x.1 x.2)
    ++ (match s.ref.fail.find? (·.1 == e) with
        | some (_, port) => [blindLine 3 0 port n x.1 x.2]
        | none => [])

/-- Blind items that belong to engine e's collectors at a run start. -/
def State.runMine (s : State) (e : Nat) (p : Prog) (b : Collect) : Bool :=
  let x := s.stripeExt e
  let halo := (p.rings.zipIdx.filter fun (r, k) => r.kind == 2 || (r.kind == 0 && !(s.ringCam e k).2)).map fun (r, _) =>
    (s.stripeStart e + r.outlo, s.stripeStart e + r.outhi)
  (b.cause == 4 && b.src == e)
    || ((b.cause == 5 || b.cause == 2) && halo.contains (b.ext.p0, b.ext.p1))
    || (b.cause == 5 && (b.ext.p0, b.ext.p1) == x)

/-- The run begins: its blind items, its context and its first bundle (R115–R117). A camera ring that fails and that Accord does
not feed loses its camera's line (R167). -/
def State.runBeginAt (s : State) (e : Nat) (n : Int) (p : Prog) (c : PageCtx) : State :=
  let checks := p.rings.zipIdx.map fun (r, k) => (k, s.ringCheck e n c k r)
  let mask := checks.foldl (fun a (k, b, _) => if b then a + 2 ^ k else a) 0
  let items := s.runItems e n checks
  let ctx := s.runCtx e n c mask (s.eng e)
  let run : Run := { line := n, ctx := ctx, mask := mask, q := c.q.getD 0xFFFFFFFF, pc := p.base + p.entry }
  let dead := checks.filterMap fun (k, b, _) => match p.rings[k]?, s.ringCam e k with
    | some r, (some cam, false) => if b && r.kind == 0 then some cam else none
    | _, _ => none
  let s := dead.foldl (fun s cam => s.camLose cam n 0) s
  let s := s.doIf (c.rel.isNone || items.any (·.cause == 2)) State.drawn
  let s := (s.collectLine n (s.runMine e p) items).raiseIf (mask != 0 || s.ref.barred.contains e) SE_STAT_BLIND_RUN e
  let s := s.updEng e fun g => { g with
    st := .running, due := none, run := some run, firstRun := false, firstSplice := false, lastLine := n }
  let s := s.updTrk e fun t => { t with gens := ((n, t.gen) :: t.gens).take 16 }
  (s.rptStarted e n).refFree

/-- The run for line n starts in engine e (R39, R115–R117, R128). -/
def State.runStart (s : State) (e : Nat) (n : Int) : State :=
  let s := (s.engSplice e n).dropsEmit e
  match (s.eng e).prog with
  | none => s
  | some p =>
    let s := (s.judgeTo e (n - 1)).judgeRun e n
    s.runBeginAt e n p (s.pageCtx e p n)

/-- ENGINE_RUN_START: the tick that has reached an ARMED engine starts its run, in Run and with TICK_CTL.EN = 1 (R126). -/
def execEngineRunStart (e : Fin 16) (s : State) : Host.Outcome State Fault Refusal :=
  .next (if s.inRun && s.on TICK_CTL_EN && (s.eng e).st == .armed then
      match (s.eng e).due with
      | some n => s.runStart e n
      | none => s
    else s)

/-! ### E-slot queue -/

/-- Consecutive bytes of an STC entry. -/
def stcGroups : List (Nat × Byte) → List (Nat × List Byte)
  | [] => []
  | (a, b) :: rest =>
    match stcGroups rest with
    | (a', bs) :: more => if a' = a + 1 then (a, b :: bs) :: more else (a, [b]) :: (a', bs) :: more
    | [] => [(a, [b])]

/-- The port that a refused access in a CXL window is charged to: the frozen target of its decoder, else the port it maps to
(R268). -/
def State.refusedPort (s : State) (a : Nat) : Option Nat :=
  (s.decOf a).map fun k => ((s.decTgts k).find? fun p => (s.cxlp p).frozen).getD (s.decMap k a).1

/-- Line of the oldest entries of a queue: that of the next end-of-line entry, else of the run in progress. -/
def Eng.queueLine (g : Eng) : Int :=
  ((g.queue.findSome? fun q => match q with
    | .eol _ l _ _ _ _ => some l
    | _ => none).orElse fun _ => g.run.map (·.line)).getD g.lastLine

/-- One STC write (R125, R268). -/
def State.stcWrite (s : State) (e : Nat) (line : Int) (a : Nat) (bs : List Byte) : State :=
  let (r, s) := s.busWrite e a bs
  if r = rOK then s.tagNew e 1 (ofSigned 48 line)
  else
    let s := (s.tagNew e 9 0).raise SE_STAT_STC_ERR e
    match s.refusedPort a with
    | some p =>
      let x := s.stripeExt e
      if r = rERROR ∨ r = rFROZEN then s.collectLine line (fun _ => false) [blindLine 3 0 p line x.1 x.2] else s
    | none => s

/-- The engine-mailbox ring interrupts while it is not empty (R293). -/
def State.mboxIrq (s : State) : State := if s.fld ETH_EMB_WR_IDX = s.fld ETH_EMB_RD_IDX then s else s.irq "ENGINE_MBOX"

/-- A write of ETH_EMB_RD. -/
def State.embRdWrite (s : State) (v : Word) : State := (s.regStore .ETH_EMB_RD 0 v).mboxIrq

/-- An MBOX entry enters the engine-mailbox ring (R293). One whose write the pool refuses is discarded like one that finds the ring full
(DESIGN CHOICE, log 128). -/
def State.mboxEntry (s : State) (e : Nat) (bs : List Byte) : State :=
  let wr := s.fld ETH_EMB_WR_IDX
  let log := s.fld ETH_EMB_CFG_ELOG
  if !s.on ETH_EMB_CFG_EN then s.raise ETH_MB_STAT_EMB_OVF
  else if seqSub wr (s.fld ETH_EMB_RD_IDX) = 2 ^ log then s.raise ETH_MB_STAT_EMB_OVF
  else
    let (r, s) := s.busWrite e (poolBase + s.fld ETH_EMB_BASE_OFS + 32 * (wr % 2 ^ log)) (fit 32 bs)
    if r = rOK then (s.setFld ETH_EMB_WR_IDX 0 ((wr + 1) % 2 ^ 32)).irq "ENGINE_MBOX" else s.raise ETH_MB_STAT_EMB_OVF

/-- Sums and active count of a whole SREG body (R158). -/
def sregSums (b : List Byte) : RegSums :=
  { n := imgNat b 16 4, sums := (List.range 100).map fun k => imgNat b (32 + 4 * k) 4 }

/-- Add two sets of sums. -/
def RegSums.add (a b : RegSums) : RegSums :=
  if a.sums.isEmpty then b else { n := a.n + b.n, sums := List.zipWith (· + ·) a.sums b.sums }

/-- The sums of a run that has ended enter the tracker's window (R195); a window of NREG runs makes an update due. -/
def State.trkRun (s : State) (e : Nat) (l r : Option RegSums) : State :=
  let nreg := max 1 (s.fld REF_TRKCFG_NREG)
  s.updTrk e fun t =>
    match l with
    | none => t
    | some l =>
      if t.due then t
      else
        let t := match r with
          | some r => { t with left := t.left.add l, right := t.right.add r, left2 := t.left2.add l }
          | none => { t with left := t.left.add l }
        { t with runs := t.runs + 1, due := decide (nreg ≤ t.runs + 1) }

/-- One SREG entry reaches REF (R158, R195): the parts of a body are put together; a valid body of a run of the present
generation counts; the second of a run completes it, and a run that sends only one counts at its end-of-line entry. -/
def State.sregPart (s : State) (e part : Nat) (bs : List Byte) : State :=
  if !s.refMode then s
  else
    let s := s.updTrk e fun t => { t with part := (if part = 0 then [] else t.part) ++ bs }
    if part ≠ 13 then s
    else
      let b := (s.trk e).part
      let line : Int := (imgNat b 0 8 / 65536 : Nat)
      let t := s.trk e
      let count := if t.line = line then t.count + 1 else 1
      if 2 < count then (s.updTrk e fun t => { t with count := count }).count .REF_XSREG_CNT
      else
        let valid := (imgNat b 9 1).testBit 0 && (t.gens.find? (·.1 == line)).map (·.2) == some t.gen
        s.updTrk e fun t =>
          if count = 1 then { t with line := line, count := 1, first := if valid then some (sregSums b) else none, second := none }
          else { t with count := 2, second := if valid then some (sregSums b) else none }

/-- The run's sums are complete at its end-of-line entry: they count if the run's generation is still the present one. -/
def State.sregEnd (s : State) (e : Nat) (line : Int) : State :=
  let t := s.trk e
  if t.line = line then
    let s := s.doIf ((t.gens.find? (·.1 == line)).map (·.2) == some t.gen) (·.trkRun e t.first t.second)
    s.updTrk e fun t => { t with first := none, second := none }
  else s

/-- A run record enters the list of those received; record 255 sent again takes the place of the one sent before (R155). -/
def runsAdd (l : List RunRec) (r : RunRec) : List RunRec :=
  if r.ovf && l.countP (fun x => x.eng == r.eng && x.line == r.line) == 256 then
    match l.reverse.span fun x => !(x.eng == r.eng && x.line == r.line) with
    | (after, _ :: before) => before.reverse ++ after.reverse ++ [r]
    | (_, []) => l ++ [r]
  else l ++ [r]

/-- Run records reach Sillage (R156); one with RUN_OVERFLOW sets RUN_OVF. -/
def State.silReceive (s : State) (recs : List RunRec) : State :=
  if s.on SIL_CTL_EN then
    let s := (recs.filter (·.ovf)).foldl (fun s _ => s.raise SIL_STAT_RUN_OVF) s
    { s with sil := { s.sil with runs := recs.foldl runsAdd s.sil.runs } }
  else s

/-- The oldest entry of an engine's queue leaves it (R123, R156). -/
def State.queueDrain (s : State) (e : Nat) : State :=
  let g := s.eng e
  match g.queue with
  | [] => s
  | q :: qs =>
    let line := g.queueLine
    let s := s.updEng e fun g => { g with queue := qs }
    match q with
    | .stc bytes => (stcGroups bytes).foldl (fun s (a, bs) => s.stcWrite e line a bs) s
    | .emit recs => s.silReceive recs
    | .proj a bs => (s.busWrite e a bs).2.tagNew e 2 0
    | .void => s
    | .sreg part bs => s.sregPart e part bs
    | .mbox bs => s.mboxEntry e bs
    | .eol recs l _ _ _ ranges =>
      let start := s.stripeStart e
      let s := s.silReceive recs
      let s := if s.on SIL_CTL_EN then
          { s with sil := { s.sil with
              eols := s.sil.eols ++ [{ eng := e, line := l, runs := [], blind := ranges.map fun r => (start + r.1, start + r.2) }] } }
        else s
      let x := s.stripeExt e
      let failing := fun (port : Nat) => s.ref.fail.any fun f => f.1 == e && f.2 == port
      ((s.sregEnd e l).rptDone e l).collectLine l (fun b => b.cause == 3 && (b.ext.p0, b.ext.p1) == x && !failing b.src) []

/-- QUEUE_ENTRY_DRAIN: an entry of the E-slot queue leaves. -/
def execQueueEntryDrain (e : Fin 16) (s : State) : Host.Outcome State Fault Refusal := .next (s.whenLive (·.queueDrain e))

/-! ### Commands -/

/-- ENGINE_GO: a write of SE_CTL with GO = 1. -/
def execEngineGo (m : Master) (e : Fin 16) (v : Word) (s : State) : Host.Outcome State Fault Refusal :=
  .next (s.guardWrite m .SE_CTL e (·.seCtlWrite e (v ||| 1)))

/-- ENGINE_GO_CLEAR: a write of SE_CTL with GO = 0 and RESTART = 0. -/
def execEngineGoClear (m : Master) (e : Fin 16) (v : Word) (s : State) : Host.Outcome State Fault Refusal :=
  .next (s.guardWrite m .SE_CTL e (·.seCtlWrite e (v &&& 0xFFFFFFFC)))

/-- ENGINE_RESTART: a write of SE_CTL with RESTART = 1. -/
def execEngineRestart (m : Master) (e : Fin 16) (v : Word) (s : State) : Host.Outcome State Fault Refusal :=
  .next (s.guardWrite m .SE_CTL e (·.seCtlWrite e (v ||| 2)))

/-- PROGRAM_LOAD: a write of SE_LDCMD with LOAD = 1. -/
def execProgramLoad (m : Master) (e : Fin 16) (v : Word) (s : State) : Host.Outcome State Fault Refusal :=
  .next (s.guardWrite m .SE_LDCMD e (·.ldcmdWrite e (v ||| 1)))

/-- LOAD_DONE: the load in progress ends. -/
def execLoadDone (e : Fin 16) (s : State) : Host.Outcome State Fault Refusal := .next (s.whenLive (·.loadDone e))

end Sys2Proof.Machine
end

