-- ==== Sys2Proof/Machine/DmaBase.lean ====
section
/-!
DEFINITION. Sys2Proof/Machine/DmaBase.lean: what a DMA channel does without moving data: its states and commands, its halt, the
layout and the checks of a descriptor, and the hold on CMP engines (R272–R274, R277–R281, R287).
-/
namespace Sys2Proof.Machine

/-- One DMA channel. -/
def State.dma (s : State) (k : Nat) : Dma := look {} s.dmas k

/-- Change one DMA channel. -/
def State.updDma (s : State) (k : Nat) (f : Dma → Dma) : State := { s with dmas := upd {} f s.dmas k }

/-- Master number of a channel (R16). -/
def dmaMaster (k : Nat) : Nat := 20 + k

/-- A request of the channel still waits for a CXL device. -/
def State.dmaOutst (s : State) (k : Nat) : Bool := s.tagWaits (dmaMaster k) fun _ => true

/-- The request a channel's access has just left waiting is known by its direction and its place (R277). -/
def State.dmaTag (s : State) (k dir at_ : Nat) : State := s.tagNew (dmaMaster k) dir at_

/-! ### CMP engines (R287) -/

/-- Owner of a CMP engine. -/
def State.cmpOwner (s : State) (i : Nat) : CmpOwner := look .idle s.cmp.eng i

/-- Give a CMP engine to an owner. -/
def State.cmpGive (s : State) (i : Nat) (o : CmpOwner) : State := { s with cmp := { s.cmp with eng := put o s.cmp.eng i } }

/-- The lowest idle CMP engine. -/
def State.cmpIdle (s : State) : Option Nat := (List.range 8).find? fun i => s.cmpOwner i == .idle

/-- CMP engines that DMA channels hold. -/
def State.cmpDmaHeld (s : State) : Nat := ((List.range 8).filter fun i => match s.cmpOwner i with
  | .dma _ => true
  | _ => false).length

/-- A DMA channel may take an engine now. -/
def State.cmpDmaMay (s : State) : Bool := decide (s.cmpDmaHeld < min 8 (s.fld CMP_CTL_DMAMAX))

/-- A channel gives its CMP engine back. -/
def State.dmaFreeEng (s : State) (k : Nat) : State :=
  match (s.dma k).eng with
  | some i => (s.cmpGive i .idle).updDma k fun d => { d with eng := none }
  | none => s

/-- A stream fails in an engine (R284). -/
def State.cmpFail (s : State) (i kind ofs : Nat) : State :=
  let s := s.raise CMP_STAT_DECODE_ERR
  s.setReg .CMP_ERRINFO 0 (BitVec.ofNat 32 (kind + 16 * i + 256 * min ofs 0xFFFFFF))

/-- Bytes counted by CMP_IN and CMP_OUT, 64-bit, wrapping. -/
def State.cmpCount (s : State) (inB outB : Nat) : State :=
  { s with cmp := { s.cmp with inBytes := (s.cmp.inBytes + inB) % 2 ^ 64, outBytes := (s.cmp.outBytes + outB) % 2 ^ 64 } }

/-! ### Halt (R277) -/

/-- A channel halts: result, direction, failing address, its response, offset in the byte stream. A crop whose descriptor it was has
failed (R229, R281). Accesses that wait complete without further effect on the channel. -/
def State.dmaHalt (s : State) (k res dir addr ofs : Nat) (collide : Bool := false) : State :=
  let s := if (s.dma k).direct then { s with rpt := { s.rpt with failed := true } } else s
  let s := (s.tagDrop (dmaMaster k) fun _ => true).updDma k fun d =>
    { d with st := .halted, fetch := none, waiting := false, buf := [], held := [], bad := none, got := none, goal := 0 }
  let s := s.setFld DMA_RES_RESULT k res
  let s := s.setWide .DMA_FAIL_LO .DMA_FAIL_HI k (addr % 2 ^ 40)
  let s := s.setReg .DMA_FAIL_INFO k (BitVec.ofNat 32 (dir + 8 * collide.toNat + 256 * res))
  let s := s.setReg .DMA_FAIL_OFS k (BitVec.ofNat 32 ofs)
  (s.raise DMA_STAT_ERR k).irq "DMA_HALT"

/-! ### Descriptors (R272–R274) -/

/-- The layout of a descriptor (R272); reserved fields are ignored. -/
def descOf (b : List Byte) : Desc :=
  let n := fun (i k : Nat) => leNat ((b.drop i).take k)
  { next := n 0 8 % 2 ^ 40, src := n 8 8 % 2 ^ 40, dst := n 16 8 % 2 ^ 40, len := n 24 3, rows := n 28 2
    sstride := n 32 4, dstride := n 36 4, cap := n 40 4, sw := n 44 1 % 8, dw := n 45 1 % 8
    op := n 46 1 % 4, level := n 46 1 / 16, last := (n 47 1).testBit 0, irq := (n 47 1).testBit 1, wb := (n 47 1).testBit 2 }

/-- Where a source row begins (R228, R272). -/
def Desc.srcRow (d : Desc) (row : Nat) : Nat :=
  match d.wrap with
  | some (r, a) => if r ≤ row then a + (row - r) * d.sstride else d.src + row * d.sstride
  | none => d.src + row * d.sstride

/-- Source and destination spans: first address and length (R273). -/
def Desc.srcSpan (d : Desc) : Nat × Nat :=
  (d.src, if d.op = 2 then d.cap else (d.rows - 1) * d.sstride + d.len)
def Desc.dstSpan (d : Desc) : Nat × Nat :=
  (d.dst, if d.op = 1 then d.cap else (d.rows - 1) * d.dstride + d.len)

/-- The source of a descriptor that wraps lies in two spans. -/
def Desc.srcSpans (d : Desc) : List (Nat × Nat) :=
  match d.wrap with
  | some (r, a) => [(d.src, (r - 1) * d.sstride + d.len), (a, (d.rows - r - 1) * d.sstride + d.len)]
  | none => [d.srcSpan]

/-- Two ranges of addresses share a byte. -/
def rangesMeet (a b : Nat × Nat) : Bool := decide (max a.1 b.1 < min (a.1 + a.2) (b.1 + b.2))

/-- The spans share a byte. -/
def Desc.overlaps (d : Desc) : Bool := d.srcSpans.any fun a => rangesMeet a d.dstSpan

/-- The first check a descriptor fails, with its result (R273, R274). Check 2 is read as DSTRIDE for every OP and SSTRIDE beside it for
OP 1, each where there is more than one row (DEDUCED, log 22). -/
def Desc.check (d : Desc) (dmamax : Nat) : Nat :=
  if 6 < d.sw ∨ 6 < d.dw ∨ d.op = 3 ∨ (d.op = 1 ∧ ¬(1 ≤ d.level ∧ d.level ≤ 9)) ∨ d.len = 0 ∨ d.rows = 0 then rRANGE
  else if 1 < d.rows ∧ (d.dstride < d.len ∨ (d.op = 1 ∧ d.sstride < d.len)) then rRANGE
  else if d.op ≠ 0 ∧ dmamax = 0 then rSTATE_REFUSED
  else if d.overlaps ∧ ¬(d.op = 0 ∧ d.sw = d.dw ∧ (d.rows = 1 ∨ d.sstride = d.dstride)) then rOVERLAP
  else rOK

/-- Source bytes of a descriptor. -/
def Desc.srcBytes (d : Desc) : Nat := if d.op = 2 then d.cap else d.rows * d.len

/-- The copy runs in decreasing order (R274). -/
def Desc.down (d : Desc) : Bool := d.overlaps && decide (d.src < d.dst)

/-- The current registers of a channel: the next source and destination byte, the row, what is left to read, what has been
written (R278, R280). In a copy in decreasing order the next byte is the last one not yet moved. -/
def State.dmaCur (s : State) (k : Nat) : State :=
  let c := s.dma k
  match c.desc with
  | none => s
  | some d =>
    let place := fun (n : Nat) (row : Nat → Nat) =>
      if d.down then
        let j := d.rows * d.len - 1 - min n (d.rows * d.len - 1)
        row (j / d.len) + j % d.len
      else row (n / max 1 d.len) + n % max 1 d.len
    let src := if d.op = 2 then d.src + c.done else place c.done d.srcRow
    let dst := if d.op = 1 then d.dst + c.out else place c.out fun r => d.dst + r * d.dstride
    let r := if d.op = 2 then c.out / max 1 d.len
      else if d.down then d.rows - 1 - min (c.done / max 1 d.len) (d.rows - 1)
      else min (c.done / max 1 d.len) (d.rows - 1)
    let s := s.setWide .DMA_CUR_SRC_LO .DMA_CUR_SRC_HI k (src % 2 ^ 40)
    let s := s.setWide .DMA_CUR_DST_LO .DMA_CUR_DST_HI k (dst % 2 ^ 40)
    let s := s.setFld DMA_ROW_ROW k r
    let s := s.setReg .DMA_REMAIN k (BitVec.ofNat 32 (min 0xFFFFFFFF (d.srcBytes - c.done)))
    s.setReg .DMA_PRODUCED k (BitVec.ofNat 32 c.out)

/-! ### Accesses (R275) -/

/-- The access that moves the next bytes of a stream laid out in rows: `pos` bytes are moved, `total` in all, rows of `len`
bytes that begin at `row`, width 2^w; in decreasing order where `down`. Its address and length. -/
def rowAccess (row : Nat → Nat) (len total w pos : Nat) (down : Bool) : Nat × Nat :=
  let u := 2 ^ w
  if down then
    let j := total - 1 - pos
    let o := j % len
    let a := row (j / len) + o
    let n := min (a % u + 1) (o + 1)
    (a + 1 - n, n)
  else
    let o := pos % len
    let a := row (pos / len) + o
    (a, min (u - a % u) (len - o))

/-- The next source access of a descriptor with `pos` bytes read: OP 2 reads one contiguous stream. -/
def Desc.readAt (d : Desc) (pos : Nat) : Nat × Nat :=
  if d.op = 2 then rowAccess (fun _ => d.src) d.cap d.cap d.sw pos false
  else rowAccess d.srcRow d.len (d.rows * d.len) d.sw pos d.down

/-- The next destination access with `pos` bytes written: OP 1 writes one contiguous stream. -/
def Desc.writeAt (d : Desc) (pos : Nat) : Nat × Nat :=
  if d.op = 1 then rowAccess (fun _ => d.dst) d.cap d.cap d.dw pos false
  else rowAccess (fun r => d.dst + r * d.dstride) d.len (d.rows * d.len) d.dw pos d.down

/-! ### Undefined bytes after a halt (R277) -/

/-- Bytes a write could have reached become free where the channel may write memory. -/
def State.freeFill (s : State) (m a n : Nat) : State :=
  (memParts (n / 4096 + 2) a n).foldl (fun s p =>
    match s.placeOf m p.1 p.2 with
    | some key =>
      let (bs, s) := s.freeBytes p.2
      { s with mem := memWrite s.mem key bs }
    | none => s) s

/-- The destination bytes of stream positions `pos` to `total` hold free values (R277). -/
def State.freeFrom (s : State) (k : Nat) (d : Desc) : Nat → Nat → Nat → State
  | 0, _, _ => s
  | fuel + 1, pos, total =>
    if total ≤ pos then s
    else
      let (a, n) := d.writeAt pos
      (if regSpace a then s else s.freeFill (dmaMaster k) a (min n (total - pos))).freeFrom k d fuel (pos + max 1 n) total

/-- Bytes a descriptor can write. -/
def Desc.dstBytes (d : Desc) : Nat := if d.op = 1 then d.cap else d.rows * d.len

/-- The channel halts while it moves data: every destination byte before the offset is written, the rest is undefined. -/
def State.dmaStop (s : State) (k : Nat) (d : Desc) (res dir addr ofs : Nat) (collide : Bool := false) : State :=
  let s := s.freeFrom k d (d.dstBytes + 1) ofs d.dstBytes
  ((s.updDma k fun c => { c with out := ofs }).dmaCur k).dmaHalt k res dir addr ofs collide

/-- The channel halts once its data is written, at its read-back or its status write: the bytes from the offset on are undefined
(R277). A status write lies beyond the stream and counts from its end (DESIGN CHOICE, log 71). -/
def State.dmaStopLate (s : State) (k : Nat) (d : Desc) (res dir addr ofs : Nat) (collide : Bool := false) : State :=
  ((s.freeFrom k d (d.dstBytes + 1) ofs d.dstBytes).dmaCur k).dmaHalt k res dir addr ofs collide

/-! ### Taking up a descriptor -/

/-- Address of the descriptor in progress. -/
def State.dmaCurDesc (s : State) (k : Nat) : Nat := s.wide .DMA_CURDESC_LO .DMA_CURDESC_HI k

/-- A free CMP engine is taken by a waiting tile of REF, else by the next waiting DMA channel in rotation (R287). -/
def State.cmpTake (s : State) (i : Nat) : State :=
  if s.cmpOwner i != .idle then s
  else
    match s.ref.waiting with
    | t :: ts => { s.cmpGive i (.tile t) with ref := { s.ref with waiting := ts } }
    | [] =>
      let order := (List.range 16).map fun j => (s.cmp.turn + 1 + j) % 16
      match order.find? fun k => (s.dma k).waiting with
      | some k =>
        if s.cmpDmaMay then
          let s := (s.cmpGive i (.dma k)).updDma k fun c => { c with eng := some i, waiting := false }
          { s with cmp := { s.cmp with turn := k } }
        else s
      | none => s

/-- A fetched descriptor is checked, and its movement begins: OP 1 and 2 wait for a CMP engine, and an idle one goes to whoever is next
(R273, R287). -/
def State.dmaLoad (s : State) (k : Nat) (d : Desc) : State :=
  let r := d.check (s.fld CMP_CTL_DMAMAX)
  if r ≠ rOK then s.dmaHalt k r 0 (s.dmaCurDesc k) 0
  else
    let s := s.updDma k fun c => { c with
      desc := some d, fetch := none, got := none, done := 0, out := 0, goal := 0, held := [], bad := none, buf := [], stage := 0 }
    let s := s.dmaCur k
    if d.op = 0 || (s.dma k).eng.isSome then s
    else
      let s := s.updDma k fun c => { c with waiting := true }
      match s.cmpIdle with
      | some i => s.cmpTake i
      | none => s

/-! ### Commands (R279–R281) -/

/-- The channel serves RPT (R281). -/
def State.dmaRpt (s : State) (k : Nat) : Bool := s.on RPT_CTL_EN && s.fld RPT_CROP_DCH == k

/-- Result of a command. -/
def State.dmaRes (s : State) (k res : Nat) : State := s.setFld DMA_RES_RESULT k res

/-- START. -/
def State.dmaStart (s : State) (k : Nat) : State :=
  if s.dmaRpt k || (s.dma k).st != .idle then s.dmaRes k rSTATE_REFUSED
  else
    let a := s.wide .DMA_DESC_LO .DMA_DESC_HI k
    let s := s.updDma k fun _ => { st := .running, fetch := some a }
    let s := s.setWide .DMA_CURDESC_LO .DMA_CURDESC_HI k a
    let s := ((s.setReg .DMA_FAIL_LO k 0).setReg .DMA_FAIL_HI k 0).setReg .DMA_FAIL_INFO k 0
    (s.setReg .DMA_FAIL_OFS k 0).dmaRes k rOK

/-- A channel stops reading: PAUSING (R279). -/
def State.dmaPauseNow (s : State) (k : Nat) : State :=
  if (s.dma k).st = .running then s.updDma k fun c => { c with st := .pausing, goal := min c.goal c.done } else s

/-- PAUSE. -/
def State.dmaPause (s : State) (k : Nat) : State :=
  if s.dmaRpt k || (s.dma k).st != .running then s.dmaRes k rSTATE_REFUSED
  else (s.dmaPauseNow k).dmaRes k rOK

/-- RESUME: from the position in the current registers. -/
def State.dmaResume (s : State) (k : Nat) : State :=
  if s.dmaRpt k || (s.dma k).st != .paused then s.dmaRes k rSTATE_REFUSED
  else (s.updDma k fun c => { c with st := .running }).dmaRes k rOK

/-- CLEAR: the rest of the chain is abandoned, and a CMP engine held is given back. -/
def State.dmaClear (s : State) (k : Nat) : State :=
  let st := (s.dma k).st
  if st = .halted ∨ (st = .paused ∧ !s.dmaRpt k) then
    ((s.dmaFreeEng k).updDma k fun _ => {}).dmaRes k rOK
  else s.dmaRes k rSTATE_REFUSED

/-- A write of DMA_k_CMD: more than one command bit ends with RANGE; none changes nothing. -/
def State.dmaCmdWrite (s : State) (k : Nat) (v : Word) : State :=
  let bs := (List.range 4).filter fun b => v.getLsbD b
  match bs with
  | [] => s
  | [b] => if b = 0 then s.dmaStart k else if b = 1 then s.dmaPause k else if b = 2 then s.dmaResume k else s.dmaClear k
  | _ => s.dmaRes k rRANGE

/-- RPT hands a descriptor to its channel (R281). -/
def State.dmaDirect (s : State) (k : Nat) (d : Desc) : State :=
  if (s.dma k).st = .idle then
    let s := s.updDma k fun _ => { st := .running, direct := true }
    let s := s.setWide .DMA_CURDESC_LO .DMA_CURDESC_HI k 0
    s.dmaLoad k d
  else s

/-- The write of DMA_k_CMD that has one command bit set. -/
def dmaCmdGuard (m : Master) (k : Fin 16) (b : Nat) (v : Word) (s : State) : State :=
  s.guardWrite m .DMA_CMD k (·.dmaCmdWrite k (v ||| BitVec.ofNat 32 (2 ^ b)))

/-- DMA_START: a write of START. -/
def execDmaStart (m : Master) (k : Fin 16) (v : Word) (s : State) : Host.Outcome State Fault Refusal :=
  .next (dmaCmdGuard m k 0 v s)

/-- DMA_PAUSE: a write of PAUSE. -/
def execDmaPause (m : Master) (k : Fin 16) (v : Word) (s : State) : Host.Outcome State Fault Refusal :=
  .next (dmaCmdGuard m k 1 v s)

/-- DMA_RESUME: a write of RESUME. -/
def execDmaResume (m : Master) (k : Fin 16) (v : Word) (s : State) : Host.Outcome State Fault Refusal :=
  .next (dmaCmdGuard m k 2 v s)

/-- DMA_CLEAR: a write of CLEAR. -/
def execDmaClear (m : Master) (k : Fin 16) (v : Word) (s : State) : Host.Outcome State Fault Refusal :=
  .next (dmaCmdGuard m k 3 v s)

/-- CMP_ENGINE_FREE: engine i is free for its next stream. -/
def execCmpEngineFree (i : Fin 8) (s : State) : Host.Outcome State Fault Refusal := .next (s.whenLive (·.cmpTake i))

end Sys2Proof.Machine
end

