-- ==== Sys2Proof/Machine/Ref.lean ====
section
/-!
DEFINITION. Sys2Proof/Machine/Ref.lean: the Heart Note's feed, pages, reference rings and registration trackers (R177–R199).
-/
namespace Sys2Proof.Machine

/-! ### Descriptors and tiles (R178–R181) -/

/-- Pages whose rows have not all been freed: those in the queue, then the declared ones. -/
def State.livePages (s : State) : List RefPage :=
  s.ref.queue ++ s.ref.pages.filter fun p => decide (s.ref.freed < p.qp + p.len)

/-- Take the oldest feed packet of a channel. -/
def State.feedTake (s : State) (ch : Nat) : Option ((Nat × Packet) × State) :=
  match s.ref.inbox.find? fun x => x.2.ch == ch with
  | some x => some (x, { s with ref := { s.ref with inbox := s.ref.inbox.erase x } })
  | none => none

/-- A page descriptor is accepted or discarded (R178, R199). -/
def State.refDescriptor (s : State) : State :=
  match s.feedTake 1 with
  | none => s
  | some ((_, p), s) =>
    let b := p.bytes
    let id := leNat (b.take 4)
    let len := leNat ((b.drop 4).take 4)
    if !s.refMode then (s.raise REF_STAT_PKT_ERR).refGrant
    else if len < 32 ∨ s.fld REF_PMAX_PMAX < len ∨ id = 0xFFFFFFFF ∨ s.ref.queue.any (·.id == id) then
      (s.raise REF_STAT_DESC_ERR).refGrant
    else
      let pg : RefPage := { id := id, len := len, design := leNat ((b.drop 8).take 2), qp := s.ref.nextRow }
      { s with ref := { s.ref with queue := s.ref.queue ++ [pg], nextRow := s.ref.nextRow + len } }.refGrant

/-- Rows of a band of a page (R179). -/
def RefPage.bandRows (p : RefPage) (b : Nat) : Nat := min 64 (p.len - 64 * b)

/-- Tiles of a band. -/
def State.refTiles (s : State) : Nat :=
  (s.fld REF_RWIDTH_WIDTH + s.fld REF_TILE_TILEW - 1) / max 1 (s.fld REF_TILE_TILEW)

/-- Every tile of a band is complete. -/
def State.bandOk (s : State) (p : RefPage) (b : Nat) : Bool := (List.range s.refTiles).all fun t => p.tiles.contains (b, t)

/-- A tile's blocks on its lane: the stream and the two header blocks. -/
def RefTile.blocks (t : RefTile) : Nat := t.stream.length / 8 + 2

/-- A tile packet is checked, and passed to a free CMP engine (R180). Of two live pages with its page id the queued one takes it
(DESIGN CHOICE, log 118). -/
def State.refTilePacket (s : State) : State :=
  match s.feedTake 0 with
  | none => s
  | some ((j, p), s) =>
    let b := p.bytes
    let n := fun (i k : Nat) => leNat ((b.drop i).take k)
    let t0 : RefTile :=
      { page := n 0 4, band := n 4 4, tile := n 8 2, width := n 10 2, rows := 0, stored := (n 12 1).testBit 0, lane := j
        stream := b.drop 16 }
    let tw := s.fld REF_TILE_TILEW
    let rw := s.fld REF_RWIDTH_WIDTH
    if !s.refMode then (s.raise REF_STAT_PKT_ERR).refReturn j t0.blocks
    else
      match s.livePages.find? (·.id == t0.page) with
      | none => (s.raise REF_STAT_TILE_ERR).tileLost.refReturn j t0.blocks
      | some pg =>
        if (pg.len + 63) / 64 ≤ t0.band ∨ s.refTiles ≤ t0.tile ∨ t0.width ≠ min tw (rw - t0.tile * tw) then
          (s.raise REF_STAT_TILE_ERR).tileLost.refReturn j t0.blocks
        else if pg.tiles.contains (t0.band, t0.tile) then (s.count .REF_DUP_CNT).tileLost.refReturn j t0.blocks
        else
          let t := { t0 with qp := pg.qp, rows := pg.bandRows t0.band }
          match s.cmpIdle with
          | some i => if s.ref.waiting.isEmpty then s.cmpGive i (.tile t)
              else { s with ref := { s.ref with waiting := s.ref.waiting ++ [t] } }
          | none => { s with ref := { s.ref with waiting := s.ref.waiting ++ [t] } }

/-- Address of a column of a reference row in the ring (R182). -/
def State.refAddr (s : State) (k col : Nat) : Nat :=
  s.wide .REF_RBASE_LO .REF_RBASE_HI + k % max 1 (s.fld REF_RROWS_ROWS) * s.fld REF_RPITCH_PITCH + 4 * col

/-- Change the page with first row `qp`, queued or declared. -/
def State.updPage (s : State) (qp : Nat) (f : RefPage → RefPage) : State :=
  let g := fun (p : RefPage) => if p.qp = qp ∧ p.len ≠ 0 then f p else p
  { s with ref := { s.ref with queue := s.ref.queue.map g, pages := s.ref.pages.map g } }

/-- Number of a tile of the page with first row `qp`. -/
def tileKey (qp band tile : Nat) : Nat := (qp * 2 ^ 32 + band) * 2 ^ 16 + tile

/-- The bytes of a tile enter the ring as master 36; whether every write was answered OK. -/
def State.tileWrite (s : State) (pg : RefPage) (t : RefTile) (out : List Byte) : Bool × State :=
  (List.range t.rows).foldl (fun (acc : Bool × State) r =>
    let bs := (out.drop (r * t.width * 4)).take (t.width * 4)
    if bs.isEmpty then acc
    else
      let (res, s) := acc.2.busWrite 36 (acc.2.refAddr (pg.qp + 64 * t.band + r) (t.tile * acc.2.fld REF_TILE_TILEW)) bs
      (acc.1 && res == rOK, s.tagNew 36 (if res = rOK then 1 else 9) (tileKey pg.qp t.band t.tile))) (true, s)

/-- A CMP engine ends a tile: complete, or failed (R180, R284). A page that has been freed or dropped meanwhile fails it. -/
def State.tileDone (s : State) (i : Nat) (t : RefTile) : State :=
  let s := (s.cmpGive i .idle).refReturn t.lane t.blocks
  let size := t.width * t.rows * 4
  match s.livePages.find? (fun p => p.qp == t.qp && p.id == t.page) with
  | none => (s.raise REF_STAT_TILE_ERR).tileLost
  | some pg =>
    let u : Unpacked := if t.stored then { rev := (t.stream.take size).reverse, len := min size t.stream.length, used := size }
      else zcmDecode t.stream size
    let s := s.cmpCount (if t.stored then u.len else u.used) u.len
    let (ok, s) := s.tileWrite pg t u.out
    let s := match u.fail with
      | some (kind, ofs) => s.cmpFail i kind ofs
      | none => s
    let s := s.raiseIf (!ok) CMP_STAT_WR_ERR
    let sized := u.len == size && (!t.stored || decide (t.stream.length < size + 8))
    if ok && u.fail.isNone && sized then s.updPage pg.qp fun p => { p with tiles := (t.band, t.tile) :: p.tiles }
    else (s.raise REF_STAT_TILE_ERR).tileLost

/-- PAGE_DESCRIPTOR: the oldest descriptor packet received is taken. -/
def execPageDescriptor (s : State) : Host.Outcome State Fault Refusal := .next (s.whenLive (·.refDescriptor))

/-- TILE_PACKET: the oldest tile packet received is taken. -/
def execTilePacket (s : State) : Host.Outcome State Fault Refusal := .next (s.whenLive (·.refTilePacket))

/-- TILE_DECOMPRESSED: CMP engine i ends its tile. -/
def execTileDecompressed (i : Fin 8) (s : State) : Host.Outcome State Fault Refusal :=
  .next (s.whenLive fun s => match s.cmpOwner i with
    | .tile t => s.tileDone i t
    | _ => s)

/-! ### Page starts (R183–R186) -/

/-- Page length in 1/65,536 line. -/
def State.pageLen (s : State) : Int := (s.fld REF_PLEN_PLEN * 65536 + s.fld REF_PLENF_PLENF : Nat)

/-- Source of page starts, with 3 read as 2. -/
def State.pageSrc (s : State) : Nat := min 2 (s.fld REF_CTL_PSRC)

/-- The last start accepted, declared or waiting to be. -/
def State.lastStart (s : State) : Option Int := s.ref.ready.getLast?.orElse fun _ => s.ref.last

/-- ⌊P′ + 0.5⌋. -/
def nearStart (p : Int) : Int := (p + 32768) / 65536

/-- A page start is accepted for declaration. -/
def State.acceptStart (s : State) (p : Int) : State := { s with ref := { s.ref with ready := s.ref.ready ++ [p] } }

/-- A mark run on line m proposes a page start (R184). A start not past the last one would break the increasing order of
starts and is treated as a stray (DEDUCED, log 24). -/
def State.refMark (s : State) (m : Int) : State :=
  if !s.on REF_CTL_EN || s.pageSrc != 0 then s
  else
    let pm := m + s.fld REF_MARK_MARKOFS
    let win : Nat := s.fld REF_MARK_MWIN
    let take := fun (s : State) => { s.acceptStart pm with ref := { (s.acceptStart pm).ref with exact := some (pm * 65536 + s.pageLen) } }
    match s.ref.exact with
    | none => take s
    | some p =>
      let later : Bool := match s.lastStart with
        | some l => decide (l < pm)
        | none => true
      if (pm * 65536 - p).natAbs ≤ win * 65536 ∧ later then take s
      else match s.lastStart with
        | some l => if (pm - l).natAbs ≤ win then s else s.raise REF_STAT_MARK_STRAY
        | none => s.raise REF_STAT_MARK_STRAY

/-- MARK_MISS: Sillage has passed the deadline line and no proposal was accepted (R184). -/
def State.refMarkMiss (s : State) : State :=
  if !s.on REF_CTL_EN || s.pageSrc != 0 then s
  else match s.ref.exact with
    | none => s
    | some p =>
      if p / 65536 + s.fld REF_MARK_MWIN - s.fld REF_MARK_MARKOFS ≤ s.sil.lastLine then
        let s := s.acceptStart (nearStart p)
        { s with ref := { s.ref with exact := some (p + s.pageLen) } }.raise REF_STAT_MARK_MISS
      else s

/-- An occurrence at REF_PAGE proposes the line latched with it plus PAGEOFS (R183). -/
def State.refPress (s : State) : State :=
  match s.ref.press with
  | [] => s
  | l :: more =>
    let s := { s with ref := { s.ref with press := more } }
    if !s.on REF_CTL_EN || s.pageSrc != 1 then s
    else
      let p := l + s.sfld REF_PAGEOFS_PAGEOFS
      match s.lastStart with
      | some q => if p ≤ q then s.raise REF_STAT_PAGE_ERR else s.acceptStart p
      | none => s.acceptStart p

/-- A write of REF_FIRST_HI: the register, and the armed line in length mode (R183). -/
def State.refFirstHi (s : State) (v : Word) : State :=
  let s := s.regStore .REF_FIRST_HI 0 v
  if s.pageSrc ≠ 2 then s
  else
    let line : Int := s.wide .REF_FIRST_LO .REF_FIRST_HI
    match s.on REF_CTL_EN, s.ref.last with
    | true, some q =>
      if line ≤ q then s.raise REF_STAT_PAGE_ERR else { s with ref := { s.ref with armed := some line } }
    | _, _ => { s with ref := { s.ref with armed := some line } }

/-- BLIND extents of at most 4,096 lines (R429). -/
def splitLines : Nat → Int → Int → List (Int × Int)
  | 0, _, _ => []
  | n + 1, a, b => if b < a then [] else if b - a < 4096 then [(a, b)] else (a, a + 4095) :: splitLines n (a + 4096) b

/-- Web lines from a to b reported blind across a pixel range, as far as they belong to the job. -/
def State.blindLines (s : State) (cause detail src : Nat) (a b : Int) (x : Nat × Nat) : State :=
  if !s.on RPT_CTL_EN || s.zsp.job == .cal then s
  else
    let a := max a s.jobLine
    (splitLines ((b - a).toNat / 4096 + 1) a b).foldl (fun s (l0, l1) =>
      s.noticeBlind cause detail src { l0 := l0, l1 := l1, p0 := x.1, p1 := x.2 }) s

/-- The start P is declared (R185, R186): the page, its event outside a drain, its PAGE record, and the lines already started. -/
def State.declarePage (s : State) (p : Int) : State :=
  let n := s.ref.count + 1
  let (pg, s) :=
    if s.refMode then
      match s.ref.queue with
      | q :: qs => (q, { s with ref := { s.ref with queue := qs } })
      | [] => ({ id := 0xFFFFFFFF, len := 0 }, s.raise REF_STAT_PAGE_UNDER)
    else ({ id := n % 2 ^ 32, len := 0 }, s)
  let pg := { pg with start := some p }
  let s := { s with
    ref := { s.ref with pages := pg :: s.ref.pages, count := n, last := some p }
    tick := { s.tick with page := 65536 * ofSigned 48 p } }
  let s := if s.pwr.drain then s else s.strobe [2]
  let s := s.notice (p + s.depth + 2) (.page p pg.id pg.design pg.len)
  let lines := s.enginesInUse.filterMap fun e => (s.rpt.startLine.find? (·.1 == e)).map (·.2)
  let top := lines.foldl max (p - 1)
  let s := if top < p then s
    else s.enginesInUse.foldl (fun s e => s.blindLines 4 6 e p top (s.stripeExt e)) (s.raise REF_STAT_PAGE_LATE)
  if s.refMode then s.refGrant else s

/-- A page start due now is declared (R183): one accepted from a mark or an event; in length mode the armed line, or the
expected start once the high-water mark has reached it. -/
def State.refPageStart (s : State) : State :=
  if !s.on REF_CTL_EN || !s.inRun then s
  else match s.ref.ready with
    | p :: ps => { s with ref := { s.ref with ready := ps } }.declarePage p
    | [] =>
      if s.pageSrc ≠ 2 || s.pwr.drain then s
      else match s.ref.armed, s.ref.exact with
        | some a, _ =>
          if a ≤ s.tick.hw then
            { s with ref := { s.ref with armed := none, exact := some (a * 65536 + s.pageLen) } }.declarePage a
          else s
        | none, some q =>
          if nearStart q ≤ s.tick.hw then
            { s with ref := { s.ref with exact := some (q + s.pageLen) } }.declarePage (nearStart q)
          else s
        | none, none => s

/-- PAGE_START: a page start is declared. -/
def execPageStart (s : State) : Host.Outcome State Fault Refusal := .next s.refPageStart

/-- MARK_MISS: the deadline of R184 has passed. -/
def execMarkMiss (s : State) : Host.Outcome State Fault Refusal := .next (if s.inRun then s.refMarkMiss else s)

/-- PRESS_PAGE_EVENT: the oldest occurrence at REF_PAGE is taken. -/
def execPressPageEvent (s : State) : Host.Outcome State Fault Refusal := .next (s.whenLive (·.refPress))

/-- FIRST_LINE_ARM: a write of REF_FIRST_HI. -/
def execFirstLineArm (m : Master) (v : Word) (s : State) : Host.Outcome State Fault Refusal :=
  .next (s.guardWrite m .REF_FIRST_HI 0 (·.refFirstHi v))

/-! ### Commands and the check at EN (R185, R192, R198, R199) -/

/-- The window of a tracker begins anew with the next generation; its rates are 0 (R197, R198). -/
def Tracker.renew (t : Tracker) : Tracker :=
  { t with mdR := 0, cdR := 0, kR := 0, gen := (t.gen + 1) % 256, runs := 0, left := {}, right := {}, left2 := {}, due := false }

/-- md or cd as written, and k as written. -/
def q16 (v : Word) : Rat := (v.toInt : Rat) / 65536
def q30 (v : Word) : Rat := (v.toNat : Rat) / 1073741824

/-- A write of a REF_TRK register: 0 md, 1 cd, 2 k (R198). -/
def State.trkWrite (s : State) (e which : Nat) (v : Word) : State :=
  let s := s.setReg (if which = 0 then .REF_TRK_MD else if which = 1 then .REF_TRK_CD else .REF_TRK_K) e v
  s.updTrk e fun t =>
    { t.renew with
      md := if which = 0 then q16 v else t.md
      cd := if which = 1 then q16 v else t.cd
      k := if which = 2 then q30 v else t.k }

/-- RESET: every tracker takes the written values (R198). -/
def State.trkReset (s : State) : State :=
  (List.range 16).foldl (fun s e => s.updTrk e fun t =>
    { t.renew with md := q16 (s.reg .REF_TRK_MD e), cd := q16 (s.reg .REF_TRK_CD e), k := q30 (s.reg .REF_TRK_K e) }) s

/-- DROP: the oldest queued descriptor and its rows (R185); rows are freed in index order, so later ones wait (R182). -/
def State.refDrop (s : State) : State :=
  match s.ref.queue with
  | [] => s
  | q :: qs =>
    let freed := if q.qp ≤ s.ref.freed then max s.ref.freed (q.qp + q.len) else s.ref.freed
    { s with ref := { s.ref with queue := qs, freed := freed } }.refGrant

/-- A write of REF_CMD. -/
def State.refCmdWrite (s : State) (v : Word) : State :=
  let s := if v.getLsbD 0 then s.refDrop else s
  if v.getLsbD 1 then s.trkReset else s

/-- PLEN fails the page-length check (R192). -/
def State.plenBad (s : State) : Bool := s.pageSrc != 1 && decide (s.pageLen < 65536)

/-- A write of REF_CTL: its fields in Hold, then the checks of R192 when EN is written 1, and the start of REF's job. -/
def State.refCtlWrite (s : State) (v : Word) : State :=
  let s := s.regStore .REF_CTL 0 v
  if !s.inHold || !v.getLsbD 0 then s
  else
    let s := s.setFld REF_CTL_EN 0 0
    match s.enginesInUse.find? fun e => !s.refEngineOk e with
    | some e =>
      ((s.setFld REF_RES_RESULT 0 rRANGE).setFld REF_RES_ENG 0 e).setFld REF_RES_PLEN_ERR 0 0
    | none =>
      let s := s.setFld REF_RES_ENG 0 0
      if s.plenBad then (s.setFld REF_RES_RESULT 0 rRANGE).setFld REF_RES_PLEN_ERR 0 1
      else
        let s := ((s.setFld REF_RES_RESULT 0 rOK).setFld REF_RES_PLEN_ERR 0 0).setFld REF_CTL_EN 0 1
        { s with ref := { s.ref with
            pages := [], exact := none, last := none, count := 0, ready := [], press := [], barred := [] } }

/-- DESCRIPTOR_DROP: a write of DROP to REF_CMD. -/
def execDescriptorDrop (m : Master) (v : Word) (s : State) : Host.Outcome State Fault Refusal :=
  .next (s.guardWrite m .REF_CMD 0 (·.refCmdWrite (v ||| 1)))

/-- TRACKER_RESET: a write of RESET to REF_CMD. -/
def execTrackerReset (m : Master) (v : Word) (s : State) : Host.Outcome State Fault Refusal :=
  .next (s.guardWrite m .REF_CMD 0 (·.refCmdWrite (v ||| 2)))

/-- TRACKER_WRITE: a write of REF_TRK_MD, REF_TRK_CD or REF_TRK_K of stripe e. -/
def execTrackerWrite (m : Master) (e : Fin 16) (which : Fin 3) (v : Word) (s : State) : Host.Outcome State Fault Refusal :=
  .next (s.guardWrite m (if which = 0 then .REF_TRK_MD else if which = 1 then .REF_TRK_CD else .REF_TRK_K) e
    (·.trkWrite e which v))

/-- REF_ENABLE: a write of REF_CTL with EN = 1. -/
def execRefEnable (m : Master) (v : Word) (s : State) : Host.Outcome State Fault Refusal :=
  .next (s.guardWrite m .REF_CTL 0 (·.refCtlWrite (v ||| 1)))

/-! ### Prefetch (R189, R190) -/

/-- The page that holds reference row k. -/
def State.rowPage (s : State) (k : Nat) : Option RefPage :=
  (s.ref.queue ++ s.ref.pages).find? fun p => decide (p.qp ≤ k) && decide (k < p.qp + p.len)

/-- The lowest row of a ring that the runs of its engine may still read: those started or queued, and the next one; where no page
applies to them, the first row past the declared pages that is not freed. -/
def State.rowBase (s : State) (e : Nat) (p : Prog) (r : Ring) : Nat :=
  let next := (s.refRow e p (s.nowTick - s.depth + 1)).map fun (q : Int) => q + s.fld REF_CTL_LEAD - r.rmax
  match (next.toList.foldl rowMin (s.lowRow e p r)) with
  | some a => a.toNat
  | none => (s.ref.pages.map fun p => p.qp + p.len).foldl max s.ref.freed

/-- A read of a row of REF's ring would be answered with its data now (R266): a row that cannot be read is not ready (R190). -/
def State.rowReads (s : State) (e k : Nat) : Bool :=
  let n := 4 * s.fld REF_EWIN_ECOUNT e
  (memParts (n / 4096 + 2) (s.refAddr k (s.fld REF_EWIN_EFIRST e)) n).all fun (a, n) =>
    match s.region a n with
    | .cxl d =>
      let (p, _) := s.decMap d a
      (s.access 17 (17 + d) (a - s.decBase d) n .r).1 && !s.decFrozen d && !s.poisonHit p a n false
        && ((s.cxlp p).st == .up || (s.cxlp p).st == .l1)
    | _ => false

/-- Rows of a ring's window that are ready and neither in their slot nor being read, in index order, with their pages; `again`:
rows whose read has failed and would fail again stand behind the others, and only then. -/
def State.rowsWanted (s : State) (e : Nat) (p : Prog) (r : Ring) (again : Bool) : List (Nat × RefPage) :=
  ((List.range r.depth).map (s.rowBase e p r + ·)).filterMap fun k =>
    (s.rowPage k).bind fun pg =>
      let at_ := stripeBase e + r.hdrOfs (s.refSlot r k)
      if s.ref.freed ≤ k && s.bandOk pg ((k - pg.qp) / 64) && !s.refHolds e r k pg.id
        && !(s.ref.fills.any fun f => f.hdrAt == at_) && (s.ref.missed.contains (at_, k) && !s.rowReads e k) == again
      then some (k, pg) else none

/-- The row of a ring that REF fills next: the lowest ready one, else one that failed, the longest ago first. -/
def State.rowWanted (s : State) (e : Nat) (p : Prog) (r : Ring) : Option (Nat × RefPage) :=
  (s.rowsWanted e p r false).head?.orElse fun _ =>
    let old := s.rowsWanted e p r true
    s.ref.missed.findSome? fun m => old.find? fun x => m == (stripeBase e + r.hdrOfs (s.refSlot r x.1), x.1)

/-- The 32-byte header of a reference row (R190). -/
def State.rowHeader (s : State) (e k : Nat) (pg : RefPage) : List Byte :=
  leBytes 4 (k % 2 ^ 32) ++ leBytes 4 pg.id ++ leBytes 4 (k - pg.qp) ++ leBytes 4 (if k = pg.qp then 3 else 1)
    ++ leBytes 4 (s.fld REF_EWIN_EFIRST e) ++ leBytes 2 (s.fld REF_EWIN_ECOUNT e) ++ List.replicate 10 0

/-- A row that has been read enters its slot: the pixels, then the header (R190). -/
def State.rowPut (s : State) (f : RowFill) : State :=
  let s := { s with ref := { s.ref with
    fail := s.ref.fail.filter (·.1 != f.eng), missed := s.ref.missed.filter (· != (f.hdrAt, f.row)) } }
  let (res, s) := s.busWrite 17 f.slotAt f.pixels
  if res = rOK then (s.busWrite 17 f.hdrAt f.hdr).2 else s

/-- A read for a ring of engine e failed: its row is not ready, and where a CXL port refused it the stripe is charged to the port
(R190, R268). -/
def State.rowFailed (s : State) (e hdrAt k : Nat) (port : Option Nat) : State :=
  { s with ref := { s.ref with
      missed := s.ref.missed.filter (· != (hdrAt, k)) ++ [(hdrAt, k)]
      fail := match port with
        | some p => put p s.ref.fail e
        | none => s.ref.fail } }

/-- Row k of a page is read for its slot of a ring, and put there once its data has come (R190, R266). -/
def State.rowFill (s : State) (e : Nat) (r : Ring) (k : Nat) (pg : RefPage) : State :=
  let a := s.refAddr k (s.fld REF_EWIN_EFIRST e)
  let i := s.refSlot r k
  let at_ := stripeBase e + r.hdrOfs i
  let (res, bs, s) := s.busRead 17 a (4 * s.fld REF_EWIN_ECOUNT e)
  if res ≠ rOK then
    (s.tagNew 17 9 0).rowFailed e at_ k (if res = rERROR ∨ res = rFROZEN then s.refusedPort a else none)
  else
    let f : RowFill :=
      { eng := e, id := pg.id, row := k, slotAt := stripeBase e + r.slotOfs i, hdrAt := at_, pixels := bs, hdr := s.rowHeader e k pg }
    let s := s.tagNew 17 at_ k
    if s.tagWaits 17 (· == (at_, k)) then { s with ref := { s.ref with fills := s.ref.fills ++ [f] } } else s.rowPut f

/-- The data of a row has come: it enters its slot where the slot and the row are still those (R266). -/
def State.rowArrived (s : State) (f : RowFill) : State :=
  let s := { s with ref := { s.ref with fills := s.ref.fills.filter (· != f) } }
  let slot := ((s.eng f.eng).prog.toList.flatMap Prog.refRings).any fun r =>
    stripeBase f.eng + r.hdrOfs (s.refSlot r f.row) == f.hdrAt && stripeBase f.eng + r.slotOfs (s.refSlot r f.row) == f.slotAt
  let live := decide (s.ref.freed ≤ f.row) && (s.rowPage f.row).any (·.id == f.id)
  if s.on REF_CTL_EN && s.refMode && slot && live then s.rowPut f else s

/-- REF fills the lowest row that a reference ring of engine e still wants (R190). -/
def State.refPrefetch (s : State) (e : Nat) : State :=
  if !s.on REF_CTL_EN || !s.refMode || s.ref.barred.contains e then s
  else match (s.eng e).prog with
    | none => s
    | some p =>
      let wants := p.refRings.filterMap fun r => (s.rowWanted e p r).map fun w => (r, w)
      match sortBy (fun a b => decide (a.2.1 ≤ b.2.1)) wants with
      | [] => s
      | (r, k, pg) :: _ => s.rowFill e r k pg

/-- ROW_PREFETCH: REF writes a row into engine e's reference ring. -/
def execRowPrefetch (e : Fin 16) (s : State) : Host.Outcome State Fault Refusal := .next (s.whenLive (·.refPrefetch e))

/-! ### Registration (R195–R198) -/

/-- Square root of a nonnegative integer, to 64 binary places (log 3). -/
def sqrtRat (x : Nat) : Rat := (isqrt (x * 2 ^ 128) : Rat) / ((2 ^ 64 : Nat) : Rat)

/-- The correlation of one shift (R196). -/
def RegSums.corr (g : RegSums) (k : Nat) : Rat :=
  let x := fun (i : Nat) => (g.sums.getD (4 * k + i) 0 : Int)
  let root : Int := g.n * x 1 - x 3 * x 3
  if root ≤ 0 then 0 else ((g.n * x 0 - x 2 * x 3 : Int) : Rat) / sqrtRat root.toNat

/-- The peak of a set of sums; of equal correlations a free one (log 1). -/
def RegSums.peak (g : RegSums) (free : Nat) : Nat :=
  let cs := (List.range 25).map g.corr
  let top := cs.foldl (fun a c => if a < c then c else a) (cs.headD 0)
  let at_ := (List.range 25).filter fun k => cs.getD k 0 == top
  at_.getD (free % max 1 at_.length) 0

/-- One axis at the peak: measured offset, quality, on the border. The offset of an axis whose interpolation R196 does not
define (a peak on the border, a flat peak) is a free value (log 1). -/
def RegSums.axis (g : RegSums) (k step pos free : Nat) : Rat × Rat × Bool :=
  let s0 : Rat := ((pos : Int) - 2 : Int)
  let any : Rat := ((free % 65536 : Nat) : Rat) / 65536 - 1 / 2
  if pos = 0 ∨ pos = 4 then (s0 + any, 0, true)
  else
    let c := g.corr k
    let m := g.corr (k - step)
    let p := g.corr (k + step)
    let d := m - 2 * c + p
    (if d = 0 then s0 + any else s0 + (m - p) / (2 * d), if c ≤ 0 then 0 else (2 * c - m - p) / (2 * c), false)

/-- One quantity of the filter (R197): new value, new rate, clamped. -/
def trkStep (x rate z alpha beta mid lim : Rat) : Rat × Rat × Bool :=
  let xp := x + rate
  let r := z - xp
  let y := xp + alpha * r
  if y < mid - lim then (mid - lim, 0, true)
  else if mid + lim < y then (mid + lim, 0, true)
  else (y, rate + beta * r, false)

/-- A window of NREG runs is evaluated (R196–R198). -/
def State.trkUpdate (s : State) (e : Nat) : State :=
  let t := s.trk e
  if !t.due then s
  else
    let q16th := fun (n : Nat) => (n : Rat) / 65536
    let all := if t.right.sums.isEmpty then t.left else t.left.add t.right
    let k := all.peak s.free
    let s := s.drawn
    let (dx, qx, bx) := all.axis k 1 (k % 5) s.free
    let s := s.drawn
    let (dy, qy, by_) := all.axis k 5 (k / 5) s.free
    let s := s.drawn
    let s := (s.raiseIf bx REF_STAT_REG_EDGE).raiseIf by_ REF_STAT_REG_EDGE
    let q := if qx < qy then qx else qy
    let fresh := { t with q := q, runs := 0, left := {}, right := {}, left2 := {}, due := false }
    if q < q16th (s.fld REF_Q_QMIN) then
      let s := s.raiseIf (!t.lt) REF_STAT_LOW_TEXTURE
      s.updTrk e fun _ => { fresh with lt := true, mdR := 0, cdR := 0, kR := 0 }
    else
      let alpha := q16th (s.fld REF_AB_ALPHA)
      let beta := q16th (s.fld REF_AB_BETA)
      let (md, mdR, mdC) := trkStep t.md t.mdR (t.md + dy / s.rs) alpha beta 0 (s.fld REF_LIM_MD : Rat)
      let (cd, cdR, cdC) := trkStep t.cd t.cdR (t.cd + dx) alpha beta 0 (s.fld REF_LIM_CD : Rat)
      let w : Rat := s.stripeWidth e
      let halves := !t.right.sums.isEmpty && !t.left2.sums.isEmpty && w != 0
      let kl := t.left2.peak s.free
      let s := s.drawn
      let (dl, ql, bl) := t.left2.axis kl 1 (kl % 5) s.free
      let s := s.drawn
      let kr := t.right.peak s.free
      let s := s.drawn
      let (dr, qr, br) := t.right.axis kr 1 (kr % 5) s.free
      let s := s.drawn
      let s := (s.raiseIf (halves && bl) REF_STAT_REG_EDGE).raiseIf (halves && br) REF_STAT_REG_EDGE
      let useK := halves && !decide (ql < q16th (s.fld REF_Q_QMIN)) && !decide (qr < q16th (s.fld REF_Q_QMIN))
      let (kk, kR, kC) := if useK then
          trkStep t.k t.kR (t.k + (dr - dl) / (w / 2)) alpha beta 1 ((s.fld REF_LIM_SC : Rat) / 1000000)
        else (t.k, t.kR, false)
      let s := ((s.raiseIf mdC REF_STAT_REG_LIMIT).raiseIf cdC REF_STAT_REG_LIMIT).raiseIf kC REF_STAT_REG_LIMIT
      s.updTrk e fun _ => { fresh with
        lt := t.lt && decide (q < q16th (s.fld REF_Q_QHI))
        md := md, mdR := mdR, cd := cd, cdR := cdR, k := kk, kR := kR, gen := (t.gen + 1) % 256 }

/-- REGISTRATION_UPDATE: REF evaluates the window of stripe e. -/
def execRegistrationUpdate (e : Fin 16) (s : State) : Host.Outcome State Fault Refusal := .next (s.whenLive (·.trkUpdate e))

end Sys2Proof.Machine
end

