-- ==== Sys2Proof/Machine/Sillage.lean ====
section
/-!
DEFINITION. Sys2Proof/Machine/Sillage.lean: the Base Note: adjacency, regions, closing, features, the classifier, hand-over to
RPT, and the seams of an array (R200–R217, R247–R249).
-/
namespace Sys2Proof.Machine

/-! ### Settings -/

/-- BRIDGE_L, BRIDGE_X and G (R203, R208, R247). -/
def State.bridgeL (s : State) : Nat := min 4 (s.fld SIL_CONN_BRIDGE_L)
def State.bridgeX (s : State) : Nat := min 8 (s.fld SIL_CONN_BRIDGE_X)
def State.silSpan (s : State) : Bool := s.on SIL_CTL_SPAN_EN
def State.closeGap (s : State) : Nat :=
  max (max 1 (s.fld SIL_CONN_CLOSE_GAP)) (s.bridgeL + if s.silSpan then 3 else 1)

/-- Contexts in the table of the shared pool. -/
def silSlots : Nat := 16384

/-- The device's chip id in a region id (R205). -/
def idChip (id : Nat) : Nat := id / 2 ^ 30

/-- Page id of the page at line f (R188, R207). -/
def State.pageIdAt (s : State) (f : Int) : Nat :=
  if s.on REF_CTL_EN then ((s.pageAt f).map (·.id)).getD 0xFFFFFFFF else 0xFFFFFFFF

/-! ### Region arithmetic (R207) -/

/-- Saturate to an unsigned and to a signed 32-bit number; whether it did. -/
def sumU (x : Int) : Nat × Bool := (clampInt 0 0xFFFFFFFF x |>.toNat, decide (x < 0) || decide (0xFFFFFFFF < x))
def sumS (x : Int) : Int × Bool := (clampInt (-2147483648) 2147483647 x, decide (x < -2147483648) || decide (2147483647 < x))

/-- Add to the sums of a region: count, four feature sums, Σ(x − x_ref), Σ(m − f), and the sums of their squares. -/
def Region.add (r : Region) (n : Int) (sums : List Int) (sx sm sxx smm : Int) : Region :=
  let c := sumU (r.count + n)
  let fs := List.zipWith (fun a b => sumS (a + b)) r.sums sums
  let a := sumS (r.sx + sx)
  let b := sumU (r.sm + sm)
  let d := sumU (r.sxx + sxx)
  let e := sumU (r.smm + smm)
  { r with
    count := c.1, sums := fs.map (·.1), sx := a.1, sm := b.1, sxx := d.1, smm := e.1
    sumSat := r.sumSat || c.2 || fs.any (·.2) || a.2 || b.2 || d.2 || e.2 }

/-- Σ i² over i = 0 … n, as a polynomial that also serves negative n. -/
def sumSq (n : Int) : Int := n * (n + 1) * (2 * n + 1) / 6

/-- A run joins a region. -/
def Region.join (r : Region) (m : Int) (q : RunRec) : Region :=
  let a : Int := q.first
  let b : Int := q.last
  let k := b - a + 1
  let d0 := a - r.xref
  let d1 := b - r.xref
  let dm := m - r.f
  let r := r.add k q.sums ((d0 + d1) * k / 2) (k * dm) (sumSq d1 - sumSq (d0 - 1)) (k * dm * dm)
  { r with
    peak := max r.peak (min 0xFFFF q.peak), xmin := min r.xmin a, xmax := max r.xmax b, last := max r.last m
    runOvf := r.runOvf || q.ovf, blind := r.blind || q.cutL || q.cutR
    units := r.units ||| (if q.unit = 0 then 1 else 2), user := r.user ||| q.user }

/-- Another context is added, its moments rereferenced exactly (R204, R207). A first line that lies earlier than the
survivor's becomes its first line (DEDUCED, log 25). -/
def Region.absorb (r o : Region) : Region :=
  let f := min r.f o.f
  let shift := fun (x : Region) =>
    let n : Int := x.count
    let dm := x.f - f
    let dx := x.xref - r.xref
    (n, x.sums, x.sx + n * dx, (x.sm : Int) + n * dm, (x.sxx : Int) + 2 * dx * x.sx + n * dx * dx,
      (x.smm : Int) + 2 * dm * x.sm + n * dm * dm)
  let zero : Region := { r with count := 0, sums := [0, 0, 0, 0], sx := 0, sm := 0, sxx := 0, smm := 0 }
  let put := fun (z : Region) (x : Region) =>
    let (n, sums, sx, sm, sxx, smm) := shift x
    z.add n sums sx sm sxx smm
  let z := put (put zero r) o
  { z with
    f := f, page := if o.f < r.f then o.page else r.page, last := max r.last o.last
    xmin := min r.xmin o.xmin, xmax := max r.xmax o.xmax, peak := max r.peak o.peak
    runOvf := r.runOvf || o.runOvf, blind := r.blind || o.blind, long := r.long || o.long, merged := r.merged || o.merged
    chip := r.chip || o.chip, sumSat := z.sumSat || o.sumSat, units := r.units ||| o.units, user := r.user ||| o.user }

/-- A saturation region. -/
def Region.isSat (r : Region) : Bool := match r.slot with
  | .sat _ => true
  | .ctx _ => false

/-- The flags of a context (R207). -/
def Region.flags (r : Region) : Nat :=
  r.runOvf.toNat + 2 * r.blind.toNat + 4 * r.isSat.toNat + 8 * r.long.toNat + 16 * r.merged.toNat + 32 * r.chip.toNat
    + 64 * r.sumSat.toNat + 256 * r.units + 1024 * r.user

/-- Bytes 0–31 of a context; `hi` fills bits 31:18 of bytes 16–19 (R207). Pixel fields past 262,143 read 262,143 (R248). -/
def Region.head (r : Region) (hi : Nat) : List Byte :=
  let px := fun (x : Int) => (clampInt 0 262143 x).toNat
  leBytes 4 r.id ++ leBytes 4 r.page ++ leBytes 6 (ofSigned 48 r.f) ++ leBytes 2 (ofSigned 16 r.last)
    ++ leBytes 4 (px r.xmin + 2 ^ 18 * (hi % 2 ^ 14)) ++ leBytes 4 (px r.xmax) ++ leBytes 4 r.count
    ++ leBytes 2 r.peak ++ leBytes 2 r.flags

/-- The 64 bytes of a context. -/
def Region.bytes (r : Region) (hi : Nat) : List Byte :=
  r.head hi ++ r.sums.flatMap (fun x => leBytes 4 (ofSigned 32 x)) ++ leBytes 4 (ofSigned 32 r.sx) ++ leBytes 4 r.sm
    ++ leBytes 4 r.sxx ++ leBytes 4 r.smm

/-! ### The region store -/

/-- An open region by its id. -/
def State.regionOf (s : State) (id : Nat) : Option Region := s.sil.regions.find? (·.id == id)

/-- Change an open region. -/
def State.updRegion (s : State) (id : Nat) (f : Region → Region) : State :=
  { s with sil := { s.sil with regions := s.sil.regions.map fun r => if r.id = id then f r else r } }

/-- A region leaves the store; its context is free from the next line (R206). -/
def State.dropRegion (s : State) (r : Region) : State :=
  { s with sil := { s.sil with
      regions := s.sil.regions.filter fun x => x.id != r.id
      links := s.sil.links.filter fun l => l.1 != r.id
      freedNow := match r.slot with
        | .ctx i => i :: s.sil.freedNow
        | .sat _ => s.sil.freedNow } }

/-- Contexts of the table that no region holds and that were not freed on this line. -/
def State.silUsed (s : State) : List Nat :=
  s.sil.freedNow ++ s.sil.regions.filterMap fun r => match r.slot with
    | .ctx i => some i
    | .sat _ => none

/-- A free context: which one is not stated, a free value picks (log 1). -/
def State.silSlot (s : State) : Option Slot :=
  let used := s.silUsed
  let n := silSlots - used.length
  if n = 0 then none
  else some (.ctx ((((List.range silSlots).filter fun i => !used.contains i)).getD (s.free % n) 0))

/-- The next region id (R205). -/
def State.silId (s : State) : Nat × State :=
  let c := s.sil.counter
  (s.span.chip * 2 ^ 30 + c, { s with sil := { s.sil with counter := if c = 0x3FFFFFFF then 1 else c + 1 } })

/-- An empty region whose first run begins at pixel a of line m. -/
def newRegion (slot : Slot) (id page : Nat) (m a b : Int) : Region :=
  { slot := slot, id := id, page := page, f := m, last := m, xmin := a, xmax := b, xref := a, count := 0, peak := 0
    sums := [0, 0, 0, 0], sx := 0, sm := 0, sxx := 0, smm := 0 }

/-- Stripe that holds an output pixel. -/
def State.stripeOf (s : State) (x : Nat) (dflt : Nat) : Nat :=
  (((List.range 16).find? fun e =>
    decide (s.stripeStart e ≤ x) && decide (x < s.stripeStart e + s.stripeWidth e))).getD dflt

/-- A region is opened for a run, or the saturation region of its stripe found or opened (R204, R210): its id. -/
def State.silOpen (s : State) (m : Int) (q : RunRec) : Nat × State :=
  let a : Int := q.first
  let b : Int := q.last
  match s.silSlot with
  | some slot =>
    let s := s.drawn
    let (id, s) := s.silId
    (id, { s with sil := { s.sil with regions := s.sil.regions ++ [newRegion slot id (s.pageIdAt m) m a b] } })
  | none =>
    let e := s.stripeOf q.first q.eng
    match s.sil.regions.find? fun r => r.slot == .sat e with
    | some r => (r.id, s)
    | none =>
      let (id, s) := (s.raise SIL_STAT_SATURATED).silId
      (id, { s with sil := { s.sil with regions := s.sil.regions ++ [newRegion (.sat e) id (s.pageIdAt m) m a b] } })

/-- A region stands before another as the survivor of a merge (R204). -/
def Region.before (a b : Region) : Bool := decide (a.f < b.f) || (a.f == b.f && decide (a.id < b.id))

/-- Merge local regions into one survivor (R204, R211): its id. -/
def State.silMerge (s : State) (ids : List Nat) : Nat × State :=
  let rs := ids.filterMap s.regionOf
  let pool := if rs.any Region.isSat then rs.filter Region.isSat else rs
  match pool with
  | [] => (0, s)
  | p :: ps =>
    let top := ps.foldl (fun a b => if b.before a then b else a) p
    let others := rs.filter (·.id != top.id)
    let s := others.foldl (fun s o =>
      let s := s.updRegion top.id fun r => { r.absorb o with merged := true }
      let s := { s with sil := { s.sil with
          kept := s.sil.kept.map fun (k : KeptRun) => if k.region = o.id then { k with region := top.id } else k
          links := (s.sil.links.map fun (l : Nat × Nat × Nat) => if l.1 = o.id then (top.id, l.2) else l).eraseDups } }
      (s.dropRegion o).count .SIL_MERGE_CNT 0 1 0xFFFFFFFF) s
    (top.id, s)

/-! ### Adjacency (R203, R209) -/

/-- Pixel gap of two runs. -/
def gapX (a b c d : Int) : Int := max 0 (max (a - d - 1) (c - b - 1))

/-- Some line strictly between two lines has a blind range over the columns. -/
def State.silBlindBetween (s : State) (m k lo hi : Int) : Bool :=
  s.sil.blind.any fun (l, rs) => decide (min m k < l) && decide (l < max m k) &&
    rs.any fun (x, y) => decide ((x : Int) ≤ hi) && decide (lo ≤ (y : Int))

/-- A run of pixels a–b on line m lies as near to a kept run as R203 asks. -/
def State.silClose203 (s : State) (m a b : Int) (k : KeptRun) : Bool :=
  decide (gapX a b k.first k.last ≤ (s.bridgeX : Int)) && decide ((m - k.line).natAbs ≤ s.bridgeL + 1)

/-- A blind line between them keeps a run and a kept run from joining (R209). -/
def State.silCut (s : State) (m a b : Int) (k : KeptRun) : Bool := s.silBlindBetween m k.line (min a k.first) (max b k.last)

/-- A run of pixels a–b on line m is adjacent to a kept run (R203, R209). -/
def State.silAdjacent (s : State) (m a b : Int) (k : KeptRun) : Bool := s.silClose203 m a b k && !s.silCut m a b k

/-- Regions of the kept runs adjacent to a run, and the local regions that connect through a neighbour's (R248). -/
def State.silTouch (s : State) (m a b : Int) : List Nat × List Nat :=
  let ids := ((s.sil.kept.filter (s.silAdjacent m a b)).map (·.region)).eraseDups
  let remote := ids.filter fun i => idChip i != s.span.chip
  let linked := (s.sil.links.filter fun l => remote.contains l.2.1).map (·.1)
  (((ids.filter fun i => idChip i == s.span.chip) ++ linked).eraseDups.filter fun i => (s.regionOf i).isSome, remote)

/-- Link a local region to a neighbour's region; both carry CHIP_SEAM (R216, R248). -/
def State.silLink (s : State) (id remote port : Nat) : State :=
  let s := s.updRegion id fun r => { r with chip := true }
  if s.sil.links.contains (id, remote, port) then s
  else { s with sil := { s.sil with links := s.sil.links ++ [(id, remote, port)] } }

/-- Port over which a neighbour's region came: the seam whose neighbour carries that chip id. -/
def State.silPortOf (s : State) (remote : Nat) : Nat := if s.fld SPAN_NB_CHIPID 0 = idChip remote then 0 else 1

/-- A run of line m that a blind line keeps from joining others: its region and theirs carry BLIND_ADJ (R209). -/
def State.silCutFlags (s : State) (m a b : Int) (id : Nat) : State :=
  let others := (s.sil.kept.filter fun k => s.silClose203 m a b k && s.silCut m a b k && k.region != id).map (·.region)
  if others.isEmpty then s
  else (id :: others).foldl (fun s i => s.updRegion i fun r => { r with blind := true }) s

/-- A run of pixels a–b continues a run that blind lines cut off (R209). -/
def State.silCarried (s : State) (a b : Int) : Bool :=
  s.sil.carry.any fun (c, d, _, cut) => cut && decide (gapX a b c d ≤ (s.bridgeX : Int))

/-- A local run of line m (R204). A run that continues a cut region gives the region it joins BLIND_ADJ (R209). -/
def State.silRun (s : State) (m : Int) (q : RunRec) : State :=
  let a : Int := q.first
  let b : Int := q.last
  let (ids, remote) := s.silTouch m a b
  let (id, s) := match ids with
    | [] => s.silOpen m q
    | [i] => (i, s)
    | _ => s.silMerge ids
  let s := (s.updRegion id fun r => { r.join m q with blind := (r.join m q).blind || s.silCarried a b }).silCutFlags m a b id
  let s := remote.foldl (fun s r => s.silLink id r (s.silPortOf r)) s
  { s with sil := { s.sil with kept := s.sil.kept ++ [{ line := m, first := a, last := b, region := id }] } }

/-- A neighbour's run of line m joins the local runs already processed; the local regions that its region connects are one
(R247, R248). -/
def State.silSeamRun (s : State) (m : Int) (q : SeamRun) : State :=
  let (ids, _) := s.silTouch m q.first q.last
  let same := (s.sil.links.filter fun l => l.2.1 == q.region).map (·.1)
  let all := if ids.isEmpty then [] else (ids ++ same).eraseDups
  let (id, s) := match all with
    | [] => (none, s)
    | [i] => (some i, s)
    | _ => let (i, s) := s.silMerge all; (some i, s)
  let s := match id with
    | some i => s.silLink i q.region q.port
    | none => s
  { s with sil := { s.sil with
      kept := s.sil.kept ++ [{ line := m, first := q.first, last := q.last, region := q.region }] } }

/-- A neighbour's context is added to its owner (R248). -/
def State.silAddCtx (s : State) (remote owner : Nat) (c : Region) : State :=
  let owners := (s.sil.links.filter fun l => l.2.1 == remote).map (·.1)
  let id := if owners.contains owner then owner else owners.headD owner
  let s := s.updRegion id fun r => { r.absorb c with chip := true }
  { s with sil := { s.sil with links := s.sil.links.filter fun l => l.2.1 != remote } }

/-! ### Features and classes (R212, R213) -/

/-- Saturate to a signed 16-bit number. -/
def sat16i (x : Int) : Int := clampInt (-32768) 32767 x

/-- ⌊16 × √(q ÷ n − (p ÷ n)²)⌋, none where saturated sums leave no root. -/
def spread (n : Nat) (p : Int) (q : Nat) : Option Int :=
  let v : Int := (n : Int) * q - p * p
  if v < 0 then none else some ((isqrt (256 * v.toNat) / max 1 n : Nat) : Int)

/-- The 16 features. `w` is f1's deviation, within ±1; `any` stands where R212 names no value. -/
def Region.features (r : Region) (w any : Int) : List Int :=
  let n := max 1 r.count
  let f2 := sat16i (r.last - r.f + 1)
  let f3 := sat16i (r.xmax - r.xmin + 1)
  let flag := fun (b : Bool) => if b then (4096 : Int) else 0
  ([4096, (Nat.log2 (n ^ 256) : Int) + w, f2, f3, (r.peak : Int)] ++ r.sums.map (fun x => x.tdiv n)
    ++ [4096 * (n : Int) / (f2 * f3), (spread n r.sx r.sxx).getD any, (spread n r.sm r.smm).getD any,
      flag r.blind, flag r.runOvf, flag (r.user.testBit 0), flag (r.user.testBit 1)]).map sat16i

/-- Weight i of class k in a bank: word k × 8 + i ÷ 2. -/
def State.silWeight (s : State) (bank k i : Nat) : Int :=
  let w := look 0 s.sil.w (bank, k * 8 + i / 2)
  toSigned 16 (if i % 2 = 0 then w else w / 65536)

/-- Scores of the classes, 0 for a disabled one. -/
def State.silScores (s : State) (f : List Int) : List Int :=
  let bank := s.fld SIL_WSWAP_ACTIVE
  (List.range 16).map fun k =>
    if (s.fld SIL_CLS_CLSEN).testBit k then
      sat16i (((f.zipIdx.map fun (x, i) => s.silWeight bank k i * x).foldl (· + ·) 2048) / 4096)
    else 0

/-- Class, its score and the margin: the enabled class with the largest score, of equals the lower. -/
def State.silClass (s : State) (scores : List Int) : Nat × Int × Nat :=
  let en := (List.range 16).filter fun k => (s.fld SIL_CLS_CLSEN).testBit k
  let sc := fun (k : Nat) => scores.getD k 0
  let best := en.foldl (fun b k => if sc b < sc k then k else b) (en.headD 0)
  let rest := en.filter (· != best)
  let margin := match rest with
    | [] => 32767
    | k :: ks => (sc best - ks.foldl (fun a k => max a (sc k)) (sc k)).toNat
  (if margin < s.fld SIL_CLS_MARGIN then 0xFF else best, sc best, min 0xFFFF margin)

/-- Hand a region to RPT as of line m (R213, R215). -/
def State.silHand (s : State) (m : Int) (r : Region) (typ : Nat) (final : Bool) : State :=
  let w : Int := ((s.free % 3 : Nat) : Int) - 1
  let s := s.drawn
  let f := r.features w (toSigned 16 s.free)
  let s := if (spread (max 1 r.count) r.sx r.sxx).isNone || (spread (max 1 r.count) r.sm r.smm).isNone then s.drawn else s
  let scores := s.silScores f
  let (cls, score, margin) := s.silClass scores
  if typ = 0 ∧ cls ≠ 0xFF ∧ (s.fld SIL_CLSSUP_SUP).testBit cls then s.count .SIL_SUP_CNT 0 1 0xFFFFFFFF
  else
    s.notice (m + s.depth + 2) (.region
      { typ := typ, region := r, scores := scores, cls := cls, score := score, margin := margin, seg := r.seg, final := final })

/-- A region closes on line m (R208, R211, R248): a subordinate sends its context to its owner, any other hands its entry. -/
def State.silClose (s : State) (m : Int) (r : Region) : State :=
  let s := s.count .SIL_CLOSE_CNT 0 1 0xFFFFFFFF
  match s.sil.links.find? fun l => l.1 == r.id && decide (idChip l.2.1 < s.span.chip) with
  | some (_, remote, port) =>
    (s.spanOpaque port 2 2 ([ofSigned 48 m, r.id, remote, ofSigned 48 r.last, ofSigned 32 r.xref]
      ++ (r.bytes 0).map (·.toNat))).dropRegion r
  | none =>
    let typ := if r.isSat then 2 else if r.long then 1 else 0
    (s.silHand m r typ (typ == 1)).dropRegion r

/-- A region still waits for a subordinate's context (R248). -/
def State.silWaits (s : State) (r : Region) : Bool :=
  s.sil.links.any fun l => l.1 == r.id && decide (s.span.chip < idChip l.2.1)

/-- A region is subordinate to a neighbour's (R248). -/
def State.silSub (s : State) (r : Region) : Bool := s.sil.links.any fun l => l.1 == r.id && decide (idChip l.2.1 < s.span.chip)

/-- LONG threshold and step (R211). -/
def State.longLen (s : State) : Int := (max 1 (s.fld SIL_LONGLEN_LINES) : Nat)
def State.longStep (s : State) : Int := (max 1 (s.fld SIL_LSTEP_LINES) : Nat)

/-- What the end of line m does with one region (R208, R211, R248). A subordinate hands RPT no entry, an interim one neither
(DEDUCED, log 119). -/
def State.silEndRegion (s : State) (m : Int) (id : Nat) : State :=
  match s.regionOf id with
  | none => s
  | some r =>
    let span := m - r.f + 1
    let becomes := !r.isSat && !r.long && decide (s.longLen ≤ span)
    let s := if becomes then (s.updRegion id fun r => { r with long := true }).raise SIL_STAT_LONG else s
    let r := if becomes then { r with long := true } else r
    if m - r.last ≥ s.closeGap ∧ !s.silWaits r then s.silClose m r
    else if r.long && !r.isSat && !s.silSub r && decide (s.longLen + r.seg * s.longStep ≤ span) then
      (s.silHand m r 1 false).updRegion id fun r => { r with seg := r.seg + 1 }
    else s

/-! ### Lines (R200–R202, R206, R209) -/

/-- Ids of the open regions, increasing. -/
def State.silIds (s : State) : List Nat := sortBy (fun a b => decide (a ≤ b)) (s.sil.regions.map (·.id))

/-- FULL_NOW (R210). -/
def State.silFull (s : State) : Bool := decide (silSlots ≤ s.silUsed.length)

/-- Open contexts of the table. -/
def State.silOpenCount (s : State) : Nat := (s.sil.regions.filter fun r => !r.isSat).length

/-- Sillage writes its open contexts to the table as master 18; bits 31:18 of bytes 16–19 are free values (R207). -/
def State.silStore (s : State) : State :=
  s.sil.regions.foldl (fun s r => match r.slot with
    | .ctx i => ((s.busWrite 18 (poolBase + s.fld SIL_CTXBASE_OFS + 64 * i) (r.bytes s.free)).2).drawn
    | .sat _ => s) s

/-- The next line to process: the lowest line ticked past the last one processed. -/
def State.silNext (s : State) : Option Int :=
  (s.tick.ticked.filterMap fun (a, b) =>
    let x := max a (s.sil.lastLine + 1)
    if x ≤ b then some x else none).foldl (fun (o : Option Int) x => some ((o.map (min x)).getD x)) none

/-- Engines whose entry for line n has not come. -/
def State.silMissing (s : State) (n : Int) : List Nat :=
  (List.range 16).filter fun e =>
    (s.fld SIL_ENGMASK_MASK).testBit e && !s.sil.eols.any fun x => x.eng == e && x.line == n

/-- Seam ports that Sillage waits for before line n: UP, and without the marker of line n − 2 (R247, R249). -/
def State.silSeamWait (s : State) (n : Int) : List Nat :=
  if !s.silSpan then []
  else [0, 1].filter fun p =>
    s.spanSeam p && (s.spanPort p).st == .up
      && !s.sil.seamEnd.contains (p, n - 2) && !s.sil.seamSkip.contains (p, n)

/-- Line n may start at the tick issued last (R200). -/
def State.silDue (s : State) (n : Int) : Bool := decide (n + s.depth + 1 ≤ s.nowTick)

/-- A run of line m lies at the edge a port faces (R216). -/
def State.silAtEdge (s : State) (p : Nat) (k : KeptRun) : Bool :=
  if p = 0 then decide (k.first ≤ (s.bridgeX : Int))
  else decide ((s.fld ACCORD_OUTW_OUTW : Int) - 1 - k.last ≤ (s.bridgeX : Int))

/-- The seam runs of line m and its line-end marker go to each neighbour (R247). -/
def State.silSendSeam (s : State) (m : Int) : State :=
  if !s.silSpan then s
  else ([0, 1].filter fun p => s.spanSeam p && (s.spanPort p).st == .up).foldl (fun s p =>
    let runs := s.sil.kept.filter fun k => k.line == m && idChip k.region == s.span.chip && s.silAtEdge p k
    s.spanOpaque p 2 1 (ofSigned 48 m :: runs.flatMap fun k => [ofSigned 18 k.first, ofSigned 18 k.last, k.region])) s

/-- A range lies within 1 + BRIDGE_X pixels of columns c–d (R209). -/
def State.silBlindNear (s : State) (rs : List (Nat × Nat)) (c d : Int) : Bool :=
  rs.any fun (x, y) => decide (gapX c d x y ≤ (s.bridgeX : Int))

/-- The end of line m: blind ranges, closes and interim entries, and what is kept for the next line. -/
def State.silEndLine (s : State) (m : Int) (blind : List (Nat × Nat)) : State :=
  let mark := fun (r : Region) => if s.silBlindNear blind r.xmin r.xmax then { r with blind := true } else r
  let s := { s with sil := { s.sil with regions := s.sil.regions.map mark } }
  let s := s.silIds.foldl (fun s id => s.silEndRegion m id) s
  let s := s.silSendSeam m
  let back : Int := (s.bridgeL : Int) + (if s.silSpan then 3 else 1)
  let carry := s.sil.carry.filterMap fun (c, d, g, cut) =>
    if s.silBlindNear blind c d then some (c, d, g, true) else if g < s.bridgeL then some (c, d, g + 1, cut) else none
  let new := (s.sil.kept.filter fun k => k.line == m && idChip k.region == s.span.chip).map fun k => (k.first, k.last, 0, false)
  let later := fun (q : RunRec) => let d := (q.line + 65536 - ofSigned 16 m) % 65536; decide (0 < d) && decide (d < 32768)
  let s := { s with sil := { s.sil with
      kept := s.sil.kept.filter fun k => decide (m - back < k.line)
      carry := carry ++ new, blind := ((m, blind) :: s.sil.blind).take 8
      runs := s.sil.runs.filter later, eols := s.sil.eols.filter fun x => decide (m < x.line)
      seam := s.sil.seam.filter fun x => decide (m - 2 < x.1), seamCtx := s.sil.seamCtx.filter fun x => decide (m - 2 < x.1)
      seamEnd := s.sil.seamEnd.filter fun x => decide (m - 2 < x.2), seamSkip := s.sil.seamSkip.filter fun x => decide (m < x.2)
      freedNow := [], lastLine := m } }
  s.silStore

/-- Lines before the job's first line and lines in CAL are not inspected (R25). -/
def State.inJob (s : State) (n : Int) : Bool := decide ((s.jobLine : Int) ≤ n) && s.zsp.job != .cal

/-- Sillage processes line n, with the stripes of `missing` engines blind (R200–R204, R247): each of those gives one record
(R200). A neighbour's runs of a line after which no line was processed here join now, and those of a line given up do not
(R249). -/
def State.silLine (s : State) (n : Int) (missing : List Nat) : State :=
  let s := if s.on SIL_WSWAP_PEND then
      (s.setFld SIL_WSWAP_ACTIVE 0 (1 - s.fld SIL_WSWAP_ACTIVE)).setFld SIL_WSWAP_PEND 0 0
    else s
  let s := missing.foldl (fun s _ => s.raise SIL_STAT_EOL_MISS) s
  let s := missing.foldl (fun s e =>
    let x := s.stripeExt e
    if s.reports n then s.collectEmit (blindLine 1 3 e n x.1 x.2) else s) s
  let eols := s.sil.eols.filter fun x => x.line == n
  let blind := (eols.flatMap (·.blind)) ++ missing.map s.stripeExt
  let runs := sortBy (fun a b => decide (a.first < b.first) || (a.first == b.first && decide (a.eng ≤ b.eng)))
    (s.sil.runs.filter fun q => q.line == ofSigned 16 n && !missing.contains q.eng)
  let s := (runs.filter fun q => q.user.testBit 3 && q.eng == s.fld REF_MARK_ENG).foldl (fun s _ => s.refMark n) s
  let given := fun (x : Int × SeamRun) => x.1 == n - 2 && s.sil.seamSkip.contains (x.2.port, n)
  let seam := sortBy (fun a b => decide (a.1 ≤ b.1)) (s.sil.seam.filter fun x => decide (x.1 ≤ n - 2) && !given x)
  let ctxs := s.sil.seamCtx.filter fun x => decide (x.1 ≤ n - 2)
  let s := seam.foldl (fun s x => s.silSeamRun x.1 x.2) s
  let s := ctxs.foldl (fun s x => s.silAddCtx x.2.1 x.2.2.1 x.2.2.2) s
  let mine := if s.inJob n then runs.filter fun q => !q.user.testBit 3 || s.on SIL_CTL_MARKSEG else []
  let s := mine.foldl (fun s q => s.silRun n q) s
  let s := s.setFld SIL_OPEN_PEAK 0 (max (s.fld SIL_OPEN_PEAK) s.silOpenCount)
  s.silEndLine n (if s.inJob n then blind else [])

/-- SILLAGE_LINE: the next line is processed once its entries and seam markers are present. -/
def execSillageLine (s : State) : Host.Outcome State Fault Refusal :=
  .next (if s.inRun && s.on SIL_CTL_EN then
      match s.silNext with
      | some n => if s.silDue n && (s.silMissing n).isEmpty && (s.silSeamWait n).isEmpty then s.silLine n [] else s
      | none => s
    else s)

/-- EOL_MISS: an entry is still missing SIL_EOLTO ticks past tick n + D + 1 (R200). -/
def execEolMiss (s : State) : Host.Outcome State Fault Refusal :=
  .next (if s.inRun && s.on SIL_CTL_EN then
      match s.silNext with
      | some n =>
        let miss := s.silMissing n
        if !miss.isEmpty && decide (n + s.depth + 1 + max 10 (s.fld SIL_EOLTO_TO) ≤ s.nowTick) && (s.silSeamWait n).isEmpty then
          s.silLine n miss
        else s
      | none => s
    else s)

/-! ### Seams (R247–R249) -/

/-- A context as a neighbour sends it: f, last, xmin, xmax, x_ref, count, peak, four sums, Σ(x − x_ref), Σ(m − f), the sums of
their squares, flags, page id; pixels moved by `d` into this device's numbering. -/
def ctxOf (id : Nat) (l : List Int) (d : Int) : Region :=
  let x := fun (i : Nat) => l.getD i 0
  let fl := (x 15).toNat
  { slot := .ctx 0, id := id, page := (l.getD 16 0xFFFFFFFF).toNat, f := x 0, last := x 1, xmin := x 2 + d, xmax := x 3 + d, xref := x 4 + d
    count := (x 5).toNat, peak := (x 6).toNat, sums := [x 7, x 8, x 9, x 10], sx := x 11, sm := (x 12).toNat
    sxx := (x 13).toNat, smm := (x 14).toNat, runOvf := fl.testBit 0, blind := fl.testBit 1, long := fl.testBit 3
    merged := fl.testBit 4, chip := true, sumSat := fl.testBit 6, units := bits fl 9 8, user := bits fl 13 10 }

/-- A seam packet of a neighbour is taken in: runs as first pixel, last pixel, region id in the neighbour's pixels; contexts as
remote id, owner's id, context; `mark` the line-end marker. Runs of a line already given up are discarded (R249). -/
def State.seamIn (s : State) (p : Nat) (line : Int) (runs : List (Int × Int × Nat)) (ctxs : List (Nat × Nat × List Int))
    (mark : Bool) : State :=
  let q := s.spanPort p
  match q.inbox.find? (·.ch == 2) with
  | none => s
  | some k =>
    let s := s.updSpan p fun q => { q with inbox := q.inbox.erase k }
    if !s.silSpan || !s.spanSeam p || q.st != .up then s
    else
      let d : Int := (s.fld SPAN_NB_XBASE p : Int) - s.fld SPAN_XBASE_XBASE
      let late := decide (line + 2 ≤ s.sil.lastLine)
      let new := if late then [] else runs.map fun (a, b, r) =>
        (line, ({ port := p, first := a + d, last := b + d, region := r } : SeamRun))
      let cs := ctxs.map fun (r, o, c) => (max line (s.sil.lastLine - 1), r, o, ctxOf r c d)
      { s with sil := { s.sil with
          seam := s.sil.seam ++ new, seamCtx := s.sil.seamCtx ++ cs
          seamEnd := if mark && !late then s.sil.seamEnd ++ [(p, line)] else s.sil.seamEnd } }

/-- SEAM_PACKET: the oldest packet of channel 2 of port p, whose layout is not described: its content is the operand
(log 16). -/
def execSeamPacket (p : Fin 2) (line : Int) (runs : List (Int × Int × Nat)) (ctxs : List (Nat × Nat × List Int)) (mark : Bool)
    (s : State) : Host.Outcome State Fault Refusal :=
  .next (s.whenLive (·.seamIn p line runs ctxs mark))

/-- SEAM_TIMEOUT: the marker of line n − 2 has not come by SPAN_SEAMTO (R249). -/
def execSeamTimeout (p : Fin 2) (s : State) : Host.Outcome State Fault Refusal :=
  .next (if s.inRun && s.on SIL_CTL_EN then
      match s.silNext with
      | some n =>
        if (s.silSeamWait n).contains p.val && decide (n + s.depth + 1 + max 2 (s.fld SPAN_SEAMTO_SEAMTO) ≤ s.nowTick) then
          { s with sil := { s.sil with seamSkip := s.sil.seamSkip ++ [(p.val, n)] } }.raise SPAN_STAT_SEAM_LATE
        else s
      | none => s
    else s)

/-! ### Enable, flush, weight banks (R214, R217) -/

/-- A write of SIL_CTL: setting EN frees every context and saturation region and sets the counter (R205, R217). -/
def State.silCtlWrite (s : State) (v : Word) : State :=
  let old := s.on SIL_CTL_EN
  let s := s.regStore .SIL_CTL 0 v
  if !old && s.on SIL_CTL_EN then
    { s with sil := { s.sil with
        regions := [], kept := [], carry := [], freedNow := [], counter := 1, runs := [], eols := [], blind := []
        seam := [], seamEnd := [], seamCtx := [], seamSkip := [], links := [] } }
  else s

/-- A write of SIL_CMD: FLUSH closes every open region in Hold (R217). -/
def State.silCmdWrite (s : State) (v : Word) : State :=
  if !v.getLsbD 0 then s
  else
    let s := s.setFld SIL_CMDRES_DONE 0 1
    if !s.inHold then s.setFld SIL_CMDRES_RESULT 0 rSTATE_REFUSED
    else
      let m := s.sil.lastLine
      let s := s.silIds.foldl (fun s id => match s.regionOf id with
        | some r => s.silClose m r
        | none => s) s
      let s := { s with sil := { s.sil with kept := [], carry := [], freedNow := [] } }
      s.setFld SIL_CMDRES_RESULT 0 rOK

/-- A write of SIL_WSWAP (R214). -/
def State.silSwapWrite (s : State) (v : Word) : State :=
  if !v.getLsbD 0 then s
  else if s.on SIL_WSWAP_PEND then s.raise SIL_STAT_CFG_ERR
  else s.setFld SIL_WSWAP_PEND 0 1

/-- A write of SIL_W_k_j reaches the inactive bank; `i` is k × 8 + j. -/
def State.silWWrite (s : State) (i : Nat) (v : Word) : State :=
  { s with sil := { s.sil with w := put v.toNat s.sil.w (1 - s.fld SIL_WSWAP_ACTIVE, i) } }

/-- SILLAGE_ENABLE: a write of SIL_CTL with EN = 1. -/
def execSillageEnable (m : Master) (v : Word) (s : State) : Host.Outcome State Fault Refusal :=
  .next (s.guardWrite m .SIL_CTL 0 (·.silCtlWrite (v ||| 1)))

/-- FLUSH: a write of SIL_CMD with FLUSH = 1. -/
def execFlush (m : Master) (v : Word) (s : State) : Host.Outcome State Fault Refusal :=
  .next (s.guardWrite m .SIL_CMD 0 (·.silCmdWrite (v ||| 1)))

/-- SWAP: a write of SIL_WSWAP with SWAP = 1. -/
def execSwap (m : Master) (v : Word) (s : State) : Host.Outcome State Fault Refusal :=
  .next (s.guardWrite m .SIL_WSWAP 0 (·.silSwapWrite (v ||| 1)))

end Sys2Proof.Machine
end

