-- ==== Sys2Proof/Machine/Report.lean ====
section
/-!
DEFINITION. Sys2Proof/Machine/Report.lean: records, the record queue, the BLIND buffer, the archive, crops and markers
(R218–R235, R26, R250).
-/
namespace Sys2Proof.Machine

/-! ### Building records (R218–R222) -/

/-- Round to the nearest integer, halves away from zero (R221). -/
def roundAway (q : Rat) : Int := if 0 ≤ q then (q + 1 / 2).floor else -((1 / 2 - q).floor)

/-- Machine direction and cross direction in µm (R221). -/
def State.mdUm (s : State) (line : Int) : Int :=
  roundAway ((((line - s.jobLine) * s.fld RPT_MDPITCH_PITCH : Int) : Rat) / 1000000)
def State.cdUm (s : State) (px : Int) : Int :=
  roundAway (((s.sfld ACCORD_X0_X0 * 100000 + px * s.fld ACCORD_XPITCH_XPITCH : Int) : Rat) / 1000000)

/-- Replace bytes of a list. -/
def patch (l : List Byte) (i : Nat) (bs : List Byte) : List Byte := l.take i ++ bs ++ l.drop (i + bs.length)

/-- The line of the last tick issued since Run entry. -/
def State.lastTicked (s : State) : Int := (s.tick.ticked.head?.map (·.2)).getD s.tick.hw

/-- Bytes 84–107 of a record whose MD end is line n, and whether they come from a later tick (R221). -/
def State.recTime (s : State) (n : Int) : List Byte × Bool :=
  let get := fun (n : Int) => look [] s.tick.hist (n % 512).toNat
  let e := get n
  let ok := e.length == 32 && hdrLine e == ofSigned 48 n
  let h := fit 32 (if ok then e else get s.lastTicked)
  ((h.drop 8).take 10 ++ [(h.getD 30 0) &&& 1, 0] ++ (h.drop 20).take 10 ++ [0, 0], !ok)

/-- The stored record: what differs between the types of R220. -/
structure RecIn where
  typ   : Nat
  f     : Int
  last  : Int
  p0    : Int
  p1    : Int
  cls   : Nat := 0
  id    : Nat := 0
  score : Int := 0
  margin : Nat := 0
  page  : Nat := 0xFFFFFFFF
  px    : Int := 0
  py    : Int := 0
  peak  : Nat := 0
  seg   : Nat := 0
  area  : Nat := 0
  rflags : Nat := 0
  flags : Nat := 0
  spec  : List Byte := []

/-- Pixel fields past 262,143 read 262,143 (R248). -/
def pxField (x : Int) : Nat := (clampInt 0 262143 x).toNat

/-- The 128 bytes of a record, with sequence number, crop handle and marker bits 0 (R218). -/
def State.recBytes (s : State) (r : RecIn) (ts : List Byte) : List Byte :=
  leBytes 1 r.typ ++ leBytes 1 s.span.chip ++ leBytes 1 r.cls ++ leBytes 1 1 ++ leBytes 4 0 ++ leBytes 4 r.id
    ++ leBytes 2 (ofSigned 16 r.score) ++ leBytes 2 r.margin
    ++ leBytes 8 (65536 * ofSigned 48 r.f) ++ leBytes 8 (65536 * ofSigned 48 r.last)
    ++ leBytes 8 (ofSigned 64 (s.mdUm r.f)) ++ leBytes 8 (ofSigned 64 (s.mdUm (r.last + 1)))
    ++ leBytes 4 (pxField r.p0) ++ leBytes 4 (pxField r.p1)
    ++ leBytes 4 (ofSigned 32 (s.cdUm r.p0)) ++ leBytes 4 (ofSigned 32 (s.cdUm (r.p1 + 1)))
    ++ leBytes 4 r.page ++ leBytes 4 (ofSigned 32 r.px) ++ leBytes 4 (ofSigned 32 r.py)
    ++ leBytes 2 r.peak ++ leBytes 2 r.seg ++ leBytes 4 r.area ++ patch (fit 24 ts) 22 (leBytes 2 r.rflags)
    ++ leBytes 4 0 ++ leBytes 2 r.flags ++ fit 14 r.spec

/-- A record from its parts; `late` says that its timestamps come from a later tick. -/
def State.mkRecord (s : State) (r : RecIn) (ts : List Byte) (late delayed : Bool) : Record :=
  let flags := r.flags + (if r.page = 0xFFFFFFFF then 4 else 0) + 8 * late.toNat + 16 * delayed.toNat
  { typ := r.typ, bytes := s.recBytes { r with flags := flags } ts
    ext := { l0 := r.f, l1 := r.last, p0 := pxField r.p0, p1 := pxField r.p1 }
    f := r.f, last := r.last, cls := r.cls, xmin := pxField r.p0, xmax := pxField r.p1, region := r.id
    cdMid := (s.cdUm r.p0 + s.cdUm (r.p1 + 1)) / 2, due := s.nowTick + 1 }

/-- The µm fields of an extent on this device (R221): MD start and end, CD start and end. -/
def State.extUm (s : State) (x : Extent) : Int × Int × Int × Int :=
  (s.mdUm x.l0, s.mdUm (x.l1 + 1), s.cdUm x.p0, s.cdUm (x.p1 + 1))

/-- The µm fields that a record's bytes hold. -/
def bytesUm (b : List Byte) : Int × Int × Int × Int :=
  let n := fun (i k : Nat) => toSigned (8 * k) (leNat ((b.drop i).take k))
  (n 32 8, n 40 8, n 56 4, n 60 4)

/-- The bounding box of two extents in µm. -/
def umBox (a b : Int × Int × Int × Int) : Int × Int × Int × Int :=
  (min a.1 b.1, max a.2.1 b.2.1, min a.2.2.1 b.2.2.1, max a.2.2.2 b.2.2.2)

/-- A BLIND record as it is written, with the chip id of the device that built it. -/
def State.blindRecord (s : State) (b : BlindRec) : Record :=
  let r := s.mkRecord
    { typ := 3, f := b.ext.l0, last := b.ext.l1, p0 := b.ext.p0, p1 := b.ext.p1, flags := if b.widened then 64 else 0
      spec := leBytes 1 b.cause ++ leBytes 1 b.detail ++ leBytes 2 b.src } b.ts b.tsLate b.delayed
  let (m0, m1, c0, c1) := b.um.getD (s.extUm b.ext)
  let bytes := patch (patch r.bytes 32 (leBytes 8 (ofSigned 64 m0) ++ leBytes 8 (ofSigned 64 m1))) 56
    (leBytes 4 (ofSigned 32 c0) ++ leBytes 4 (ofSigned 32 c1))
  { r with bytes := patch bytes 1 (leBytes 1 b.chip), blind := some b }

/-- The registration that page coordinates use (R221). -/
def State.regFor (s : State) (e : Nat) : Rat × Rat × Rat :=
  if s.refMode then ((s.trk e).md, (s.trk e).cd, (s.trk e).k) else (0, 0, 1)

/-- The parts of a region record (R220, R221). -/
def State.regionParts (s : State) (h : HandOver) : RecIn :=
  let r := h.region
  let base : RecIn :=
    { typ := h.typ, f := r.f, last := r.last, p0 := r.xmin, p1 := r.xmax, cls := h.cls, id := r.id, score := h.score
      margin := h.margin, peak := r.peak, seg := min 0xFFFF h.seg, area := r.count, rflags := r.flags
      flags := 32 * h.final.toNat }
  match s.ref.pages.find? fun p => p.id == r.page && decide ((p.start.getD 0) ≤ r.f) with
  | some p =>
    if r.page = 0xFFFFFFFF then base
    else
      let e := s.stripeOf r.xmin.toNat 0
      let (md, cd, k) := s.regFor e
      let xc : Rat := (s.stripeStart e : Rat) + (s.stripeWidth e : Rat) / 2
      let x : Rat := (xc + ((r.xmin : Rat) - xc) * k + cd) * (s.fld ACCORD_XPITCH_XPITCH : Rat) / 1000000
      let y : Rat := (((r.f - p.start.getD 0 : Int) : Rat) + md) * (s.fld RPT_MDPITCH_PITCH : Rat) / 1000000
      { base with page := r.page, px := roundAway x, py := roundAway y }
  | none => base

/-- The last output pixel. -/
def State.lastPx (s : State) : Nat := s.fld ACCORD_OUTW_OUTW - 1

/-- Build one item (R220–R222). -/
def State.buildItem (s : State) (i : Pending) : State :=
  let s := s.raiseIf i.delayed RPT_STAT_DELAYED
  let rec_ : RecIn ⊕ BlindRec := match i.item with
    | .splice l a b => .inl { typ := 5, f := l, last := l, p0 := 0, p1 := s.lastPx, spec := leBytes 1 a ++ leBytes 1 b }
    | .page l id des rows =>
      .inl { typ := 4, f := l, last := l, p0 := 0, p1 := s.lastPx, page := id, spec := leBytes 2 des ++ leBytes 4 rows }
    | .region h => .inl (s.regionParts h)
    | .blind b => .inr b
  let last := match rec_ with
    | .inl r => r.last
    | .inr b => b.ext.l1
  let (ts, late) := s.recTime last
  let s := s.raiseIf late RPT_STAT_TS_LATE
  let r := match rec_ with
    | .inl r => s.mkRecord r ts late i.delayed
    | .inr b => s.blindRecord { b with
        ts := ts, tsLate := late, delayed := i.delayed, chip := s.span.chip, um := some (b.um.getD (s.extUm b.ext)) }
  { s with rpt := { s.rpt with built := s.rpt.built ++ [r] } }

/-- Order of the kinds within one tick: SPLICE, PAGE, region records, BLIND (R222). -/
def RptItem.order : RptItem → Nat
  | .splice _ _ _ => 0
  | .page _ _ _ _ => 1
  | .region _ => 2
  | .blind _ => 3

/-- The extent of an item (R26). -/
def State.itemExt (s : State) : RptItem → Extent
  | .splice l _ _ => { l0 := l, l1 := l, p0 := 0, p1 := s.lastPx }
  | .page l _ _ _ => { l0 := l, l1 := l, p0 := 0, p1 := s.lastPx }
  | .region h => { l0 := h.region.f, l1 := h.region.last, p0 := pxField h.region.xmin, p1 := pxField h.region.xmax }
  | .blind b => b.ext

/-! ### The BLIND buffer (R224) -/

/-- An extent contains another. -/
def Extent.has (a b : Extent) : Bool :=
  decide (a.l0 ≤ b.l0) && decide (b.l1 ≤ a.l1) && decide (a.p0 ≤ b.p0) && decide (b.p1 ≤ a.p1)

/-- The union of two extents is one extent. -/
def Extent.joinable (a b : Extent) : Bool :=
  a.has b || b.has a
    || (a.p0 == b.p0 && a.p1 == b.p1 && decide (a.l0 ≤ b.l1 + 1) && decide (b.l0 ≤ a.l1 + 1))
    || (a.l0 == b.l0 && a.l1 == b.l1 && decide (a.p0 ≤ b.p1 + 1) && decide (b.p0 ≤ a.p1 + 1))

/-- Bounding box. -/
def Extent.box (a b : Extent) : Extent :=
  { l0 := min a.l0 b.l0, l1 := max a.l1 b.l1, p0 := min a.p0 b.p0, p1 := max a.p1 b.p1 }

/-- Distance in lines, then in pixels. -/
def Extent.dist (a b : Extent) : Nat × Nat :=
  ((max 0 (max (a.l0 - b.l1) (b.l0 - a.l1))).toNat, max (a.p0 - b.p1) (b.p0 - a.p1))

/-- Merge a new record into a pending one, which keeps detail and source; the timestamps are those of the later MD end. -/
def BlindRec.merge (a b : BlindRec) : BlindRec :=
  let t := if a.ext.l1 < b.ext.l1 then b else a
  let um := match a.um, b.um with
    | some x, some y => some (umBox x y)
    | x, y => x <|> y
  { a with ext := a.ext.box b.ext, um := um, ts := t.ts, tsLate := t.tsLate, delayed := a.delayed || b.delayed, widened := a.widened || b.widened }

/-- Replace the first element a test picks. -/
def mapFirst {α : Type} (p : α → Bool) (f : α → α) : List α → List α
  | [] => []
  | x :: xs => if p x then f x :: xs else x :: mapFirst p f xs

/-- Place a BLIND record in the buffer by the first rule that applies (R224). Records that different devices built lie on different
webs of pixels and never merge: where rule 4 finds none of its device, the record keeps an entry of its own (DEDUCED, log 121). -/
def placeBlind (buf : List BlindRec) (b : BlindRec) : List BlindRec :=
  let same := fun (a : BlindRec) =>
    a.cause == b.cause && a.detail == b.detail && a.src == b.src && a.chip == b.chip && a.ext.joinable b.ext
  let kin := fun (a : BlindRec) => a.cause == b.cause && a.chip == b.chip
  if buf.any same then mapFirst same (·.merge b) buf
  else if (buf.filter fun a => !a.reserved).length < 57 then buf ++ [{ b with reserved := false }]
  else if !buf.any fun a => a.reserved && a.cause == b.cause then buf ++ [{ b with reserved := true }]
  else if !buf.any kin then buf ++ [{ b with reserved := true }]
  else
    let near := (buf.filter kin).foldl (fun (o : Option (Nat × Nat)) a =>
      let d := a.ext.dist b.ext
      match o with
      | some m => if d.1 < m.1 ∨ (d.1 = m.1 ∧ d.2 < m.2) then some d else o
      | none => some d) none
    mapFirst (fun a => kin a && some (a.ext.dist b.ext) == near) (fun a => { a.merge b with widened := true }) buf

/-- Hold a BLIND record. -/
def State.holdBlind (s : State) (b : BlindRec) : State := { s with rpt := { s.rpt with blind := placeBlind s.rpt.blind b } }

/-- A record of a device is lost (R26): counted, and its extent held as a BLIND record of cause 7. -/
def State.recLost (s : State) (ext : Extent) (chip : Nat) (um : Int × Int × Int × Int) : State :=
  let (ts, late) := s.recTime ext.l1
  let s := (s.raise RPT_STAT_REC_LOST).raiseIf late RPT_STAT_TS_LATE
  s.holdBlind { cause := 7, detail := 0, src := 0, ext := ext, ts := ts, tsLate := late, chip := chip, um := some um }

/-- A built record is lost. -/
def State.builtLost (s : State) (r : Record) : State := s.recLost r.ext ((r.bytes.getD 1 0).toNat % 4) (bytesUm r.bytes)

/-- One build step (R222): at most 256 of the items that `due` picks, those carried over first; the excess waits, and what
finds 16,384 waiting is lost. -/
def State.buildStep (s : State) (due : Pending → Bool) : State :=
  let ready := s.rpt.wait.filter due
  let old := ready.filter (·.delayed)
  let new := sortBy (fun a b => decide (a.item.order ≤ b.item.order)) (ready.filter fun i => !i.delayed)
  let now := sortBy (fun a b => decide (a.item.order ≤ b.item.order)) ((old ++ new).take 256)
  let rest := ((old ++ new).drop 256).map fun i => { i with delayed := true }
  let lost := rest.drop 16384
  let s := { s with rpt := { s.rpt with wait := rest.take 16384 ++ s.rpt.wait.filter fun i => !due i } }
  let s := now.foldl (fun s i => s.buildItem i) s
  lost.foldl (fun s i => match i.item with
    | .blind b =>
      let (ts, late) := s.recTime b.ext.l1
      s.holdBlind { b with
        ts := ts, tsLate := late, delayed := true, chip := s.span.chip, um := some (b.um.getD (s.extUm b.ext)) }
    | item => s.recLost (s.itemExt item) s.span.chip (s.extUm (s.itemExt item))) s

/-- RECORD_BUILD: the build step of the tick issued last. -/
def execRecordBuild (s : State) : Host.Outcome State Fault Refusal :=
  .next (if s.inRun && s.on RPT_CTL_EN && decide (s.rpt.builtAt < s.nowTick) && (s.pwr.drain || s.lineLive s.nowTick) then
      let t := s.nowTick
      { s with rpt := { s.rpt with builtAt := t } }.buildStep fun i => decide (i.due ≤ t)
    else s)

/-! ### Loupe carriage (R234) -/

/-- One marker channel. -/
def State.marker (s : State) (k : Nat) : Marker := look {} s.rpt.marks k

/-- Change one marker channel. -/
def State.updMarker (s : State) (k : Nat) (f : Marker → Marker) : State :=
  { s with rpt := { s.rpt with marks := upd {} f s.rpt.marks k } }

/-- The oldest unfired loupe firing. -/
def State.loupeWant (s : State) : Option Firing :=
  ([0, 1, 2, 3].flatMap fun k => (s.marker k).fires.filter fun f => f.target.isSome).foldl (fun o f =>
    match o with
    | some g => if f.id < g.id then some f else o
    | none => some f) none

/-- The carriage is commanded to the oldest unfired loupe firing's target, at standstill or in any case; a refused command is
repeated on every tick. -/
def State.loupeStep (s : State) (anyCase : Bool) : State :=
  match s.loupeWant with
  | none => s
  | some f =>
    if s.rpt.loupeFor = some f.id then s
    else if anyCase || s.mot.st == .idle then
      match s.motRpt (f.target.getD 0) with
      | (true, s) => { s with rpt := { s.rpt with loupeFor := some f.id, loupeTry := false } }
      | (false, s) => { s with rpt := { s.rpt with loupeTry := true } }
    else s

/-- On every tick a refused command is repeated. -/
def State.loupeTick (s : State) : State := if s.rpt.loupeTry then s.loupeStep true else s

/-- LOUPE_COMMAND: RPT commands the carriage. -/
def execLoupeCommand (s : State) : Host.Outcome State Fault Refusal :=
  .next (s.whenLive fun s => s.loupeStep s.rpt.loupeTry)

/-! ### Marker channels (R231–R233) -/

/-- The complement check of DIST failed (R233): EN cleared, firings discarded, the extent begun. -/
def State.markIntegrity (s : State) (k : Nat) : State :=
  let first := ((s.marker k).fires.head?.map (·.anchor)).getD s.tick.hw
  (s.setFld RPT_MK_CTL_EN k 0).updMarker k fun m => { m with fires := [], off := some (m.off.getD first) }

/-- Schedule a firing of a record on channel k (R231): MARKED or MARK_LOST bit. -/
def State.markSchedule (s : State) (k : Nat) (r : Record) : Bool × Bool × State :=
  let wants := s.on RPT_MK_CTL_EN k && (s.fld RPT_MK_CTL_TYPES k).testBit r.typ && decide (r.typ < 3) &&
    (r.typ == 1 || (if r.cls = 0xFF then s.on RPT_MK_CTL_UNSURE k else (s.fld RPT_MK_CTL_CLS k).testBit r.cls))
  if !wants then (false, false, s)
  else
    let s := s.checkPair .RPT_MK_DIST k
    if !s.pairOk .RPT_MK_DIST k then (false, true, s.markIntegrity k)
    else
      let anchor := s.fld RPT_MK_CTL_ANCHOR k
      let a := if r.typ = 1 ∨ anchor = 1 then r.last else if anchor = 2 then (r.f + r.last) / 2 else r.f
      let f := a + s.fld RPT_MK_DIST_DIST k
      if f ≤ s.tick.hw then (false, true, s.raise RPT_MK_STAT_LATE k)
      else if 256 ≤ (s.marker k).fires.length then (false, true, s.raise RPT_MK_STAT_OVF k)
      else
        let fire : Firing :=
          { id := s.rpt.fireCtr, f := f, anchor := a, target := if s.on RPT_MK_CTL_LOUPE k then some r.cdMid else none }
        let s := { s with rpt := { s.rpt with fireCtr := s.rpt.fireCtr + 1 } }
        (true, false, s.updMarker k fun m => { m with fires := m.fires ++ [fire] })

/-- Schedule a record on the four channels: its flag bits 15:8. -/
def State.markAll (s : State) (r : Record) : Nat × State :=
  let (bits, s) := [0, 1, 2, 3].foldl (fun (acc : Nat × State) k =>
    let (m, l, s) := acc.2.markSchedule k r
    (acc.1 + (if m then 2 ^ (8 + k) else 0) + (if l then 2 ^ (12 + k) else 0), s)) (0, s)
  (bits, s.loupeStep false)

/-- The pending firings of a channel that share the lowest F fire, when the high-water mark has reached it (R232, R234). -/
def State.markFire (s : State) (k : Nat) : State :=
  let m := s.marker k
  match m.fires.foldl (fun (o : Option Int) f => some ((o.map (min f.f)).getD f.f)) none with
  | none => s
  | some f =>
    if s.tick.hw < f then s
    else
      let now := m.fires.filter (·.f == f)
      let loupe := now.filter (·.target.isSome)
      let at_ := s.motAtRpt && loupe.all fun x => some x.id == s.rpt.loupeFor
      let s := s.updMarker k fun m => { m with fires := m.fires.filter (·.f != f), high := true }
      let s := s.raiseIf (!loupe.isEmpty && !at_) RPT_STAT_LOUPE_MISS
      let coins := now.length - 1 + m.high.toNat
      let s := (List.range coins).foldl (fun s _ => s.raise RPT_MK_STAT_COIN k) s
      let s := if m.high then s else (s.count .RPT_MK_FIRED k 1 0xFFFFFFFF).strobeUp (9 + k)
      if loupe.isEmpty then s else s.loupeStep true

/-- MARKER_FIRING: channel k fires what is due. -/
def execMarkerFiring (k : Fin 4) (s : State) : Host.Outcome State Fault Refusal := .next (s.whenLive (·.markFire k))

/-- MARKER_PULSE_END: PW µs have passed since the last firing of channel k. -/
def execMarkerPulseEnd (k : Fin 4) (s : State) : Host.Outcome State Fault Refusal :=
  .next (s.whenLive fun s => if (s.marker k).high then
      (s.updMarker k fun m => { m with high := false }).strobeDown (9 + k)
    else s)

/-- The extent of a disabled channel ends: the record of its last lines (R233). -/
def State.markOffEnd (s : State) (k : Nat) : State :=
  match (s.marker k).off with
  | some l => (s.updMarker k fun m => { m with off := none }).blindLines 6 0 k l s.tick.hw (0, s.lastPx)
  | none => s

/-- A write of RPT_MK_CTL_k: CLEAR discards the pending firings, EN ends the channel's BLIND extent (R232, R233). -/
def State.mkCtlWrite (s : State) (k : Nat) (v : Word) : State :=
  let s := s.regStore .RPT_MK_CTL k v
  let s := if v.getLsbD 31 then s.updMarker k fun m => { m with fires := [] } else s
  if s.on RPT_MK_CTL_EN k then s.markOffEnd k else s

/-- MARKER_CLEAR: a write of RPT_MK_CTL with CLEAR = 1. -/
def execMarkerClear (m : Master) (k : Fin 4) (v : Word) (s : State) : Host.Outcome State Fault Refusal :=
  .next (s.guardWrite m .RPT_MK_CTL k (·.mkCtlWrite k (v ||| 0x80000000)))

/-- MARKER_ENABLE: a write of RPT_MK_CTL with EN = 1. -/
def execMarkerEnable (m : Master) (k : Fin 4) (v : Word) (s : State) : Host.Outcome State Fault Refusal :=
  .next (s.guardWrite m .RPT_MK_CTL k (·.mkCtlWrite k (v ||| 1)))

/-- On entry into Standby every pending firing is discarded and counted in its channel's OVF counter (R232). -/
def State.markStandby (s : State) : State :=
  [0, 1, 2, 3].foldl (fun s k =>
    ((s.marker k).fires.foldl (fun s _ => s.raise RPT_MK_STAT_OVF k) s).updMarker k fun m => { m with fires := [] }) s

/-! ### Crops (R226–R230) -/

/-- The 16-byte index entry of a handle (R230), written as master 19. -/
def State.cropIndex (s : State) (h ofs bytes status cause : Nat) : State :=
  (s.busWrite 19 (s.wide .RPT_CIBASE_LO .RPT_CIBASE_HI + 16 * (h % 65536))
    (leBytes 8 ofs ++ leBytes 4 bytes ++ leBytes 1 status ++ leBytes 1 cause ++ leBytes 2 0)).2

/-- A crop becomes LOST. -/
def State.cropLost (s : State) (h cause : Nat) : State := (s.cropIndex h 0 0 3 cause).raise RPT_STAT_CROP_LOST

/-- Request a crop (R227): its handle and the record's flags CROP and CROP_CLIPPED. A box cut by CMAXW or CMAXL, or past the
device's line for a region across a seam, is clipped. -/
def State.cropRequest (s : State) (r : Record) (seam : Bool) : Nat × Nat × State :=
  if !(s.on RPT_CTL_CROP_EN && decide (r.typ < 3) && (s.fld RPT_CROP_TYPES).testBit r.typ) then (0, 0, s)
  else
    let h := s.fld RPT_CHANDLE_HANDLE
    let s := s.setFld RPT_CHANDLE_HANDLE 0 (if h = 0xFFFFFFFF then 1 else h + 1)
    let mg := s.fld RPT_CROP_MARGIN
    let cut := seam && (decide (s.lastPx < r.xmax + mg) || decide (r.xmin < mg))
    let p0 := r.xmin - mg
    let p1 := min (r.xmax + mg) s.lastPx
    let w := max 1 (s.fld RPT_CLIM_CMAXW)
    let n : Int := (max 1 (s.fld RPT_CLIM_CMAXL) : Nat)
    let wide := decide (w < p1 + 1 - p0)
    let p0' := if wide then p0 + (p1 + 1 - p0 - w) / 2 else p0
    let p1' := if wide then p0' + w - 1 else p1
    let l0 := max (r.f - mg) s.jobLine
    let l1 := r.last + mg
    let long := decide (n < l1 - l0 + 1)
    let l0' := if long && r.typ == 1 then l1 - n + 1 else l0
    let l1' := if long && r.typ != 1 then l0 + n - 1 else l1
    let c : Crop := { handle := h, region := r.region, l0 := l0', l1 := l1', p0 := p0', p1 := p1' }
    let s := s.cropIndex h 0 0 1 0
    let s := if 256 ≤ s.rpt.crops.length then s.cropLost h 1 else { s with rpt := { s.rpt with crops := s.rpt.crops ++ [c] } }
    (h, 1 + 2 * (wide || long || cut).toNat, s)

/-- Rows, bytes per row and data bytes of a crop. -/
def Crop.rows (c : Crop) : Nat := (c.l1 - c.l0 + 1).toNat
def Crop.rowBytes (c : Crop) : Nat := 3 * (c.p1 + 1 - c.p0)

/-- Largest output of n bytes compressed (R285). -/
def zcmBound (n : Nat) : Nat := n + 8 * ((n + 65535) / 65536) + 16

/-- Bytes a crop can occupy: header and data, padded to 64 (R230). -/
def cropSpace (data : Nat) : Nat := (32 + data + 63) / 64 * 64

/-- The largest data of a crop under the present settings. -/
def State.cropMax (s : State) (c : Crop) : Nat :=
  let n := c.rows * c.rowBytes
  if s.on RPT_CROP_COMP then zcmBound n else n

/-- Level of a compressed crop. -/
def State.cropLevel (s : State) : Nat := min 9 (max 1 (s.fld RPT_CROP_LEVEL))

/-- The descriptors of a crop (R228): one, or two where its lines wrap the ring. A compressed crop is one descriptor whose source
goes on at the ring's start, so that its stored data is one stream (DEDUCED, log 26). -/
def State.cropDescs (s : State) (c : Crop) (dst : Nat) : List Desc :=
  let d : Nat := 2 ^ s.fld RPT_CRING_CDLOG
  let pitch := s.fld RPT_CRING_PITCH * 4096
  let first : Nat := (c.l0 % (d : Int)).toNat
  let k : Nat := min c.rows (d - first)
  let at_ := fun (line : Nat) => s.wide .RPT_CRBASE_LO .RPT_CRBASE_HI + line * pitch + 3 * c.p0
  let mk := fun (line rows dst : Nat) (last : Bool) =>
    ({ next := 0, src := at_ line, dst := dst, len := c.rowBytes
       rows := rows, sstride := pitch, dstride := c.rowBytes, cap := zcmBound (rows * c.rowBytes), sw := 6, dw := 6
       op := (s.on RPT_CROP_COMP).toNat, level := s.cropLevel, last := last, irq := false, wb := false } : Desc)
  if k = c.rows then [mk first k dst true]
  else if s.on RPT_CROP_COMP then [{ mk first c.rows dst true with wrap := some (k, at_ 0) }]
  else [mk first k dst false, mk 0 (c.rows - k) (dst + k * c.rowBytes) true]

/-- A crop leaves the store: its index entry says so, where the index still holds it. -/
def State.cropForget (s : State) (x : Nat × Nat × Nat) : State :=
  if seqSub (s.fld RPT_CHANDLE_HANDLE) x.1 ≤ 65536 then s.cropIndex x.1 x.2.1 x.2.2 4 0 else s

/-- Crops whose space a new one takes become EVICTED, and leave the store. -/
def State.cropEvict (s : State) (ofs bytes : Nat) : State :=
  let gone := s.rpt.store.filter fun (_, o, n) => decide (o < ofs + bytes) && decide (ofs < o + n)
  let s := gone.foldl State.cropForget s
  { s with rpt := { s.rpt with store := s.rpt.store.filter fun x => !gone.contains x } }

/-- The oldest waiting crop starts its copy (R228, R230): its space, and its first descriptor on the channel. -/
def State.cropStart (s : State) : State :=
  let k := s.fld RPT_CROP_DCH
  match s.rpt.crops, s.rpt.copy with
  | c :: cs, none =>
    let mask := s.fld SIL_ENGMASK_MASK
    let past := (List.range 16).all fun e => !mask.testBit e ||
      ((s.rpt.doneLine.find? (·.1 == e)).map fun x => decide (c.l1 ≤ x.2)).getD false
    if !s.on RPT_CTL_EN || !past || (s.dma k).st != .idle then s
    else
      let s := { s with rpt := { s.rpt with crops := cs } }
      let size := max 1 (s.fld RPT_CSSIZE_SIZE) * 2 ^ 20
      let need := cropSpace (s.cropMax c)
      if size < need then s.cropLost c.handle 4
      else
        let ofs := if size < s.rpt.storeAt + need then 0 else s.rpt.storeAt
        let s := s.cropEvict ofs need
        let base := s.wide .RPT_CSBASE_LO .RPT_CSBASE_HI + ofs
        match s.cropDescs c (base + 32) with
        | [] => s
        | d :: ds =>
          { s with rpt := { s.rpt with
              copy := some { c with ofs := ofs, bytes := need, comp := s.on RPT_CROP_COMP }, descs := ds, stored := 0
              failed := false, storeAt := ofs + need } }.dmaDirect k d
  | _, _ => s

/-- CROP_COPY_START: RPT starts the copy of the oldest waiting crop. -/
def execCropCopyStart (s : State) : Host.Outcome State Fault Refusal := .next (s.whenLive (·.cropStart))

/-- The copy of a crop has ended on its channel, or the channel has stopped with an error, whatever has been commanded of it since
(R229, R230). -/
def State.cropEnd (s : State) : State :=
  let k := s.fld RPT_CROP_DCH
  match s.rpt.copy with
  | none => s
  | some c =>
    let st := (s.dma k).st
    let excess := (List.range 16).any fun e =>
      ((s.rpt.startLine.find? (·.1 == e)).map fun x => decide (c.l0 + 2 ^ s.fld RPT_CRING_CDLOG ≤ x.2)).getD false
    let s' := { s with rpt := { s.rpt with copy := none, descs := [], failed := false } }
    if s.rpt.failed then (s'.cropLost c.handle 3).raise RPT_STAT_CROP_ERR
    else if st != .idle || !s.rpt.descs.isEmpty then s
    else if excess then s'.cropLost c.handle 2
    else
      let n := s.rpt.stored
      let used := cropSpace n
      let head := leBytes 4 c.handle ++ leBytes 4 c.region ++ leBytes 6 (ofSigned 48 c.l0) ++ leBytes 2 c.rows ++ leBytes 4 c.p0
        ++ leBytes 2 (c.p1 + 1 - c.p0) ++ leBytes 1 c.comp.toNat ++ leBytes 1 0 ++ leBytes 4 n ++ leBytes 4 0
      let s := (s'.busWrite 19 (s.wide .RPT_CSBASE_LO .RPT_CSBASE_HI + c.ofs) head).2
      let s := { s with rpt := { s.rpt with store := s.rpt.store ++ [(c.handle, c.ofs, used)], storeAt := c.ofs + used } }
      s.cropIndex c.handle c.ofs used 2 0

/-- CROP_COPY_END: the copy in progress has ended. -/
def execCropCopyEnd (s : State) : Host.Outcome State Fault Refusal := .next (s.whenLive (·.cropEnd))

/-! ### The record queue (R223, R225, R250) -/

/-- Records queued and not consumed, and the size of the queue. -/
def State.qOcc (s : State) : Nat := seqSub (s.fld RPT_QWR_SEQ) (s.fld RPT_QRD_SEQ)
def State.qSize (s : State) : Nat := 2 ^ s.fld RPT_QCFG_QLOG
def State.qFull (s : State) : Bool := decide (s.qSize ≤ s.qOcc)

/-- A record is written, archived, and makes its crop request and its firings; whether the write was answered OK. `local_`:
the record was built here. -/
def State.qWrite (s : State) (r : Record) (local_ : Bool) : Bool × State :=
  let seq := s.fld RPT_QWR_SEQ
  let a := poolBase + s.fld RPT_QBASE_OFS + 128 * (seq % s.qSize)
  let (res, s1) := s.busWrite 19 a (fit 128 r.bytes)
  if res ≠ rOK then (false, s1)
  else
    let fl := leNat ((r.bytes.drop 106).take 2)
    let (h, cf, s) := if local_ then s1.cropRequest r (fl.testBit 5) else (0, 0, s1)
    let (mf, s) := s.markAll r
    let flags := leNat ((r.bytes.drop 112).take 2) + cf + mf
    let b := patch r.bytes 4 (leBytes 4 seq)
    let b := if local_ then patch b 108 (leBytes 4 h) else b
    let b := patch b 112 (leBytes 2 flags)
    let s := { s with mem := memWrite s.mem a b }
    let s := s.setFld RPT_QWR_SEQ 0 ((seq + 1) % 2 ^ 32)
    let s := if s.on RPT_CTL_ARCH_EN then
        let (res, s) := s.busWrite 19 (s.wide .RPT_RMBASE_LO .RPT_RMBASE_HI + 128 * (seq % 2 ^ s.fld RPT_RMLOG_RMLOG)) b
        if res = rOK then s.setFld RPT_RMWR_WR 0 ((seq + 1) % 2 ^ 32) else s.raise RPT_STAT_ARCH_ERR
      else s
    (true, if s.qOcc = s.fld RPT_QTHR_THR then s.irq "RPT_QTHR" else s)

/-- Records go to the master of the array (R250): CONSOL on another device. -/
def State.forwards (s : State) : Bool := s.on SPAN_CTL_CONSOL && !s.on SPAN_CTL_MASTER

/-- A chain of UP ports leads from port p to the master: a neighbour that is the master ends it; of links beyond a neighbour
this device knows nothing, and a free value decides (log 122). -/
def State.spanReach (s : State) (p : Nat) : Bool × State :=
  if (s.spanPort p).st != .up then (false, s)
  else if s.on SPAN_NB_MASTER p then (true, s)
  else (s.free.testBit 0, s.drawn)

/-- The port over which the master is reached: that of the tick path before the other. -/
def State.masterVia (s : State) : Option Nat × State :=
  match s.spanReach s.span.tickPort with
  | (true, s) => (some s.span.tickPort, s)
  | (false, s) => match s.spanReach (1 - s.span.tickPort) with
    | (true, s) => (some (1 - s.span.tickPort), s)
    | (false, s) => (none, s)

/-- A record is handed to a port for the master. -/
def State.recForward (s : State) (p : Nat) (b : List Byte) : State := s.spanOpaque p 4 4 (b.map (·.toNat)) b

/-- A record enters the queue; a BLIND record that cannot waits in the buffer, another one is lost (R26, R223, R224). -/
def State.recQueue (s : State) (r : Record) (local_ : Bool) : State :=
  match r.blind with
  | some b =>
    if !s.rpt.blind.isEmpty || s.qFull then s.holdBlind b
    else match s.qWrite r local_ with
      | (true, s) => s
      | (false, s) => (s.raise RPT_STAT_REC_LOST).holdBlind b
  | none =>
    if s.qFull then s.builtLost r
    else match s.qWrite r local_ with
      | (true, s) => s
      | (false, s) => s.builtLost r

/-- The port towards the master that a record built here takes, if it is to take one. -/
def State.recVia (s : State) : Option Nat × State := if s.forwards then s.masterVia else (none, s)

/-- A record built here leaves RPT: to the master, or into the queue. -/
def State.recOut (s : State) (r : Record) : State :=
  match s.recVia with
  | (some p, s) =>
    let (h, cf, s) := s.cropRequest r ((leNat ((r.bytes.drop 106).take 2)).testBit 5)
    s.recForward p (patch (patch r.bytes 108 (leBytes 4 h)) 112 (leBytes 2 (leNat ((r.bytes.drop 112).take 2) + cf)))
  | (none, s) => (s.raiseIf s.forwards SPAN_STAT_FWD_LOCAL).recQueue r true

/-- The oldest record of the BLIND buffer enters the queue where there is space; whether it did. -/
def State.blindOut (s : State) : Bool × State :=
  match s.rpt.blind with
  | [] => (false, s)
  | b :: bs =>
    match s.recVia with
    | (some p, s) => (true, { s with rpt := { s.rpt with blind := bs } }.recForward p (s.blindRecord b).bytes)
    | (none, s) =>
      if s.qFull then (false, s)
      else match s.qWrite (s.blindRecord b) true with
        | (true, s) => (true, { s with rpt := { s.rpt with blind := bs } })
        | (false, s) => (false, s.raise RPT_STAT_REC_LOST)

/-- A record from its bytes. -/
def State.recordOf (s : State) (b : List Byte) : Record :=
  let n := fun (i k : Nat) => leNat ((b.drop i).take k)
  let cd0 := toSigned 32 (n 56 4)
  let cd1 := toSigned 32 (n 60 4)
  let f := toSigned 48 (n 16 8 / 65536)
  let l := toSigned 48 (n 24 8 / 65536)
  let ext : Extent := { l0 := f, l1 := l, p0 := n 48 4 % 2 ^ 18, p1 := n 52 4 % 2 ^ 18 }
  { typ := n 0 1, bytes := fit 128 b, ext := ext, f := f, last := l, cls := n 2 1, xmin := ext.p0, xmax := ext.p1, region := n 8 4
    cdMid := (cd0 + cd1) / 2, due := s.nowTick
    blind := if n 0 1 = 3 then some
        { cause := n 114 1, detail := n 115 1, src := n 116 2, ext := ext, widened := (n 112 2).testBit 6, ts := (b.drop 84).take 24
          tsLate := (n 112 2).testBit 3, delayed := (n 112 2).testBit 4, chip := n 1 1 % 4
          um := some (bytesUm b) }
      else none }

/-- The oldest record that came back from a port that went DOWN leaves RPT again, with the crop it has requested (R250). -/
def State.backOut (s : State) : State :=
  match s.rpt.back with
  | [] => s
  | b :: bs =>
    match { s with rpt := { s.rpt with back := bs } }.recVia with
    | (some p, s) => s.recForward p b
    | (none, s) => (s.raise SPAN_STAT_FWD_LOCAL).recQueue (s.recordOf b) false

/-- RECORD_QUEUE: the oldest record that came back from a port is queued; where there is none, the oldest built on an earlier
tick; else the oldest of the BLIND buffer. -/
def execRecordQueue (s : State) : Host.Outcome State Fault Refusal :=
  .next (if s.inRun && s.on RPT_CTL_EN then
      if !s.rpt.back.isEmpty then s.backOut
      else match s.rpt.built with
      | r :: rs => if r.due ≤ s.nowTick then { s with rpt := { s.rpt with built := rs } }.recOut r else s.blindOut.2
      | [] => s.blindOut.2
    else s)

/-- Move what the BLIND buffer holds into the queue, as space allows. -/
def State.blindDrain (s : State) : Nat → State
  | 0 => s
  | n + 1 => match s.blindOut with
    | (true, s) => s.blindDrain n
    | (false, s) => s

/-- Queue everything that came back, and everything built. -/
def State.builtDrain (s : State) : State :=
  let s := s.rpt.back.foldl (fun s _ => s.backOut) s
  s.rpt.built.foldl (fun s r => s.recOut r) { s with rpt := { s.rpt with built := [] } }

/-- A build step in Hold (R222): at most 256 built and queued, then the BLIND buffer. -/
def State.holdStep (s : State) : State :=
  let s := s.builtDrain
  let s := (s.buildStep fun _ => true).builtDrain
  s.blindDrain s.rpt.blind.length

/-- HOLD_BUILD_STEP: RPT builds and queues what arises in Hold. -/
def execHoldBuildStep (s : State) : Host.Outcome State Fault Refusal :=
  .next (if s.inHold && s.on RPT_CTL_EN then s.holdStep else s)

/-- QRD_WRITE: a write of RPT_QRD. -/
def execQrdWrite (m : Master) (v : Word) (s : State) : Host.Outcome State Fault Refusal :=
  .next (s.guardWrite m .RPT_QRD 0 (·.regStore .RPT_QRD 0 v))

/-- A forwarded record (R250): the master queues it under its own sequence number and schedules its firings; another device
passes the packet on, or queues the record where it cannot. -/
def State.forwarded (s : State) (p : Nat) (b : List Byte) : State :=
  match (s.spanPort p).inbox.find? (·.ch == 4) with
  | none => s
  | some k =>
    let s := s.updSpan p fun q => { q with inbox := q.inbox.erase k }
    if s.on SPAN_CTL_MASTER then s.recQueue (s.recordOf b) false
    else match s.spanReach (1 - p) with
      | (true, s) => s.spanSend (1 - p) 4 k.bytes b
      | (false, s) => (s.raise SPAN_STAT_FWD_LOCAL).recQueue (s.recordOf b) false

/-- FORWARDED_RECORD: the oldest packet of channel 4 of port p, whose layout is not described: the record is the operand
(log 16). -/
def execForwardedRecord (p : Fin 2) (b : List Byte) (s : State) : Host.Outcome State Fault Refusal :=
  .next (s.whenLive (·.forwarded p b))

/-! ### Mailbox 1 (R291) -/

/-- An open region, an item, a built record or a buffered one touches the lines up to n: a region record by its MD end, a BLIND record
by its first line. A region whose owner is another device's gives no record here. -/
def State.rptOwes (s : State) (n : Int) : Bool :=
  (s.sil.regions.any fun r => decide (r.last ≤ n) && !s.silSub r)
  || (s.rpt.wait.any fun i => match i.item with
    | .blind b => decide (b.ext.l0 ≤ n)
    | i => decide ((s.itemExt i).l1 ≤ n))
  || (s.rpt.built.any fun r => decide ((if r.blind.isSome then r.ext.l0 else r.ext.l1) ≤ n))
  || (s.rpt.back.any fun b => let r := s.recordOf b; decide ((if r.blind.isSome then r.ext.l0 else r.ext.l1) ≤ n))
  || s.rpt.blind.any fun b => decide (b.ext.l0 ≤ n)

/-- Lines up to n have passed Sillage: every line in Hold, else the lines processed. -/
def State.rptPast (s : State) (n : Int) : Bool :=
  s.inHold || (if s.on SIL_CTL_EN then decide (n ≤ s.sil.lastLine) else decide (n + s.depth + 1 ≤ s.nowTick))

/-- SYNC: once every record up to the line is queued, the mailbox answers. -/
def execSync (s : State) : Host.Outcome State Fault Refusal :=
  .next (s.whenLive fun s => match s.mbReq 1 0x01 with
    | some ws =>
      let n : Int := (reqWord ws 1 + 2 ^ 32 * (reqWord ws 2 % 65536) : Nat)
      if s.rptPast n && !s.rptOwes n then s.mbAnswer 1 rOK [s.fld RPT_QWR_SEQ] else s
    | none => s)

/-- Every open extent is emitted as it stands. -/
def State.emitOpen (s : State) : State :=
  let open_ := s.rpt.open_
  let s := open_.foldl (fun s c => s.collectEmit c) { s with rpt := { s.rpt with open_ := [] } }
  [0, 1, 2, 3].foldl (fun s k => match (s.marker k).off with
    | some l => if l ≤ s.tick.hw then
        (s.blindLines 6 0 k l s.tick.hw (0, s.lastPx)).updMarker k fun m => { m with off := some (s.tick.hw + 1) }
      else s
    | none => s) s

/-- FLUSH_BLIND: the open extents are emitted; once every BLIND record is queued, the mailbox answers. -/
def execFlushBlind (s : State) : Host.Outcome State Fault Refusal :=
  .next (s.whenLive fun s => match s.mbReq 1 0x02 with
    | some _ =>
      let s := s.emitOpen
      let left := !s.rpt.blind.isEmpty || (s.rpt.wait.any fun i => i.item.order == 3) || (s.rpt.built.any fun r => r.blind.isSome)
        || s.rpt.back.any fun b => (s.recordOf b).blind.isSome
      if left then s else s.mbAnswer 1 rOK
    | none => s)

end Sys2Proof.Machine
end

