-- ==== Sys2Proof/Machine/Signal.lean ====
section
/-!
DEFINITION. Sys2Proof/Machine/Signal.lean: the sigma-delta signal chain (R316–R327). Instants are in signal-chain cycles of
5 ns.
-/
namespace Sys2Proof.Machine

/-- One channel. -/
def State.sig (s : State) (k : Nat) : SigCh := look {} s.sigs k

/-- Change one channel. -/
def State.updSig (s : State) (k : Nat) (f : SigCh → SigCh) : State := { s with sigs := upd {} f s.sigs k }

/-- M_k = N_k × FR (R319). -/
def State.sigM (s : State) (k : Nat) : Nat := (s.fld SIG_K_CFG_N k + 1) * s.fld SIG_CTL_FR

/-- The channel runs. -/
def State.sigOn (s : State) (k : Nat) : Bool := s.on SIG_CTL_EN && s.on SIG_K_CFG_EN k

/-- Inputs of the present outputs reach back before 75 × M_k bits have entered (R323). -/
def State.sigSettling (s : State) (k : Nat) : Bool := decide ((s.sig k).bitsIn < 75 * s.sigM k)

/-! ### Banks (R324) -/

/-- A fade ends: its target is active, and a queued request starts or completes; either is the outcome OK of that request in QRES
(R324, R327). -/
def SigCh.fadeEnd (c : SigCh) : SigCh :=
  let c := { c with active := !c.active, fade := none }
  match c.queued with
  | some (b, f) =>
    if b = c.active then { c with queued := none, qres := rOK }
    else { c with queued := none, fade := some (0, f), qres := rOK }
  | none => c

/-- A synchronising reset completes a fade and a queued request at once. -/
def SigCh.fadeCut (c : SigCh) : SigCh :=
  let c := if c.fade.isSome then { c with active := !c.active, fade := none } else c
  match c.queued with
  | some (b, _) => { c with active := b, queued := none, qres := rOK }
  | none => c

/-- A synchronising reset of a channel with a fade or a request leaves QRES at OK. -/
def SigCh.fadeReset (c : SigCh) : SigCh :=
  if c.fade.isSome || c.queued.isSome then { c.fadeCut with qres := rOK } else c

/-- A switch request: what RSP1 tells, and the state. -/
def State.sigSwitch (s : State) (k : Nat) (b : Bool) (f : Nat) : Nat × State :=
  let c := s.sig k
  if s.sigSettling k then (if b = c.active then 2 else 0, s.updSig k fun c => { c with active := b, fade := none, queued := none })
  else match c.fade with
  | none =>
    if b = c.active then (2, s) else (0, s.updSig k fun c => { c with fade := some (0, f) })
  | some _ =>
    let old := c.queued.isSome
    let s := s.updSig k fun c => { c with queued := some (b, f), qres := if old then rSUPERSEDED else c.qres }
    (1, s.raiseIf old SIG_K_STAT_SUPERSEDED k)

/-- A write of SIG_COEF_k_b_t: index ((k × 2 + b) × 64 + t). -/
def State.sigCoefWrite (s : State) (i : Nat) (v : Word) : State :=
  let k := i / 128
  let b := i / 64 % 2 == 1
  let c := s.sig k
  if b = c.active ∨ (c.queued.map (·.1)) = some b then s.cfgErr .SIG_COEF i
  else s.setReg .SIG_COEF i (v &&& 0xFFFFFF)

/-- Coefficient t of bank b. -/
def State.sigCoef (s : State) (k : Nat) (b : Bool) (t : Nat) : Int :=
  toSigned 24 (s.reg .SIG_COEF ((k * 2 + b.toNat) * 64 + t)).toNat

/-- The FIR output of a bank; a value outside Q1.15, for which the spec states no result, is free (log 1, log 5). -/
def State.sigFir (s : State) (k : Nat) (b : Bool) (line : List Rat) (free : Nat) : Int :=
  let sum := (line.zipIdx).foldl (fun (a : Rat) (x, t) => a + x * (s.sigCoef k b t : Rat)) 0
  let y := freeRound 7 (sum / 4194304)
  if y < -32768 ∨ 32767 < y then toSigned 16 free else y

/-! ### Detectors (R325) -/

/-- A detector flag is set: its event and interrupt. -/
def State.sigDet (s : State) (f : Flag) (k : Nat) : State :=
  let s := s.raise f k
  let s := if (s.fld EVT_SRCMASK_SIG).testBit k then s.strobe [17] else s
  if s.on SIG_K_CFG_IRQ k then s.irq "SIG_DET" else s

/-- Check a value against its limits: whether the check failed, and the state with the flags it sets. -/
def State.sigCheck (s : State) (k v lo hi : Nat) (fhi flo : Flag) : Bool × State :=
  let above := decide (hi < 32768) && decide (hi < v)
  let under := decide (v < lo)
  let s := if above then s.sigDet fhi k else s
  (above || under, if under then s.sigDet flo k else s)

/-- The end of a detector window. -/
def State.sigWindow (s : State) (k : Nat) : State :=
  let c := s.sig k
  let pk := c.wmax
  let rms := isqrt (c.wsq / 2 ^ s.fld SIG_K_CFG_WLOG k)
  let (bp, s) := s.sigCheck k pk (s.fld SIG_K_PKLIM_LO k) (s.fld SIG_K_PKLIM_HI k) SIG_K_STAT_PK_HI SIG_K_STAT_PK_LO
  let (br, s) := s.sigCheck k rms (s.fld SIG_K_RMSLIM_LO k) (s.fld SIG_K_RMSLIM_HI k) SIG_K_STAT_RMS_HI SIG_K_STAT_RMS_LO
  let s := (s.setFld SIG_K_DETV_PK k pk).setFld SIG_K_DETV_RMS k rms
  s.updSig k fun c => { c with pk := pk, rms := rms, badPk := bp, badRms := br, wn := 0, wmax := 0, wsq := 0 }

/-- A window holds its 2^WLOG samples. -/
def State.sigFull (s : State) (k : Nat) : Bool := decide (2 ^ s.fld SIG_K_CFG_WLOG k ≤ (s.sig k).wn)

/-- One detector sample. -/
def State.sigSample (s : State) (k : Nat) (x : Int) : State :=
  let s := if s.sigFull k then s.sigWindow k else s
  let a := x.natAbs
  let c := s.sig k
  let sh := if c.env < a then s.fld SIG_K_ENVCF_ATT k else s.fld SIG_K_ENVCF_REL k
  let e := c.env + ((a : Int) - c.env) / ((2 ^ sh : Nat) : Int)
  let (bad, s) := s.sigCheck k e.toNat (s.fld SIG_K_ENVLIM_LO k) (s.fld SIG_K_ENVLIM_HI k) SIG_K_STAT_ENV_HI SIG_K_STAT_ENV_LO
  s.updSig k fun c => { c with env := e, badEnv := bad, wn := c.wn + 1, wmax := max c.wmax a, wsq := c.wsq + a * a }

/-! ### Filter path (R319) -/

/-- One input bit through the integrators, with the transition watch of R317. -/
def SigCh.bit (c : SigCh) (b : Bool) : SigCh :=
  let i1 := c.i1 + (if b then 1 else -1)
  let i2 := c.i2 + i1
  let moved := b != c.last
  { c with
    i1 := i1, i2 := i2, i3 := c.i3 + i2, last := b, same := if moved then 0 else c.same + 1
    stuck := c.stuck && !moved, bitsIn := c.bitsIn + 1 }

/-- Runs of 256 bits or more that end within these bits while STUCK has not been reported (R317). -/
def SigCh.stuckRuns : SigCh → List Bool → Nat
  | _, [] => 0
  | c, b :: bs => (b != c.last && decide (256 ≤ c.same) && !c.stuck).toNat + (c.bit b).stuckRuns bs

/-- The input has shown no transition for 256 bits or more (STUCK_NOW, R317). -/
def SigCh.stuckNow (c : SigCh) : Bool := c.stuck || decide (256 ≤ c.same)

/-- The comb stages, scaled to Q1.15. -/
def SigCh.comb (c : SigCh) (m : Nat) : Rat × SigCh :=
  let y1 := c.i3 - c.c1
  let y2 := y1 - c.c2
  let y3 := y2 - c.c3
  ((y3 : Rat) * 32768 / ((m * m * m : Nat) : Rat), { c with c1 := c.i3, c2 := y1, c3 := y2 })

/-- A sinc3 output from the M_k bits of its period, the FIR output after any fade, and the detectors. A run without a transition that
ends within the period and that no STUCK command has reported sets STUCK here. -/
def State.sigSinc (s : State) (k : Nat) (bs : List Bool) : State :=
  let m := s.sigM k
  let s := (List.range ((s.sig k).stuckRuns (bs.take m))).foldl (fun s _ => s.raise SIG_K_STAT_STUCK k) s
  let (x, c) := (((s.sig k).fade.elim (s.sig k) fun f => if f.2 ≤ f.1 then (s.sig k).fadeEnd else s.sig k)
    |> fun c => ((bs.take m).foldl SigCh.bit c).comb m)
  let line := (x :: c.line).take 64
  let free := s.free
  let old := s.sigFir k c.active line free
  let (y, fade) := match c.fade with
    | some (j, f) =>
      let new := s.sigFir k (!c.active) line free
      (roundNear ((old : Rat) + ((new - old : Int) : Rat) * ((j + 1 : Nat) : Rat) / ((max 1 f : Nat) : Rat)), some (j + 1, f))
    | none => (old, none)
  let s := s.drawn.updSig k fun _ =>
    { c with line := line, firs := (y :: c.firs).take 64, nfir := c.nfir + 1, fade := fade }
  if s.sigSettling k then s else s.sigSample k y

/-- A synchronising reset at a frame start (R323). -/
def State.sigReset (s : State) (k : Nat) (t : Int) : State :=
  s.updSig k fun c =>
    let c := c.fadeReset
    { active := c.active, qres := c.qres, last := c.last, same := c.same, stuck := c.stuck, last16 := c.last16
      x := c.x, xSettle := c.xSettle, xInv := c.xInv, ticks := c.ticks, pk := c.pk, rms := c.rms, t0 := t, settle := true }

/-! ### Outputs (R318–R322) -/

/-- Engine clocks of a sinc period. -/
def State.sigPeriod (s : State) (k : Nat) : Nat := s.sigM k * s.fld SIG_CTL_SDDIV

/-- FIR output i since the reset, counted from 1; the delay line holds zeros before it and no output after the newest. -/
def SigCh.tap (c : SigCh) (i : Int) : Int := if 1 ≤ i ∧ i ≤ c.nfir then c.firs.getD (c.nfir - i).toNat 0 else 0

/-- Where the resampler of channel k places an instant τ, in engine clocks after the channel's reset: FIR output i is taken 12k engine
clocks after the frame in which its i-th sinc period ends, and stands for the input 1.5 + 31.5 periods before. The FIR output at
or before the place, and the phase after it in 1/1,024 period (R318–R320; log 130). -/
def State.sigPlace (s : State) (k : Nat) (τ : Rat) : Int × Nat :=
  let u : Rat := (τ - (12 * k : Nat)) / ((max 1 (s.sigPeriod k) : Nat) : Rat) + 33
  let ph := freeRound 15 ((u - u.floor) * 1024)
  if 1024 ≤ ph then (u.floor + 1, 0) else (u.floor, ph.toNat)

/-- The output for an instant can be computed: the resampler's four later taps are there. A disabled channel takes in nothing more. -/
def State.sigReady (s : State) (k : Nat) (τ : Rat) : Bool := !s.sigOn k || decide ((s.sigPlace k τ).1 + 4 ≤ (s.sig k).nfir)

/-- An output of the resampler for an instant τ, in engine clocks after the reset. Its coefficients are not stated: a free value of its
8 taps and its phase (log 1). -/
def State.sigOut (s : State) (k : Nat) (τ : Rat) : Int × State :=
  let c := s.sig k
  let (i, ph) := s.sigPlace k τ
  let x := clampInt (-32768) 32767 (Config.resample ((List.range 8).map fun (t : Nat) => c.tap (i - 3 + (t : Int))) ph)
  let st := decide (i + 4 < 75)
  let inv := !s.on SIG_K_CFG_EN k || c.stuckNow || (s.on SIG_K_CFG_DETINV k && (c.badPk || c.badRms || c.badEnv))
  let v := ofSigned 16 x + 2 ^ 16 * st.toNat + 2 ^ 17 * inv.toNat
  let s := s.setReg .SIG_K_VAL k (BitVec.ofNat 32 v)
  (x, s.updSig k fun c => { c with x := x, xSettle := st, xInv := inv, settle := c.settle && st })

/-- A fixed-rate output; ENC0 and ENC1 pair their sin and cos samples (R49). -/
def State.sigFixed (s : State) (k : Nat) : State :=
  let c := s.sig k
  let at_ : Int := ((c.nout + 1) * s.fld SIG_K_OPER_PERIOD k : Nat)
  let t := c.t0 + at_
  if !s.sigReady k at_ then s
  else
    let (x, s) := s.sigOut k at_
    let s := s.updSig k fun c => { c with nout := c.nout + 1 }
    let e := (k - 8) / 2
    if k = 8 ∨ k = 10 then s.updEnc e fun c => { c with sinHeld := some x }
    else if k = 9 ∨ k = 11 then
      match (s.enc e).sinHeld with
      | some sn =>
        let a := s.sig (k - 1)
        let b := s.sig k
        let s := s.updEnc e fun c => { c with sinHeld := none }
        if s.fld ENC_CTL_MODE e = 2 then
          (s.encSinCos e sn x (a.xSettle || a.xInv || b.xSettle || b.xInv) t).camEvalAll
        else s
      | none => s
    else s

/-- A tick-locked output: the oldest tick that waits for one; a lamp channel's sample goes to ingest (R94). -/
def State.sigTick (s : State) (k : Nat) : State :=
  match (s.sig k).ticks with
  | [] => s
  | (n, t, lref) :: rest =>
    let τ : Rat := t - ((s.sig k).t0 : Rat)
    if !s.sigReady k τ then s
    else
      let (x, s) := s.sigOut k τ
      let s := s.updSig k fun c => { c with ticks := rest }
      let c := s.sig k
      if k < 8 then s.lampEntry k n lref (if c.xSettle || c.xInv then none else some (x + 32768).toNat) else s

/-- What a tick for line n at an instant (ns) asks of the chain: channels in MODE 1 whose TDIV divides n take the instant, and
a lamp channel without a sample for the tick gets its entry at once (R94, R321). -/
def State.sigOnTick (s : State) (n : Int) (ns : Rat) : State :=
  (List.range 16).foldl (fun s (k : Nat) =>
    let div : Int := (max 1 (s.fld SIG_K_CFG_TDIV k) : Nat)
    if s.on SIG_CTL_EN && s.on SIG_K_CFG_MODE k && decide (n % div = 0) then
      s.updSig k fun c => { c with ticks := c.ticks ++ [(n, ns / 5, s.fld IU_LREF_LREF k)] }
    else if k < 8 then s.lampEntry k n (s.fld IU_LREF_LREF k) none else s) s

/-! ### Register writes -/

/-- A write of SIG_CMD: SYNC bits of enabled channels. -/
def State.sigCmdWrite (s : State) (v : Word) : State :=
  (List.range 16).foldl (fun s k =>
    if v.getLsbD k && s.on SIG_K_CFG_EN k then s.updSig k fun c => { c with sync := true } else s) s

/-- A write of SIG_k_CFG: setting EN resets the channel; clearing it ends the watch of its input (R317). -/
def State.sigCfgWrite (s : State) (k : Nat) (v : Word) : State :=
  let old := s.on SIG_K_CFG_EN k
  let s := s.regStore .SIG_K_CFG k v
  let new := s.on SIG_K_CFG_EN k
  if !old && new then s.updSig k fun c => { c with sync := true }
  else if old && !new then s.updSig k fun c => { c with same := 0, stuck := false } else s

/-! ### Commands -/

/-- SINC_OUTPUT: channel k takes its sinc3 output from the input bits of the period, oldest first. -/
def execSincOutput (k : Fin 16) (bs : List Bool) (s : State) : Host.Outcome State Fault Refusal :=
  .next (s.whenLive fun s => if s.sigOn k then s.sigSinc k bs else s)

/-- FIXED_RATE_OUTPUT: a MODE 0 channel delivers an output. -/
def execFixedRateOutput (k : Fin 16) (s : State) : Host.Outcome State Fault Refusal :=
  .next (s.whenLive fun s => if s.on SIG_CTL_EN && !s.on SIG_K_CFG_MODE k then s.sigFixed k else s)

/-- TICK_LOCKED_OUTPUT: a MODE 1 channel delivers the output of a tick. -/
def execTickLockedOutput (k : Fin 16) (s : State) : Host.Outcome State Fault Refusal :=
  .next (s.whenLive fun s => if s.on SIG_CTL_EN && s.on SIG_K_CFG_MODE k then s.sigTick k else s)

/-- STUCK: 256 SDCLK cycles without a transition on an enabled channel. -/
def execStuck (k : Fin 16) (s : State) : Host.Outcome State Fault Refusal :=
  .next (s.whenLive fun s =>
    if s.sigOn k && !(s.sig k).stuck && decide (256 ≤ (s.sig k).same) then (s.updSig k fun c => { c with stuck := true }).raise SIG_K_STAT_STUCK k else s)

/-- CHANNEL_SYNC: the frame at which a pending reset of channel k takes place starts, at signal-chain cycle `t`; every channel whose
reset is pending restarts at the same frame. -/
def execChannelSync (k : Fin 16) (t : Int) (s : State) : Host.Outcome State Fault Refusal :=
  .next (s.whenLive fun s =>
    if s.sigOn k && (s.sig k).sync then
      (List.range 16).foldl (fun s j => if s.sigOn j && (s.sig j).sync then s.sigReset j t else s) s
    else s)

/-- DETECTOR_WINDOW_END: a window of channel k is full. -/
def execDetectorWindowEnd (k : Fin 16) (s : State) : Host.Outcome State Fault Refusal :=
  .next (s.whenLive fun s => if s.sigFull k then s.sigWindow k else s)

/-- BANK (mailbox 2). -/
def execBank (s : State) : Host.Outcome State Fault Refusal :=
  .next (s.whenLive fun s =>
    match s.mbReq 2 1 with
    | none => s
    | some ws =>
      let k := bits (reqWord ws 1) 3 0
      let f := bits (reqWord ws 2) 12 0
      if f = 0 ∨ 4096 < f then s.mbAnswer 2 rRANGE
      else if !s.on SIG_K_CFG_EN k then s.mbAnswer 2 rSTATE_REFUSED
      else
        let (r, s) := s.sigSwitch k ((reqWord ws 1).testBit 8) f
        s.mbAnswer 2 rOK [r])

/-- FADE_END: after F fade samples the target bank is active. -/
def execFadeEnd (k : Fin 16) (s : State) : Host.Outcome State Fault Refusal :=
  .next (s.whenLive fun s =>
    match (s.sig k).fade with
    | some (j, f) => if f ≤ j then s.updSig k SigCh.fadeEnd else s
    | none => s)

/-- FAST_PATH_OUTPUT: an SDCLK cycle of SD12 (phase A) or SD13 (phase B) (R326). -/
def execFastPathOutput (ph : Fin 2) (bit : Bool) (s : State) : Host.Outcome State Fault Refusal :=
  .next (s.whenLive fun s =>
    if !s.on SIG_CTL_EN then s
    else
      let k := 12 + ph.val
      let w := ((s.sig k).last16 * 2 + bit.toNat) % 65536
      let c := (List.range 16).countP fun i => w.testBit i
      let i : Int := min ((2 * (c : Int) - 16) * 2048) 32767
      let s := s.updSig k fun x => { x with last16 := w }
      let s := if s.fld SIG_FAST_FLIM < i.natAbs then ((s.raise SIG_STAT_FAST_OC).strobe [16]).motFastOc else s
      s.motPhase ph i)

end Sys2Proof.Machine
end

