-- ==== Sys2Proof/Machine/Tick.lean ====
section
/-!
DEFINITION. Sys2Proof/Machine/Tick.lean: the line tick (R28–R42), its trigger words (R34, R75), the drain ticks of a Hold
request (R394), and the emission of blind extents of 4,096 lines (R251, R429).
-/
namespace Sys2Proof.Machine

/-- The trigger words of camera c for tick n (R34, R74): none when the pair of TICK_TOFF fails its check (R9). A port with
CAM_CTL.EN = 0 is sent none and its pair is not used (DESIGN CHOICE, log 115). -/
def State.tickTrigger (s : State) (n : Int) (c : Nat) : State :=
  if !s.on CAM_CTL_EN c then s
  else
    let s := s.checkPair .TICK_TOFF c
    if !s.pairOk .TICK_TOFF c then s
    else
      let s := s.camWord c (2 ^ 28 + s.fld CAM_CTL_EXPSET c * 2 ^ 24 + ofSigned 24 (n + (s.fld TICK_TOFF_I c : Int)))
      s.camWord c (2 * 2 ^ 28 + ofSigned 24 n)

/-- One tick more at a speed that lets a stopped single-lane port recover, or the count starts again (R81). -/
def State.tickCalm (s : State) (c : Nat) : State :=
  let calm := s.camCalm c
  (s.updCam c fun k => { k with calm := if calm then k.calm + 1 else 0 }).camEval c

/-- The tick for a line reaches the engines, where the line was ticked (R37); cameras that no engine sees are judged on it. -/
def State.tickEngines (s : State) (line : Int) : State :=
  if s.lineLive line then
    (List.range 16).foldl (fun s e => s.engTick e line) ((List.range 12).foldl (fun s c => s.judgeFree line c) s)
  else s

/-- Lines whose tick n + D comes due when tick n is issued: one, or more after lines that were not ticked (DEDUCED, log 28). -/
def State.tickDue (s : State) (n : Int) : List Int :=
  let k := match s.tick.ticked with
    | (_, b) :: _ => (n - b).toNat
    | [] => 1
  (List.range k).map fun (i : Nat) => n - s.depth - ((k - 1 - i : Nat) : Int)

/-- What TICK records of tick n, issued at instant `at_` (ns) with its history entry (R31, R37, R40, R42, R77). -/
def State.tickMark (s : State) (n : Int) (at_ : Rat) (entry : List Byte) : State :=
  let k := s.tick
  let s := { s with tick := { k with
    hw := n, ticked := tickedAdd k.ticked n, rel := (n :: k.rel).take 256, instants := (at_ :: k.instants).take 5
    hist := put entry k.hist (n % 512).toNat } }
  { s with tick := { s.tick with ovsClear := if s.overspeed then 0 else s.tick.ovsClear + 1 } }

/-- What tick n makes the units do, where the lines `due` come due with it (R34, R37, R40, R41, R80, R321, R234). -/
def State.tickActs (s : State) (n : Int) (at_ : Rat) (due : List Int) : State :=
  let s := s.ovsOnset
  let div : Int := (max 1 (s.fld TICK_DIVN_N) : Nat)
  let s := s.strobe (if n % div = 0 then [0, 1] else [0])
  let s := (List.range 12).foldl (fun s c => (s.camPass n c).tickTrigger n c) s
  let s := (List.range 12).foldl (fun s c => s.tickCalm c) s
  let s := s.sigOnTick n at_
  (due.foldl (fun s l => s.tickEngines l) s).loupeTick

/-- Tick n is issued, with its instant (ns) and its history entry. -/
def State.tickIssue (s : State) (n : Int) (at_ : Rat) (entry : List Byte) : State :=
  (s.tickMark n at_ entry).tickActs n at_ (s.tickDue n)

/-- The instant at which the counter crossed line n, between the last two observer updates (R31), and how long ago that is,
in ns. -/
def State.tickCross (s : State) (n : Int) : Rat × Rat :=
  let k := s.tick
  let d := k.dispTo - k.dispFrom
  let back := if d = 0 then 0 else k.dispDt * (k.dispTo - n) / d
  (k.dispAt - back, back)

/-- The device is one of an array (R236). -/
def State.inArray (s : State) : Bool := s.on SPAN_CTL_EN

/-- A TICK packet (R238). -/
def tickPacket (entry : List Byte) (t : Nat) (relayed : Bool) : List Byte :=
  fit 8 (leBytes 1 4 ++ leBytes 1 relayed.toNat) ++ fit 32 entry ++ leBytes 8 t

/-- Tick n has been made by this device's own source: it is issued, or in an array sent to the neighbours and issued TDLY
later (R241). -/
def State.tickMade (s : State) (n : Int) (at_ back : Rat) (flags : Nat) : State :=
  let pos := 65536 * ofSigned 48 n
  let entry := s.entry pos back flags
  if s.inArray && s.on SPAN_CTL_MASTER then
    let t := (freeRound 8 ((s.span.time : Rat) - back + (s.fld SPAN_TDLY_TDLY : Nat))).toNat
    let s := [0, 1].foldl (fun s p =>
      if (s.spanPort p).st == .up then s.spanSend p 1 (tickPacket entry t false) else s) s
    { s with span := { s.span with ticks := s.span.ticks ++ [(pos, entry, t, 0)] } }
  else s.tickIssue n at_ entry

/-- TICK: the counter's integer part has reached the next line above the high-water mark. -/
def execTick (s : State) : Host.Outcome State Fault Refusal :=
  let n := s.tickLast + 1
  .next (if s.issuing && decide (s.fld TICK_CTL_SRC < 2) && decide (n ≤ s.tick.line) then
      let x := s.tickCross n
      s.tickMade n x.1 x.2 0
    else s)

/-- FIXED_RATE_PERIOD: a period of the generator ends (R30). The line reached is ticked when it lies above the high-water mark
(R31, R32). -/
def execFixedRatePeriod (s : State) : Host.Outcome State Fault Refusal :=
  .next (if s.issuing && s.fld TICK_CTL_SRC == 3 then
      let per : Nat := s.fld TICK_FIXPER_PER
      let at_ : Rat := s.tick.genAt + (per : Rat) * 2 / 3
      let s := s.tickTo (s.tick.line + 1) 0 at_ ((per : Rat) * 2 / 3)
      let s := { s with tick := { s.tick with speed := (1500000000 : Rat) / (per : Rat), genAt := at_ } }.ovsOnset
      let n := s.tickLast + 1
      if n ≤ s.tick.line then s.tickMade n at_ 0 2 else s
    else s)

/-- OVS_NOW_CLEAR: neither condition has held for 64 ticks (R40). -/
def execOvsNowClear (s : State) : Host.Outcome State Fault Refusal :=
  .next (s.whenLive fun s =>
    if s.fld TICK_STAT_OVS_NOW == 1 && !s.overspeed && decide (64 ≤ s.tick.ovsClear) then s.setFld TICK_STAT_OVS_NOW 0 0
    else s)

/-- DRAIN_TICK: the next drain tick (R394): engines receive the lines up to L_h that are still due. -/
def execDrainTick (s : State) : Host.Outcome State Fault Refusal :=
  .next (if s.pwr.drain then
      let k := s.pwr.drainAt + 1
      let s := { s with pwr := { s.pwr with drainAt := k } }
      let line : Int := (k : Int) - s.depth
      (if line ≤ s.pwr.holdLine then s.tickEngines line else s).loupeTick
    else s)

/-- OBSERVER_UPDATE: encoder channel e's observer updates at time t (5 ns cycles); camera ports judge the new speed (R54,
R81). -/
def execObserverUpdate (e : Fin 2) (t : Int) (s : State) : Host.Outcome State Fault Refusal :=
  .next (s.whenLive fun s => (s.encUpdate e t).camEvalAll)

/-! ### Writes (R29, R30) -/

/-- A write of TICK_CTL: a new source takes over (R29), from Span with the fraction of the last TICK packet, if one came, and else
with the remainder that was carried (DESIGN CHOICE, log 115); no observer has given a speed since (log 48); EN set in Run starts a
period of the generator (R30). -/
def State.tickCtlWrite (s : State) (v : Word) : State :=
  let old := s.fld TICK_CTL_SRC
  let was := s.issuing
  let s := s.regStore .TICK_CTL 0 v
  let s := if s.issuing && !was then s.genStart else s
  let new := s.fld TICK_CTL_SRC
  if new = old then s
  else
    let k := s.tick
    let rem := if old = 2 ∧ !k.spanFirst then k.spanFrac * max 1 (s.fld TICK_DEN_DEN) / 65536 else k.rem
    { s with tick := { k with speed := 0, rem := rem, spanFirst := new == 2 } }

/-- A write of TICK_DEN: the carried remainder is rescaled (R30). -/
def State.tickDenWrite (s : State) (v : Word) : State :=
  let old := max 1 (s.fld TICK_DEN_DEN)
  let s := s.regStore .TICK_DEN 0 v
  let new := max 1 (s.fld TICK_DEN_DEN)
  if new = old then s else { s with tick := { s.tick with rem := s.tick.rem * new / old } }

/-! ### Blind extents (R251, R429) -/

/-- First and last output pixel of the neighbour at port p, in this device's numbering (R247, R251). -/
def State.nbExt (s : State) (p : Nat) : Int × Int :=
  let d : Int := (s.fld SPAN_NB_XBASE p : Int) - s.fld SPAN_XBASE_XBASE
  (d, d + (max 1 (s.spanPort p).outw : Nat) - 1)

/-- The master reports the lines from a to b of the unreachable neighbour at port p (R251). Pixel fields below 0 read 0, and the
µm fields are computed from the exact position (DEDUCED from R248, log 122). -/
def State.lostLines (s : State) (p : Nat) (a b : Int) : State :=
  if !s.on SPAN_CTL_MASTER || !s.on RPT_CTL_EN || s.zsp.job == .cal then s
  else
    let a := max a s.jobLine
    let (x0, x1) := s.nbExt p
    (splitLines ((b - a).toNat / 4096 + 1) a b).foldl (fun s (l0, l1) =>
      s.notice 0 (.blind
        { cause := 5, detail := 0, src := p, ext := { l0 := l0, l1 := l1, p0 := x0.toNat, p1 := x1.toNat }
          um := some (s.mdUm l0, s.mdUm (l1 + 1), s.cdUm x0, s.cdUm (x1 + 1)) })) s

/-- Emit what an extent from line a on has in full pieces of 4,096 lines, up to line b: the first line left. -/
def State.capFrom (s : State) (emit : State → Int → Int → State) (a b : Int) : Int × State :=
  let n := ((b + 1 - a).toNat / 4096)
  if n = 0 then (a, s) else (a + 4096 * n, emit s a (a + 4096 * n - 1))

/-- BLIND_EXTENT_CAP: extents that have reached 4,096 lines are emitted, and new ones begin at the following line. -/
def execBlindExtentCap (s : State) : Host.Outcome State Fault Refusal :=
  .next (s.whenLive fun s =>
    let full := s.rpt.open_.filter fun c => decide (c.ext.l0 + 4095 ≤ c.ext.l1)
    let s := { s with rpt := { s.rpt with open_ := s.rpt.open_.filter fun c => !decide (c.ext.l0 + 4095 ≤ c.ext.l1) } }
    let s := full.foldl (fun s c => s.collectEmit c) s
    let s := [0, 1, 2, 3].foldl (fun s k =>
      match (s.marker k).off with
      | some l =>
        let r := s.capFrom (fun s a b => s.blindLines 6 0 k a b (0, s.lastPx)) l s.tick.hw
        r.2.updMarker k fun m => { m with off := some r.1 }
      | none => s) s
    [0, 1].foldl (fun s p =>
      match (s.spanPort p).lost with
      | some l =>
        let r := s.capFrom (fun s a b => s.lostLines p a b) l s.tick.hw
        r.2.updSpan p fun q => { q with lost := some r.1 }
      | none => s) s)

end Sys2Proof.Machine
end

