-- ==== Sys2Proof/Machine/Span.lean ====
section
/-!
DEFINITION. Sys2Proof/Machine/Span.lean: the Span ports and their link packets (R236–R246, R252).
-/
namespace Sys2Proof.Machine

/-! ### Enabling (R239, R245, R252) -/

/-- The valid receive entries, in order. -/
def State.haloEntries (s : State) : List Nat := (List.range 4).filter fun i => s.on SPAN_HRX_V i

/-- A port leaves OFF, at once into WAIT where a lane is LOCKED already. -/
def State.spanOpen (s : State) (p : Nat) : State :=
  if (s.spanPort p).st != .off then s
  else
    let s := s.updSpan p fun q => { q with st := .down }
    if (s.spanLanes p).isEmpty then s else (s.updSpan p fun q => { q with st := .wait }).spanHello p

/-- A port goes OFF: what it holds is given up, and a seam with it. -/
def State.spanClose (s : State) (p : Nat) : State :=
  let s := if (s.spanPort p).st == .up then s.silSeamLost p else s
  (s.spanGiveUp p).updSpan p fun q => { q with st := .off, inbox := [], outbox := [], echo := [], lost := none }

/-- A write of SPAN_CTL. -/
def State.spanCtlWrite (s : State) (v : Word) : State :=
  let s := s.regStore .SPAN_CTL 0 v
  if !s.inHold then s
  else if !v.getLsbD 0 then [0, 1].foldl (fun s p => s.spanClose p) s
  else match s.haloEntries.find? fun i => s.haloCheck i != rOK with
    | some i =>
      let s := ((s.setFld SPAN_RES_RESULT 0 (s.haloCheck i)).setFld SPAN_RES_ENG 0 (s.fld SPAN_HRX_ENG i)).setFld SPAN_CTL_EN 0 0
      [0, 1].foldl (fun s p => s.spanClose p) s
    | none =>
      let engs := s.haloEntries.map fun i => s.fld SPAN_HRX_ENG i
      let s := { s with span := { s.span with barred := s.span.barred.filter fun b => !engs.contains b.1 } }
      let s := (s.setFld SPAN_RES_RESULT 0 rOK).setFld SPAN_RES_ENG 0 0
      [0, 1].foldl (fun s p => s.spanOpen p) s

/-- SPAN_ENABLE: a write of SPAN_CTL with EN = 1. -/
def execSpanEnable (m : Master) (v : Word) (s : State) : Host.Outcome State Fault Refusal :=
  .next (s.guardWrite m .SPAN_CTL 0 (·.spanCtlWrite (v ||| 1)))

/-! ### Link packets (R238–R240) -/

/-- Byte i of a packet, 0 past its end. -/
def Packet.at (k : Packet) (i n : Nat) : Nat := leNat ((k.bytes.drop i).take n)

/-- The oldest link packet of a type received on a port leaves the port's buffer. -/
def State.spanTake (s : State) (p typ : Nat) : Option (Packet × State) :=
  ((s.spanPort p).inbox.find? fun k => k.ch == 1 && k.at 0 1 == typ).map fun k =>
    (k, s.updSpan p fun q => { q with inbox := q.inbox.erase k })

/-- HELLO_SEND: a port with a LOCKED lane sends HELLO. -/
def execHelloSend (p : Fin 2) (s : State) : Host.Outcome State Fault Refusal :=
  .next (s.whenLive fun s => if s.on SPAN_CTL_EN && !(s.spanLanes p).isEmpty then s.spanHello p else s)

/-- The chip ids and positions of two devices that share a seam are in the order of R236: port 1 faces the higher one. -/
def State.seamOrder (s : State) (p : Nat) (k : Packet) : Bool :=
  if p = 1 then decide (s.span.chip < k.at 1 1) && k.at 4 4 == s.fld SPAN_XBASE_XBASE + s.fld ACCORD_OUTW_OUTW
  else decide (k.at 1 1 < s.span.chip) && s.fld SPAN_XBASE_XBASE == k.at 4 4 + k.at 8 4

/-- What a HELLO breaks of R239: ID_CONFLICT, MASTER_CONFLICT, ORDER_ERR. -/
def State.helloErrs (s : State) (p : Nat) (k : Packet) : Bool × Bool × Bool :=
  let seam := (k.at 3 1).testBit 1
  (k.at 2 1 != s.fld SPAN_ID_ARRAY || k.at 1 1 == s.span.chip,
   (k.at 3 1).testBit 0 && s.on SPAN_CTL_MASTER,
   (seam || s.spanSeam p) && !(seam && s.spanSeam p && s.seamOrder p k))

/-- The neighbour's fields are latched (R239). -/
def State.helloLatch (s : State) (p : Nat) (k : Packet) : State :=
  let s := ((s.setFld SPAN_NB_XBASE p (k.at 4 4)).setFld SPAN_NB_CHIPID p (k.at 1 1)).setFld SPAN_NB_MASTER p (k.at 3 1 % 2)
  s.updSpan p fun q => { q with outw := k.at 8 4, met := true }

/-- The device behind port p is reached again: the lines lost meanwhile are reported (R251). -/
def State.spanBack (s : State) (p : Nat) : State :=
  match (s.spanPort p).lost with
  | some l => (s.lostLines p l s.tick.hw).updSpan p fun q => { q with lost := none }
  | none => s

/-- HELLO: the oldest HELLO received on port p. A WAIT port becomes UP; its neighbour is reached again, and so may be the device that
the other port lost (R251, log 122). -/
def execHello (p : Fin 2) (s : State) : Host.Outcome State Fault Refusal :=
  .next (s.whenLive fun s =>
    match s.spanTake p 1 with
    | none => s
    | some (k, s) =>
      let (id, mst, ord) := s.helloErrs p k
      let ok := !id && !mst && !ord
      match (s.spanPort p).st with
      | .wait =>
        if ok then
          let s := ((s.spanBack p).helloLatch p k).updSpan p fun q => { q with st := .up, echo := [] }
          if (s.spanPort (1 - p.val)).lost.isSome then
            let (again, s) := s.otherWay (1 - p.val)
            if again then s.spanBack (1 - p.val) else s
          else s
        else ((s.raiseIf id SPAN_STAT_ID_CONFLICT).raiseIf mst SPAN_STAT_MASTER_CONFLICT).raiseIf ord SPAN_STAT_ORDER_ERR
      | .up => if ok then s.helloLatch p k else s
      | _ => s)

/-- SPAN_LINK_TIMEOUT: no consistent HELLO on an UP port for 1 ms. -/
def execSpanLinkTimeout (p : Fin 2) (s : State) : Host.Outcome State Fault Refusal :=
  .next (s.whenLive fun s => if (s.spanPort p).st == .up then s.spanDown p else s)

/-- ECHO_REQ_SEND: an UP port sends ECHO_REQ, whose t1 is put in when it leaves. -/
def execEchoReqSend (p : Fin 2) (s : State) : Host.Outcome State Fault Refusal :=
  .next (s.whenLive fun s =>
    let q := s.spanPort p
    if q.st == .up then
      (s.spanSend p 1 (fit 8 (leBytes 1 2 ++ leBytes 1 q.tag) ++ leBytes 24 0)).updSpan p fun q => { q with tag := (q.tag + 1) % 256 }
    else s)

/-- ECHO_REQ: the oldest ECHO_REQ received on port p is answered: t2 is the time at which it arrived, and t3 is put in when the
answer leaves. -/
def execEchoReq (p : Fin 2) (s : State) : Host.Outcome State Fault Refusal :=
  .next (s.whenLive fun s =>
    match s.spanTake p 2 with
    | none => s
    | some (k, s) =>
      s.spanSend p 1 (fit 8 (leBytes 1 3 ++ leBytes 1 (k.at 1 1)) ++ leBytes 8 (k.at 8 8) ++ leBytes 8 k.at_ ++ leBytes 8 0))

/-- Span time steers towards the neighbour's: by how much is not stated, a free value between nothing and the whole offset
(log 1). -/
def State.spanSteer (s : State) (ofs : Int) : State :=
  let d : Int := ((s.free % (ofs.natAbs + 1) : Nat) : Int)
  let t : Int := (s.span.time : Int) + (if ofs < 0 then -d else d)
  { s with span := { s.span with time := (t % ((2 ^ 64 : Nat) : Int)).toNat } }.drawn

/-- The residual of an exchange is reported, and SYNCED follows it (R240). -/
def State.spanResidual (s : State) (ofs : Int) : State :=
  let s := s.setFld SPAN_TOFS_OFS 0 (ofSigned 32 (clampInt (-(2 ^ 31 : Nat)) ((2 ^ 31 - 1 : Nat) : Int) ofs))
  if ofs.natAbs ≤ 20 then { s with span := { s.span with bad := 0 } }.setFld SPAN_STAT_SYNCED 0 1
  else
    let n := s.span.bad + 1
    let s := { s with span := { s.span with bad := n } }
    if 4 ≤ n then s.setFld SPAN_STAT_SYNCED 0 0 else s

/-- ECHO_RSP: the oldest ECHO_RSP received on port p. Halves of a nanosecond are rounded as a free value chooses (log 5). -/
def execEchoRsp (p : Fin 2) (s : State) : Host.Outcome State Fault Refusal :=
  .next (s.whenLive fun s =>
    match s.spanTake p 3 with
    | none => s
    | some (k, s) =>
      match (s.spanPort p).echo.find? fun e => e.1 == k.at 1 1 && e.2 == k.at 8 8 with
      | none => s
      | some e =>
        let t1 : Int := (e.2 : Nat)
        let t2 : Int := (k.at 16 8 : Nat)
        let t3 : Int := (k.at 24 8 : Nat)
        let t4 : Int := (k.at_ : Nat)
        let s := s.updSpan p fun q => { q with echo := q.echo.erase e }
        let lat := freeRound 9 ((((t4 - t1) - (t3 - t2) : Int) : Rat) / 2)
        let ofs := freeRound 10 ((((t2 - t1) - (t4 - t3) : Int) : Rat) / 2)
        let s := s.setFld SPAN_LAT_LAT p (clampInt 0 65535 lat).toNat
        if s.on SPAN_CTL_MASTER || s.span.tickPort != p then s else (s.spanSteer ofs).spanResidual ofs)

/-! ### Ticks of an array (R32, R241, R242) -/

/-- Insert a waiting tick in line order. -/
def tickInsert (t : Nat × List Byte × Nat × Nat) (l : List (Nat × List Byte × Nat × Nat)) : List (Nat × List Byte × Nat × Nat) :=
  insertBy (fun a b => decide (packetLine a.1 ≤ packetLine b.1)) t l

/-- The first packet after a change to Span sets the counter (R29): the high-water mark lies one line below it, which in Hold
and in a drain counts from L_h (R33), and what has been done of later lines belongs to another numbering (DEDUCED, log 120). -/
def State.spanJump (s : State) (n : Int) : State :=
  let held := !s.inRun || s.pwr.drain
  let low := fun (t : Tab Nat Int) => t.map fun x => (x.1, min x.2 (n - 1))
  { s with
    tick := { s.tick with
      spanFirst := false, line := n - 1, hw := n - 1, rem := 0
      holdAdv := if held then (n - 1 - s.pwr.holdLine).toNat else s.tick.holdAdv }
    sil := { s.sil with
      lastLine := min s.sil.lastLine (n - 1), kept := s.sil.kept.filter fun k => decide (k.line < n), carry := []
      blind := s.sil.blind.filter fun b => decide (b.1 < n) }
    span := { s.span with gap := none }
    rpt := { s.rpt with doneLine := low s.rpt.doneLine, startLine := low s.rpt.startLine } }

/-- TICK_PACKET: the oldest TICK packet received on port p. The first of its line is relayed; a device in Span mode takes its
line index and waits for its issue time. -/
def execTickPacket (p : Fin 2) (s : State) : Host.Outcome State Fault Refusal :=
  .next (s.whenLive fun s =>
    match s.spanTake p 4 with
    | none => s
    | some (k, s) =>
      let pos := k.at 8 8
      let n := packetLine pos
      if s.on SPAN_CTL_MASTER || s.span.seen.contains n then s
      else
        let t := k.at 40 8
        let entry := (k.bytes.drop 8).take 32
        let other := 1 - p.val
        let s := if (s.spanPort other).st == .up then s.spanSend other 1 (tickPacket entry t true) else s
        let s := { s with span := { s.span with seen := (n :: s.span.seen).take 256, tickPort := p } }
        if s.fld TICK_CTL_SRC != 2 then s
        else
          let s := if s.tick.spanFirst then s.spanJump n else s
          let s := { s with tick := { s.tick with spanFrac := pos % 65536 } }
          let s := if s.tick.line < n then s.tickTo n 0 (s.span.time : Nat) 0 else s
          let s := s.raiseIf (decide (t < s.span.time)) SPAN_STAT_TICK_LATE
          { s with span := { s.span with ticks := tickInsert (pos, entry, t, p.val) s.span.ticks } })

/-- The record of unticked lines that is open (R242): cause 5 across the full output width. -/
def State.gapMine (s : State) (c : Collect) : Bool := c.cause == 5 && c.detail == 0 && (c.ext.p0, c.ext.p1) == (0, s.lastPx)

/-- Lines from a to b are not ticked: they follow the open record of unticked lines or begin one, in pieces of at most 4,096
lines, all but the last of which are emitted (R242, R429). -/
def State.gapLines (s : State) (a b : Int) : State :=
  let a := max a s.jobLine
  if !s.on RPT_CTL_EN || s.zsp.job == .cal || decide (b < a) then s
  else
    let src := s.span.tickPort
    let joins := fun (c : Collect) => s.gapMine c && c.src == src && decide (c.ext.l1 + 1 = a)
    let a' := ((s.rpt.open_.find? joins).map (·.ext.l0)).getD a
    let s := { s with rpt := { s.rpt with open_ := s.rpt.open_.filter fun c => !joins c } }
    let pieces := splitLines ((b - a').toNat / 4096 + 1) a' b
    let mk := fun (l : Int × Int) =>
      ({ cause := 5, detail := 0, src := src, ext := { l0 := l.1, l1 := l.2, p0 := 0, p1 := s.lastPx } } : Collect)
    let s := pieces.dropLast.foldl (fun s l => s.collectEmit (mk l)) s
    { s with rpt := { s.rpt with open_ := s.rpt.open_ ++ (pieces.getLast?.map mk).toList } }

/-- The next tick is issued: the record of the unticked lines before it is emitted (R242). -/
def State.gapEmit (s : State) (n : Int) : State :=
  let mine := fun (c : Collect) => s.gapMine c && decide (c.ext.l1 < n)
  let s' := { s with rpt := { s.rpt with open_ := s.rpt.open_.filter fun c => !mine c }, span := { s.span with gap := none } }
  (s.rpt.open_.filter mine).foldl (fun s c => s.collectEmit c) s'

/-- The last line issued or given up (R242). -/
def State.spanPast (s : State) : Int := (s.span.gap.map fun g => max g s.tick.hw).getD s.tick.hw

/-- SPAN_TICK_DUE: span time has reached T of the first waiting tick. A tick that this device does not issue (no ticks are
issued, SYNCED reads 0, or its line has been passed) is discarded; one whose predecessors are missing waits; the counter's
high-water mark passes the lines given up with the tick that is issued next (R242). -/
def execSpanTickDue (s : State) : Host.Outcome State Fault Refusal :=
  .next (s.whenLive fun s =>
    match s.span.ticks with
    | [] => s
    | (pos, entry, t, _) :: rest =>
      let n := packetLine pos
      let drop := { s with span := { s.span with ticks := rest } }
      if s.span.time < t then s
      else if !s.issuing || decide (n ≤ s.spanPast) || (!s.on SPAN_CTL_MASTER && !s.on SPAN_STAT_SYNCED) then drop
      else if n = s.spanPast + 1 then (drop.gapEmit n).tickIssue n (t : Nat) entry
      else s)

/-- TICK_GAP: a tick period past T of the first waiting tick, the lines before it have no packet: they are not ticked. -/
def execTickGap (s : State) : Host.Outcome State Fault Refusal :=
  .next (s.whenLive fun s =>
    match s.span.ticks with
    | [] => s
    | (pos, _, t, _) :: _ =>
      let n := packetLine pos
      if s.issuing && !s.on SPAN_CTL_MASTER && s.on SPAN_STAT_SYNCED && decide (t ≤ s.span.time) && decide (s.spanPast + 1 < n) then
        let first := s.spanPast + 1
        ({ s with span := { s.span with gap := some (n - 1) } }.raise SPAN_STAT_TICK_GAP).gapLines first (n - 1)
      else s)

/-- TSYNC_MEASURE: the offsets of domains A and B from the master's, measured at one span-time instant (R243). -/
def execTsyncMeasure (a b : Word) (s : State) : Host.Outcome State Fault Refusal :=
  .next (s.whenLive fun s =>
    if s.on SPAN_CTL_EN && s.on SPAN_CTL_TSYNC && !s.on SPAN_CTL_MASTER then (s.timeOfsWrite 0 a).timeOfsWrite 1 b else s)

/-! ### Halo lines (R244) -/

/-- HALO_LINE: the oldest packet of channel 3 of port p, whose layout is not described: the sending entry, the line's header
(R101 as R244 changes it) and its pixels are the operands (log 16). -/
def execHaloLine (p k : Fin 2) (hdr pixels : List Byte) (s : State) : Host.Outcome State Fault Refusal :=
  .next (s.whenLive fun s =>
    let q := s.spanPort p
    match q.inbox.find? (·.ch == 3) with
    | none => s
    | some x =>
      let s := s.updSpan p fun q => { q with inbox := q.inbox.erase x }
      let i := 2 * p.val + k.val
      let e := s.fld SPAN_HRX_ENG i
      match s.engRing e (s.fld SPAN_HRX_RING i) with
      | none => s
      | some r =>
        if q.st != .up || !s.on SPAN_HRX_V i || r.kind != 2 then s
        else
          let h := fit 32 hdr
          let slot := r.slotOf (toSigned 48 (hdrLine h))
          let (res, s) :=
            if (leNat ((h.drop 11).take 1)).testBit 0 then (rOK, s)
            else s.busWrite 37 (stripeBase e + r.slotOfs slot) (pixels.take r.pitch)
          if res = rOK then (s.busWrite 37 (stripeBase e + r.hdrOfs slot) h).2 else s)

end Sys2Proof.Machine
end

