-- ==== Sys2Proof/Machine/Cxl.lean ====
section
/-!
DEFINITION. Sys2Proof/Machine/Cxl.lean: the march-test engine Blotter (R257–R260), the clearing of banks (R261), and the CXL ports
and window decoders (R262–R270).
-/
namespace Sys2Proof.Machine

/-! ### Banks (R255, R259, R261) -/

/-- Bank of the shared pool that holds an offset. -/
def poolBank (ofs : Nat) : Nat := ofs / 32 % 32

/-- Banks b (0–15 stripe banks, 16–47 shared-pool banks) cleared to zero. -/
def clearBanksMem (m : Memory) (clear : Nat → Bool) : Memory :=
  m.filter fun c =>
    let a := c.1
    if 0x10000000 ≤ a ∧ a < 0x13000000 then !clear ((a - 0x10000000) / 0x300000)
    else if poolBase ≤ a ∧ a < poolBase + 0x1000000 then !clear (16 + poolBank (a - poolBase))
    else true

/-- Bus addresses of the first bytes of the words of a row: of a stripe bank one word of 512 bytes, of a shared-pool bank 32
words of 32 bytes. -/
def rowWords (b row : Nat) : List (Nat × Nat) :=
  if b < 16 then [(stripeBase b + row * 512, 512)]
  else (List.range 32).map fun w => (poolBase + 1024 * (32 * row + w) + 32 * (b - 16), 32)

/-- What a row that failed without a spare keeps is not stated: free bytes (R259). -/
def State.rowLost (s : State) (b row : Nat) : State :=
  (rowWords b row).foldl (fun s (a, n) =>
    let (bs, s) := s.freeBytes n
    { s with mem := memWrite s.mem a bs }) s

/-- Rows of a bank. -/
def bankRows (b : Nat) : Nat := if b < 16 then 6144 else 512

/-- A row of a bank fails (R259). -/
def State.rowFail (s : State) (preserving : Bool) (b row : Nat) : State :=
  let s := (s.setFld MEM_BLT_FAIL_BANK 0 b).setFld MEM_BLT_FAIL_ROW 0 row
  let used := s.fld MEM_RPR_USED b
  if used < 4 then
    ((s.setFld MEM_RPR_USED b (used + 1)).setFld MEM_RPR_LASTROW b row).raise MEM_STAT_REPAIRED
  else
    let s := ((s.setFld MEM_RPR_FAILED b 1).raise MEM_STAT_UNREPAIRED).irq "UNREPAIRED"
    if preserving then s.rowLost b row else s

/-! ### Blotter (R257–R260) -/

/-- A test takes a bank in. -/
def BltTest.has (t : BltTest) (b : Nat) : Bool := if b < 16 then t.sb.testBit b else t.sp.testBit (b - 16)

/-- A test ends with a result. -/
def State.bltEnd (s : State) (res : Nat) : State :=
  (({ s with blt := none }.setFld MEM_BLT_RES_RESULT 0 res).setFld MEM_BLT_RES_DONE 0 1).setFld MEM_BLT_RES_BUSY 0 0

/-- A DESTRUCTIVE test of these banks is accepted from a master (R258). -/
def State.bltMay (s : State) (m sb sp : Nat) : Bool :=
  (sb == 0 || (s.inHold && (List.range 16).all fun e =>
    !sb.testBit e || (s.eng e).st == .empty || (s.eng e).st == .loaded))
  && (sp == 0 || (m == 48 && !s.pwr.booted))

/-- Blocks of 4 KiB of a bank, and of the banks of a test (R258). -/
def bankBlocks (b : Nat) : Nat := if b < 16 then 768 else 128
def BltTest.blocks (t : BltTest) : Nat := (((List.range 48).filter t.has).map bankBlocks).sum

/-- Bank and block at a place in the order of these banks. -/
def blockAt : List Nat → Nat → Nat × Nat
  | [], _ => (0, 0)
  | b :: bs, p => if p < bankBlocks b ∨ bs.isEmpty then (b, min p (bankBlocks b - 1)) else blockAt bs (p - bankBlocks b)

/-- How far a PRESERVING test has come when MEM_BLT_RES is read is a matter of the cycles it gets: a free place, never before the last
one shown (R258, log 125). A DESTRUCTIVE test takes its banks in parallel and shows the first. -/
def State.bltPos (s : State) : Option (Nat × Nat × Nat) :=
  match s.blt with
  | some t => if t.preserving then
      let p := t.pos + s.free % max 1 (t.blocks - t.pos)
      some (p, blockAt ((List.range 48).filter t.has) p)
    else none
  | none => none

/-- A read of MEM_BLT_RES. -/
def State.bltRead (s : State) : State :=
  match s.bltPos with
  | some (p, b, k) =>
    let s := { s.drawn with blt := s.blt.map fun (t : BltTest) => { t with pos := p } }
    (s.setFld MEM_BLT_RES_BANK 0 b).setFld MEM_BLT_RES_BLOCK 0 k
  | none => s

/-- A write of MEM_BLT_CTL. -/
def State.bltCtlWrite (s : State) (m : Nat) (v : Word) : State :=
  let s := s.regStore .MEM_BLT_CTL 0 v
  if !v.getLsbD 0 then s
  else if s.on MEM_BLT_RES_BUSY then s.cfgErr .MEM_BLT_CTL
  else
    let sb := s.fld MEM_BLT_SB_SB
    let sp := s.fld MEM_BLT_SP_SP
    let pres := s.on MEM_BLT_CTL_MODE
    if sb = 0 ∧ sp = 0 then s.bltEnd rRANGE
    else if !pres && !s.bltMay m sb sp then s.bltEnd rSTATE_REFUSED
    else
      let t : BltTest := { preserving := pres, alg := s.fld MEM_BLT_CTL_ALG, sb := sb, sp := sp }
      let first := ((List.range 48).find? t.has).getD 0
      let s := { s with blt := some t }
      let s := (s.setFld MEM_BLT_RES_DONE 0 0).setFld MEM_BLT_RES_BUSY 0 1
      (s.setFld MEM_BLT_RES_BANK 0 first).setFld MEM_BLT_RES_BLOCK 0 0

/-- BLOTTER_START: a write of MEM_BLT_CTL with START = 1. -/
def execBlotterStart (m : Master) (v : Word) (s : State) : Host.Outcome State Fault Refusal :=
  .next (s.guardWrite m .MEM_BLT_CTL 0 (·.bltCtlWrite m (v ||| 1)))

/-- The test in progress has found these rows to fail, in this order, and ends with OK; a DESTRUCTIVE test leaves zeros. -/
def State.bltDone (s : State) (fails : List (Nat × Nat)) : State :=
  match s.blt with
  | none => s
  | some t =>
    let fails := fails.filter fun (b, r) => decide (b < 48) && t.has b && decide (r < bankRows b)
    let last := ((List.range 48).filter t.has).getLast?.getD 0
    let s := if t.preserving then s else { s with mem := clearBanksMem s.mem t.has }
    let s := fails.foldl (fun s (b, r) => s.rowFail t.preserving b r) s
    (s.setFld MEM_BLT_RES_BANK 0 last).bltEnd rOK

/-- BLOTTER_DONE: the test in progress ends; the operand lists the failing rows (bank, row). -/
def execBlotterDone (fails : List (Nat × Nat)) (s : State) : Host.Outcome State Fault Refusal :=
  .next (s.whenLive (·.bltDone fails))

/-- Standby entry ends a test (R260). -/
def State.bltStandby (s : State) : State := if s.blt.isSome then (s.bltEnd rERROR).raise MEM_STAT_BLT_ABORT else s

/-- A write of CXL_P_CMD (R269). -/
def State.cxlCmdWrite (s : State) (p : Nat) (v : Word) : State :=
  if !v.getLsbD 0 then s
  else
    let c := s.cxlp p
    let ok := c.frozen && c.logrd && c.st == .up
    let s := if ok then s.updCxl p fun c => { c with frozen := false } else s
    (s.setFld CXL_P_CMDRES_RESULT p (if ok then rOK else rSTATE_REFUSED)).setFld CXL_P_CMDRES_DONE p 1

/-- UNFREEZE: a write of CXL_P_CMD with UNFREEZE = 1. -/
def execUnfreeze (m : Master) (p : Fin 4) (v : Word) (s : State) : Host.Outcome State Fault Refusal :=
  .next (s.guardWrite m .CXL_P_CMD p (·.cxlCmdWrite p (v ||| 1)))

/-- A read of CXL_P_LOG_INFO. -/
def State.cxlLogRead (s : State) (p : Nat) : State := s.updCxl p fun c => { c with logrd := true }

/-- LOG_INFO_READ: a read of CXL_P_LOG_INFO. -/
def execLogInfoRead (m : Master) (p : Fin 4) (s : State) : Host.Outcome State Fault Refusal :=
  .next (s.guardRead m .CXL_P_LOG_INFO p (·.reg .CXL_P_LOG_INFO p) (·.cxlLogRead p))

/-- POISON_ENTRY_CLEAR: a write of V = 0 to a poison-list entry. -/
def execPoisonEntryClear (m : Master) (p : Fin 4) (i : Fin 8) (v : Word) (s : State) : Host.Outcome State Fault Refusal :=
  .next (s.guardWrite m .CXL_P_PL_LO (p.val * 8 + i.val) (·.regStore .CXL_P_PL_LO (p.val * 8 + i.val) (v &&& 0xFFFFFFFE)))

/-! ### Ports (R262, R263, R270) -/

/-- A write of CXL_P_CTL. Requests that wait when the port is disabled stay unanswered and time out (R265; DEDUCED, log 123). -/
def State.cxlCtlWrite (s : State) (p : Nat) (v : Word) : State :=
  let old := s.on CXL_P_CTL_EN p
  let s := s.regStore .CXL_P_CTL p v
  let new := s.on CXL_P_CTL_EN p
  if !old && new then s.updCxl p fun c => { c with st := .training }
  else if old && !new then
    s.updCxl p fun c => { c with st := .down, early := [] }
  else s

/-- CXL_PORT_ENABLE: a write of CXL_P_CTL with EN = 1. -/
def execCxlPortEnable (m : Master) (p : Fin 4) (v : Word) (s : State) : Host.Outcome State Fault Refusal :=
  .next (s.guardWrite m .CXL_P_CTL p (·.cxlCtlWrite p (v ||| 1)))

/-- Training of a port ends with a partner of R262 at a rate and width, or with none, which leaves the port DOWN. A port
whose device was not in self-refresh comes up frozen (R271). -/
def State.cxlTrained (s : State) (p : Nat) (ok rate32 x4 : Bool) : State :=
  if (s.cxlp p).st != .training then s
  else if !ok then s.updCxl p fun c => { c with st := .down }
  else
    let lost := (s.cxlp p).srLost
    let slow := rate32 || s.on CXL_P_CTL_MAXRATE p
    let s := s.updCxl p fun c => { c with
      st := .up, rate32 := slow, x4 := x4, srLost := false
      frozen := c.frozen || lost, logrd := c.logrd && !lost }
    s.raiseIf lost CXL_P_STAT_SR_LOST p

/-- CXL_LINK_UP: the training of a port ends. -/
def execCxlLinkUp (p : Fin 4) (ok rate32 x4 : Bool) (s : State) : Host.Outcome State Fault Refusal :=
  .next (s.whenLive (·.cxlTrained p ok rate32 x4))

/-- A write of CXL_P_CFGA: GO issues an access unless one is in progress. -/
def State.cxlCfgWrite (s : State) (p : Nat) (v : Word) : State :=
  let s := s.regStore .CXL_P_CFGA p v
  if !v.getLsbD 31 || s.on CXL_P_CFGRES_BUSY p then s
  else (s.setFld CXL_P_CFGRES_DONE p 0).setFld CXL_P_CFGRES_BUSY p 1

/-- CXL_CFG_ACCESS: a write of CXL_P_CFGA with GO = 1. -/
def execCxlCfgAccess (m : Master) (p : Fin 4) (v : Word) (s : State) : Host.Outcome State Fault Refusal :=
  .next (s.guardWrite m .CXL_P_CFGA p (·.cxlCfgWrite p (v ||| 0x80000000)))

/-- CXL_CFG_DONE: the access in progress completes, a read with data, or does not. -/
def execCxlCfgDone (p : Fin 4) (ok : Bool) (data : Word) (s : State) : Host.Outcome State Fault Refusal :=
  .next (s.whenLive fun s =>
    if s.on CXL_P_CFGRES_BUSY p then
      let s := ((s.setFld CXL_P_CFGRES_RESULT p (if ok then rOK else rERROR)).setFld CXL_P_CFGRES_DONE p 1).setFld
        CXL_P_CFGRES_BUSY p 0
      if ok && !s.on CXL_P_CFGA_WRITE p then s.setReg .CXL_P_CFGD p data else s
    else s)

/-- INBOUND: the device sends a request of its own. -/
def execInbound (p : Fin 4) (s : State) : Host.Outcome State Fault Refusal :=
  .next (s.whenLive fun s =>
    if (s.cxlp p).st == .up || (s.cxlp p).st == .l1 then s.raise CXL_P_STAT_INBOUND p else s)

/-- L1_ENTRY: no request for L1TIME µs. -/
def execL1Entry (p : Fin 4) (s : State) : Host.Outcome State Fault Refusal :=
  .next (if s.inHold && s.on CXL_P_CTL_L1_EN p && (s.cxlp p).st == .up && (s.cxlp p).outst.isEmpty then
      s.updCxl p fun c => { c with st := .l1 }
    else s)

/-! ### Window decoders (R264) -/

/-- Device range of decoder k on each of its targets. -/
def State.decDpa (s : State) (k : Nat) : Nat × Nat := (s.fld CXL_DEC_DPA_DPA k * 2 ^ 28, s.decSize k / s.decWays k)

/-- The check of decoder k: OK, RANGE or OVERLAP. -/
def State.decCheck (s : State) (k : Nat) : Nat :=
  let size := s.fld CXL_DEC_SIZE_SIZE k
  let base := s.fld CXL_DEC_BASE_BASE k
  let ways := s.fld CXL_DEC_CTL_WAYS k
  let tgts := s.decTgts k
  let others := [0, 1, 2, 3].filter fun j => j != k && s.on CXL_DEC_CTL_EN j
  if ways = 3 ∨ size = 0 ∨ size % 2 ^ ways ≠ 0 then rRANGE
  else if base < 0x100 ∨ 0x900 < base + size then rRANGE
  else if others.any fun j => rangesMeet (s.decBase k, s.decSize k) (s.decBase j, s.decSize j) then rOVERLAP
  else if !decide tgts.Nodup then rRANGE
  else if others.any fun j => (s.decTgts j).any tgts.contains && rangesMeet (s.decDpa k) (s.decDpa j) then rOVERLAP
  else rOK

/-- A write of CXL_DEC_CTL_k. -/
def State.decCtlWrite (s : State) (k : Nat) (v : Word) : State :=
  let s := s.regStore .CXL_DEC_CTL k v
  if !s.inHold || !v.getLsbD 0 then s
  else
    let r := s.decCheck k
    let s := (s.setFld CXL_DEC_RES_RESULT 0 r).setFld CXL_DEC_RES_DEC 0 k
    if r = rOK then s else (s.setFld CXL_DEC_CTL_EN k 0).raise CXL_DEC_RES_DEC_ERR

/-- DECODER_ENABLE: a write of CXL_DEC_CTL_k with EN = 1. -/
def execDecoderEnable (m : Master) (k : Fin 4) (v : Word) (s : State) : Host.Outcome State Fault Refusal :=
  .next (s.guardWrite m .CXL_DEC_CTL k (·.decCtlWrite k (v ||| 1)))

end Sys2Proof.Machine
end

