-- ==== Sys2Proof/Machine/Service.lean ====
section
/-!
DEFINITION. Sys2Proof/Machine/Service.lean: the ETH block: mailbox registers, the hardware actions of core 0, and the
receive and transmit sides of the management ports (R290–R296, R302, R314).
-/
namespace Sys2Proof.Machine

/-! ### Mailbox registers (R290, R292) -/

/-- What the target would still answer to an earlier request of mailbox n is discarded: a commit's reply of the Flacon, and the line
of a splice that is not fixed yet (R292). -/
def State.mbForget (s : State) (n : Nat) : State :=
  if n = 4 then { s with fl := { s.fl with commits := s.fl.commits.map fun c => { c with reply := none } } }
  else if n = 0 then { s with boot := { s.boot with splice := s.boot.splice.map fun sp => { sp with mail := false } } }
  else s

/-- A request is delivered: BUSY reads 1 and DONE 0. -/
def State.mbPost (s : State) (n : Nat) : State :=
  let ws := (List.range 8).map fun i => s.reg .ETH_MB_REQ (n * 8 + i)
  let s := ((s.mbForget n).setFld ETH_MB_CTL_BUSY n 1).setFld ETH_MB_CTL_DONE n 0
  { s with mboxes := put { req := some ws } s.mboxes n }

/-- A write of ETH_MBn_CTL: GO delivers the request, or sets MB_BUSYW while BUSY reads 1. -/
def State.mbCtlWrite (s : State) (n : Nat) (v : Word) : State :=
  if !v.getLsbD 0 then s
  else if s.on ETH_MB_CTL_BUSY n then s.raise ETH_MB_STAT_MB_BUSYW
  else s.mbPost n

/-- MAILBOX_GO: a write of ETH_MBn_CTL with GO set. -/
def execMailboxGo (m : Master) (n : Fin 5) (v : Word) (s : State) : Host.Outcome State Fault Refusal :=
  .next (s.guardWrite m .ETH_MB_CTL n (·.mbCtlWrite n (v ||| 1)))

/-- Opcodes a mailbox accepts (R291, R324, R331, R370, R405). -/
def mbOpcodes (n : Nat) : List Nat :=
  if n = 0 then [1, 2, 3] else if n = 1 then [1, 2] else if n = 2 then [1] else [1, 2, 3, 4, 5, 6, 7, 8]

/-- What an opcode the target does not know ends with: RANGE, but on mailbox 4 what the Flacon's state gives every opcode it does not
accept there, and nothing while its core is not released (R370). -/
def State.mbUnknown (s : State) (n op : Nat) : Option Nat :=
  if n = 4 then (if s.fl.st = .boot then none else some ((s.fl.gate op).getD rRANGE)) else some rRANGE

/-- The reply the target has ready: the one it computed, or the refusal of an opcode it does not know. -/
def State.mbReady (s : State) (n : Nat) : Option (List Word) :=
  let b := s.mbox n
  match b.rsp, b.req with
  | some r, _ => some r
  | none, some ws =>
    let w := reqWord ws 0
    if (mbOpcodes n).contains (bits w 7 0) then none
    else (s.mbUnknown n (bits w 7 0)).map fun res =>
      (BitVec.ofNat 32 (res + 256 * bits w 15 8)) :: List.replicate 7 0
  | none, none => none

/-- A reply is written to RSP0–RSP7: DONE reads 1, BUSY 0, and the service cores are interrupted. -/
def State.mbDeliver (s : State) (n : Nat) (r : List Word) : State :=
  let s := (List.range 8).foldl (fun s i => s.setReg .ETH_MB_RSP (n * 8 + i) (r.getD i 0)) s
  let s := (s.setFld ETH_MB_CTL_BUSY n 0).setFld ETH_MB_CTL_DONE n 1
  { s with mboxes := put {} s.mboxes n }.irq "MAILBOX"

/-- A request unanswered after 10 ms ends with ERROR in RSP0 and the request's tag (R290, R292). -/
def State.mbExpire (s : State) (n : Nat) : State :=
  match (s.mbox n).req with
  | some ws =>
    ((s.mbForget n).raise ETH_MB_STAT_MB_TO).mbDeliver n
      ((BitVec.ofNat 32 (rERROR + 256 * bits (reqWord ws 0) 15 8)) :: List.replicate 7 0)
  | none => s

/-! ### INSTALL through mailbox 4 (R369, R370) -/

/-- INSTALL (R369): the image lies in the shared pool, where the Flacon core reads it as master 49; a part refused to it reads as 0
(R10). A verified image is written into the inactive slot; an activation that would
overflow EVCNT is refused here (R366). -/
def State.flInstall (s : State) (adr len : Nat) : State :=
  let f := s.fl
  if !f.sealOpen then s.mbAnswer 4 rDENIED
  else if 0x30000 < len ∨ adr < 0x14000000 ∨ 0x15000000 < adr + len then s.mbAnswer 4 rRANGE
  else
    let (_, img, s) := s.busRead 49 adr len
    if !flImageOk f.romKey img then s.mbAnswer 4 rAUTH_FAIL
    else if f.chgFull then s.mbAnswer 4 rRANGE
    else (s.updFl fun f => { f with fram := memWrite f.fram (if f.slotB then 0x10000 else 0x40000) img }).flDone true

/-- INSTALL: mailbox 4, opcode 0x08. -/
def execInstall (s : State) : Host.Outcome State Fault Refusal :=
  .next (s.whenLive fun s => s.flOp 8 fun ws s =>
    s.flInstall (reqWord ws 1 + 2 ^ 32 * (reqWord ws 2 % 256)) (reqWord ws 3))

/-! ### Hardware actions (R302, R314) -/

/-- The channels set in ETH_EXPDMA. -/
def State.exportChannels (s : State) : List Nat := (List.range 16).filter fun k => (s.reg .ETH_EXPDMA).getLsbD k

/-- PAUSE to every export channel that is RUNNING; RPT's channel is never paused. -/
def State.exportPause (s : State) : State :=
  s.exportChannels.foldl (fun s k =>
    if (s.dma k).st == .running && !s.dmaRpt k then s.dmaPause k else s) s

/-- The paused export channels resume. -/
def State.exportResume (s : State) : State :=
  s.exportChannels.foldl (fun s k =>
    if (s.dma k).st == .paused && !s.dmaRpt k then s.dmaResume k else s) s

/-- ETH_HWACT takes writes from core 0 and the root core only (R314). -/
def hwactMaster (m : Nat) : Bool := m == 40 || m == 48

/-- A write of ETH_HWACT that comes in the cycle of the next one waits for it. -/
def State.hwactHold (s : State) (m : Nat) (v : Word) : State :=
  if hwactMaster m then { s with hwHeld := some (v ||| s.hwHeld.getD 0) } else s

/-- A write of ETH_HWACT: of two writes in one cycle, a bit that either sets reads 1 afterwards (R314). -/
def State.hwactWrite (s : State) (m : Nat) (v : Word) : State :=
  if !hwactMaster m then s
  else
    let v := v ||| s.hwHeld.getD 0
    let s := { s with hwHeld := none }
    let was := s.on ETH_HWACT_STOP_EXPORT
    let s := s.regStore .ETH_HWACT 0 v
    let is := s.on ETH_HWACT_STOP_EXPORT
    let s := if is && !was then s.exportPause else if was && !is then s.exportResume else s
    let s := if v.getLsbD 2 then s.requestHold else s
    (s.ethNext 0).ethNext 1

/-- A write of ETH_HWACT that has a bit set. -/
def hwactGuard (m : Master) (b : Nat) (v : Word) (s : State) : State :=
  s.guardWrite m .ETH_HWACT 0 (·.hwactWrite m (v ||| BitVec.ofNat 32 (2 ^ b)))

/-- HWACT_STOP_REPORTS: a write that sets STOP_REPORTS stops transmit queue 2. -/
def execHwactStopReports (m : Master) (v : Word) (s : State) : Host.Outcome State Fault Refusal :=
  .next (hwactGuard m 0 v s)

/-- HWACT_STOP_EXPORT: a write that sets STOP_EXPORT stops transmit queue 3 and pauses the export channels. -/
def execHwactStopExport (m : Master) (v : Word) (s : State) : Host.Outcome State Fault Refusal :=
  .next (hwactGuard m 1 v s)

/-- HOLD_REQ: a write that sets HOLD_REQ requests Hold. -/
def execHoldReq (m : Master) (v : Word) (s : State) : Host.Outcome State Fault Refusal :=
  .next (hwactGuard m 2 v s)

/-! ### Ports (R294–R296) -/

/-- A write of ETH_p_CTL: a port that has just been enabled takes its next frame. -/
def State.ethCtlWrite (s : State) (p : Nat) (v : Word) : State := (s.regStore .ETH_CTL p v).ethNext p

/-- ETH_FRAME_SENT: the frame on the wire of port p ends, and the next one is taken in strict priority. -/
def execEthFrameSent (p : Fin 2) (s : State) : Host.Outcome State Fault Refusal :=
  .next (s.whenLive fun s =>
    let e := look {} s.eths p
    match e.wire with
    | some (q, m) =>
      let n := look 0 e.cut q + 1
      let e := if n < m.frames then { e with wire := none, tx := (q, m) :: e.tx, cut := put n e.cut q }
        else { e with wire := none, sent := m :: e.sent, cut := e.cut.filter (·.1 != q) }
      { s with eths := put e s.eths p }.ethNext p
    | none => s)

/-- SGMII_LINK_CHANGE: the link of port p goes down or comes up. -/
def execSgmiiLinkChange (p : Fin 2) (up : Bool) (s : State) : Host.Outcome State Fault Refusal :=
  .next (s.whenLive fun s =>
    let was := s.on ETH_STAT_LINK p
    let s := s.setFld ETH_STAT_LINK p up.toNat
    (s.raiseIf (was && !up) ETH_STAT_LINK_DOWN p).ethNext p)

/-- A big-endian 16-bit field of a frame. -/
def frameWord (f : List Byte) (i : Nat) : Nat := (f.getD i 0).toNat * 256 + (f.getD (i + 1) 0).toNat

/-- The VLAN priority of a frame, where it carries a tag. -/
def framePcp (f : List Byte) : Option Nat := if frameWord f 12 = 0x8100 then some (frameWord f 14 / 8192) else none

/-- Offset of the EtherType of a frame, past its VLAN tag. -/
def frameType (f : List Byte) : Nat := if frameWord f 12 = 0x8100 then 16 else 12

/-- IPv4 protocol and destination port of a frame, where it carries an unfragmented or first IPv4 fragment. -/
def framePort (f : List Byte) : Option (Nat × Nat) :=
  let t := frameType f
  if frameWord f t = 0x0800 ∧ frameWord f (t + 8) % 8192 = 0 then
    let ihl := (f.getD (t + 2) 0).toNat % 16 * 4
    some ((f.getD (t + 11) 0).toNat, frameWord f (t + 2 + ihl + 2))
  else none

/-- The receive queue a frame is steered to (R294); a frame that two rows name goes to the lower queue (DEDUCED, log 29). -/
def State.frameQueue (s : State) (p : Nat) (f : List Byte) : Nat :=
  let port := framePort f
  if (s.on ETH_CFLT_PORT_EN p && port == some (6, s.fld ETH_CFLT_CTL_PORT p))
      || (s.on ETH_CFLT_VLAN_EN p && framePcp f == some (s.fld ETH_CFLT_CTL_PCP p)) then 0
  else if port == some (17, 319) || port == some (17, 320) || frameWord f (frameType f) == 0x88F7 then 1
  else if port == some (6, 7412) then 2
  else 3

/-- A frame is a PTP event message: UDP port 319, or EtherType 0x88F7 with a message type below 4 (PRESUMED from IEEE 1588,
log 127). -/
def framePtp (f : List Byte) : Bool :=
  framePort f == some (17, 319)
    || (frameWord f (frameType f) == 0x88F7 && decide ((f.getD (frameType f + 2) 0).toNat % 16 < 4))

/-- The time of both domains now: seconds and nanoseconds of each (R296). -/
def State.ptpStamp (s : State) : List (Nat × Nat) := [0, 1].map fun x => ((s.dom x).sec, (s.dom x).ns)

/-- Frames held in a receive queue. -/
def EthPort.held (e : EthPort) (q : Nat) : Nat := (e.rx.filter fun f => f.1 == q).length

/-- Remove the oldest frame of a receive queue. -/
def dropFrame (q : Nat) : List (Nat × List Byte) → List (Nat × List Byte)
  | [] => []
  | e :: l => if e.1 = q then l else e :: dropFrame q l

/-- A frame arrives at a port: it takes a buffer, or is dropped where none is free (R295). Also whether it was taken. -/
def State.frameIn (s : State) (p : Nat) (f : List Byte) : Bool × State :=
  let e := look {} s.eths p
  let q := s.frameQueue p f
  let free := if q = 0 then decide (e.held 0 < 64) else decide (e.held 1 + e.held 2 + e.held 3 < 448)
  let stamps := if framePtp f then (f, s.ptpStamp) :: e.stamps else e.stamps
  if free then (true, { s with eths := put { e with rx := e.rx ++ [(q, f)], stamps := stamps } s.eths p })
  else (false, s.raise (if q = 0 then ETH_STAT_Q0_DROP else ETH_STAT_QX_DROP) p)

/-- Software returns the oldest frame of each of these receive queues. -/
def State.framesBack (s : State) (p : Nat) (back : List Nat) : State :=
  { s with eths := upd {} (fun e => { e with rx := back.foldl (fun l q => dropFrame q l) e.rx }) s.eths p }

end Sys2Proof.Machine
end

