-- ==== Sys2Proof/Machine/Power.lean ====
section
/-!
DEFINITION. Sys2Proof/Machine/Power.lean: the power states: Run entry, the Hold drain, Standby entry and Off (R271,
R392–R397, R418, R422).
-/
namespace Sys2Proof.Machine

/-- Result of the last command of SYS_PWRCMD. -/
def State.pwrRes (s : State) (res : Nat) (busy : Bool := false) : State :=
  ((s.setFld SYS_PWRRES_RESULT 0 res).setFld SYS_PWRRES_DONE 0 (!busy).toNat).setFld SYS_PWRRES_BUSY 0 busy.toNat

/-! ### Run entry (R393) -/

/-- Every CXL port leaves L1. -/
def State.cxlLeaveL1 (s : State) : State :=
  [0, 1, 2, 3].foldl (fun s p => if (s.cxlp p).st = .l1 then s.updCxl p fun c => { c with st := .up } else s) s

/-- The device is in Hold, and no Standby entry is under way: RUN and STANDBY are listed (R392, R397). -/
def State.inHoldIdle (s : State) : Bool := s.inHold && !s.pwr.entering

/-- Run begins with t₀ the mark plus 1, and with it the fixed-rate generator's first period (R30). What RPT holds for its next build step stays due then. -/
def State.runBegin (s : State) : State :=
  let hw := s.tick.hw
  let near := fun (d : Int) => min d (hw + 1)
  let r := s.rpt
  { s with
    pwr := { s.pwr with st := .run, t0 := (hw + 1).toNat }
    tick := { s.genStart.tick with ticked := [], past := s.tick.ticked.take 4 }
    rpt := { r with
      builtAt := hw
      wait := r.wait.map fun i => { i with due := near i.due }
      built := r.built.map fun b => { b with due := near b.due } } }

/-- A request for Run with an expected high-water mark: its result, and the state (R393, R406). -/
def State.runEntry (s : State) (mark : Nat) : Nat × State :=
  if !s.inHoldIdle then (rSTATE_REFUSED, s)
  else if !s.on SYS_PSTAT_VALID then (rSTATE_REFUSED, s.raise SYS_STAT_RUN_REFUSED)
  else
    let s := s.cxlLeaveL1
    if ofSigned 48 s.tick.hw = mark % 2 ^ 48 then (rOK, s.runBegin)
    else (rSTATE_REFUSED, s.raise SYS_STAT_RUN_REFUSED)

/-! ### Standby entry (R395, R271) -/

/-- PME_Turn_Off to each port that is UP (or in L1) and not frozen; a frozen port's link goes down without it. -/
def State.cxlSleep (s : State) : State :=
  [0, 1, 2, 3].foldl (fun s p =>
    let c := s.cxlp p
    if c.st = .up ∨ c.st = .l1 then
      if c.frozen then s.updCxl p fun c => { c with st := .down, srLost := true, outst := [] }
      else s.updCxl p fun c => { c with st := .up, pme := true }
    else if c.frozen then s.updCxl p fun c => { c with srLost := true }
    else s) s

/-- The last step: every domain but the always-on one loses power, which silences the producers in it, and LOCKED is cleared in
both time domains. -/
def State.standbyFinish (s : State) : State :=
  if s.pwr.entering && !(List.range 4).any (fun p => (s.cxlp p).pme) then
    let s := [0, 1].foldl (fun s x =>
      (s.setFld TIME_STAT_X_LOCKED x 0).updDom x fun d => { d with inWin := 0, outWin := 0 }) s
    { s with
      pwr := { s.pwr with st := .standby, entering := false }
      evt := { s.evt with level := s.evt.level.filter evtStandby } }
  else s

/-- Standby entry, up to the moment it waits for the CXL devices. -/
def State.standbyEnter (s : State) : State :=
  let s := if s.dbgLevel = 1 then s.dbgClose else s
  let s := s.markStandby.motStandby.bltStandby
  let s := { s with dmas := [], cmp := {}, pwr := { s.pwr with entering := true, wake := none } }
  s.cxlSleep.standbyFinish

/-- PME_TO_ACK: the device of port p is in self-refresh, and the link enters L2. -/
def execPmeToAck (p : Fin 4) (s : State) : Host.Outcome State Fault Refusal :=
  .next (s.whenLive fun s =>
    if (s.cxlp p).pme then (s.updCxl p fun c => { c with pme := false, st := .l2, outst := [] }).standbyFinish else s)

/-- SR_TO: 10 ms without PME_TO_Ack; the link of port p goes down all the same. -/
def execSrTo (p : Fin 4) (s : State) : Host.Outcome State Fault Refusal :=
  .next (s.whenLive fun s =>
    if (s.cxlp p).pme then
      ((s.updCxl p fun c => { c with pme := false, st := .down, srLost := true, outst := [] }).raise CXL_P_STAT_SR_TO p).standbyFinish
    else s)

/-! ### SYS_PWRCMD (R392–R397) -/

/-- The HOLD command: a drain in Run ends OK at the Hold entry; in Hold it is not listed and is refused (R392). -/
def State.pwrHold (s : State) : State :=
  if s.inRun then s.requestHold.pwrRes rOK true else s.pwrRes rSTATE_REFUSED

/-- The RUN command; with a HOLD in the same write, HOLD is taken and RUN is refused (R397). -/
def State.pwrRun (s : State) (held : Bool) : State :=
  if held && s.inHoldIdle then (s.raise SYS_STAT_RUN_REFUSED).pwrRes rSTATE_REFUSED
  else
    let (r, s) := s.runEntry (s.wide .SYS_RUNMARK_LO .SYS_RUNMARK_HI)
    s.pwrRes r

/-- The STANDBY command. -/
def State.pwrStandby (s : State) : State :=
  if s.inHoldIdle then (s.pwrRes rOK).standbyEnter else s.pwrRes rSTATE_REFUSED

/-- A write of SYS_PWRCMD: its bits are taken in the order HOLD, RUN, STANDBY (DEDUCED, log 30). -/
def State.pwrCmdWrite (s : State) (v : Word) : State :=
  let s := if v.getLsbD 2 then s.pwrHold else s
  let s := if v.getLsbD 0 then s.pwrRun (v.getLsbD 2) else s
  if v.getLsbD 1 then s.pwrStandby else s

/-- The write of SYS_PWRCMD that has one bit set. -/
def pwrCmdGuard (m : Master) (b : Nat) (v : Word) (s : State) : State :=
  s.guardWrite m .SYS_PWRCMD 0 (·.pwrCmdWrite (v ||| BitVec.ofNat 32 (2 ^ b)))

/-- PWRCMD_RUN: a write of RUN. -/
def execPwrcmdRun (m : Master) (v : Word) (s : State) : Host.Outcome State Fault Refusal := .next (pwrCmdGuard m 0 v s)

/-- PWRCMD_HOLD: a write of HOLD. -/
def execPwrcmdHold (m : Master) (v : Word) (s : State) : Host.Outcome State Fault Refusal := .next (pwrCmdGuard m 2 v s)

/-- PWRCMD_STANDBY: a write of STANDBY. -/
def execPwrcmdStandby (m : Master) (v : Word) (s : State) : Host.Outcome State Fault Refusal := .next (pwrCmdGuard m 1 v s)

/-! ### End of the drain (R394) -/

/-- RPT has queued the records for line L_h: drain tick L_h + D + 3 has come (R17), and nothing up to L_h is owed. -/
def State.drainOver (s : State) : Bool :=
  s.pwr.drain && decide (s.pwr.holdLine + s.depth + 3 ≤ s.pwr.drainAt)
    && (!s.on RPT_CTL_EN || (s.rptPast s.pwr.holdLine && !s.rptOwes s.pwr.holdLine))

/-- Hold is entered: engines are gated and HOLD_ENTRY occurs; a HOLD command that waited is done. -/
def State.holdEnter (s : State) : State :=
  let s := { s with pwr := { s.pwr with st := .hold, drain := false } }
  let s := if s.on SYS_PWRRES_BUSY then s.pwrRes rOK else s
  s.strobe [23]

/-! ### Off (R392, R397, R418, R419, R422) -/

/-- A register that fuses hold (R377). -/
def fuseReg (r : Reg) : Bool := r == .SEC_KPOL || r == .SEC_KPOLC

/-- What outlasts Off in SEC: the fuses. -/
def Sec.fuses (c : Sec) : Sec :=
  { lc := c.lc, lcc := c.lcc, devId := c.devId, secret := c.secret, keys := c.keys, revoked := c.revoked }

/-- The commits the partition still writes when PORST_N falls: those up to the last that PFAIL_N started, as bare records; any other
commit is lost, and the older record stands (R363, R419). -/
def Flacon.lastCommits (f : Flacon) : List FlCommit :=
  ((f.commits.reverse.dropWhile fun c => !c.onPfail).reverse).map fun c =>
    { record := c.record, slot := c.slot, seq := c.seq, onPfail := c.onPfail }

/-- What outlasts Off in the Flacon: its fuses, its ROM, its FRAM, the levels of its pins, and the commits it still writes. -/
def Flacon.kept (f : Flacon) : Flacon :=
  { gen := f.gen, secret := f.secret, devId := f.devId, romKey := f.romKey, fram := f.fram, installed := f.installed
    sealOpen := f.sealOpen, pfail := f.pfail, a := f.a, b := f.b, commits := f.lastCommits }

/-- A rail of the Flacon partition fails: the commits it was writing are lost (R419). -/
def State.flCut (s : State) : State := s.updFl fun f => { f with commits := [] }

/-- The device enters Off at once: fuses, FRAM, flash, the memory of the CXL devices, the levels at the pins and the
model's counter of free values remain, and the Flacon writes the commit that PFAIL_N started. -/
def State.powerOff (s : State) (trip : Bool) : State :=
  if s.pwr.st = .off then { s with pwr := { s.pwr with thermTrip := s.pwr.thermTrip || trip } }
  else
    { pending := s.pending
      regs := s.regs.filter fun e => fuseReg e.1.1
      pwr := { st := .off, thermTrip := s.pwr.thermTrip || trip }
      sec := s.sec.fuses
      encs := s.encs.map fun e => (e.1, { a := e.2.a, b := e.2.b, z := e.2.z })
      evt := {
        pins := s.evt.pins
        level := (s.evt.level.filter fun ch => ch == 19 || ch == 21) ++ s.evt.pins.map (24 + ·) }
      mem := s.mem.filter fun c => decide (0x1000000000 ≤ c.1)
      mot := { raw := s.mot.raw }
      fl := s.fl.kept
      boot := { flash := s.boot.flash, sel := s.boot.sel, chip := s.boot.chip }
      freeCtr := s.freeCtr }

/-- OFF_ENTRY: PORST_N is asserted. -/
def execOffEntry (s : State) : Host.Outcome State Fault Refusal := .next (s.powerOff false)

/-- RAIL_FAULT: a rail leaves its limits; `flacon`: one of VDD_AON, VDDIO_18 and VDDIO_33, without which no commit of the Flacon
completes, one still being written in Off included. -/
def execRailFault (flacon : Bool) (s : State) : Host.Outcome State Fault Refusal :=
  .next (if flacon then (s.powerOff false).flCut else s.powerOff false)

/-- THERMAL_TRIP: a sensor reads 120 °C or more; THERMTRIP_N is driven low. -/
def execThermalTrip (s : State) : Host.Outcome State Fault Refusal := .next (s.powerOff true)

end Sys2Proof.Machine
end

