-- ==== Sys2Proof/Machine/Router.lean ====
section
/-!
DEFINITION. Sys2Proof/Machine/Router.lean: the commands of the event router (R344–R353).
-/
namespace Sys2Proof.Machine

/-- An accepted change of level on event pin n (R351). -/
def State.evtPin (s : State) (n : Nat) (level : Bool) : State :=
  let pins := s.evt.pins.filter (· != n)
  { s with evt := { s.evt with pins := if level then n :: pins else pins } }.evtPinStrobe n

/-- EV_PIN_INPUT: the pin has been stable for FILT EVCLK cycles at a new level. -/
def execEvPinInput (n : Fin 24) (level : Bool) (s : State) : Host.Outcome State Fault Refusal :=
  .next (s.whenPowered fun s => s.evtPin n level)

/-- CAPTURE_READ: a read of word 7 of capture k. -/
def execCaptureRead (m : Master) (k : Fin 4) (s : State) : Host.Outcome State Fault Refusal :=
  .next (s.guardRead m .EVT_CAP (k * 8 + 7) (·.reg .EVT_CAP (k * 8 + 7)) (·.evtCapRead k))

/-- STRETCH_END: OPW EVCLK cycles after the last occurrence the pin is released. -/
def execStretchEnd (n : Fin 24) (s : State) : Host.Outcome State Fault Refusal :=
  .next (s.whenPowered fun s => { s with evt := { s.evt with stretch := s.evt.stretch.filter (· != n.val) } })

/-- RELAY_OUTPUT: the oldest delayed occurrence of relay n reaches its delay. -/
def execRelayOutput (n : Fin 8) (s : State) : Host.Outcome State Fault Refusal :=
  .next (s.whenPowered fun s =>
    let held := look 0 s.evt.rlyHeld n.val
    if held = 0 then s
    else { s with evt := { s.evt with rlyHeld := put (held - 1) s.evt.rlyHeld n.val } }.strobe [56 + n])

/-- RELAY_RESET: a write to EVT_RLY_DIV_n (`dly` false) or EVT_RLY_DLY_n. -/
def execRelayReset (m : Master) (n : Fin 8) (dly : Bool) (v : Word) (s : State) : Host.Outcome State Fault Refusal :=
  let r : Reg := if dly then .EVT_RLY_DLY else .EVT_RLY_DIV
  .next (s.guardWrite m r n (·.evtRlyWrite r n v))

/-- LINK_ENABLE_WRITE: a write to EVT_LNK_c_LO or EVT_LNK_c_HI. -/
def execLinkEnableWrite (m : Master) (c : Fin 45) (hi : Bool) (v : Word) (s : State) :
    Host.Outcome State Fault Refusal :=
  let r : Reg := if hi then .EVT_LNK_HI else .EVT_LNK_LO
  .next (s.guardWrite m r c (·.evtLnkWrite m r c v))

/-- SOFTWARE_TRIGGER: a write to EVT_SWTRIG. -/
def execSoftwareTrigger (m : Master) (v : Word) (s : State) : Host.Outcome State Fault Refusal :=
  .next (s.guardWrite m .EVT_SWTRIG 0 (·.evtSwWrite m v))

/-- OWNER_WRITE: a write to EVT_OWN_ch. -/
def execOwnerWrite (m : Master) (ch : Fin 64) (v : Word) (s : State) : Host.Outcome State Fault Refusal :=
  .next (s.guardWrite m .EVT_OWN ch (·.evtOwnWrite m ch v))

/-- EVT_LOCK: a write to EVT_LOCK; LOCK is set by a 1 and cleared only at exit from Off. -/
def execEvtLock (m : Master) (v : Word) (s : State) : Host.Outcome State Fault Refusal :=
  .next (s.guardWrite m .EVT_LOCK 0 (·.regStore .EVT_LOCK 0 v))

/-- WAKE_N_CHANGE: the WAKE_N pin changes; channel 21 is high while it is low. -/
def execWakeNChange (low : Bool) (s : State) : Host.Outcome State Fault Refusal :=
  .next (s.whenPowered fun s => if low then s.strobeUp 21 else s.strobeDown 21)

/-- PPS: a whole second of device time. -/
def execPps (s : State) : Host.Outcome State Fault Refusal :=
  .next (s.whenPowered fun s => s.strobe [22])

end Sys2Proof.Machine
end

