-- ==== Sys2Proof/Machine/Views.lean ====
section
/-!
DEFINITION. Sys2Proof/Machine/Views.lean: what a read of a register returns. A register that shows what a unit holds is
computed from that unit's state; every other register returns what is stored.
-/
namespace Sys2Proof.Machine

/-- Word i of a byte string. -/
def wordAt (l : List Byte) (i : Nat) : Nat := leNat ((l.drop (4 * i)).take 4)

/-- Bits gathered from a list of conditions, the first at bit 0. -/
def packBits : List Bool → Nat
  | [] => 0
  | b :: l => b.toNat + 2 * packBits l

/-- Codes of the states that registers show. -/
def LaneSt.code : LaneSt → Nat
  | .off => 0 | .hunt => 1 | .verify => 2 | .locked => 3 | .retrain => 4 | .failed => 5
def CamSt.code : CamSt → Nat
  | .off => 0 | .normal => 1 | .degraded => 2 | .stopped => 3
def EngSt.code : EngSt → Nat
  | .empty => 0 | .loaded => 1 | .armed => 2 | .running => 3 | .fault => 4
def SpanSt.code : SpanSt → Nat
  | .off => 0 | .down => 1 | .wait => 2 | .up => 3
def CxlSt.code : CxlSt → Nat
  | .down => 0 | .training => 1 | .up => 2 | .l1 => 3 | .l2 => 4
def DmaSt.code : DmaSt → Nat
  | .idle => 0 | .running => 1 | .pausing => 2 | .paused => 3 | .halted => 4
def MotSt.code : MotSt → Nat
  | .disabled => 0 | .idle => 1 | .moving => 2 | .stopping => 3 | .homing => 4 | .fault => 5
def CmpOwner.code : CmpOwner → Nat
  | .idle => 0 | .tile _ => 1 | .dma _ => 2

/-! ### 64-bit and 48-bit values, read LO first -/

/-- Line of the run in progress of engine e, or of its last run. -/
def State.seLine (s : State) (e : Nat) : Int := ((s.eng e).run.map (·.line)).getD (s.eng e).lastLine

/-- Observer position of encoder e as 48.16. -/
def State.encPos (s : State) (e : Nat) : Nat := ofSigned 64 (freeRound 12 ((s.enc e).p * 65536))

/-- Length of the open lot and its reverse travel, in µm. -/
def Flacon.lotLen (f : Flacon) : Nat := match f.lot with
  | some l => f.lenOf (f.h - l.h0)
  | none => 0
def Flacon.revLen (f : Flacon) : Nat := match f.lot with
  | some l => f.lenOf l.rev
  | none => 0

/-- The value that a LO register shows the low half of, and the HI register that a read of it latches. -/
def State.wideView (s : State) (r : Reg) (i : Nat) : Option (Reg × Nat) :=
  match r with
  | .SYS_T0_LO => some (.SYS_T0_HI, s.pwr.t0 % 2 ^ 48)
  | .SYS_HOLDLINE_LO => some (.SYS_HOLDLINE_HI, s.pwr.holdLine % 2 ^ 48)
  | .SYS_SPLICE_LO => some (.SYS_SPLICE_HI, s.boot.lastS)
  | .TICK_POS_LO => some (.TICK_POS_HI, s.posWord)
  | .TICK_PAGE_LO => some (.TICK_PAGE_HI, s.tick.page)
  | .ENC_POS_LO => some (.ENC_POS_HI, s.encPos i)
  | .SE_LINE_LO => some (.SE_LINE_HI, ofSigned 48 (s.seLine i))
  | .SIL_LINE_LO => some (.SIL_LINE_HI, ofSigned 48 s.sil.lastLine)
  | .CMP_IN_LO => some (.CMP_IN_HI, s.cmp.inBytes)
  | .CMP_OUT_LO => some (.CMP_OUT_HI, s.cmp.outBytes)
  | .FL_LEN_LO => some (.FL_LEN_HI, s.fl.len)
  | .FL_AREA_LO => some (.FL_AREA_HI, s.fl.area)
  | .FL_LOTLEN_LO => some (.FL_LOTLEN_HI, s.fl.lotLen)
  | .FL_REV_LO => some (.FL_REV_HI, s.fl.revLen)
  | .FL_POS_LO => some (.FL_POS_HI, ofSigned 64 s.fl.p)
  | .FL_FWID_LO => some (.FL_FWID_HI, leNat (fit 8 s.fl.fwid))
  | .FL_TKID_LO => some (.FL_TKID_HI, leNat (fit 8 s.fl.tkid))
  | _ => none

/-! ### The blocks -/

def State.viewSys (s : State) (r : Reg) (i : Nat) : Option Nat :=
  match r with
  | .SYS_PWRSTATE => some ((if s.inRun then 0 else 1) + 4 * s.pwr.drain.toNat)
  | .SEC_LC => some (s.lcState + 4 * s.sec.lcInvalid.toNat)
  | .SEC_DEVID_LO => some s.sec.devId
  | .SEC_DEVID_HI => some (s.sec.devId / 2 ^ 32)
  | .SEC_KEYCMD => some (s.fld SEC_KEYCMD_SLOT
      + 2 ^ 16 * packBits ([1, 2, 3, 4].map fun k => !(look [] s.sec.keys k).isEmpty)
      + 2 ^ 20 * packBits ([1, 2, 3, 4].map fun k => s.sec.revoked.contains k))
  | .SEC_IDPUB => some (if s.lcState = 1 ∨ s.lcState = 2 then wordAt (fit 60 s.sec.idPub) i else 0)
  | .SEC_MR => some (wordAt (s.mreg (i / 16)) (i % 16))
  | _ => none

/-- TICK_SPEED: lines/s with 8 fraction bits; 0 while the generator stands still (R30). -/
def State.tickSpeed (s : State) : Int :=
  if s.fld TICK_CTL_SRC = 3 ∧ !s.issuing then 0 else freeRound 16 (s.tick.speed * 256)

/-- The applied frequency is shown rounded down to its 8 fraction bits (DESIGN CHOICE, log 115). -/
def State.viewTick (s : State) (r : Reg) (i : Nat) : Option Nat :=
  match r with
  | .TICK_BEHIND => some (min 0xFFFFFFFF (s.tickLast - s.tick.line).toNat)
  | .TICK_SPEED => some (ofSigned 32 (clampInt (-2147483648) 2147483647 s.tickSpeed))
  | .TICK_HOLDADV => some (min 0xFFFFFFFF s.tick.holdAdv)
  | .TICK_SLACK => some (setBits (s.reg .TICK_SLACK i).toNat 3 0 (look [] s.tick.slack i).length)
  | .TICK_HIST => some (wordAt (look (List.replicate 32 0) s.tick.hist (i / 8)) (i % 8))
  | .TIME_NS => some (s.dom i).ns
  | .TIME_DEV_NS => some (s.dom s.pri).ns
  | .TIME_FREQ => some (ofSigned 32 ((s.dom i).freq / 256))
  | _ => none

def State.viewEnc (s : State) (r : Reg) (i : Nat) : Option Nat :=
  match r with
  | .ENC_SPEED => some (ofSigned 32 (freeRound 13 ((s.enc i).v * 16)))
  | .ENC_ACC => some (ofSigned 32 (freeRound 14 ((s.enc i).acc / 16)))
  | .ENC_IPOS => some (ofSigned 32 (s.enc i).count)
  | .ENC_PT_STAT => some (setBits (s.reg .ENC_PT_STAT i).toNat 31 16 s.pt.queue.length)
  | .LANE_STATE => let l := s.lane i
      some (l.st.code + 2 ^ 8 * s.fld LANE_CTL_PEAK i + 2 ^ 16 * l.height + 2 ^ 24 * min 63 l.eb.length)
  | .CAM_STATE => let c := s.cam i
      some (c.st.code + 4 * c.curWidth + 16 * c.curLanes + 256 * (if c.st = .stopped then c.cause else 0))
  | _ => none

/-- The ring a program declares, as the SE_RINGk registers show it. -/
def State.seRing (s : State) (i : Nat) : Option Ring := (s.eng (i / 8)).prog.bind fun p => p.rings[i % 8]?

def State.viewSe (s : State) (r : Reg) (i : Nat) : Option Nat :=
  match r with
  | .SE_LDRES => some (setBits (s.reg .SE_LDRES i).toNat 10 10 ((s.eng i).staged.isSome || !(s.eng i).nexts.isEmpty).toNat)
  | .SE_STATE => let g := s.eng i
      some (g.st.code + 8 * g.prog.isSome.toNat + 16 * g.fcause + 256 * ((g.prog.map (·.entry)).getD 0))
  | .SE_RING_A => some (match s.seRing i with
      | some r => r.base + 2 ^ 24 * r.kind + 2 ^ 31
      | none => 0)
  | .SE_RING_B => some (match s.seRing i with
      | some r => r.width % 16384 + 2 ^ 16 * r.depth + 2 ^ 24 * (r.elem % 2)
      | none => 0)
  | .SE_RING_C => some (match s.seRing i with
      | some r => r.hdr + 2 ^ 24 * r.h + 2 ^ 31 * r.req.toNat
      | none => 0)
  | .SE_RING_D => some (match s.seRing i with
      | some r => r.outlo + 2 ^ 16 * r.outhi
      | none => 0)
  | _ => none

def State.viewRef (s : State) (r : Reg) (i : Nat) : Option Nat :=
  match r with
  | .REF_PSTAT => some s.ref.queue.length
  | .REF_PID => some ((s.ref.pages.head?.map (·.id)).getD 0xFFFFFFFF)
  | .REF_TRK_MD => some (ofSigned 32 (freeRound 11 ((s.trk i).md * 65536)))
  | .REF_TRK_CD => some (ofSigned 32 (freeRound 11 ((s.trk i).cd * 65536)))
  | .REF_TRK_K => some (ofSigned 32 (freeRound 11 ((s.trk i).k * 1073741824)))
  | .REF_TRK_STAT => let t := s.trk i
      some ((freeRound 11 (t.q * 65536)).toNat % 65536 + 2 ^ 16 * t.lt.toNat + 2 ^ 24 * (t.gen % 256))
  | .SIL_OPEN => some (setBits (s.reg .SIL_OPEN i).toNat 14 0 s.silOpenCount)
  | .SIL_SATOPEN => some (packBits ((List.range 16).map fun e => s.sil.regions.any fun r => decide (r.slot = .sat e)))
  | .SIL_STAT => some (setBits (s.reg .SIL_STAT i).toNat 8 8 s.silFull.toNat)
  | .SIL_W => some (look 0 s.sil.w (1 - s.fld SIL_WSWAP_ACTIVE, i))
  | .RPT_MK_STAT => some (setBits (s.reg .RPT_MK_STAT i).toNat 24 16 (s.marker i).fires.length)
  | _ => none

/-- Word of the history entry of a CXL port. -/
def CxlReq.word (c : CxlReq) (i : Nat) : Nat :=
  if i = 0 then c.addr
  else if i = 1 then c.addr / 2 ^ 32 % 256 + 2 ^ 8 * (c.master % 64) + 2 ^ 16 * c.write.toNat + 2 ^ 17 * (c.lines % 128)
  else if i = 2 then c.time
  else c.result % 256

def State.viewLink (s : State) (r : Reg) (i : Nat) : Option Nat :=
  match r with
  | .SPAN_ID => some (setBits (s.reg .SPAN_ID i).toNat 1 0 s.span.chip)
  | .SPAN_PST => some ((s.spanPort i).st.code
      + 16 * packBits ([0, 1, 2, 3].map fun j => (s.lane (28 + 4 * i + j)).st == .locked))
  | .CXL_FROZEN => some (packBits ([0, 1, 2, 3].map fun p => (s.cxlp p).frozen)
      + 2 ^ 8 * packBits ([0, 1, 2, 3].map fun k => s.decFrozen k))
  | .CXL_P_STATE => let c := s.cxlp i
      some (c.st.code + 16 * c.rate32.toNat + 32 * c.x4.toNat + 256 * c.frozen.toNat + 512 * c.logrd.toNat)
  | .CXL_P_HDATA => some (match (s.cxlp (i / 4)).shown[s.fld CXL_P_HIDX_IDX (i / 4)]? with
      | some c => c.word (i % 4)
      | none => 0)
  | .MEM_BLT_RES => s.bltPos.map fun x => setBits (setBits (s.reg .MEM_BLT_RES i).toNat 21 16 x.2.1) 31 22 x.2.2
  | .DMA_STATE => let c := s.dma i
      some (c.st.code + 8 * (s.dmaRpt i).toNat + 16 * c.eng.getD 0 + 128 * c.eng.isSome.toNat)
  | .CMP_ENG => some ((List.range 8).foldl (fun a k => a + (s.cmpOwner k).code * 4 ^ k) 0)
  | .ETH_Q0FREE => some (64 - (look {} s.eths i).held 0)
  | .EVT_WIRE_LO => some (evtWireWord i)
  | .EVT_WIRE_HI => some (evtWireWord i / 2 ^ 32)
  | _ => none

def State.viewMot (s : State) (r : Reg) (i : Nat) : Option Nat :=
  match r with
  | .SIG_K_BANK => let c := s.sig i
      some (c.active.toNat + 2 * c.fade.isSome.toNat + 4 * c.queued.isSome.toNat
        + 8 * ((c.queued.map (·.1)).getD false).toNat + 256 * c.qres
        + 2 ^ 16 * ((c.fade.map fun f => f.2 - f.1).getD 0))
  | .SIG_K_STAT => let c := s.sig i
      some ((s.reg .SIG_K_STAT i).toNat % 2 ^ 16 + 2 ^ 16 * c.settle.toNat + 2 ^ 17 * (c.stuck || decide (256 ≤ c.same)).toNat
        + 2 ^ 18 * (c.badPk || c.badRms || c.badEnv).toNat)
  | .SIG_K_ENVV => some (ofSigned 16 (s.sig i).env)
  | .MOT_STATE => some (s.mot.st.code + 8 * s.mot.homed.toNat + 16 * s.mot.ss.toNat)
  | .MOT_POS => some (ofSigned 32 s.mot.pos)
  | .MOT_TGT => some (ofSigned 32 s.mot.tgt)
  | .MOT_VEL => some (ofSigned 32 (freeRound 17 s.mot.vel))
  | .MOT_OFS => some (ofSigned 16 s.mot.a.ofs + 2 ^ 16 * ofSigned 16 s.mot.b.ofs)
  | .MOT_IN => some ((s.mot.raw ^^^ s.fld MOT_LIM_POL) % 8 + 16 * (s.mot.raw % 8))
  | _ => none

def State.viewFl (s : State) (r : Reg) (i : Nat) : Option Nat :=
  match r with
  | .FL_STATE => some s.fl.stateWord
  | .FL_EVCNT => some s.fl.evcnt
  | .FL_FAULTCNT => some s.fl.faults
  | .FL_UNCLEAN => some s.fl.uncleanCnt
  | .FL_TICKNO => some s.fl.ticketNo
  | .FL_COMMIT => some s.fl.seq
  | .FL_PFORM => some (s.fl.form % 2 + 2 * (s.fl.dir % 2) + 2 ^ 16 * s.fl.finterp)
  | .FL_PNUM => some s.fl.num
  | .FL_PDEN => some s.fl.den
  | .FL_PWNOM => some s.fl.wnom
  | .FL_PPULSE => some s.fl.pulse
  | .FL_TICKET => some (wordAt (fit 256 s.fl.ticket) i)
  | .FL_TKEY => some (wordAt (fit 60 s.fl.tkey) i)
  | _ => none

/-- What a read of a register returns. -/
def State.view (s : State) (r : Reg) (i : Nat := 0) : Word :=
  match s.wideView r i with
  | some (_, v) => BitVec.ofNat 32 v
  | none =>
    match s.viewSys r i <|> s.viewTick r i <|> s.viewEnc r i <|> s.viewSe r i <|> s.viewRef r i
        <|> s.viewLink r i <|> s.viewMot r i <|> s.viewFl r i with
    | some v => BitVec.ofNat 32 v
    | none => s.reg r i

/-! ### What a read itself does (R9, R269, R353, R373) -/

/-- Latch a HI register, and the complements of the window's totals (R373). -/
def State.latchWide (s : State) (r hi : Reg) (i v : Nat) : State :=
  let s := s.setReg hi i (BitVec.ofNat 32 (v / 2 ^ 32))
  match r with
  | .FL_LEN_LO => s.setWide .FL_LENC_LO .FL_LENC_HI i (2 ^ 64 - 1 - v % 2 ^ 64)
  | .FL_AREA_LO => s.setWide .FL_AREAC_LO .FL_AREAC_HI i (2 ^ 64 - 1 - v % 2 ^ 64)
  | _ => s

/-- The effect of a read. -/
def State.readEffect (s : State) (r : Reg) (i : Nat) : State :=
  match s.wideView r i with
  | some (hi, v) => s.latchWide r hi i v
  | none =>
    match r with
    | .TIME_NS => s.setWide .TIME_SEC_LO .TIME_SEC_HI i ((s.dom i).sec % 2 ^ 48)
    | .TIME_DEV_NS => s.setWide .TIME_DEV_SEC_LO .TIME_DEV_SEC_HI 0 ((s.dom s.pri).sec % 2 ^ 48)
    | .CXL_P_LOG_INFO => s.cxlLogRead i
    | .MEM_BLT_RES => s.bltRead
    | .EVT_CAP => if i % 8 = 0 then s.evtCapBegin (i / 8) else if i % 8 = 7 then s.evtCapRead (i / 8) else s
    | _ => s

end Sys2Proof.Machine
end

