-- ==== Sys2Proof/Machine/Bus.lean ====
section
/-!
DEFINITION. Sys2Proof/Machine/Bus.lean: accesses to any address of the device: what a write of each register does, reads of
registers, the Flacon's read-only image window, and memory (R2–R10, R382–R385, R410).
-/
namespace Sys2Proof.Machine

/-! ### A write of any register -/

/-- A value write of an access-table pair: the bits of master 52 and bit 31 of the last page stay 0 (R4, R16, R382). -/
def State.atWrite (s : State) (i : Nat) (v : Word) : State :=
  let s := s.regStore .SEC_AT i v
  let w := s.reg .SEC_AT i
  let k := i % 8
  let drop : Word := if k = 1 then 0x80000000 else if k = 3 ∨ k = 5 ∨ k = 7 then 0x00100000 else 0
  if w &&& drop = 0 then s else s.storePair .SEC_AT i (w &&& ~~~ drop)

/-- Writes of the blocks SYS, SEC, TICK, TIME, ENC and LANE that do more than store. -/
def State.writeFront (s : State) (r : Reg) (i : Nat) (v : Word) : Option State :=
  match r with
  | .SYS_PWRCMD => some (s.pwrCmdWrite v)
  | .SEC_KEYCMD => some (s.keyWrite v)
  | .SEC_KPOL => some (s.kpolWrite i v)
  | .SEC_MRX => some (s.mrxWrite v)
  | .SEC_QCMD => some (s.quoteWrite v)
  | .SEC_CHALCMD => some (s.chalWrite v)
  | .SEC_LCCMD => some (s.lcWrite v)
  | .SEC_DBG => some (s.dbgWrite v)
  | .SEC_AT => some (s.atWrite i v)
  | .TICK_CTL => some (s.tickCtlWrite v)
  | .TICK_DEN => some (s.tickDenWrite v)
  | .TIME_OFS => some (s.timeOfsWrite i v)
  | .TIME_SET_NS => some (s.timeSetWrite i v)
  | .TIME_CTL => some (s.timeCtlWrite v)
  | .ENC_CTL => some (s.encCtlWrite i v)
  | .ENC_PT_CTL => some (s.ptWrite v)
  | .LANE_CTL => some (s.laneCtlWrite i v)
  | .LANE_ESCAN_CTL => some (s.laneScanWrite i v)
  | _ => none

/-- Writes of the blocks CAM, IU, SE, ACCORD, REF, SIL and RPT that do more than store. -/
def State.writeLine (s : State) (r : Reg) (i : Nat) (v : Word) : Option State :=
  match r with
  | .CAM_CTL => some (s.camCtlWrite i v)
  | .CAM_PIX => some (s.camPixWrite i v)
  | .CAM_REGCMD => some (s.camRegWrite i v)
  | .IU_TCMD => some (s.iuCmdWrite i v)
  | .IU_ACC_CTL => some (s.iuAccWrite i v)
  | .SE_CTL => some (s.seCtlWrite i v)
  | .SE_LDCMD => some (s.ldcmdWrite i v)
  | .ACCORD_CTL => some (s.accordCtlWrite v)
  | .ACCORD_MCHK_CMD => some (s.mapCmdWrite v)
  | .REF_CTL => some (s.refCtlWrite v)
  | .REF_CMD => some (s.refCmdWrite v)
  | .REF_RROWS => some (s.regStore .REF_RROWS i v).refGrant
  | .REF_PMAX => some (s.regStore .REF_PMAX i v).refGrant
  | .REF_FIRST_HI => some (s.refFirstHi v)
  | .REF_TRK_MD => some (s.trkWrite i 0 v)
  | .REF_TRK_CD => some (s.trkWrite i 1 v)
  | .REF_TRK_K => some (s.trkWrite i 2 v)
  | .SIL_CTL => some (s.silCtlWrite v)
  | .SIL_CMD => some (s.silCmdWrite v)
  | .SIL_WSWAP => some (s.silSwapWrite v)
  | .SIL_W => some (s.silWWrite i v)
  | .RPT_MK_CTL => some (s.mkCtlWrite i v)
  | _ => none

/-- Writes of the other blocks that do more than store. -/
def State.writeBack (s : State) (m : Nat) (r : Reg) (i : Nat) (v : Word) : Option State :=
  match r with
  | .SPAN_CTL => some (s.spanCtlWrite v)
  | .MEM_BLT_CTL => some (s.bltCtlWrite m v)
  | .CXL_DEC_CTL => some (s.decCtlWrite i v)
  | .CXL_P_CTL => some (s.cxlCtlWrite i v)
  | .CXL_P_CMD => some (s.cxlCmdWrite i v)
  | .CXL_P_CFGA => some (s.cxlCfgWrite i v)
  | .DMA_CMD => some (s.dmaCmdWrite i v)
  | .SIG_CMD => some (s.sigCmdWrite v)
  | .SIG_K_CFG => some (s.sigCfgWrite i v)
  | .SIG_COEF => some (s.sigCoefWrite i v)
  | .MOT_CTL => some (s.motCtlWrite v)
  | .MOT_D1 => some (s.motDecWrite .MOT_D1 v)
  | .MOT_D2 => some (s.motDecWrite .MOT_D2 v)
  | .EVT_LNK_LO => some (s.evtLnkWrite m .EVT_LNK_LO i v)
  | .EVT_LNK_HI => some (s.evtLnkWrite m .EVT_LNK_HI i v)
  | .EVT_SWTRIG => some (s.evtSwWrite m v)
  | .EVT_OWN => some (s.evtOwnWrite m i v)
  | .EVT_RLY_DIV => some (s.evtRlyWrite .EVT_RLY_DIV i v)
  | .EVT_RLY_DLY => some (s.evtRlyWrite .EVT_RLY_DLY i v)
  | .EVT_PIN => some (s.evtPinWrite i v)
  | .EVT_ISTAT => some (s.evtIstatWrite m v)
  | .ETH_CTL => some (s.ethCtlWrite i v)
  | .ETH_HWACT => some (s.hwactWrite m v)
  | .ETH_MB_CTL => some (s.mbCtlWrite i v)
  | .ETH_EMB_RD => some (s.embRdWrite v)
  | _ => none

/-- The effect of a permitted write of a register by a master. -/
def State.writeEffect (s : State) (m : Nat) (r : Reg) (i : Nat) (v : Word) : State :=
  match s.writeFront r i v <|> s.writeLine r i v <|> s.writeBack m r i v with
  | some s => s
  | none => s.regStore r i v

/-! ### Register space -/

/-- A master's write of `n` bytes at a register address: the response, with the state (R2, R3, R10). -/
def State.regWriteAt (s : State) (m a n : Nat) (v : Word) : State :=
  let t := regTarget a
  if !s.powered then s
  else if n ≠ 4 ∨ a % 4 ≠ 0 ∨ !s.answers t then { s with resp := { code := rERROR } }
  else match s.access m t (a % 2 ^ 20) 4 .w with
    | (false, s) => { s with resp := { code := rDENIED } }
    | (true, s1) =>
      let s1 := { s1 with resp := {} }
      match locate a with
      | some (r, i) => (s1.writeEffect m r i v).setWins s s1 r
      | none => s1

/-- Bytes the Flacon window shows beside its registers: the digest of the Flacon key and the loaded image (R410). -/
def State.flWindow (s : State) (ofs : Nat) : Word :=
  if 0xFF00 ≤ ofs ∧ ofs < 0xFF40 then BitVec.ofNat 32 (leNat (((fit 64 s.fl.romKey).drop (ofs - 0xFF00)).take 4))
  else if 0x10000 ≤ ofs ∧ ofs < 0x40000 then
    BitVec.ofNat 32 (memNat s.fl.fram (ofs + (if s.fl.slotB then 0x30000 else 0)) 4)
  else 0

/-- A master's read of `n` bytes at a register address: the response and the data (R2, R3, R10). -/
def State.regReadAt (s : State) (m a n : Nat) : State :=
  let t := regTarget a
  if !s.powered then s
  else if n ≠ 4 ∨ a % 4 ≠ 0 ∨ !s.answers t then { s with resp := { code := rERROR } }
  else match s.access m t (a % 2 ^ 20) 4 .r with
    | (false, s) => { s with resp := { code := rDENIED } }
    | (true, s) =>
      match locate a with
      | some (r, i) => { (s.readEffect r i) with resp := { code := rOK, data := (s.view r i).toNat } }
      | none => { s with resp := { code := rOK, data := if t = 43 then (s.flWindow (a % 2 ^ 20)).toNat else 0 } }

/-! ### Any address -/

/-- Words of a register span read one after another. -/
def State.regsRead (s : State) (m : Nat) : Nat → Nat → Nat × List Byte × State
  | _, 0 => (rOK, [], s)
  | a, n + 1 =>
    let s := s.regReadAt m a 4
    let r := s.resp.code
    let d := if r = rOK then leBytes 4 s.resp.data else leBytes 4 0
    let (r', ds, s) := s.regsRead m (a + 4) n
    (worse r r', d ++ ds, s)

/-- Words of a register span written one after another. -/
def State.regsWrite (s : State) (m : Nat) : Nat → Nat → List Byte → Nat × State
  | _, 0, _ => (rOK, s)
  | a, n + 1, bs =>
    let s := s.regWriteAt m a 4 (BitVec.ofNat 32 (leNat (bs.take 4)))
    let r := s.resp.code
    let (r', s) := s.regsWrite m (a + 4) n (bs.drop 4)
    (worse r r', s)

/-- Read any address as a master. A register answers only an aligned access of 32 bits (R2). -/
def State.anyRead (s : State) (m a n : Nat) : Nat × List Byte × State :=
  if regSpace a then
    let s := s.regReadAt m a n
    (s.resp.code, if s.resp.code = rOK then leBytes 4 s.resp.data else List.replicate n 0, s)
  else s.busRead m a n

/-- Write any address as a master. -/
def State.anyWrite (s : State) (m a : Nat) (bs : List Byte) : Nat × State :=
  if regSpace a then
    let s := s.regWriteAt m a bs.length (BitVec.ofNat 32 (leNat bs))
    (s.resp.code, s)
  else s.busWrite m a bs

/-- Memory answers now: all of it while the main domain is powered, in Standby the retained banks (R261, R398). -/
def State.memAnswers (s : State) (a n : Nat) : Bool :=
  s.live || (s.powered && match s.region a (min n 4) with
    | .sram t ofs => if t < 16 then s.retained t
      else s.retained (16 + ofs / 32 % 32) && s.retained (16 + (ofs + min n 4 - 1) / 32 % 32)
    | _ => false)

/-- A bus write of a word or part of one by a master, wherever it lies; its response is held. -/
def State.busPut (s : State) (m a n : Nat) (v : Word) : State :=
  if !s.hears m then s
  else if regSpace a then s.regWriteAt m a n v
  else if s.memAnswers a n then
    let (r, t) := s.busWrite m a (leBytes (min n 4) v.toNat)
    { t with resp := { code := r, collide := s.meet != t.meet } }
  else s

/-- A bus read of a word or part of one by a master, wherever it lies; its response is held. -/
def State.busGet (s : State) (m a n : Nat) : State :=
  if !s.hears m then s
  else if regSpace a then s.regReadAt m a n
  else if s.memAnswers a n then
    let (r, d, s) := s.busRead m a (min n 4)
    { s with resp := { code := r, data := leNat d } }
  else s

/-- A core writes a register at its bus address. -/
def State.coreWrite (s : State) (m : Nat) (r : Reg) (i : Nat) (v : Nat) : State :=
  s.regWriteAt m (regAddr r i) 4 (BitVec.ofNat 32 v)

/-! ### Commands -/

/-- A write into the shared pool by a master of port 0 that was answered OK meets the next port 1 write of its word, where the sender
says that both come in one cycle (R256, log 124). -/
def State.meets (s : State) (m a : Nat) : State :=
  if port0Masters.contains m ∧ s.resp.code = rOK ∧ poolBase ≤ a ∧ a < poolBase + 0x1000000 then
    { s with meet := some (m, (a - poolBase) / 32) }
  else s

/-- REGISTER_WRITE: a master writes `n` bytes at address `a`. A write of ETH_HWACT that comes in the cycle of the next one is carried
out with it (R314). -/
def execRegisterWrite (m : Master) (a n : Nat) (w : WriteData) (s : State) : Host.Outcome State Fault Refusal :=
  .next (if w.meets && n == 4 && a == regAddr .ETH_HWACT 0 then s.guardWrite m .ETH_HWACT 0 (·.hwactHold m w.data)
    else
      let t := s.busPut m a n w.data
      if w.meets && s.live then t.meets m a else t)

/-- COUNTER_CLEAR: a write, of any value, to the counter or peak register at address `a`. -/
def execCounterClear (m : Master) (a : Nat) (v : Word) (s : State) : Host.Outcome State Fault Refusal :=
  .next (s.busPut m a 4 v)

/-- RWC_COMPLEMENT_WRITE: a write to the complement register of an RW-C pair. -/
def execRwcComplementWrite (m : Master) (a : Nat) (v : Word) (s : State) : Host.Outcome State Fault Refusal :=
  .next (s.busPut m a 4 v)

/-- RWC_VALUE_WRITE: a write to the value register of an RW-C pair. -/
def execRwcValueWrite (m : Master) (a : Nat) (v : Word) (s : State) : Host.Outcome State Fault Refusal :=
  .next (s.busPut m a 4 v)

/-- LATCHING_READ: a master reads `n` bytes at address `a`. -/
def execLatchingRead (m : Master) (a n : Nat) (s : State) : Host.Outcome State Fault Refusal :=
  .next (s.busGet m a n)

end Sys2Proof.Machine
end

