-- ==== Sys2Proof/Machine/Profile.lean ====
section
/-!
DEFINITION. Sys2Proof/Machine/Profile.lean: profiles: their layout in the configuration image, the checks of R404, selection,
and splices (R400, R403–R408).
-/
namespace Sys2Proof.Machine

/-! ### Layout (R400, R403) -/

/-- A little-endian field of a byte string. -/
def imgN (b : List Byte) (i n : Nat) : Nat := leNat ((b.drop i).take n)

/-- The bytes of profile `n` in a configuration image, none where its directory entry is absent or leaves the image. -/
def profBytes (cfg : List Byte) (n : Nat) : Option (List Byte) :=
  let at_ := imgN cfg (64 + 16 * n) 4
  let len := imgN cfg (68 + 16 * n) 4
  if at_ = 0 ∨ cfg.length < at_ + len then none else some ((cfg.drop at_).take len)

/-- The header of a profile. -/
def profHdr (b : List Byte) : ProfHdr :=
  { number := imgN b 4 1, family := imgN b 5 1, engines := imgN b 6 1, d := imgN b 7 1, maxRate := imgN b 8 4
    lcam := imgN b 12 1, lmin := imgN b 13 1, depth := (List.range 12).map fun c => imgN b (14 + 2 * c) 2
    lampEn := imgN b 38 2, refCols := imgN b 40 4, rsh := imgN b 44 1, halo := imgN b 45 1 % 4
    name := (b.drop 48).take 32 }

/-- `k` items from offset `i` on, where all of them lie inside the profile. -/
def profItems (b : List Byte) : Nat → Nat → Option (List ProfItem)
  | 0, _ => some []
  | k + 1, i =>
    let len := imgN b (i + 2) 2
    let next := i + 8 + (len + 7) / 8 * 8
    if b.length < next then none
    else (profItems b k next).map fun l =>
      { typ := imgN b i 1, target := imgN b (i + 4) 4, data := (b.drop (i + 8)).take len } :: l

/-- Engines of a family member (R1). -/
def familyEngines (f : Nat) : Nat := if f = 1 then 1 else if f = 3 then 4 else if f = 6 then 8 else if f = 9 then 16 else 0

/-! ### Checks (R404) -/

/-- The value a REG item writes. -/
def ProfItem.value (i : ProfItem) : Nat := leNat (i.data.take 4)

/-- The registers as the REG items would leave them, for the checks made before any write. -/
def State.withItems (s : State) (items : List ProfItem) : State :=
  items.foldl (fun s i => if i.typ = 1 then
      match locate i.target with
      | some (r, k) => s.setReg r k (BitVec.ofNat 32 i.value)
      | none => s
    else s) s

/-- The delay of a lamp channel, in lines at the profile's maximum rate, rounded up (R320). -/
def State.lampDelay (s : State) (k rate : Nat) : Nat :=
  let dly : Rat := (37 * s.sigM k * s.fld SIG_CTL_SDDIV : Nat) / 200000000 + 1 / 1000000
  (dly * rate).ceil.toNat

/-- R20, R35, R37, R95 and R320 against a header; `t` is the state with the profile's register values. -/
def State.profRulesOk (t : State) (h : ProfHdr) : Bool :=
  let off := fun c => t.fld TICK_TOFF_I c
  let lamps := (List.range 12).filter fun c => h.lampEn.testBit c
  decide (1 ≤ h.maxRate ∧ h.maxRate ≤ 300000 ∧ 8 ≤ h.d)
    && decide (4 * h.refCols * h.maxRate ≤ 48000000000 * 2 ^ h.rsh)
    && (List.range 12).all (fun c => decide (off c + 1 ≤ h.depth.getD c 0))
    && decide (h.lcam + 3 ≤ h.d) && (h.halo == 0 || decide (h.lcam + 4 ≤ h.d))
    && lamps.all (fun c => decide (off c + h.d ≤ 16383))
    && lamps.all (fun c => decide (t.lampDelay (t.fld IU_CTL_LAMP_SEL c) h.maxRate ≤ h.lmin))

/-- A field changes only in Hold. -/
def Lock.holdOnly : Lock → Bool
  | .hold | .holdChg | .dec => true
  | _ => false

/-- A REG item aimed at Hold-only fields holds their present values (check 4). -/
def State.itemKeepsHold (s : State) (i : ProfItem) : Bool :=
  i.typ != 1 || match locate i.target with
    | some (r, k) => (regRow r).fields.all fun f =>
        !f.lock.holdOnly || bits i.value f.hi f.lo == bits (s.reg r k).toNat f.hi f.lo
    | none => true

/-- Checks 1–4 of R404: the result and the number of the failing check, and the profile. -/
def State.profCheck (s : State) (n : Nat) (splice : Bool) : Nat × Nat × Option (ProfHdr × List ProfItem) :=
  match profBytes s.boot.cfg n with
  | none => (rNOT_FOUND, 1, none)
  | some b =>
    let h := profHdr b
    if b.length < 128 ∨ b.take 4 ≠ [0x5A, 0x50, 0x46, 0x31] ∨ h.number ≠ n then (rNOT_FOUND, 1, none)
    else if h.engines = 0 ∨ familyEngines h.family < h.engines then (rRANGE, 2, none)
    else match profItems b (imgN b 46 2) 128 with
      | none => (rRANGE, 2, none)
      | some items =>
        if items.any fun i => decide (i.typ = 0 ∨ 4 < i.typ) then (rRANGE, 2, none)
        else if !(s.withItems items).profRulesOk h then (rRANGE, 3, none)
        else if splice && items.any fun i => !s.itemKeepsHold i then (rSTATE_REFUSED, 4, none)
        else (rOK, 0, some (h, items))

/-! ### Applying items (R403, R406) -/

/-- The root core writes a register, an RW-C value after its complement: the response. -/
def State.rootPut (s : State) (a v : Nat) : Nat × State :=
  let s := match locate a with
    | some (r, k) => if complementOf r = r then s
        else s.regWriteAt 48 (regAddr (complementOf r) k) 4 (~~~ (BitVec.ofNat 32 v))
    | none => s
  let s := s.busPut 48 a 4 (BitVec.ofNat 32 v)
  (s.resp.code, s)

/-- A PROG item: the image at its offset in the configuration image is loaded under R127; the load's result. -/
def State.itemProg (s : State) (i : ProfItem) (splice : Bool) : Nat × State :=
  let e := i.target % 16
  let base := leNat ((i.data.drop 4).take 4) % 2048
  let limit := if splice then s.fld SE_SBUDGET_SLIMIT e else s.fld SE_BUDGET_LIMIT e
  let img := s.boot.cfg.drop (leNat (i.data.take 4))
  let s := (s.setFld SE_LDCMD_SPLICE e splice.toNat).setFld SE_LDCMD_BASE e base
  let s := if s.on MEM_RPR_FAILED e then s.loadEnd e rERROR 0
    else s.loadImage e { addr := 0, splice := splice, base := base, limit := limit } (img.take (imgSize img)) (decide (imgSize img ≤ img.length))
  (s.fld SE_LDRES_RESULT e, s)

/-- Bus address of a DATA item: its target in a stripe bank or the shared pool; any other target names an address of the CXL window,
which its four bytes cannot hold as it stands (R403; a free value of the target, log 139). -/
def dataAddr (t : Nat) : Nat :=
  if (0x10000000 ≤ t ∧ t < 0x13000000) ∨ (poolBase ≤ t ∧ t < poolBase + 0x1000000) then t
  else 0x1000000000 + Config.cxlItem t % 0x8000000000

/-- One item is applied: the result, the failing check and engine where it is check 5, and the state. -/
def State.itemApply (s : State) (h : ProfHdr) (splice : Bool) (i : ProfItem) : Nat × Nat × Nat × State :=
  if i.typ = 1 then
    let (r, s) := s.rootPut i.target i.value
    (r, 0, 0, s)
  else if i.typ = 2 then
    if h.engines ≤ i.target then (rOK, 0, 0, s)
    else
      let (r, s) := s.itemProg i splice
      (r, if r = rOK then 0 else 5, if r = rOK then 0 else i.target, s)
  else if i.typ = 3 then
    let (r, s) := s.busWrite 48 (dataAddr i.target) i.data
    (r, 0, 0, s)
  else (rOK, 0, 0, s.setFld SYS_PSTAT_SKIP 0 (min 255 (s.fld SYS_PSTAT_SKIP + 1)))

/-- Items are applied in order, up to the first that fails. -/
def State.itemsApply (s : State) (h : ProfHdr) (splice : Bool) : List ProfItem → Nat × Nat × Nat × State
  | [] => (rOK, 0, 0, s)
  | i :: is =>
    let (r, chk, eng, s) := s.itemApply h splice i
    if r = rOK then s.itemsApply h splice is else (r, chk, eng, s)

/-- The budget of the profile's maximum line rate, to every engine used (R404). -/
def State.budgets (s : State) (h : ProfHdr) (splice : Bool) : State :=
  (List.range h.engines).foldl (fun s e =>
    s.coreWrite 48 (if splice then .SE_SBUDGET else .SE_BUDGET) e (1500000000 / max 1 h.maxRate)) s

/-- Engines beyond the count used receive SE_STRIPE.WIDTH = 0. -/
def State.unusedStripes (s : State) (h : ProfHdr) : State :=
  (List.range 16).foldl (fun s e =>
    if e < h.engines then s else s.coreWrite 48 .SE_STRIPE e ((s.reg .SE_STRIPE e).toNat % 2 ^ 18)) s

/-! ### Selection (R405, R406) -/

/-- Apply every item of a profile, in Hold; the check of SYS_PROFILE comes first (R386). -/
def State.profApply (s : State) (n : Nat) (h : ProfHdr) (items : List ProfItem) : State :=
  let s := s.checkPair .SYS_PROFILE
  if !s.pairOk .SYS_PROFILE then (s.pstat n rINTEGRITY 0 0).profEvent 0
  else
    let s := (((s.pstat n rOK 0 0).setFld SYS_PSTAT_VALID 0 0).setFld SYS_PSTAT_SKIP 0 0)
    let s := { s with boot := { s.boot with prof := some h } }
    let (r, chk, eng, s) := (s.budgets h false).itemsApply h false items
    if r ≠ rOK then (s.pstat n r chk eng).profEvent 0
    else
      let s := (s.unusedStripes h).storePair .SYS_PROFILE 0 (BitVec.ofNat 32 n)
      ((s.pstat n rOK 0 0).setFld SYS_PSTAT_VALID 0 1).profEvent 0

/-- A request that passed checks 1–4: its result, OK; and the failing check and engine, where check 5 then failed (R404, R405; log
91). -/
def State.profTaken (s : State) : Nat × Nat × Nat × State := (rOK, s.fld SYS_PSTAT_CHK, s.fld SYS_PSTAT_ENG, s)

/-- A selection: the reply (result, failing check, engine) and the state. BUSY while a selection runs, which the command that
selects also ends (log 91). -/
def State.profSelect (s : State) (n : Nat) : Nat × Nat × Nat × State :=
  if !s.inHoldIdle then (rSTATE_REFUSED, 0, 0, s)
  else if s.on SYS_PSTAT_BUSY && s.boot.splice.isNone then (rBUSY, 0, 0, s)
  else match s.profCheck n false with
    | (_, _, some (h, items)) => (s.profApply n h items).profTaken
    | (r, chk, none) => (r, chk, 0, (s.pstat n r chk 0).profEvent 0)

/-! ### Splice (R407, R408) -/

/-- Tick S + D of the pending splice has been carried out and tick S + D + 2 has come: the splice is complete. -/
def State.spliceFinish (s : State) : State :=
  match s.boot.splice with
  | some sp =>
    match sp.s with
    | some line => if sp.applied && decide (line + s.depth + 2 ≤ s.nowTick) then
        let s := { s with boot := { s.boot with splice := none } }
        let s := ((s.pstat sp.prof.number rOK 0 0).setFld SYS_PSTAT_BUSY 0 0).setFld SYS_PSTAT_VALID 0 1
        s.profEvent line.toNat
      else s
    | none => s
  | none => s

/-- A pending splice has passed its tick S + D, whether or not the sequencer has done its work. -/
def State.splicePast (s : State) : Bool :=
  s.boot.splice.any fun sp => sp.applied || sp.s.any fun line => decide (line + s.depth ≤ s.nowTick)

/-- An item that a splice writes while it stages: programs, data, and weights for the inactive bank. -/
def ProfItem.staged (i : ProfItem) : Bool :=
  i.typ != 1 || match locate i.target with
    | some (r, _) => r == .SIL_W
    | none => false

/-- Stage a profile: the programs with SPLICE = 1, the DATA items and the weights. -/
def State.profStage (s : State) (n : Nat) (line : Nat) (mail : Bool) (h : ProfHdr) (items : List ProfItem) : State :=
  let s := s.spliceFinish
  let s := if s.boot.splice.isSome then s.endSplice rSUPERSEDED else s
  let old := s.boot.prof
  let s := ((s.pstat n rOK 0 0).setFld SYS_PSTAT_BUSY 0 1).setFld SYS_PSTAT_SKIP 0 0
  let s := { s with boot := { s.boot with prof := some h } }
  let (r, chk, eng, s) := (s.budgets h true).itemsApply h true (items.filter (·.staged))
  let sp : Splice := { prof := h, items := items.filter fun i => !i.staged, line := line, old := s.fld SYS_PROFILE_NUM, mail := mail }
  let s := { s with boot := { s.boot with prof := old, splice := some sp } }
  if r = rOK then s else s.endSplice r chk eng

/-- A splice: the reply (result, failing check, engine) and the state. -/
def State.profSplice (s : State) (n line : Nat) (mail : Bool) : Nat × Nat × Nat × State :=
  let s := s.spliceFinish
  if !s.inRun || s.pwr.drain || s.splicePast then (rSTATE_REFUSED, 0, 0, s)
  else match s.profCheck n true with
    | (_, _, some (h, items)) => (s.profStage n line mail h items).profTaken
    | (r, chk, none) => (r, chk, 0, (s.pstat n r chk 0).profEvent 0)

/-- Cancel: a splice pending before its tick S + D ends SUPERSEDED. -/
def State.profCancel (s : State) : Nat × State :=
  let s := s.spliceFinish
  if s.inRun && s.boot.splice.isSome && !s.splicePast then (rOK, s.endSplice rSUPERSEDED) else (rSTATE_REFUSED, s)

/-- The reply of mailbox 0 names the splice line once it is fixed (R405): in the reply waiting, or in RSP3 and RSP4. -/
def State.spliceReply (s : State) (line : Nat) : State :=
  let lo := BitVec.ofNat 32 line
  let hi := BitVec.ofNat 32 (line / 2 ^ 32 % 65536)
  match (s.mbox 0).rsp with
  | some r => { s with mboxes := upd {} (fun b => { b with rsp := some ((r.set 3 lo).set 4 hi) }) s.mboxes 0 }
  | none => if s.on ETH_MB_CTL_DONE 0 then (s.setReg .ETH_MB_RSP 3 lo).setReg .ETH_MB_RSP 4 hi else s

/-- The end of staging: S is fixed and every staged program learns it, or the splice is refused. -/
def State.spliceFix (s : State) : State :=
  match s.boot.splice with
  | some sp =>
    if sp.s.isSome then s
    else
      let line : Int := if sp.line = 0 then s.tick.hw + 16 else sp.line
      if !s.inRun || s.pwr.drain || decide (line ≤ s.tick.hw) then s.endSplice rSTATE_REFUSED
      else
        let n := ofSigned 48 line
        let engs := s.engs.map fun e => if e.2.staged.isSome then (e.1, { e.2 with spliceAt := some line }) else e
        let s := { s with
          engs := engs
          boot := { s.boot with splice := some { sp with s := some line }, lastS := n } }
        let s := s.setFld SYS_PSTAT_PEND 0 1
        if sp.mail then s.spliceReply n else s
  | none => s

/-- The splice sequencer writes a REG item. Its Hold-only fields hold the item's values already (check 4 of R404): a register that has no
other field is left alone, and the others take their values without a CFG_ERR (DEDUCED, log 134). -/
def State.splicePut (s : State) (i : ProfItem) : State :=
  match locate i.target with
  | some (r, k) =>
    let fs := (regRow r).fields
    if !fs.any (·.lock == .hold) then (s.rootPut i.target i.value).2
    else if fs.all fun f => f.lock.holdOnly || f.acc != .rw then s
    else
      let t := (s.rootPut i.target i.value).2
      match (regRow r).cfg with
      | some f =>
        let j := cfgIdx r f k
        (t.setReg f.reg j (s.reg f.reg j)).setReg f.cnt j (s.reg f.cnt j)
      | none => t
  | none => (s.rootPut i.target i.value).2

/-- The work of tick S + D: the remaining REG items, the weights, SYS_PROFILE; and the SPLICE record for tick S + D + 2. -/
def State.spliceTick (s : State) (sp : Splice) (line : Int) : State :=
  let s := s.checkPair .SYS_PROFILE
  if !s.pairOk .SYS_PROFILE then s.endSplice rINTEGRITY
  else
    let s := (List.range 16).foldl State.engSwitch s
    let s := sp.items.foldl State.splicePut s
    let s := s.coreWrite 48 .SIL_WSWAP 0 1
    let s := s.storePair .SYS_PROFILE 0 (BitVec.ofNat 32 sp.prof.number)
    let s := { s with boot := { s.boot with prof := some sp.prof, splice := some { sp with applied := true } } }
    (s.setFld SYS_PSTAT_PEND 0 0).notice (line + s.depth + 2) (.splice line sp.old sp.prof.number)

/-- The splice sequencer at tick S + D, and the end of the splice at tick S + D + 2. -/
def State.spliceStep (s : State) : State :=
  match s.boot.splice with
  | some sp =>
    match sp.s with
    | some line =>
      if !sp.applied && decide (line + s.depth ≤ s.nowTick) then s.spliceTick sp line else s.spliceFinish
    | none => s
  | none => s

/-! ### Commands -/

/-- SELECT: opcode 1 of mailbox 0. -/
def execSelect (s : State) : Host.Outcome State Fault Refusal :=
  .next (s.whenLive fun s => match s.mbReq 0 1 with
    | some ws =>
      let (r, chk, eng, s) := s.profSelect (reqWord ws 1 % 8)
      s.mbAnswer 0 r [chk, eng, 0, 0]
    | none => s)

/-- SPLICE: opcode 2 of mailbox 0. -/
def execSplice (s : State) : Host.Outcome State Fault Refusal :=
  .next (s.whenLive fun s => match s.mbReq 0 2 with
    | some ws =>
      let (r, chk, eng, s) := s.profSplice (reqWord ws 1 % 8) (reqWord ws 2 + 2 ^ 32 * (reqWord ws 3 % 65536)) true
      s.mbAnswer 0 r [chk, eng, 0, 0]
    | none => s)

/-- CANCEL: opcode 3 of mailbox 0. -/
def execCancel (s : State) : Host.Outcome State Fault Refusal :=
  .next (s.whenLive fun s => match s.mbReq 0 3 with
    | some _ =>
      let (r, s) := s.profCancel
      s.mbAnswer 0 r
    | none => s)

/-- PROFILE_STROBE: a rising edge of PROFILE_STB, stable for 10 µs, with these levels at PROFILE_SEL; after a boot that halted the
device does not answer it (R409). -/
def execProfileStrobe (sel : Fin 8) (s : State) : Host.Outcome State Fault Refusal :=
  let s := { s with boot := { s.boot with sel := sel } }
  .next (s.whenLive fun s =>
    let b := s.mbox 0
    if !s.on SYS_PCFG_STB_EN || s.on SYS_BOOT_HALTED then s
    else if b.req.isSome && b.rsp.isNone then s.count .SYS_PSTB_CNT
    else if s.inRun then (s.profSplice sel 0 false).2.2.2
    else (s.profSelect sel).2.2.2)

/-- SPLICE_STAGED: the programs, data and weights of a splice are in place. -/
def execSpliceStaged (s : State) : Host.Outcome State Fault Refusal := .next (s.whenLive (·.spliceFix))

/-- SPLICE_SEQUENCER: tick S + D, or S + D + 2, of the pending splice. -/
def execSpliceSequencer (s : State) : Host.Outcome State Fault Refusal := .next (s.whenLive (·.spliceStep))

end Sys2Proof.Machine
end

