-- ==== Sys2Proof/Machine/Boot.lean ====
section
/-!
DEFINITION. Sys2Proof/Machine/Boot.lean: the boot sequence: flash directory, images, platform and access tables, the Flacon's
start, the boot report, the release of PORST_N and the wake from Standby (R364, R368, R369, R381, R396, R399–R402,
R409–R411).
-/
namespace Sys2Proof.Machine

/-! ### Flash directory (R399) -/

/-- An entry of the directory. -/
structure DirEntry where
  kind : Nat
  slot : Nat
  ofs  : Nat
  len  : Nat
  ver  : Nat
  deriving DecidableEq, Repr

/-- The entries of the directory at the start of the flash, at most 8. -/
def flashDir (flash : Memory) : List DirEntry :=
  if memRead flash 0 4 = [0x5A, 0x46, 0x44, 0x31] then
    (List.range (min 8 (memNat flash 4 4))).map fun i =>
      let b := 16 + 16 * i
      { kind := memNat flash b 1, slot := memNat flash (b + 1) 1, ofs := memNat flash (b + 4) 4
        len := memNat flash (b + 8) 4, ver := memNat flash (b + 12) 4 }
  else []

/-- The slots of a kind, higher version first; equal versions in the directory's order (log 35). -/
def dirSlots (flash : Memory) (kind : Nat) : List DirEntry :=
  sortBy (fun a b => decide (b.ver ≤ a.ver)) ((flashDir flash).filter (·.kind == kind))

/-- Bytes of an entry. -/
def dirBytes (flash : Memory) (d : DirEntry) : List Byte := memRead flash d.ofs d.len

/-- Try the slots of an image kind in turn: the first that verifies, with its digest and whether it is a fallback. -/
def State.bootPick (s : State) (bit : Nat) : List DirEntry → Bool → Option (DirEntry × List Byte × Bool) × State
  | [], _ => (none, s)
  | d :: ds, fb =>
    match s.verifyImage bit (dirBytes s.boot.flash d) with
    | (true, dig, s) => (some (d, dig, fb), s)
    | (false, _, s) => s.bootPick bit ds true

/-- Find the image of a kind (policy bit `bit`) and record its slot: result, bytes and digest. -/
def State.bootImage (s : State) (kind bit : Nat) : Nat × List Byte × List Byte × State :=
  let slots := dirSlots s.boot.flash kind
  match s.bootPick bit slots false with
  | (some (d, dig, fb), s) =>
    (rOK, dirBytes s.boot.flash d, dig, { s with boot := { s.boot with slots := put (d.slot, fb) s.boot.slots kind } })
  | (none, s) => (if slots.isEmpty then rNOT_FOUND else rAUTH_FAIL, [], [], s)

/-! ### Device certificate (R381) -/

/-- The certificates of a chain, where the lengths end at the chain's end. -/
def chainCerts : Nat → List Byte → Option (List (List Byte))
  | _, [] => some []
  | 0, _ => none
  | n + 1, b =>
    let len := leNat (b.take 4)
    if b.length < 4 + len then none else (chainCerts n (b.drop (4 + len))).map fun l => (b.drop 4).take len :: l

/-- A DER value: tag, length in the short or the long form, contents. -/
def der (tag : Nat) (body : List Byte) : List Byte :=
  let n := body.length
  BitVec.ofNat 8 tag :: (if n < 128 then [BitVec.ofNat 8 n]
    else if n < 256 then [0x81, BitVec.ofNat 8 n] else [0x82, BitVec.ofNat 8 (n / 256), BitVec.ofNat 8 n]) ++ body

/-- A length of the long form: its bytes, most significant first, and the rest. -/
def derLong : Nat → Nat → List Byte → Option (Nat × List Byte)
  | 0, v, b => some (v, b)
  | k + 1, v, x :: b => derLong k (256 * v + x.toNat) b
  | _ + 1, _, [] => none

/-- The first DER value of some bytes: tag, contents, rest; none where the bytes are no DER (an indefinite or not minimal length, a
tag above 30, or contents cut off). -/
def derNext : List Byte → Option (Nat × List Byte × List Byte)
  | t :: l :: b =>
    if t.toNat % 32 = 31 then none
    else
      let k := l.toNat - 128
      match (if l.toNat < 128 then some (l.toNat, b) else if k = 0 ∨ 4 < k then none else derLong k 0 b) with
      | some (n, b') =>
        if (128 ≤ l.toNat ∧ (n < 128 ∨ n < 256 ^ (k - 1))) ∨ b'.length < n then none
        else some (t.toNat, b'.take n, b'.drop n)
      | none => none
  | _ => none

/-- The DER values that make up some bytes. -/
def derAll : Nat → List Byte → Option (List (Nat × List Byte))
  | _, [] => some []
  | 0, _ => none
  | fuel + 1, b =>
    match derNext b with
    | some (t, v, rest) => (derAll fuel rest).map fun l => (t, v) :: l
    | none => none

/-- The DER values inside the contents of one. -/
def derIn (b : List Byte) : Option (List (Nat × List Byte)) := derAll b.length b

/-- The fields of the TBSCertificate of a certificate (RFC 5280): none where it is no DER-encoded X.509 v3 certificate (log 33). -/
def certFields (c : List Byte) : Option (List (Nat × List Byte)) :=
  match derIn c with
  | some [(0x30, cert)] =>
    match derIn cert with
    | some [(0x30, tbs), (0x30, _), (0x03, _)] =>
      match derIn tbs with
      | some ((0xA0, [0x02, 0x01, 0x02]) :: more) =>
        if (more.take 6).map Prod.fst == [0x02, 0x30, 0x30, 0x30, 0x30, 0x30]
            && (more.drop 6).all fun x => [0x81, 0x82, 0xA3].contains x.1 then some more
        else none
      | _ => none
    | _ => none
  | _ => none

/-- The contents of id-Ed448 (RFC 8410), of commonName and of organizationName as object identifiers. -/
def oidEd448 : List Byte := [0x2B, 0x65, 0x71]
def oidCn : List Byte := [0x55, 0x04, 0x03]
def oidOrg : List Byte := [0x55, 0x04, 0x0A]

/-- ASCII bytes of a text. -/
def ascii (t : String) : List Byte := t.toList.map fun c => BitVec.ofNat 8 c.toNat

/-- The common name of a device: ZT9- and the device id as 16 uppercase hexadecimal digits. -/
def certName (devId : Nat) : List Byte :=
  ascii "ZT9-" ++ (List.range 16).map fun i =>
    let d := devId / 16 ^ (15 - i) % 16
    BitVec.ofNat 8 (if d < 10 then 48 + d else 55 + d)

/-- A name holds an attribute of this type with this value. -/
def nameHas (name oid value : List Byte) : Bool :=
  ((derIn name).getD []).any fun set => ((derIn set.2).getD []).any fun at_ =>
    match derIn at_.2 with
    | some [(0x06, o), (_, v)] => o == oid && v == value
    | _ => false

/-- The subjectPublicKeyInfo of an Ed448 key (RFC 8410), without its outer tag. -/
def ed448Spki (key : List Byte) : List Byte := der 0x30 (der 0x06 oidEd448) ++ der 0x03 (0 :: key)

/-- A chain of the flash is presented: it parses, its leaf carries the identity key, and the subject names the device id. -/
def State.chainOk (s : State) (b : List Byte) : Bool :=
  match chainCerts b.length b with
  | some (leaf :: more) => (leaf :: more).all (fun c => (certFields c).isSome) && match certFields leaf with
    | some l => (l.map Prod.snd).getD 5 [] == ed448Spki (fit 57 s.sec.idPub)
        && nameHas ((l.map Prod.snd).getD 4 []) oidCn (certName s.sec.devId)
    | none => false
  | _ => false

/-- The contents of a positive INTEGER of at most 64 bits: as few bytes as hold it with a sign bit of 0. -/
def derNat (v : Nat) : List Byte :=
  let n := max 1 ((List.range 10).filter fun k => decide (2 ^ (8 * k) ≤ 2 * v)).length
  (leBytes n v).reverse

/-- Issuer and subject of the self-signed certificate. -/
def certSubject (devId : Nat) : List Byte :=
  let str := if Config.certUtf8 then 0x0C else 0x13
  let rdn := fun oid v => der 0x31 (der 0x30 (der 0x06 oid ++ der str v))
  der 0x30 (rdn oidCn (certName devId) ++ rdn oidOrg (ascii "Dorsin Semiconductor"))

/-- The signed part of the self-signed certificate, field by field as R381's table has it; RFC 5280 gives dates before 2050 as UTCTime
and leaves out the default CA = FALSE (log 33). -/
def certTbs (devId : Nat) (key : List Byte) : List Byte :=
  let alg := der 0x30 (der 0x06 oidEd448)
  let ext := fun (id : Byte) (critical : Bool) v =>
    der 0x30 (der 0x06 [0x55, 0x1D, id] ++ (if critical then der 0x01 [0xFF] else []) ++ der 0x04 v)
  der 0x30 (der 0xA0 (der 0x02 [2]) ++ der 0x02 (derNat devId) ++ alg ++ certSubject devId
    ++ der 0x30 (der 0x17 (ascii "000101000000Z") ++ der 0x18 (ascii "99991231235959Z"))
    ++ certSubject devId ++ der 0x30 (ed448Spki key)
    ++ der 0xA3 (der 0x30 (ext 0x13 true (der 0x30 []) ++ ext 0x0F true (der 0x03 [7, 0x80])
      ++ ext 0x0E false (der 0x04 (keyId key)))))

/-- The self-signed certificate under the identity key (R381). -/
def State.selfSigned (s : State) : List Byte :=
  let tbs := certTbs s.sec.devId (fit 57 s.sec.idPub)
  der 0x30 (tbs ++ der 0x30 (der 0x06 oidEd448) ++ der 0x03 (0 :: fit 114 (Config.ed448Sign s.sec.idSeed tbs)))

/-- Choose what the TLS service presents: 0 none, 1 or 2 the chain of slot A or B, 3 the self-signed certificate. -/
def State.bootCert (s : State) : State :=
  let set := fun (n : Nat) (b : List Byte) => { s with boot := { s.boot with cert := n, certChain := b } }
  if s.lcState = 0 ∨ s.lcState = 3 then set 0 []
  else match (dirSlots s.boot.flash 3).find? fun d => s.chainOk (dirBytes s.boot.flash d) with
    | some d => set (1 + d.slot % 2) (dirBytes s.boot.flash d)
    | none =>
      let c := s.selfSigned
      set 3 (leBytes 4 c.length ++ c)

/-! ### The Flacon at exit from Off (R364, R368, R369, R372) -/

/-- The image in the active slot, as the ROM loads it. -/
def Flacon.image (f : Flacon) : List Byte :=
  let b := memRead f.fram (if f.slotB then 0x40000 else 0x10000) 0x30000
  b.take (Config.flImageLen b)

/-- A slot of the FRAM reads all ones. -/
def Flacon.blankSlot (f : Flacon) (slot : Nat) : Bool := (memRead f.fram (128 * slot) 128).all (· == 0xFF)

/-- Every commit that the partition was still writing in Off is done before it starts again (R419). -/
def Flacon.written (f : Flacon) : Flacon :=
  { f with fram := f.commits.foldl (fun m c => memWrite m (128 * c.slot) c.record) f.fram, commits := [] }

/-- The newest valid record is taken; one not written on PFAIL counts as an unclean start; an installed image becomes
active, which EVCNT counts when the commit of the activation is done. What the Flacon will be once its core is released, and
whether an activation is to be committed. -/
def Flacon.start (f : Flacon) : FlSt × Bool × Flacon :=
  match f.newest with
  | some (slot, r) =>
    let f := f.load slot r
    let unclean := !(recNat r 56 1).testBit 1
    let f := if unclean then
      { f with uncleanCnt := f.uncleanCnt + 1, uncleanStart := true, uncleanSince := true
               lot := f.lot.map fun l => { l with unclean := true } } else f
    if f.installed && !f.chgFull then
      (.counting, true, { f with slotB := !f.slotB }.newKey)
    else (.counting, false, f.newKey)
  | none => (if f.blankSlot 0 && f.blankSlot 1 then .blank else .framFail, false, f.newKey)

/-- Stage 6 at a cold boot: the ROM and the root core verify the image, MR3 is extended, and the core is released; a failure
leaves the Flacon in NO_FW, and an activation then does not count and is tried again at the next exit from Off. -/
def State.flStart (s : State) : State :=
  let (st, act, f) := s.fl.start
  let img := f.image
  let fwid := fit 8 (Config.shake256 img 64)
  let s := { s with fl := { f with fwid := fwid } }
  if flImageOk f.romKey img then
    let s := (s.mrExtend 3 0x81 fwid).mrExtend 3 0x82 (Config.shake256 f.tkey 64)
    let s := s.updFl fun f => { f with st := st }
    if act then s.flCommit false fun c => { c with bumps := true, activates := true } else s
  else s.updFl fun f => { f with st := .noFw }

/-- Stage 6 at a wake: the Flacon has been running; its image is verified and measured again. -/
def State.flWake (s : State) : State :=
  if s.fl.st == .noFw then s
  else if flImageOk s.fl.romKey s.fl.image then
    (s.mrExtend 3 0x81 s.fl.fwid).mrExtend 3 0x82 (Config.shake256 s.fl.tkey 64)
  else s.updFl fun f => { f with st := .noFw }

/-! ### Configuration image: platform, tables, authorities (R400–R402) -/

/-- Offset of the platform section, of the access-table section, and of the client authority list. -/
def cfgPlat : Nat := 192
def cfgTabs : Nat := 320
def cfgAuth (cfg : List Byte) : Nat := cfgTabs + 4 + 36 * imgN cfg cfgTabs 4

/-- The client authorities, none where their own signature fails. -/
def State.bootAuth (s : State) (cfg : List Byte) : State :=
  let at_ := cfgAuth cfg
  let n := imgN cfg at_ 4
  let size := 4 + 57 * n
  let (ok, _, s) := s.verifyImage 3 ((cfg.drop at_).take (size + 128))
  let keys := (List.range n).map fun i => (cfg.drop (at_ + 4 + 57 * i)).take 57
  { s with boot := { s.boot with auth := if ok then keys else [] } }

/-- HDM size of a port's device at boot. -/
def cfgHdm (cfg : List Byte) (p : Nat) : Nat := imgN cfg (cfgPlat + 64 + 16 * p) 4

/-- CXL_P_CTL value of a port. -/
def cfgPort (cfg : List Byte) (p : Nat) : Nat := imgN cfg (cfgPlat + 4 * p) 4

/-- A port is trained and its device programmed at boot. -/
def cfgUses (cfg : List Byte) (p : Nat) : Bool := (cfgPort cfg p).testBit 0 && cfgHdm cfg p != 0

/-- A port's link is up with its HDM decoder committed. -/
def bootPortOk (cfg : List Byte) (env : BootEnv) (p : Nat) : Bool :=
  cfgUses cfg p && ((env.ports[p]?).map fun b => b.up && b.hdm).getD false

/-- Configure one CXL port of the platform section and train it (R401). -/
def State.bootPort (cfg : List Byte) (env : BootEnv) (s : State) (p : Nat) : State :=
  if cfgUses cfg p then
    let b := (env.ports[p]?).getD ⟨false, false, false, false⟩
    (s.coreWrite 48 .CXL_P_CTL p (cfgPort cfg p)).cxlTrained p b.up b.rate32 b.x4
  else s

/-- Configure the window decoder of main memory, still disabled (R401). -/
def State.bootDecoder (s : State) (cfg : List Byte) (k : Nat) : State :=
  ((s.coreWrite 48 .CXL_DEC_BASE k (imgN cfg (cfgPlat + 20) 4)).coreWrite 48 .CXL_DEC_SIZE k
    (imgN cfg (cfgPlat + 24) 4)).coreWrite 48 .CXL_DEC_DPA k (imgN cfg (cfgPlat + 28) 4)

/-- Enable that decoder. -/
def State.bootEnable (s : State) (k ctl : Nat) : Nat × State :=
  let s := s.coreWrite 48 .CXL_DEC_CTL k (setBits ctl 0 0 1)
  if s.on CXL_DEC_CTL_EN k then (rOK, { s with boot := { s.boot with mainDec := some k } }) else (max 1 (s.fld CXL_DEC_RES_RESULT), s)

/-- Stage 7: the ports, then the main-memory decoder; a failure that halts the boot gives its result. -/
def State.bootPlatform (s : State) (env : BootEnv) : Nat × State :=
  let cfg := s.boot.cfg
  let k := imgN cfg (cfgPlat + 32) 1 % 4
  let ctl := imgN cfg (cfgPlat + 16) 4
  let s := ([0, 1, 2, 3].foldl (State.bootPort cfg env) s).bootDecoder cfg k
  let tgts := (List.range (min 4 (2 ^ bits ctl 2 1))).map fun i => bits ctl (9 + 2 * i) (8 + 2 * i)
  if tgts.any fun p => !bootPortOk cfg env p then (rERROR, s) else s.bootEnable k ctl

/-- The root core writes pair k of entry e of table t, complement first (R382). -/
def State.tablePut (s : State) (t e k v : Nat) : State := (s.rootPut (regAddr .SEC_AT (atIdx t e k)) v).2

/-- An entry: first and last page, and the masters that may read, write and fetch, as 64-bit maps. -/
def State.tableEntry (s : State) (t e first last r w x : Nat) : State :=
  let vs := [first % 2 ^ 31 + 2 ^ 31, last % 2 ^ 31, r % 2 ^ 32, r / 2 ^ 32, w % 2 ^ 32, w / 2 ^ 32, x % 2 ^ 32, x / 2 ^ 32]
  (List.range 8).foldl (fun s k => s.tablePut t e k (vs.getD k 0)) s

/-- The map of a list of masters. -/
def masterMap (l : List Nat) : Nat := (l.eraseDups.map fun m => 2 ^ m).sum

/-- Masters `a` to `b`. -/
def mastersTo (a b : Nat) : List Nat := (List.range (b + 1)).drop a

/-- The default entry of a table: who may read, write and fetch (R402). -/
def defaultEntry (t : Nat) : Nat × Nat × Nat :=
  let cores := mastersTo 40 47
  if t < 16 then
    let m := masterMap ([t, 16, 17] ++ mastersTo 20 35 ++ [37] ++ cores ++ [51])
    (m, m, 0)
  else if t = 16 then
    let m := masterMap (mastersTo 16 37 ++ cores ++ [51])
    (m, m, masterMap cores)
  else if t < 21 then
    let m := masterMap (mastersTo 0 37 ++ cores)
    (m, m, masterMap cores)
  else if t = 43 then (masterMap cores, 0, 0)
  else (masterMap cores, masterMap cores, 0)

/-- Entry i of the access-table section; a target or an entry that does not exist is skipped and counted. -/
def State.bootEntry (s : State) (i : Nat) : State :=
  let b := cfgTabs + 4 + 36 * i
  let n := fun ofs len => imgN s.boot.cfg (b + ofs) len
  let t := n 0 1
  let e := n 1 1
  if 44 < t ∨ e = 0 ∨ 15 < e then { s with boot := { s.boot with skipped := s.boot.skipped + 1 } }
  else s.tableEntry t e (n 4 4) (n 8 4) (n 12 8) (n 20 8) (n 28 8)

/-- The default access table of one target (R402). -/
def State.bootDefault (s : State) (t : Nat) : State :=
  s.tableEntry t 1 0 0x7FFFFFFF (defaultEntry t).1 (defaultEntry t).2.1 (defaultEntry t).2.2

/-- The owner of one event channel, as the boot leaves it: a free value, but for the channels of the Flacon (log 1). -/
def State.bootOwn (base : Nat) (s : State) (ch : Nat) : State :=
  if ch = 19 ∨ ch = 20 then s else s.coreWrite 48 .EVT_OWN ch (Config.freeNat (base + ch) % 8)

/-- Stage 8: the access tables, the channel owners, whose values the spec leaves to the root core (free values, log 1), and
EVT_LOCK. At a wake the owners are locked and keep their values. -/
def State.bootTables (s : State) : State :=
  let n := imgN s.boot.cfg cfgTabs 4
  let s := if n = 0 then (List.range 45).foldl State.bootDefault s else (List.range n).foldl State.bootEntry s
  if s.on EVT_LOCK_LOCK then s
  else
    let s := (List.range 64).foldl (State.bootOwn s.freeCtr) s
    { s with freeCtr := s.freeCtr + 64 }.coreWrite 48 .EVT_LOCK 0 1

/-! ### Boot report (R411) -/

/-- The 256 bytes of the boot report. -/
def State.bootReport (s : State) (env : BootEnv) : List Byte :=
  let slot := fun k => match s.boot.slots.find? fun e => decide (e.1 = k) with
    | some (_, n, fb) => n % 2 + 128 * fb.toNat
    | none => 0
  let failed := fun k => (List.range 8).foldl (fun a i => a + 2 ^ i * (s.on MEM_RPR_FAILED (8 * k + i)).toNat) 0
  let ups := ([0, 1, 2, 3].map fun p => 2 ^ p * (bootPortOk s.boot.cfg env p && (s.cxlp p).st == .up).toNat).sum
  fit 256 ([0x5A, 0x42, 0x52, 0x31] ++ leBytes 1 (s.pwr.warm.toNat + 2 * (s.on SYS_BOOT_HALTED).toNat)
    ++ leBytes 1 (s.fld SYS_BOOT_STAGE) ++ leBytes 1 (if s.fld SYS_BOOT_STAGE = 10 then s.fld SYS_PSTAT_RESULT else s.fld SYS_BOOT_RESULT) ++ leBytes 1 s.lcState
    ++ leBytes 1 (slot 0) ++ leBytes 1 (slot 1) ++ leBytes 1 (slot 2)
    ++ leBytes 1 (if s.on SYS_PSTAT_VALID then s.fld SYS_PROFILE_NUM else 0xFF)
    ++ (List.range 48).flatMap (fun b => leBytes 1 (s.fld MEM_RPR_USED b))
    ++ (List.range 6).flatMap (fun k => leBytes 1 (failed k))
    ++ leBytes 1 ups ++ leBytes 1 s.fl.st.code ++ leBytes 4 env.us ++ s.mreg 0
    ++ leBytes 1 s.boot.cert ++ leBytes 1 (min 255 s.boot.skipped))

/-- Write the boot report at shared-pool offset 0xFF_F000. -/
def State.putReport (s : State) (env : BootEnv) : State :=
  { s with mem := memWrite s.mem (poolBase + 0xFFF000) (s.bootReport env) }

/-! ### Stages (R409) -/

/-- The boot halts: the service cores stay in reset. The report is written once the shared pool has passed stage 3 (R409), and where a
bank of it failed there, which the report names (R259; DEDUCED, log 126). -/
def State.bootHalt (s : State) (stage res : Nat) (env : BootEnv) : State :=
  let s := (s.setFld SYS_BOOT_HALTED 0 1).setFld SYS_BOOT_RESULT 0 res
  if 3 ≤ stage then s.putReport env else s

/-- Run stages in order, up to the first that fails. -/
def State.bootStages (s : State) (env : BootEnv) : List (Nat × (State → Nat × State)) → State
  | [] => (s.setFld SYS_BOOT_DONE 0 1).putReport env
  | (n, f) :: l =>
    match f (s.setFld SYS_BOOT_STAGE 0 n) with
    | (0, s) => s.bootStages env l
    | (r, s) => s.bootHalt n r env

/-- Stage 2: the measurement registers start at 0, the lifecycle value is checked, whose failure holds the debug level at D0, MR0 takes the ROM identity, and the
identity key and the device certificate are derived (R378, R379, R381, R386 source 5, R426). -/
def State.bootRom (s : State) : State :=
  let s := { s with sec := { s.sec with mr := [] } }
  let c := s.sec
  let ok := c.lcc == 3 - c.lc || (c.lc == 0 && c.lcc == 0)
  let s := if ok || c.lcInvalid then s
    else ({ s with sec := { c with lcInvalid := true } }.secIntegrity 5 0).mrExtend 5 0x83 (leBytes 1 5)
  let s := if s.sec.lcInvalid then s.dbgClose else s
  let s := s.mrExtend 0 0x80 (Config.shake256 ((List.range 0x40000).map Config.romByte) 64)
  s.deriveIdentity.bootCert

/-- Stage 3: the tested banks read zero, failing rows are repaired; a failed shared-pool bank halts the boot. -/
def State.bootBlotter (s : State) (env : BootEnv) (tested : Nat → Bool) : Nat × State :=
  let fails := env.fails.filter fun f => decide (f.1 < 48) && tested f.1 && decide (f.2 < bankRows f.1)
  let s := fails.foldl (fun s f => s.rowFail false f.1 f.2) { s with mem := clearBanksMem s.mem tested }
  (if (List.range 32).any fun b => s.on MEM_RPR_FAILED (16 + b) then rERROR else rOK, s)

/-- Stage 9: the service operating system is loaded into main memory and verified, and the service cores are released. -/
def State.bootOs (s : State) (env : BootEnv) : Nat × State :=
  match s.bootImage 1 0 with
  | (0, img, dig, s) =>
    let k := imgN s.boot.cfg (cfgPlat + 32) 1 % 4
    let room := s.decSize k - img.length
    let (r, s) := s.busWrite 48 (s.decBase k + Config.osOffset % (room + 1)) img
    if r ≠ rOK then (r, s)
    else
      let s := (s.mrExtend 4 0 dig).putReport env
      (rOK, { s with pwr := { s.pwr with booted := true } })
  | (r, _, _, s) => (r, s)

/-- Stages 2–10; `tested` are the banks Blotter tests, `flacon` what stage 6 does. -/
def State.bootRun (s : State) (env : BootEnv) (tested : Nat → Bool) (flacon : State → State) : State :=
  let s := s.bootStages env
    [ (2, fun s => (rOK, s.bootRom)),
      (3, fun s => s.bootBlotter env tested),
      (4, fun s => match s.bootImage 0 0 with
        | (0, _, dig, s) => (rOK, s.mrExtend 0 0 dig)
        | (r, _, _, s) => (r, s)),
      (5, fun s => match s.bootImage 2 1 with
        | (0, img, dig, s) => (rOK, ({ s with boot := { s.boot with cfg := img } }.mrExtend 1 1 dig).bootAuth img)
        | (r, _, _, s) => (r, s)),
      (6, fun s => (rOK, flacon s)),
      (7, fun s => s.bootPlatform env),
      (8, fun s => (rOK, s.bootTables)),
      (9, fun s => s.bootOs env),
      (10, fun s => (rOK, (s.profSelect (s.fld SYS_PROFILE_NUM)).2.2.2)) ]
  { s with resp := {} }

/-- Sample strap pins; each open one is an undefined bit (R415; free values, log 1). -/
def State.strap (s : State) : List (Option Bool) → Nat × State
  | [] => (0, s)
  | b :: bs =>
    let (v, s) := match b with
      | some b => (b.toNat, s)
      | none => (s.free % 2, s.drawn)
    let (n, s) := s.strap bs
    (v + 2 * n, s)

/-- CHIPID is sampled once, at the release of PORST_N (R236). -/
def State.bootChip (s : State) (env : BootEnv) : State :=
  let (chip, s) := s.strap (env.chip.take 2)
  { s with boot := { s.boot with chip := chip }, span := { s.span with chip := chip } }

/-- Stage 1: PROFILE_SEL is sampled, and CHIPID has its value of the release of PORST_N (R236, R405, R409). -/
def State.bootStraps (s : State) (env : BootEnv) : State :=
  let (sel, s) := s.strap (env.sel.take 3)
  { s with boot := { s.boot with sel := sel }, span := { s.span with chip := s.boot.chip } }.storePair
    .SYS_PROFILE 0 (BitVec.ofNat 32 sel)

/-- The device waits in Off, or stands at the release of PORST_N with its boot not begun (State.reset). -/
def State.atReset (s : State) : Bool :=
  s.pwr.st == .off || (s.inHold && !s.pwr.booted && s.fld SYS_BOOT_STAGE == 1 && !s.on SYS_BOOT_HALTED)

/-- PORST_RELEASE: exit from Off: every bank is cleared and the cold boot runs (R261, R392, R409). THERMTRIP_N is released when
every sensor is cool (R422). -/
def execPorstRelease (env : BootEnv) (s : State) : Host.Outcome State Fault Refusal :=
  .next (if !s.atReset then s
    else
      let s := { s with
        pwr := { st := .hold, thermTrip := s.pwr.thermTrip && !env.cool }
        fl := s.fl.written
        mem := clearBanksMem s.mem fun _ => true }
      ((s.bootChip env).bootStraps env).bootRun env (fun _ => true) (·.flStart))

/-! ### Wake from Standby (R261, R271, R396) -/

/-- A register of the always-on domain, or one whose contents the wake uses: SEC, ENC, TIME, EVT and the Flacon window, retention and repairs,
the wake count, the enables of the CXL ports, and the debounce of the limit inputs. -/
def keptReg (k : RegKey) : Bool :=
  let t := regTarget (regAddr k.1 k.2)
  t == 22 || t == 24 || t == 25 || t == 41 || t == 43
    || [Reg.MEM_RET_SB, .MEM_RET_SP, .MEM_RPR, .SYS_WAKECNT, .CXL_P_CTL, .MOT_LIM].contains k.1

/-- An encoder through Standby: the edge count runs on, and the observer starts again at rest at the count. The last serial word and
the last index are kept, and STILL as a register (DESIGN CHOICE, log 135). -/
def Enc.woken (e : Enc) : Enc :=
  { e with
    p := (e.count : Rat), v := 0, acc := 0, phase := .still, fresh := false, coast := false, given := e.count
    sinHeld := none, frame := none }

/-- The domains power up: what the always-on domain held remains, each enabled CXL port trains, and the banks not retained
are cleared. -/
def State.powerUp (s : State) : State :=
  let lost := (List.range 48).filter fun b => !s.retained b
  let sb := ((lost.filter (· < 16)).map fun b => 2 ^ b).sum
  let sp := ((lost.filter (16 ≤ ·)).map fun b => 2 ^ (b - 16)).sum
  let ports := [0, 1, 2, 3].filter fun p => s.on CXL_P_CTL_EN p
  let t : State :=
    { pending := s.pending
      regs := s.regs.filter fun e => keptReg e.1
      pwr := { st := .hold, wake := s.pwr.wake, warm := true, thermTrip := s.pwr.thermTrip }
      sec := s.sec
      times := s.times
      encs := s.encs.map fun e => (e.1, e.2.woken)
      pt := s.pt
      evt := s.evt
      mem := clearBanksMem s.mem fun b => !s.retained b
      cxl := ports.map fun p => (p, { st := .training, srLost := (s.cxlp p).srLost })
      mot := { raw := s.mot.raw }
      fl := s.fl
      boot := { flash := s.boot.flash, sel := s.boot.sel, chip := s.boot.chip }
      freeCtr := s.freeCtr }
  (t.setFld MEM_WAKE_SB_SB 0 sb).setFld MEM_WAKE_SP_SP 0 sp

/-- WAKE: an occurrence at the WAKE input during Standby, or latched during its entry; the warm boot ends in Hold, whose entry is an
occurrence on HOLD_ENTRY (R344, R396). -/
def execWake (env : BootEnv) (s : State) : Host.Outcome State Fault Refusal :=
  .next (match s.pwr.st, s.pwr.wake with
    | .standby, some ch =>
      let cleared := fun b => !s.retained b
      let t := (s.powerUp.bootStraps env).bootRun env cleared (·.flWake)
      let t := (t.count .SYS_WAKECNT 0 1 0xFFFFFFFF).setFld SYS_WAKESRC_CH 0 ch
      { t with pwr := { t.pwr with wake := none } }.strobe [23]
    | _, _ => s)

end Sys2Proof.Machine
end

