-- ==== Sys2Proof/Machine/DmaRun.lean ====
section
/-!
DEFINITION. Sys2Proof/Machine/DmaRun.lean: a DMA channel at work: fetching descriptors, moving data access by access, passing it
through a CMP engine, completing, pausing and halting (R272–R281, R284, R287).
-/
namespace Sys2Proof.Machine

/-! ### Moving data -/

/-- Write `bs` from the position reached on, access by access, an incomplete last one only where `all`; what is not yet written. In
decreasing order `bs` begins with the byte written first. A response other than OK halts the channel. -/
def State.dmaPut (s : State) (k : Nat) (d : Desc) (all : Bool) : Nat → List Byte → List Byte × State
  | 0, bs => (bs, s)
  | fuel + 1, bs =>
    let c := s.dma k
    let (a, n) := d.writeAt c.out
    if bs.isEmpty || (!all && decide (bs.length < n)) then (bs, s)
    else
      let n' := max 1 (min n bs.length)
      let part := bs.take n'
      let a := if d.down then a + (n - n') else a
      match s.anyWrite (dmaMaster k) a (if d.down then part.reverse else part) with
      | (0, s) =>
        let s := (s.dmaTag k 2 c.out).updDma k fun c => { c with out := c.out + n', lastW := (a, n') }
        s.dmaPut k d all fuel (bs.drop n')
      | (r, s') => ([], s'.dmaStop k d r 2 a c.out (s.meet != s'.meet))

/-- The bytes of a read enter the holding register. -/
def State.dmaHold (s : State) (k : Nat) (bs : List Byte) : State := s.updDma k fun c => { c with buf := c.buf ++ bs }

/-- Write what is held, an incomplete access only where `all`, or halt. -/
def State.dmaFlush (s : State) (k : Nat) (d : Desc) (all : Bool) : State :=
  let (left, s) := s.dmaPut k d all ((s.dma k).buf.length + 1) (s.dma k).buf
  s.updDma k fun c => { c with buf := left }

/-- Write output of a CMP engine beyond what is written, an incomplete access only where `all`, or halt. -/
def State.dmaPutOut (s : State) (k : Nat) (d : Desc) (all : Bool) (bs : List Byte) : State :=
  let before := (s.dma k).out
  let s := (s.dmaPut k d all (bs.length + 1) (bs.drop before)).2
  s.cmpCount 0 ((s.dma k).out - before)

/-- How far the output has been written when its engine is stopped is not stated: free, between what is written and what the
engine can have produced (log 1). -/
def State.dmaSome (s : State) (k top : Nat) : Nat × State :=
  let lo := (s.dma k).out
  (lo + s.free % (top - lo + 1), s.drawn)

/-- What a CMP engine has made of the bytes a channel has read. -/
def Desc.made (d : Desc) (buf : List Byte) : List Byte :=
  if d.op = 1 then (zcmSoFar buf d.level).take d.cap else (zcmDecode buf d.dstBytes).out

/-- The stream of an OP 2 descriptor has ended or failed within the bytes read. -/
def Desc.ended (d : Desc) (buf : List Byte) : Bool :=
  d.op == 2 && match (zcmDecode buf d.dstBytes).fail with
    | none => true
    | some (kind, _) => kind != 8

/-- Bytes of a read are taken up: each write is issued once its bytes are held (R275), of OP 1 and OP 2 once the engine has made them
(DESIGN CHOICE, log 71: an engine has no delay). -/
def State.dmaTake (s : State) (k : Nat) (d : Desc) (bs : List Byte) : State :=
  if d.op = 0 then (s.dmaHold k bs).dmaFlush k d false
  else
    let s := (s.dmaHold k bs).cmpCount bs.length 0
    s.dmaPutOut k d false (d.made (s.dma k).buf)

/-- The channel's read at a place in the stream waits for its data. -/
def State.dmaReadWaits (s : State) (k pos : Nat) : Bool := s.tagWaits (dmaMaster k) (· == (1, pos))

/-- Reads of the channel that wait. -/
def State.dmaReads (s : State) (k : Nat) : Nat := (s.dma k).held.countP fun x => s.dmaReadWaits k x.1

/-- What has been read is taken up in stream order, as far as its data has come (R275). -/
def State.dmaDeliver (s : State) (k : Nat) (d : Desc) : Nat → State
  | 0 => s
  | fuel + 1 =>
    match (s.dma k).held with
    | [] => s
    | (pos, bs) :: rest =>
      if s.dmaReadWaits k pos || (s.dma k).st == .halted then s
      else ((s.updDma k fun c => { c with held := rest }).dmaTake k d bs).dmaDeliver k d fuel

/-- Read until `goal` source bytes are issued as reads, with at most 32 of them waiting; what has come is written in stream order. A
response other than OK ends the reading (R274, R275, R277). -/
def State.dmaPump (s : State) (k : Nat) (d : Desc) : Nat → State
  | 0 => s
  | fuel + 1 =>
    let s := s.dmaDeliver k d (s.dma k).held.length
    let c := s.dma k
    if c.st == .halted || c.bad.isSome || d.ended c.buf || decide (c.goal ≤ c.done) || decide (32 ≤ s.dmaReads k) then s
    else
      let (a, n) := d.readAt c.done
      let (r, bs, s) := s.anyRead (dmaMaster k) a n
      let s :=
        if r = rOK then (s.dmaTag k 1 c.done).updDma k fun x =>
          { x with held := x.held ++ [(c.done, if d.down then bs.reverse else bs)] }
        else s.updDma k fun x => { x with bad := some (r, a, c.done) }
      (s.updDma k fun x => { x with done := x.done + n }).dmaPump k d fuel

/-- The channel halts at a failed read once what was read before it is written; of OP 1 and OP 2 the place counts output bytes. -/
def State.dmaBadEnd (s : State) (k : Nat) (d : Desc) : State :=
  let c := s.dma k
  match c.held, c.bad with
  | [], some (r, a, pos) =>
    if d.op = 0 then
      let s := s.dmaFlush k d true
      if (s.dma k).st == .halted then s else s.dmaStop k d r 1 a pos
    else
      let made := d.made c.buf
      let (n, s) := s.dmaSome k made.length
      let s := s.dmaPutOut k d true (made.take n)
      if (s.dma k).st == .halted then s else s.dmaStop k d r 1 a (s.dma k).out
  | _, _ => s

/-- A stream fails in the channel's engine: the channel halts with direction 5 (R277, R284). -/
def State.dmaStreamFail (s : State) (k : Nat) (d : Desc) (kind ofs addr : Nat) : State :=
  let s := s.cmpFail ((s.dma k).eng.getD 0) kind ofs
  s.dmaStop k d rERROR 5 addr (s.dma k).out

/-- OP 1 once its source is read: the stream is written, up to CAP. -/
def State.dmaPack (s : State) (k : Nat) (d : Desc) : State :=
  let z := zcmEncode (s.dma k).buf d.level
  let s' := s.dmaPutOut k d true (z.take d.cap)
  if (s'.dma k).st == .halted then s'
  else if d.cap < z.length then
    let ofs := s'.free % 2 ^ 24
    s'.drawn.dmaStreamFail k d 9 ofs (d.dst + d.cap)
  else s'.updDma k fun c => { c with buf := [], stage := 1 }

/-- OP 2 once its stream has ended or failed: the output is written. -/
def State.dmaUnpack (s : State) (k : Nat) (d : Desc) : State :=
  let u := zcmDecode (s.dma k).buf d.dstBytes
  let s' := s.dmaPutOut k d true u.out
  if (s'.dma k).st == .halted then s'
  else match u.fail with
    | some (kind, ofs) => s'.dmaStreamFail k d kind ofs (d.src + ofs)
    | none => s'.updDma k fun c => { c with buf := [], stage := 1, desc := some { d with cap := c.done } }

/-- The source is read to its end: the rest is written. -/
def State.dmaEnd (s : State) (k : Nat) (d : Desc) : State :=
  if d.op = 1 then s.dmaPack k d
  else if d.op = 2 then s.dmaUnpack k d
  else
    let s := s.dmaFlush k d true
    if (s.dma k).st == .halted then s else s.updDma k fun c => { c with stage := 1 }

/-- Move data until `goal` source bytes are issued as reads, and to the descriptor's end where that is all of them. What waits for a
CXL device holds the rest back until its response. -/
def State.dmaMove (s : State) (k : Nat) (d : Desc) (goal : Nat) : State :=
  let s := (s.updDma k fun c => { c with goal := goal }).dmaPump k d (goal + 2)
  let c := s.dma k
  if c.st == .halted then s
  else if c.bad.isSome then (s.dmaCur k).dmaBadEnd k d
  else if !c.held.isEmpty || !(d.ended c.buf || decide (d.srcBytes ≤ c.done)) then s.dmaCur k
  else
    let s := s.dmaEnd k d
    if (s.dma k).st == .halted then s else s.dmaCur k

/-! ### Completion (R276) -/

/-- The read-back of the last write, with its address and length. -/
def State.dmaReadBack (s : State) (k : Nat) : State :=
  let c := s.dma k
  if c.out = 0 then s.updDma k fun c => { c with stage := 2 }
  else
    let (a, n) := c.lastW
    let ofs := c.out - min n c.out
    match s.anyRead (dmaMaster k) a n with
    | (0, _, s) => (s.dmaTag k 3 ofs).updDma k fun c => { c with stage := 2 }
    | (r, _, s) =>
      match c.desc with
      | some d => s.dmaStopLate k d r 3 a ofs
      | none => s.dmaHalt k r 3 a ofs

/-- The status write-back. -/
def State.dmaStatus (s : State) (k : Nat) (d : Desc) : State :=
  let c := s.dma k
  if !d.wb || c.direct then s.updDma k fun c => { c with stage := 3 }
  else
    let a := s.dmaCurDesc k + 56
    match s.anyWrite (dmaMaster k) a (leBytes 4 rOK ++ leBytes 4 c.out) with
    | (0, s) => (s.dmaTag k 4 c.out).updDma k fun c => { c with stage := 3 }
    | (r, s') => s'.dmaStopLate k d r 4 a c.out (s.meet != s'.meet)

/-- DONE, and its occurrence on channel 18 where its source is enabled (R344). -/
def State.dmaDone (s : State) (k : Nat) : State :=
  let s := s.raise DMA_STAT_DONE k
  if (s.reg .EVT_SRCMASK).getLsbD (16 + k) then s.strobe [18] else s

/-- The next descriptor, or the end: RPT's next one, the one NEXT names, or IDLE. A pause takes effect here (R279–R281). -/
def State.dmaNext (s : State) (k : Nat) (d : Desc) : State :=
  let c := s.dma k
  let s := s.dmaFreeEng k
  let s := s.updDma k fun c => { c with desc := none, buf := [], stage := 0, done := 0, out := 0, goal := 0, waiting := false }
  let goTo : DmaSt := if c.st == .pausing then .paused else .running
  if c.direct then
    let s := { s with rpt := { s.rpt with stored := s.rpt.stored + c.out } }
    match s.rpt.descs with
    | n :: rest => ({ s with rpt := { s.rpt with descs := rest } }).dmaLoad k n
    | [] => s.updDma k fun _ => {}
  else if d.last then
    if goTo == .paused then (s.updDma k fun c => { c with st := .paused }).setWide .DMA_CURDESC_LO .DMA_CURDESC_HI k 0
    else s.updDma k fun _ => {}
  else
    (s.updDma k fun c => { c with st := goTo, fetch := some d.next }).setWide .DMA_CURDESC_LO .DMA_CURDESC_HI k d.next

/-- One step of the completion, for a channel at the stage, whose accesses have been answered. -/
def State.dmaAt (s : State) (k stage : Nat) (f : Desc → State) : State :=
  let c := s.dma k
  match c.desc with
  | some d => if c.stage = stage ∧ (c.st = .running ∨ c.st = .pausing) ∧ !s.dmaOutst k then f d else s
  | none => s

/-- The remaining steps of R276, each once the accesses of the one before are answered. -/
def State.dmaFinish (s : State) (k : Nat) : State :=
  let s := (s.dmaAt k 1 fun _ => (s.dmaCur k).dmaReadBack k)
  let s := s.dmaAt k 2 fun d => s.dmaStatus k d
  s.dmaAt k 3 fun d => (if d.irq then s.dmaDone k else s).dmaNext k d

/-! ### Commands -/

/-- An access of a channel has been answered OK: a descriptor that has come is begun, a movement goes on, a completion takes its next
step. -/
def State.dmaAnswered (s : State) (k : Nat) : State :=
  let c := s.dma k
  if c.st != .running && c.st != .pausing then s
  else match c.desc, c.got with
    | some d, _ => (s.doIf (c.stage == 0 && c.goal != 0 && !c.waiting) (·.dmaMove k d c.goal)).dmaFinish k
    | none, some b => if s.dmaOutst k then s else s.dmaLoad k (descOf b)
    | none, none => s

/-- DESCRIPTOR_FETCH: the descriptor named next is read, checked and begun, once its read is answered; a failed read halts the
channel (R273, R277). -/
def execDescriptorFetch (k : Fin 16) (s : State) : Host.Outcome State Fault Refusal :=
  .next (s.whenLive fun s =>
    let c := s.dma k
    match c.fetch with
    | some a =>
      if c.st != .running || c.got.isSome then s
      else match s.anyRead (dmaMaster k) a 64 with
        | (0, b, s) =>
          let s := s.dmaTag k 0 0
          if s.dmaOutst k then s.updDma k fun c => { c with got := some b } else s.dmaLoad k (descOf b)
        | (r, _, s) => s.dmaHalt k r 0 a 0
    | none => s)

/-- DESCRIPTOR_COMPLETE: the descriptor in progress moves what is left of it and completes; requests that wait for a CXL device
hold its next step back until their response. A channel resumed after its last descriptor is IDLE. -/
def execDescriptorComplete (k : Fin 16) (s : State) : Host.Outcome State Fault Refusal :=
  .next (s.whenLive fun s =>
    let c := s.dma k
    match c.desc with
    | some d =>
      if c.waiting then s
      else (s.doIf (c.st == .running && c.stage == 0) (·.dmaMove k d d.srcBytes)).dmaFinish k
    | none => if c.st == .running && c.fetch.isNone then s.updDma k fun _ => {} else s)

/-- A channel told to pause has read what it will: what is held of OP 0 is written, of OP 1 and OP 2 a free part of what the engine has
made (log 1). -/
def State.dmaDrain (s : State) (k : Nat) (d : Desc) : State :=
  let c := s.dma k
  if c.st != .pausing || c.stage != 0 || !c.held.isEmpty || c.bad.isSome then s
  else if d.op = 0 then s.dmaFlush k d true
  else
    let made := d.made c.buf
    let (m, s) := s.dmaSome k made.length
    s.dmaPutOut k d true (made.take m)

/-- A channel that has nothing more to do before its pause is PAUSED, unless its descriptor completes first (R279, R280). -/
def State.dmaPaused (s : State) (k : Nat) : State :=
  let c := s.dma k
  if c.st == .pausing && c.stage == 0 && c.held.isEmpty && !s.dmaOutst k then
    (s.dmaCur k).updDma k fun c => { c with st := .paused }
  else s.dmaFinish k

/-- PAUSE_DRAINED: the channel, told to pause, has read `n` more source bytes, and every issued access is answered; where
the last byte was among them the descriptor completes first (R279, R280). -/
def execPauseDrained (k : Fin 16) (n : Nat) (s : State) : Host.Outcome State Fault Refusal :=
  .next (s.whenLive fun s =>
    let c := s.dma k
    if c.st != .pausing then s
    else match c.desc with
      | none => s.dmaPaused k
      | some d =>
        if c.stage ≠ 0 ∨ c.waiting then s.dmaPaused k
        else ((s.dmaMove k d (min d.srcBytes (c.done + n))).dmaDrain k d).dmaPaused k)

/-- The address of the channel's write at stream offset `ofs`, the status write beyond the last one. -/
def State.dmaWriteOf (s : State) (k : Nat) (d : Desc) (ofs : Nat) : Nat :=
  if ofs < d.dstBytes then (d.writeAt ofs).1 else s.dmaCurDesc k + 56

/-- CHANNEL_HALT: a response other than OK halts the channel. The write at stream offset `ofs`, or the status write beyond the last
one, meets a port 0 write of its word where it lies in the shared pool (R256): the one that a REGISTER_WRITE has given, else one of a
free master of port 0, which leaves free bytes in the word (logs 1, 124). Where every access of the descriptor would be answered OK, nothing happens. -/
def execChannelHalt (k : Fin 16) (ofs : Nat) (s : State) : Host.Outcome State Fault Refusal :=
  .next (s.whenLive fun s =>
    let c := s.dma k
    match c.desc with
    | none => s
    | some d =>
      if c.waiting || !(c.st == .running || c.st == .pausing) then s
      else
        let a := s.dmaWriteOf k d ofs
        let w := (a - poolBase) / 32
        let other := fun (s : State) =>
          let (bs, s') := s.drawn.freeBytes 32
          { s' with mem := memWrite s'.mem (poolBase + 32 * w) bs, meet := some (port0Masters.getD (s.free % 15) 48, w) }
        let s1 := s.doIf (decide (poolBase ≤ a) && decide (a < poolBase + 0x1000000) && (s.meet.map (·.2)) != some w) other
        let t := if c.stage = 0 then s1.dmaMove k d d.srcBytes else s1
        let t := if d.dstBytes ≤ ofs then t.dmaFinish k else t
        if (t.dma k).st == .halted then t else s)

end Sys2Proof.Machine
end

