-- ==== Sys2Proof/Machine/CxlResp.lean ====
section
/-!
DEFINITION. Sys2Proof/Machine/CxlResp.lean: the answers of the CXL devices to requests that wait (R264–R268): what an answer does to
its master, the freeze of a port, timeouts and lost links.
-/
namespace Sys2Proof.Machine

/-! ### What an answered request does to its master (R180, R190, R268, R277) -/

/-- A waiting STC write of engine e failed: it counts once, and its line is charged to the port (R125, R264, R268). -/
def State.stcFailed (s : State) (p e : Nat) (r : CxlReq) : State :=
  match r.tag with
  | some (1, l) =>
    let line := toSigned 48 l
    let x := s.stripeExt e
    ((s.tagDrop e fun q => q.grp == r.grp).raise SE_STAT_STC_ERR e).collectLine line (fun _ => false)
      [blindLine 3 0 p line x.1 x.2]
  | _ => s

/-- A waiting read of REF failed: its row is not put into its slot. -/
def State.refReadFailed (s : State) (p : Nat) (r : CxlReq) : State :=
  match r.tag.bind fun t => s.ref.fills.find? fun f => (f.hdrAt, f.row) == t with
  | some f =>
    let s := s.tagDrop 17 fun q => q.grp == r.grp
    ({ s with ref := { s.ref with fills := s.ref.fills.filter (· != f) } } : State).rowFailed f.eng f.hdrAt f.row (some p)
  | none => s

/-- A waiting tile write of CMP failed: its tile, where it counts as complete, fails, once (R180, R287). -/
def State.tileWriteFailed (s : State) (r : CxlReq) : State :=
  let hit := match r.tag with
    | some (1, key) => s.livePages.findSome? fun g => (g.tiles.find? fun t => tileKey g.qp t.1 t.2 == key).map fun t => (g.qp, t)
    | _ => none
  match hit with
  | some (qp, t) =>
    let s := ((s.raise CMP_STAT_WR_ERR).raise REF_STAT_TILE_ERR).tileLost
    s.updPage qp fun g => { g with tiles := g.tiles.filter (· != t) }
  | none => s

/-- A waiting access of a DMA channel failed: a read once what was read before it is written, any other at once (R277, R278). -/
def State.dmaReqFailed (s : State) (k : Nat) (r : CxlReq) : State :=
  let c := s.dma k
  let (dir, at_) := r.tag.getD (9, 0)
  if dir = 9 ∨ (c.st ≠ .running ∧ c.st ≠ .pausing) then s
  else match c.desc with
    | some d =>
      if dir = 1 then
        if (c.bad.map fun b => decide (b.2.2 ≤ at_)).getD false then s
        else
          let s := s.updDma k fun x => { x with bad := some (rERROR, r.addr, at_), held := x.held.filter fun h => decide (h.1 < at_) }
          s.dmaMove k d c.goal
      else if dir = 2 then s.dmaStop k d rERROR 2 r.addr at_
      else s.dmaStopLate k d rERROR dir r.addr at_
    | none => s.dmaHalt k rERROR dir r.addr at_

/-- The master of a failed request that waited handles the ERROR. -/
def State.cxlFailed (s : State) (p : Nat) (r : CxlReq) : State :=
  let m := r.master
  if m < 16 then s.stcFailed p m r
  else if m = 17 then s.refReadFailed p r
  else if m = 36 then s.tileWriteFailed r
  else if 20 ≤ m ∧ m < 36 then s.dmaReqFailed (m - 20) r
  else s

/-- The master of a request that has been answered OK goes on with what it brought. -/
def State.cxlAnswered (s : State) (r : CxlReq) : State :=
  let m := r.master
  match r.tag with
  | none => s
  | some t =>
    if t.1 = 9 ∨ s.tagWaits m (· == t) then s
    else if m = 17 then
      match s.ref.fills.find? fun f => (f.hdrAt, f.row) == t with
      | some f => s.rowArrived f
      | none => s
    else if 20 ≤ m ∧ m < 36 then s.dmaAnswered (m - 20)
    else s

/-! ### Responses (R265–R267) -/

/-- The bytes a refused write replaced return: into memory, or into what the next write of the same byte holds back. -/
def undoCell (u : Nat × Byte) : List CxlReq → Option (List CxlReq)
  | [] => none
  | x :: xs =>
    if x.undo.any (·.1 == u.1) then some ({ x with undo := x.undo.map fun v => if v.1 = u.1 then u else v } :: xs)
    else (undoCell u xs).map (x :: ·)

/-- The i-th waiting request of a port leaves, and its write, if any, has written nothing (R264). -/
def State.cxlUndo (s : State) (p i : Nat) : State :=
  match (s.cxlp p).outst[i]? with
  | none => s
  | some r =>
    let (later, mem) := r.undo.foldl (fun (acc : List CxlReq × Memory) u =>
      match undoCell u acc.1 with
      | some l => (l, acc.2)
      | none => (acc.1, memPut acc.2 u.1 u.2)) ((s.cxlp p).outst.drop (i + 1), s.mem)
    { s with mem := mem }.updCxl p fun c => { c with outst := c.outst.take i ++ later }

/-- The i-th waiting request of a port fails: its write is undone, the port freezes, and its master handles the ERROR. -/
def State.cxlReqFail (s : State) (p i kind l : Nat) : State :=
  match (s.cxlp p).outst[i]? with
  | none => s
  | some r => ((s.cxlUndo p i).cxlFault p kind l r).cxlFailed p r

/-- The i-th waiting request of a port is answered OK: what it wrote stays, and its master goes on. -/
def State.cxlReqOk (s : State) (p i : Nat) : State :=
  match (s.cxlp p).outst[i]? with
  | none => s
  | some r =>
    let s := s.updCxl p fun c => { c with
      outst := (c.outst.take i).map (fun x => { x with undo := x.undo.filter fun u => !r.undo.any (·.1 == u.1) })
        ++ c.outst.drop (i + 1) }
    (s.doIf r.write (·.poisonClear p r.addr r.bytes)).cxlAnswered r

/-- A response to the i-th request of port p that waits: 0 OK, 1 poison on its line l, 2 an uncorrectable error. A failure given for
a request that is not yet issued is the response it will get (DESIGN CHOICE, log 123). -/
def State.cxlRespond (s : State) (p i kind l : Nat) : State :=
  let n := (s.cxlp p).outst.length
  if kind = 0 then s.cxlReqOk p i
  else if i < n then s.cxlReqFail p i kind l
  else s.updCxl p fun c => { c with early := c.early ++ [(i - n, kind, l)] }

/-- CXL_RESPONSE: the device answers. -/
def execCxlResponse (p : Fin 4) (i : Nat) (kind : Fin 3) (l : Nat) (s : State) : Host.Outcome State Fault Refusal :=
  .next (s.whenLive (·.cxlRespond p i kind l))

/-- CXL_REQUEST_TIMEOUT: the oldest request waiting has been unanswered for 1 ms; where none waits, the next one will be. -/
def execCxlRequestTimeout (p : Fin 4) (s : State) : Host.Outcome State Fault Refusal :=
  .next (s.whenLive (·.cxlRespond p 0 3 0))

/-- Every waiting request of a port fails with the loss of its link, the oldest first; the flag is set once. -/
def State.cxlAllFail (s : State) (p : Nat) : State :=
  let s := s.cxlReqFail p 0 4 0
  (s.cxlp p).outst.foldl (fun s _ => match (s.cxlp p).outst with
    | r :: _ => (s.cxlUndo p 0).cxlFailed p r
    | [] => s) s

/-- CXL_LINK_LOSS: the link is lost; the requests without an answer fail, and the port trains again. Where none waits, what
the log names is not stated: free values (log 1). -/
def execCxlLinkLoss (p : Fin 4) (s : State) : Host.Outcome State Fault Refusal :=
  .next (s.whenLive fun s =>
    let c := s.cxlp p
    if !(s.on CXL_P_CTL_EN p && (c.st == .up || c.st == .l1)) then s
    else
      let any : CxlReq :=
        { addr := s.free, master := s.free / 2 ^ 40 % 64, write := (s.free / 2 ^ 46).testBit 0, lines := 0, bytes := 0, time := 0
          result := rERROR }
      let s := if c.outst.isEmpty then ((s.raise CXL_P_STAT_LINK_DOWN p).cxlFreeze p 4 any).drawn else s.cxlAllFail p
      s.updCxl p fun c => { c with st := .training, outst := [] })

end Sys2Proof.Machine
end

