-- ==== Sys2Proof/Machine/QuezuOps.lean ====
section
/-!
DEFINITION. Sys2Proof/Machine/QuezuOps.lean: what each Quezu instruction reads and produces (R137–R158).
-/
namespace Sys2Proof
open Sys2Proof.Machine (bits toSigned)

/-! ### Sub-fields of the slot words -/

/-- SB, OFS and K of a C-slot word. -/
def CFields.sb (f : CFields) : Nat := bits f.imm.toNat 31 27
def CFields.ofs (f : CFields) : Nat := bits f.imm.toNat 10 0
def CFields.k (f : CFields) : Nat := f.sd.val / 2

/-- Sub-fields of a U-slot word. -/
def UFields.vc (f : UFields) : Nat := bits f.low.toNat 10 6
def UFields.t (f : UFields) : Bool := f.low.getLsbD 5
def UFields.rnd (f : UFields) : Bool := f.low.getLsbD 4
def UFields.sh (f : UFields) : Nat := f.low.toNat % 16
def UFields.imm (f : UFields) : BitVec 16 := BitVec.ofNat 16 (2048 * f.vb.val + f.low.toNat)

/-- Sub-fields of MOD. -/
def MFields.bit (f : MFields) (k : Nat) : Bool := f.mod.getLsbD k
def MFields.acc (f : MFields) : Nat := f.vd.val % 4
def MFields.imm (f : MFields) : Int := toSigned 16 (2048 * f.vc.val + bits f.mod.toNat 14 4)
def MFields.set (f : MFields) : Nat := bits f.mod.toNat 14 13
def MFields.taps (f : MFields) : Nat := bits f.mod.toNat 12 10 + 1

end Sys2Proof

namespace Sys2Proof.Machine

/-! ### C slot (R137–R140) -/

/-- Scalars SA and SB of a C-slot word. -/
def Iss.sa (i : Iss) (f : CFields) : BitVec 64 := i.g.sreg f.sa.val
def Iss.sb (i : Iss) (f : CFields) : BitVec 64 := i.g.sreg f.sb

/-- A scalar result at the end of a latency; S0 discards it. -/
def scaOut (f : CFields) (v : BitVec 64) (lat : Nat := 1) : Out :=
  if f.sd.val = 0 then {} else { wr := [(lat, .sca f.sd.val v)] }

/-- Format R and format I. -/
def cR (op : BitVec 64 → BitVec 64 → BitVec 64) (f : CFields) (lat : Nat := 1) : Op :=
  fun i => scaOut f (op (i.sa f) (i.sb f)) lat
def cI (op : BitVec 64 → BitVec 32 → BitVec 64) (f : CFields) : Op := fun i => scaOut f (op (i.sa f) f.imm)

def opCAdd (f : CFields) : Op := cR (· + ·) f
def opCSub (f : CFields) : Op := cR (· - ·) f
def opCMul (f : CFields) : Op := cR (· * ·) f 3
def opCAnd (f : CFields) : Op := cR (· &&& ·) f
def opCOr (f : CFields) : Op := cR (· ||| ·) f
def opCXor (f : CFields) : Op := cR (· ^^^ ·) f
def opCShl (f : CFields) : Op := cR (fun a b => a <<< (b.toNat % 64)) f
def opCShr (f : CFields) : Op := cR (fun a b => a >>> (b.toNat % 64)) f
def opCSar (f : CFields) : Op := cR (fun a b => a.sshiftRight (b.toNat % 64)) f
def opCMin (f : CFields) : Op := cR (fun a b => if a.toInt ≤ b.toInt then a else b) f
def opCMax (f : CFields) : Op := cR (fun a b => if a.toInt ≤ b.toInt then b else a) f
def opSlt (f : CFields) : Op := cR (fun a b => if a.toInt < b.toInt then 1 else 0) f
def opAddi (f : CFields) : Op := cI (fun a m => a + m.signExtend 64) f
def opLi (f : CFields) : Op := cI (fun _ m => m.signExtend 64) f
def opLih (f : CFields) : Op := cI (fun a m => m ++ a.truncate 32) f
def opShli (f : CFields) : Op := cI (fun a m => a <<< (m.toNat % 64)) f
def opShri (f : CFields) : Op := cI (fun a m => a >>> (m.toNat % 64)) f
def opSari (f : CFields) : Op := cI (fun a m => a.sshiftRight (m.toNat % 64)) f
def opCtx (f : CFields) : Op := fun i => scaOut f (i.r.ctx.getD (f.imm.toNat % 8) 0)
def opPset (f : CFields) : Op := fun i =>
  if f.sd.val % 8 = 0 then {} else { wr := [(1, .pred (f.sd.val % 8) (i.sa f))] }
def opPget (f : CFields) : Op := fun i => scaOut f (i.g.preg (f.sa.val % 8))
def opBr (f : CFields) : Op := fun _ => { ctl := .branch f.ofs }
def opBrz (f : CFields) : Op := fun i => if i.sa f = 0 then { ctl := .branch f.ofs } else {}
def opBrnz (f : CFields) : Op := fun i => if i.sa f = 0 then {} else { ctl := .branch f.ofs }
def opBrlt (f : CFields) : Op := fun i => if (i.sa f).toInt < (i.sb f).toInt then { ctl := .branch f.ofs } else {}
def opLoopv (f : CFields) : Op := fun i => { ctl := .loop f.k (i.sa f).toInt (i.sb f).toInt }
def opTickwait : Op := fun _ => { ctl := .wait }

/-- The MBOX entry (R140, R158). -/
def opMbox (f : CFields) : Op := fun i =>
  let body := leBytes 8 (i.sa f).toNat ++ leBytes 1 (f.imm.toNat % 256) ++ leBytes 1 i.e ++ leBytes 6 0
    ++ leBytes 8 (65536 * ofSigned 48 i.r.line) ++ leBytes 8 0
  { ctl := .mbox, push := [.mbox body] }

/-! ### Vectors -/

/-- Channel ch of lane l. -/
def vch (v : Vec) (l ch : Nat) : BitVec 16 := v.getD (4 * l + ch) 0

/-- A value of type T: unsigned or signed. -/
def tval (t : Bool) (x : BitVec 16) : Int := if t then x.toInt else x.toNat

/-- Saturations (R133). -/
def satU (x : Int) : BitVec 16 := BitVec.ofInt 16 (clampInt 0 65535 x)
def satS (x : Int) : BitVec 16 := BitVec.ofInt 16 (clampInt (-32768) 32767 x)
def satT (t : Bool) (x : Int) : BitVec 16 := if t then satS x else satU x

/-- Rounding shift. -/
def rshr (x : Int) (n : Nat) : Int := if n = 0 then x else (x + 2 ^ (n - 1)) / 2 ^ n

/-- A vector built lane by lane and channel by channel. -/
def mkVec {α : Type} (f : Nat → Nat → α) : List α :=
  (List.range 64).flatMap fun l => (List.range 4).map (f l)

/-- Lanes of a predicate. -/
def pgLane (g : Eng) (pg l : Nat) : Bool := (g.preg pg).getLsbD l

/-- A vector result of the W or M slot: all channels of the lanes in PG (R132). -/
def vecOut (lat : Nat) (g : Eng) (pg vd : Nat) (f : Nat → Nat → BitVec 16) : Nat × RegWr :=
  (lat, .vec vd (mkVec fun l ch => if pgLane g pg l then some (f l ch) else none))

/-! ### W slot (R141, R142) -/

/-- The row store grants an access to its engine (R10). -/
def Iss.grants (i : Iss) (kind : Kind) (ofs n : Nat) : Bool :=
  (i.s.checkTable i.e).permitted i.e i.e (ofs / 4096) ((ofs + n - 1) / 4096) kind

/-- Bytes of the row store as a W-slot access reads them. -/
def Iss.row (i : Iss) (ofs n : Nat) : List Byte :=
  if i.grants .r ofs n then i.s.rowBytes i.e ofs n else List.replicate n 0

/-- Slot of a ring that relative line −REL names (R112). -/
def Iss.slot (i : Iss) (r : Ring) (rel : Nat) : Nat :=
  r.slotOf ((if r.kind = 1 then i.r.q else i.r.line) - rel)

/-- Offset of an element, clamped to the ring (R142). -/
def Iss.elemAt (i : Iss) (r : Ring) (rel : Nat) (x : Int) : Nat :=
  r.slotOfs (i.slot r rel) + (clampInt 0 ((r.width : Int) - 1) x).toNat * r.esize

/-- Four channels of an element (R110). -/
def Iss.elem (i : Iss) (r : Ring) (rel : Nat) (x : Int) : List (BitVec 16) :=
  let b := i.row (i.elemAt r rel x) r.esize
  if r.elem = 0 then (List.range 4).map fun c => BitVec.ofNat 16 (leNat ((b.drop (2 * c)).take 2))
  else (List.range 4).map fun c => BitVec.ofNat 16 ((b.getD c 0).toNat)

/-- Refused offsets of a list of accesses: the first, for the log. -/
def Iss.refused (i : Iss) (kind : Kind) (n : Nat) (ofs : List Nat) : Option (Nat × Kind) :=
  (ofs.find? fun o => !i.grants kind o n).map fun o => (o, kind)

/-- A load of one register: element index of each lane. -/
def wLoad (f : WFields) (i : Iss) (vd : Nat) (x : Nat → Int) : Out :=
  match i.p.rings[f.src.val]? with
  | some r =>
    let es := (List.range 64).map fun l => (i.elem r f.rel.val (x l)).toArray
    { wr := [(3, .vec vd (mkVec fun l ch => if pgLane i.g f.pg.val l then some ((es.getD l #[]).getD ch 0) else none))]
      bank := true, deny := i.refused .r r.esize ((List.range 64).map fun l => i.elemAt r f.rel.val (x l)) }
  | none => { wr := [vecOut 3 i.g f.pg.val vd fun _ _ => 0] }

/-- b + OFF + l. -/
def Iss.el (i : Iss) (f : WFields) (l : Nat) : Int := i.r.base + f.ofs.toInt + l

/-- Clamped integer part of lane l of a coordinate vector (R113). -/
def coordD (v : Vec) (l : Nat) : Int := clampInt (-64) 64 (vch v l 1).toInt

def opLd (f : WFields) : Op := fun i => wLoad f i f.vd.val (i.el f)
def opLdx (f : WFields) : Op := fun i => wLoad f i f.vd.val fun l => i.el f l + coordD (i.g.vreg f.vc.val) l
def opLdp (f : WFields) : Op := fun i =>
  let a := wLoad f i (f.vd.val / 2 * 2) fun l => i.el f l - 32
  let b := wLoad f i (f.vd.val / 2 * 2 + 1) fun l => i.el f l + 32
  { a with wr := a.wr ++ b.wr, deny := a.deny.or b.deny }

/-- Minimum, maximum or plain element over 2h + 1 taps. -/
def opLdw (f : WFields) : Op := fun i =>
  let h : Nat := min 4 f.arg.val
  match i.p.rings[f.src.val]? with
  | some r =>
    if f.mode.val = 1 ∨ f.mode.val = 2 then
      let tap := fun (l k : Nat) => i.elem r f.rel.val (i.el f l - h + k)
      let pick := fun (a b : BitVec 16) => if f.mode.val = 1 then (if a.toNat ≤ b.toNat then a else b) else (if a.toNat ≤ b.toNat then b else a)
      let v := (List.range 64).map fun l =>
        ((List.range (2 * h)).foldl (fun acc k => List.zipWith pick acc (tap l (k + 1))) (tap l 0)).toArray
      { wr := [(3, .vec f.vd.val (mkVec fun l ch => if pgLane i.g f.pg.val l then some ((v.getD l #[]).getD ch 0) else none))]
        bank := true
        deny := i.refused .r r.esize ((List.range 64).flatMap fun l =>
          (List.range (2 * h + 1)).map fun (k : Nat) => i.elemAt r f.rel.val (i.el f l - h + k)) }
    else wLoad f i f.vd.val (i.el f)
  | none => { wr := [vecOut 3 i.g f.pg.val f.vd.val fun _ _ => 0] }

/-- Element of a table area, clamped. -/
def areaAt (a : Nat × Nat) (size : Nat) (x : Int) : Nat := a.1 + (clampInt 0 ((a.2 / size : Nat) - 1 : Int) x).toNat * size

/-- Four channels of an 8-byte element of a table area. -/
def Iss.quad (i : Iss) (o : Nat) : Array (BitVec 16) :=
  let b := i.row o 8
  ((List.range 4).map fun c => BitVec.ofNat 16 (leNat ((b.drop (2 * c)).take 2))).toArray

/-- A load whose mode the spec does not describe: free values in the lanes of PG (log 1). -/
def freeVec (i : Iss) (pg vd : Nat) : Out :=
  { wr := [vecOut 3 i.g pg vd fun l ch => BitVec.ofNat 16 (Config.freeNat i.s.freeCtr / 2 ^ (16 * (4 * l + ch)))], draws := 1 }

/-- LDT reads the table area as the row store holds it at issue: a write into an active map in Run, which `busWrite` carries out at
once, takes effect with the next LDT or LDG, and the lines may then mix old and new entries (R114, R172). -/
def opLdt (f : WFields) : Op := fun i =>
  match i.p.areas[f.src.val]? with
  | none => { wr := [vecOut 3 i.g f.pg.val f.vd.val fun _ _ => 0] }
  | some a =>
    if f.mode.val = 0 then
      let at_ := fun l => areaAt a 8 (i.el f l)
      let es := (List.range 64).map fun l => i.quad (at_ l)
      { wr := [vecOut 3 i.g f.pg.val f.vd.val fun l ch => (es.getD l #[]).getD ch 0], bank := true, deny := i.refused .r 8 ((List.range 64).map at_) }
    else if f.mode.val = 1 then
      let at_ := fun l => areaAt a 4 (i.el f l)
      let es := (List.range 64).map fun l => leNat (i.row (at_ l) 4)
      { wr := [vecOut 3 i.g f.pg.val f.vd.val fun l ch => if ch < 2 then BitVec.ofNat 16 (es.getD l 0 / 2 ^ (16 * ch)) else 0]
        bank := true, deny := i.refused .r 4 ((List.range 64).map at_) }
    else freeVec i f.pg.val f.vd.val

/-- Stride of an axis in the LUT4 table. -/
def lutStride (x : Nat) : Nat := [729, 81, 9, 1].getD x 0

/-- Simplex vertex k of a lane of LUT4X's even register. -/
def lutVertex (v : Vec) (l k : Nat) : Int :=
  let code := (vch v l 1).toNat
  (List.range k).foldl (fun a r => a + lutStride (code / 4 ^ r % 4)) (vch v l 0).toNat

def opLdg (f : WFields) : Op := fun i =>
  match i.p.areas[f.src.val]? with
  | none => { wr := [vecOut 3 i.g f.pg.val f.vd.val fun _ _ => 0] }
  | some a =>
    if f.mode.val < 2 then
      let v := i.g.vreg f.vc.val
      let at_ := fun l => areaAt a 8 (f.ofs.toInt + (if f.mode.val = 0 then ((vch v l 0).toNat : Int) else lutVertex v l (min 4 f.arg.val)))
      let es := (List.range 64).map fun l => i.quad (at_ l)
      { wr := [vecOut 3 i.g f.pg.val f.vd.val fun l ch => (es.getD l #[]).getD ch 0], bank := true, deny := i.refused .r 8 ((List.range 64).map at_) }
    else freeVec i f.pg.val f.vd.val

/-- A word of a slot header; a work ring has no header, so what LDH reads there is a free value (log 1). -/
def opLdh (f : WFields) : Op := fun i =>
  let sd := f.vd.val
  let out := fun (v : Nat) => if sd = 0 then ({} : Out) else { wr := [(3, .sca sd (BitVec.ofNat 64 v))] }
  match i.p.rings[f.src.val]? with
  | none => out 0
  | some r =>
    if 3 ≤ r.kind then { out (Config.freeNat i.s.freeCtr) with draws := 1 }
    else
      let o := r.hdrOfs (i.slot r f.rel.val) + 8 * (f.arg.val % 4)
      { out (leNat (i.row o 8)) with bank := true, deny := i.refused .r 8 [o] }

/-- STW writes a work ring; a load issued two cycles later sees it (R142). -/
def opStw (f : WFields) : Op := fun i =>
  match i.p.rings[f.src.val]? with
  | some r =>
    if r.kind ≠ 3 then {}
    else
      let v := i.g.vreg f.vd.val
      let ls := (List.range 64).filter fun l => pgLane i.g f.pg.val l
      let at_ := fun (l : Nat) => i.elemAt r 0 (i.el f l)
      let data := fun (l : Nat) => (List.range 4).flatMap fun c =>
        if r.elem = 0 then leBytes 2 (vch v l c).toNat else leBytes 1 (vch v l c).toNat
      { wr := (ls.filter fun l => i.grants .w (at_ l) r.esize).map fun l => (2, .row (at_ l) (data l))
        bank := true, deny := i.refused .w r.esize (ls.map at_) }
  | none => {}

/-! ### U slots (R143, R144) -/

/-- A vector result of a U slot (R132). -/
def uOut (f : UFields) (g : Eng) (lat : Nat) (vals : List (BitVec 16)) : Out :=
  { wr := [(lat, .vec f.vd.val (vals.mapIdx fun k x =>
      if f.cmn.getLsbD (k % 4) then none
      else if pgLane g f.pg.val (k / 4) then some x
      else if f.z then some 0 else none))] }

/-- Form R on two and on three vectors, form I on one. -/
def uR2 (f : UFields) (op : BitVec 16 → BitVec 16 → BitVec 16) (lat : Nat := 1) : Op := fun i =>
  uOut f i.g lat (List.zipWith op (i.g.vreg f.va.val) (i.g.vreg f.vb.val))
def uR3 (f : UFields) (op : BitVec 16 → BitVec 16 → BitVec 16 → BitVec 16) : Op := fun i =>
  uOut f i.g 1 (List.zipWith (fun a bc => op a bc.1 bc.2) (i.g.vreg f.va.val) (List.zip (i.g.vreg f.vb.val) (i.g.vreg f.vc)))
def uR1 (f : UFields) (op : BitVec 16 → BitVec 16) : Op := fun i => uOut f i.g 1 ((i.g.vreg f.va.val).map op)

/-- Minimum and maximum of type T. -/
def tmin (t : Bool) (a b : BitVec 16) : BitVec 16 := if tval t a ≤ tval t b then a else b
def tmax (t : Bool) (a b : BitVec 16) : BitVec 16 := if tval t a ≤ tval t b then b else a

def opUAdd (f : UFields) : Op := uR2 f fun a b => satT f.t (tval f.t a + tval f.t b)
def opUSub (f : UFields) : Op := uR2 f fun a b => satT f.t (tval f.t a - tval f.t b)
def opAddiu (f : UFields) : Op := uR1 f fun a => satU ((a.toNat : Int) + f.imm.toInt)
def opAddis (f : UFields) : Op := uR1 f fun a => satS (a.toInt + f.imm.toInt)
def opMulh (f : UFields) : Op :=
  uR2 f (fun a b =>
    let p := tval f.t a * tval f.t b
    satT f.t (if f.rnd then rshr p f.sh else p / 2 ^ f.sh)) 2
def opAbs (f : UFields) : Op := uR1 f fun a => satS (a.toInt.natAbs : Int)
def opAbsd (f : UFields) : Op := uR2 f fun a b => satU ((tval f.t a - tval f.t b).natAbs : Int)
def opUMin (f : UFields) : Op := uR2 f (tmin f.t)
def opUMax (f : UFields) : Op := uR2 f (tmax f.t)
def opMin3 (f : UFields) : Op := uR3 f fun a b c => tmin f.t (tmin f.t a b) c
def opMax3 (f : UFields) : Op := uR3 f fun a b c => tmax f.t (tmax f.t a b) c
def opMed3 (f : UFields) : Op := uR3 f fun a b c => tmax f.t (tmin f.t a b) (tmin f.t (tmax f.t a b) c)
def opClamp (f : UFields) : Op := uR3 f fun a b c => tmin f.t (tmax f.t a b) c

/-- SEL takes PG as its selector and writes every lane. -/
def opSel (f : UFields) : Op := fun i =>
  { wr := [(1, .vec f.vd.val ((List.zip (i.g.vreg f.va.val) (i.g.vreg f.vb.val)).mapIdx fun k ab =>
      if f.cmn.getLsbD (k % 4) then none else some (if pgLane i.g f.pg.val (k / 4) then ab.1 else ab.2)))] }

def opMovi (f : UFields) : Op := fun i => uOut f i.g 1 (List.replicate 256 f.imm)
def opUAnd (f : UFields) : Op := uR2 f (· &&& ·)
def opUOr (f : UFields) : Op := uR2 f (· ||| ·)
def opUXor (f : UFields) : Op := uR2 f (· ^^^ ·)
def opAndn (f : UFields) : Op := uR2 f fun a b => a &&& ~~~ b
def opUShl (f : UFields) : Op := uR1 f fun a => satT f.t (tval f.t a * 2 ^ f.sh)
def opUShr (f : UFields) : Op := uR1 f fun a =>
  BitVec.ofInt 16 (if f.rnd then rshr (tval f.t a) f.sh else tval f.t a / 2 ^ f.sh)
def opCvt (f : UFields) : Op := uR1 f fun a => if f.t then satU a.toInt else satS a.toNat
def opVspl (f : UFields) : Op := fun i =>
  uOut f i.g 1 (mkVec fun _ ch => BitVec.ofNat 16 ((i.g.sreg f.va.val).toNat / 2 ^ (16 * ch)))
def opLaneix (f : UFields) : Op := fun i =>
  uOut f i.g 1 (mkVec fun l ch => if ch = 0 then BitVec.ofInt 16 (i.r.base + l + f.imm.toInt) else 0)

/-- A predicate from one Bool per lane, masked by PG (R132). -/
def predOut (f : UFields) (g : Eng) (b : Nat → Bool) : Out :=
  let pd := f.vd.val % 8
  if pd = 0 then {}
  else
    let v := (List.range 64).foldl (fun a l => if b l && pgLane g f.pg.val l then a + 2 ^ l else a) 0
    { wr := [(1, .pred pd (BitVec.ofNat 64 v))] }

/-- Compares: any or all of the participating channels (CMB). -/
def uCmp (f : UFields) (rel : List (Bool)) (g : Eng) : Out :=
  let r := rel.toArray
  predOut f g fun l =>
    let chs := (List.range 4).filter fun ch => !f.cmn.getLsbD ch
    if f.z then chs.all fun ch => r.getD (4 * l + ch) false else chs.any fun ch => r.getD (4 * l + ch) false

/-- A compare of two vectors, and of a vector with the immediate. -/
def uCmp2 (f : UFields) (rel : Int → Int → Bool) : Op := fun i =>
  uCmp f (List.zipWith (fun a b => rel (tval f.t a) (tval f.t b)) (i.g.vreg f.va.val) (i.g.vreg f.vb.val)) i.g
def uCmpI (f : UFields) (signed : Bool) (rel : Int → Int → Bool) : Op := fun i =>
  uCmp f ((i.g.vreg f.va.val).map fun a => rel (tval signed a) f.imm.toInt) i.g

def opCmpeq (f : UFields) : Op := uCmp2 f fun a b => decide (a = b)
def opCmplt (f : UFields) : Op := uCmp2 f fun a b => decide (a < b)
def opCmple (f : UFields) : Op := uCmp2 f fun a b => decide (a ≤ b)
def opCmpltiu (f : UFields) : Op := uCmpI f false fun a b => decide (a < b)
def opCmpltis (f : UFields) : Op := uCmpI f true fun a b => decide (a < b)
def opCmpgtiu (f : UFields) : Op := uCmpI f false fun a b => decide (b < a)
def opCmpgtis (f : UFields) : Op := uCmpI f true fun a b => decide (b < a)

/-- Predicate instructions. -/
def uPred (f : UFields) (op : Bool → Bool → Bool) : Op := fun i =>
  predOut f i.g fun l => op ((i.g.preg (f.va.val % 8)).getLsbD l) ((i.g.preg (f.vb.val % 8)).getLsbD l)

def opPand (f : UFields) : Op := uPred f (· && ·)
def opPor (f : UFields) : Op := uPred f (· || ·)
def opPxor (f : UFields) : Op := uPred f (· != ·)
def opPandn (f : UFields) : Op := uPred f fun a b => a && !b
def opPnot (f : UFields) : Op := uPred f fun a _ => !a

def opChsh (f : UFields) : Op := fun i =>
  let a := (i.g.vreg f.va.val).toArray
  uOut f i.g 1 (mkVec fun l ch => a.getD (4 * l + f.low.toNat / 4 ^ ch % 4) 0)

def opLfun (f : UFields) : Op := fun i =>
  let a := (i.g.vreg f.va.val).toArray
  let b := (i.g.vreg f.vb.val).toArray
  let k := clampInt (-63) 63 (toSigned 7 f.low.toNat)
  uOut f i.g 1 (mkVec fun l ch =>
    let m : Int := l + k
    if m < 0 then b.getD (4 * (m + 64).toNat + ch) 0
    else if m ≤ 63 then a.getD (4 * m.toNat + ch) 0
    else b.getD (4 * (m - 64).toNat + ch) 0)

/-! ### M slot (R145–R150) -/

/-- The accumulator lane l is updated: PG and the kernel mask of the stage (R132, R136). -/
def Iss.active (i : Iss) (pg stg l : Nat) : Bool := pgLane i.g pg l && i.r.kmask stg l

/-- An accumulator result. -/
def accOut (f : MFields) (i : Iss) (lat : Nat) (add : Bool) (v : Nat → Nat → Int) : Out :=
  { wr := [(lat, .acc f.acc add (mkVec fun l ch => if i.active f.pg.val f.stg.val l then some (v l ch) else none))] }

/-- Products of two vectors of type T. -/
def vprod (t : Bool) (a b : Array (BitVec 16)) (l ch : Nat) : Int :=
  tval t (a.getD (4 * l + ch) 0) * tval t (b.getD (4 * l + ch) 0)

def opMac (f : MFields) : Op := fun i =>
  let a := (i.g.vreg f.va.val).toArray
  let b := (i.g.vreg f.vb.val).toArray
  accOut f i 3 true (vprod (f.bit 14) a b)
def opMaci (f : MFields) : Op := fun i =>
  let a := (i.g.vreg f.va.val).toArray
  accOut f i 3 true fun l ch => tval (f.bit 3) (a.getD (4 * l + ch) 0) * f.imm
def opMula (f : MFields) : Op := fun i =>
  let a := (i.g.vreg f.va.val).toArray
  let b := (i.g.vreg f.vb.val).toArray
  accOut f i 3 false (vprod (f.bit 14) a b)
def opAccrd (f : MFields) : Op := fun i =>
  -- VD names the vector, so the accumulator is the one the low bits of VA name (log 18)
  let c := f.va.val % 4
  let a := (i.g.areg c).toArray
  let sh := f.mod.toNat % 64
  let rd := vecOut 3 i.g f.pg.val f.vd.val fun l ch => satT (f.bit 14) (rshr (a.getD (4 * l + ch) 0).toInt sh)
  if f.bit 13 then
    { wr := [rd, (3, .acc c false (mkVec fun l _ => if i.active f.pg.val f.stg.val l then some 0 else none))] }
  else { wr := [rd] }
def opAccclr (f : MFields) : Op := fun i => accOut f i 1 false fun _ _ => 0

/-- Coefficient of a set, phase and tap: signed S1.14; 0 where the image provides none (R147, R162). -/
def Prog.coef (p : Prog) (set ph t : Nat) : Int := toSigned 16 ((p.coefs.getD set []).getD (8 * ph + t) 0)

def opRsmph (f : MFields) : Op := fun i =>
  let a := (i.g.vreg (f.va.val / 2 * 2)).toArray
  let b := (i.g.vreg (f.va.val / 2 * 2 + 1)).toArray
  let c := i.g.vreg f.vc.val
  let t := f.bit 9
  let n := f.taps
  let cs := (List.range 64).map fun l => (coordD c l, (vch c l 0).toNat / 1024)
  { wr := [vecOut 4 i.g f.pg.val f.vd.val fun l ch =>
      let (d, ph) := cs.getD l (0, 0)
      let sum := (List.range n).foldl (fun acc (k : Nat) =>
        let w := (clampInt 0 127 ((l : Int) + d + (k : Int) - ((n - 1) / 2 : Nat) + 32)).toNat
        let x := if w < 64 then a.getD (4 * w + ch) 0 else b.getD (4 * (w - 64) + ch) 0
        acc + i.p.coef f.set ph k * tval t x) 0
      satT t (rshr sum 14)] }

def opRsmpv (f : MFields) : Op := fun i =>
  let ph := bits (i.g.sreg f.vc.val).toNat 15 10
  let t := f.bit 9
  let vs := (List.range f.taps).map fun k => (i.g.vreg ((f.va.val + k) % 32)).toArray
  { wr := [vecOut 4 i.g f.pg.val f.vd.val fun l ch =>
      satT t (rshr ((vs.zipIdx).foldl (fun acc (v, k) => acc + i.p.coef f.set ph k * tval t (v.getD (4 * l + ch) 0)) 0) 14)] }

/-- Axes in order of falling fraction, equal fractions in axis order (R148). -/
def lutOrder (fr : List Nat) : List Nat :=
  (sortBy (fun a b => decide (b.1 < a.1) || (a.1 == b.1 && decide (a.2 ≤ b.2))) fr.zipIdx).map (·.2)

def opLut4x (f : MFields) : Op := fun i =>
  let v := i.g.vreg f.va.val
  let pts := (lanes v).map fun c =>
    let x := c.map (·.toNat)
    let fr := x.map (· % 8192)
    let ord := lutOrder fr
    let base := (List.range 4).foldl (fun a k => a + lutStride k * (x.getD k 0 / 8192)) 0
    let code := (List.range 4).foldl (fun a r => a + 4 ^ r * ord.getD r 0) 0
    (base, code, ord.map fun k => fr.getD k 0)
  { wr := [vecOut 3 i.g f.pg.val (f.vd.val / 2 * 2) fun l ch =>
        let (b, c, _) := pts.getD l (0, 0, [])
        BitVec.ofNat 16 (if ch = 0 then b else if ch = 1 then c else 0),
      vecOut 3 i.g f.pg.val (f.vd.val / 2 * 2 + 1) fun l ch =>
        BitVec.ofNat 16 ((pts.getD l (0, 0, [])).2.2.getD ch 0)] }

/-- LUT4W; a vertex above 4 has no stated weight: a free value (log 1). -/
def opLut4w (f : MFields) : Op := fun i =>
  let k := bits f.mod.toNat 12 10
  let a := (i.g.vreg f.va.val).toArray
  let b := i.g.vreg f.vb.val
  let w := fun (l : Nat) =>
    let c := fun (j : Nat) => ((vch b l j).toNat : Int)
    if k = 0 then 8192 - c 0 else if k = 4 then c 3 else if k < 4 then c (k - 1) - c k
    else toSigned 17 (Config.freeNat i.s.freeCtr / 2 ^ (17 * l))
  let ws := (List.range 64).map w
  let o := accOut f i 3 (!f.bit 14) fun l ch => ((a.getD (4 * l + ch) 0).toNat : Int) * ws.getD l 0
  { o with draws := if 4 < k then 1 else 0 }

/-- ⌊n ÷ √v + ½⌋, for v ≥ 1. -/
def roundDivSqrt (n : Int) (v : Nat) : Int :=
  let q := 4 * n.natAbs * n.natAbs
  let m := isqrt (q / v)
  if 0 ≤ n then (((m + 1) / 2 : Nat) : Int)
  else
    let c := if m * m * v = q then m else m + 1
    Int.neg ((c / 2 : Nat) : Int)

/-- The residual of R149 with an error of at most 1 before saturation (log 17). -/
def signValue (a b va vb g : Nat) (isel : Bool) : BitVec 16 :=
  let i := if isel then va else vb
  let var := max 1 (a * i * g / 2 ^ 26 + b * g * g / 2 ^ 28)
  let r := roundDivSqrt (((va : Int) - vb) * 256) var
  satS (r + ((Config.signErr [a, b, va, vb, g, isel.toNat] % 3 : Nat) : Int) - 1)

def opSign (f : MFields) : Op := fun i =>
  let va := (i.g.vreg f.va.val).toArray
  let vb := (i.g.vreg f.vb.val).toArray
  let na := (i.g.vreg (f.vc.val / 2 * 2)).toArray
  let nb := (i.g.vreg (f.vc.val / 2 * 2 + 1)).toArray
  let g := (i.g.sreg (bits f.mod.toNat 13 9)).toNat % 65536
  { wr := [vecOut 6 i.g f.pg.val f.vd.val fun l ch =>
      let at_ := fun (x : Array (BitVec 16)) => (x.getD (4 * l + ch) 0).toNat
      signValue (at_ na) (at_ nb) (at_ va) (at_ vb) g (f.bit 14)] }

/-- SHCMP: the 5 × 5 grid of registration sums (R150). -/
def opShcmp (f : MFields) : Op := fun i =>
  let dy := toSigned 3 (bits f.mod.toNat 14 12)
  let ch := bits f.mod.toNat 11 10
  if dy < -2 ∨ 2 < dy then {}
  else
    let o := (i.g.vreg f.va.val).toArray
    let a := (i.g.vreg (f.vb.val / 2 * 2)).toArray
    let b := (i.g.vreg (f.vb.val / 2 * 2 + 1)).toArray
    let act := (List.range 64).filter fun l => i.active f.pg.val f.stg.val l
    let sums := (List.range 5).map fun (k : Nat) =>
      act.foldl (fun (s : Nat × Nat × Nat × Nat) (l : Nat) =>
        let w := (clampInt 0 127 ((l : Int) + 32 + k - 2)).toNat
        let r := (if w < 64 then a.getD (4 * w + ch) 0 else b.getD (4 * (w - 64) + ch) 0).toNat / 256
        let x := (o.getD (4 * l + ch) 0).toNat / 256
        (s.1 + x * r, s.2.1 + r * r, s.2.2.1 + x, s.2.2.2 + r)) (0, 0, 0, 0)
    let s0 := (5 * (dy + 2)).toNat
    { wr := [(4, .acc f.acc true (mkVec fun l c =>
        if l = 25 then (if c = 0 then some (act.length : Int) else none)
        else if s0 ≤ l ∧ l < s0 + 5 then
          let q := sums.getD (l - s0) (0, 0, 0, 0)
          some (([q.1, q.2.1, q.2.2.1, q.2.2.2].getD c 0 : Nat) : Int)
        else none))] }

/-! ### E slot (R151–R158) -/

/-- STC: three crop bytes a lane, in six entries of 32 bytes (R152). -/
def opStc (f : EFields) : Op := fun i =>
  let v := (i.g.vreg f.va.val).toArray
  let bv := i.r.vbase f.stg.val
  let sa := (i.g.sreg f.sa.val).toNat
  let bytes := (List.range 192).map fun (k : Nat) =>
    let l := k / 3
    let at_ := ofSigned 40 ((sa : Int) + 3 * bv + k)
    if !i.r.kmask f.stg.val l then none
    else if i.r.blindLane i.p (bv + l) then some (at_, (0 : Byte))
    else if pgLane i.g f.pg.val l then
      some (at_, BitVec.ofNat 8 (min 255 (((v.getD (4 * l + k % 3) 0).toNat + 32) / 64)))
    else none
  { push := (List.range 6).map fun n => .stc (((bytes.drop (32 * n)).take 32).filterMap id) }

/-- EMIT: feed a run unit with one vector (R154), and send the records that this closes (R156). -/
def opEmit (f : EFields) : Op := fun i =>
  let m := f.imm.toNat
  let psel := bits m 9 8
  let unit := m % 2
  let bv := i.r.vbase f.stg.val
  let blind := i.r.blindLane i.p
  let start := i.s.stripeStart i.e
  let flags := (List.range 64).map fun l => i.active f.pg.val f.stg.val l && !blind (bv + l)
  let u := if unit = 0 then i.r.u0 else i.r.u1
  let joins := flags.headD false && u.prev == some (bv - 64, true)
  let (u, buf) := if joins then (u, i.r.buf) else closeUnit blind start u i.r.buf
  let new : RunRec :=
    { first := 0, last := 0, sums := [], peak := 0, off := 0, unit := unit, user := bits m 7 4, eng := i.e
      line := ofSigned 16 i.r.line }
  let per := ((lanes (i.g.vreg f.va.val)).zipIdx.zip flags).map fun ((v, l), b) => (l, b, v)
  let (u, buf) := per.foldl (fun acc lane => emitLane blind start new bv psel lane acc) (u, buf)
  let u := { u with prev := some (bv, flags.getLastD false) }
  let r := if unit = 0 then { i.r with u0 := u, buf := buf } else { i.r with u1 := u, buf := buf }
  if i.r.kempty f.stg.val then { push := [.void] }
  else { run := some r, push := [.emit (buf.drop i.r.buf.length)] }

/-- PROJ: eight sums of eight lanes (R153). -/
def opProj (f : EFields) : Op := fun i =>
  let v := (i.g.vreg f.va.val).toArray
  let ch := f.imm.toNat % 4
  let bv := i.r.vbase f.stg.val
  if i.r.kempty f.stg.val then { push := [.void] }
  else
    let sum := fun (k : Nat) => (List.range 8).foldl (fun (a : Int) j =>
      let l := 8 * k + j
      if i.active f.pg.val f.stg.val l then a + (v.getD (4 * l + ch) 0).toInt else a) 0
    { push := [.proj (ofSigned 40 ((i.g.sreg f.sa.val).toNat + 32 * (bv / 64)))
        ((List.range 8).flatMap fun k => leBytes 4 (ofSigned 32 (sum k)))] }

/-- An accumulator value saturated to 0 … 2³² − 1. -/
def sregSat (x : BitVec 40) : Nat := (clampInt 0 4294967295 x.toInt).toNat

/-- SREG: an accumulator's lanes 0–25 to REF in 14 entries, and with IMM[0] their clear in the lanes that PG and the kernel mask
allow (R132, R136, R158). -/
def opSreg (f : EFields) : Op := fun i =>
  let c := f.va.val % 4
  let a := (i.g.areg c).toArray
  let at_ := fun (l ch : Nat) => sregSat (a.getD (4 * l + ch) 0)
  let body := leBytes 8 (65536 * ofSigned 48 i.r.line) ++ leBytes 1 i.e ++ leBytes 1 (decide (i.r.mask = 0)).toNat
    ++ leBytes 6 0 ++ leBytes 4 (at_ 25 0) ++ leBytes 12 0
    ++ (List.range 25).flatMap (fun l => (List.range 4).flatMap fun ch => leBytes 4 (at_ l ch)) ++ leBytes 16 0
  { push := (List.range 14).map fun n => if i.r.kempty f.stg.val then .void else .sreg n ((body.drop (32 * n)).take 32)
    wr := if f.imm.getLsbD 0 then
        [(1, .acc c false (mkVec fun l _ => if i.active f.pg.val f.stg.val l then some 0 else none))] else [] }

end Sys2Proof.Machine
end

