-- ==== Sys2Proof/Machine/QuezuCmd.lean ====
section
/-!
DEFINITION. Sys2Proof/Machine/QuezuCmd.lean: the slots of a bundle (R106, R134, R137, R141, R143, R145, R151), its issue
(R107), and the commands that name one instruction of a bundle.
-/
namespace Sys2Proof.Machine

/-- A bit field of a bundle. -/
def bfld (b : BitVec 256) (lo n : Nat) : Nat := b.toNat / 2 ^ lo % 2 ^ n

/-- A number as a field of `n + 1` values. -/
def fin (n v : Nat) : Fin (n + 1) := Fin.ofNat (n + 1) v

/-- Fields of the slot words. -/
def cFields (b : BitVec 256) : CFields := { sd := fin 31 (bfld b 37 5), sa := fin 31 (bfld b 32 5), imm := BitVec.ofNat 32 (bfld b 0 32) }
def wFields (b : BitVec 256) : WFields :=
  { pg := fin 7 (bfld b 88 3), vd := fin 31 (bfld b 83 5), src := fin 15 (bfld b 79 4), rel := fin 31 (bfld b 74 5)
    ofs := BitVec.ofNat 16 (bfld b 58 16), vc := fin 31 (bfld b 53 5), arg := fin 7 (bfld b 50 3), mode := fin 3 (bfld b 48 2) }
def uFields (b : BitVec 256) (at_ : Nat) : UFields :=
  { pg := fin 7 (bfld b (at_ + 31) 3), z := bfld b (at_ + 30) 1 == 1, vd := fin 31 (bfld b (at_ + 25) 5), va := fin 31 (bfld b (at_ + 20) 5)
    vb := fin 31 (bfld b (at_ + 15) 5), cmn := BitVec.ofNat 4 (bfld b (at_ + 11) 4), low := BitVec.ofNat 11 (bfld b at_ 11) }
def mFields (b : BitVec 256) : MFields :=
  { pg := fin 7 (bfld b 215 3), stg := fin 15 (bfld b 211 4), vd := fin 31 (bfld b 206 5), va := fin 31 (bfld b 201 5)
    vb := fin 31 (bfld b 196 5), vc := fin 31 (bfld b 191 5), mod := BitVec.ofNat 15 (bfld b 176 15) }
def eFields (b : BitVec 256) : EFields :=
  { pg := fin 7 (bfld b 248 3), stg := fin 15 (bfld b 244 4), va := fin 31 (bfld b 239 5), sa := fin 31 (bfld b 234 5)
    imm := BitVec.ofNat 10 (bfld b 224 10) }

/-- C-slot opcodes (R137); reserved ones are NOPs (R134). -/
def cOp (op : Nat) (f : CFields) : Op :=
  match op with
  | 0x01 => opCAdd f
  | 0x02 => opCSub f
  | 0x03 => opCMul f
  | 0x04 => opCAnd f
  | 0x05 => opCOr f
  | 0x06 => opCXor f
  | 0x07 => opCShl f
  | 0x08 => opCShr f
  | 0x09 => opCSar f
  | 0x0A => opCMin f
  | 0x0B => opCMax f
  | 0x0C => opSlt f
  | 0x10 => opAddi f
  | 0x11 => opLi f
  | 0x12 => opLih f
  | 0x13 => opShli f
  | 0x14 => opShri f
  | 0x15 => opSari f
  | 0x16 => opCtx f
  | 0x17 => opPset f
  | 0x18 => opPget f
  | 0x20 => opBr f
  | 0x21 => opBrz f
  | 0x22 => opBrnz f
  | 0x23 => opBrlt f
  | 0x28 => opLoopv f
  | 0x29 => opTickwait
  | 0x2A => opMbox f
  | _ => opNop

/-- W-slot opcodes (R141). -/
def wOp (op : Nat) (f : WFields) : Op :=
  match op with
  | 0x01 => opLd f
  | 0x02 => opLdx f
  | 0x03 => opLdp f
  | 0x04 => opLdw f
  | 0x05 => opLdt f
  | 0x06 => opLdg f
  | 0x07 => opLdh f
  | 0x08 => opStw f
  | _ => opNop

/-- U-slot opcodes (R144). -/
def uOp (op : Nat) (f : UFields) : Op :=
  match op with
  | 0x01 => opUAdd f
  | 0x02 => opUSub f
  | 0x03 => opAddiu f
  | 0x04 => opAddis f
  | 0x05 => opMulh f
  | 0x06 => opAbs f
  | 0x07 => opAbsd f
  | 0x08 => opUMin f
  | 0x09 => opUMax f
  | 0x0A => opMin3 f
  | 0x0B => opMax3 f
  | 0x0C => opMed3 f
  | 0x0D => opClamp f
  | 0x0E => opSel f
  | 0x0F => opMovi f
  | 0x10 => opUAnd f
  | 0x11 => opUOr f
  | 0x12 => opUXor f
  | 0x13 => opAndn f
  | 0x14 => opUShl f
  | 0x15 => opUShr f
  | 0x16 => opCvt f
  | 0x17 => opVspl f
  | 0x18 => opLaneix f
  | 0x20 => opCmpeq f
  | 0x21 => opCmplt f
  | 0x22 => opCmple f
  | 0x23 => opCmpltiu f
  | 0x24 => opCmpltis f
  | 0x25 => opCmpgtiu f
  | 0x26 => opCmpgtis f
  | 0x28 => opPand f
  | 0x29 => opPor f
  | 0x2A => opPxor f
  | 0x2B => opPandn f
  | 0x2C => opPnot f
  | 0x30 => opChsh f
  | 0x31 => opLfun f
  | _ => opNop

/-- M-slot opcodes (R145). -/
def mOp (op : Nat) (f : MFields) : Op :=
  match op with
  | 0x01 => opMac f
  | 0x02 => opMaci f
  | 0x03 => opMula f
  | 0x04 => opAccrd f
  | 0x05 => opAccclr f
  | 0x08 => opRsmph f
  | 0x09 => opRsmpv f
  | 0x0A => opLut4x f
  | 0x0B => opLut4w f
  | 0x0C => opSign f
  | 0x0D => opShcmp f
  | _ => opNop

/-- E-slot opcodes (R151). -/
def eOp (op : Nat) (f : EFields) : Op :=
  match op with
  | 0x01 => opStc f
  | 0x02 => opEmit f
  | 0x03 => opProj f
  | 0x04 => opSreg f
  | _ => opNop

/-- The instructions of a bundle, each at its slot (R106). -/
def bundleOps (b : BitVec 256) : List (Nat × Op) :=
  [(slotC, cOp (bfld b 42 6) (cFields b)), (slotW, wOp (bfld b 91 5) (wFields b)), (slotU0, uOp (bfld b 130 6) (uFields b 96)),
   (slotU1, uOp (bfld b 170 6) (uFields b 136)), (slotM, mOp (bfld b 218 6) (mFields b)), (slotE, eOp (bfld b 251 5) (eFields b))]

/-- U slot of a command: 0 or 1. -/
def uSlot (u1 : Bool) : Nat := if u1 then slotU1 else slotU0

/-- BUNDLE_ISSUE: the next bundle of a RUNNING engine issues; `perr`: the bundle read for issue has a parity error (R126). -/
def execBundleIssue (e : Fin 16) (perr : Bool) (s : State) : Host.Outcome State Fault Refusal :=
  .next (if !s.inRun then s
    else
      let g := s.eng e
      if perr then
        match g.st with
        | .loaded | .armed | .running => s.engFault e 3
        | _ => s
      else
        match g.run with
        | some r => s.engCycle e (bundleOps (look 0 g.imem (r.pc % 2048)))
        | none => s)

/-- RUN_OVERRUN: the run has reached its worst-case cost without TICKWAIT (R122). -/
def execRunOverrun (e : Fin 16) (s : State) : Host.Outcome State Fault Refusal :=
  .next (if !s.inRun then s
    else
      let g := s.eng e
      match g.st, g.run, g.prog with
      | .running, some r, some p => if p.cost ≤ r.cycles then s.engFault e 1 else s
      | _, _, _ => s)

/-- C_ADD (R137). -/
def execCAdd (e : Fin 16) (f : CFields) (s : State) : Host.Outcome State Fault Refusal :=
  .next (s.engOne e slotC (opCAdd f))

/-- C_SUB (R137). -/
def execCSub (e : Fin 16) (f : CFields) (s : State) : Host.Outcome State Fault Refusal :=
  .next (s.engOne e slotC (opCSub f))

/-- C_MUL (R137). -/
def execCMul (e : Fin 16) (f : CFields) (s : State) : Host.Outcome State Fault Refusal :=
  .next (s.engOne e slotC (opCMul f))

/-- C_AND (R137). -/
def execCAnd (e : Fin 16) (f : CFields) (s : State) : Host.Outcome State Fault Refusal :=
  .next (s.engOne e slotC (opCAnd f))

/-- C_OR (R137). -/
def execCOr (e : Fin 16) (f : CFields) (s : State) : Host.Outcome State Fault Refusal :=
  .next (s.engOne e slotC (opCOr f))

/-- C_XOR (R137). -/
def execCXor (e : Fin 16) (f : CFields) (s : State) : Host.Outcome State Fault Refusal :=
  .next (s.engOne e slotC (opCXor f))

/-- C_SHL (R137). -/
def execCShl (e : Fin 16) (f : CFields) (s : State) : Host.Outcome State Fault Refusal :=
  .next (s.engOne e slotC (opCShl f))

/-- C_SHR (R137). -/
def execCShr (e : Fin 16) (f : CFields) (s : State) : Host.Outcome State Fault Refusal :=
  .next (s.engOne e slotC (opCShr f))

/-- C_SAR (R137). -/
def execCSar (e : Fin 16) (f : CFields) (s : State) : Host.Outcome State Fault Refusal :=
  .next (s.engOne e slotC (opCSar f))

/-- C_MIN (R137). -/
def execCMin (e : Fin 16) (f : CFields) (s : State) : Host.Outcome State Fault Refusal :=
  .next (s.engOne e slotC (opCMin f))

/-- C_MAX (R137). -/
def execCMax (e : Fin 16) (f : CFields) (s : State) : Host.Outcome State Fault Refusal :=
  .next (s.engOne e slotC (opCMax f))

/-- SLT (R137). -/
def execSlt (e : Fin 16) (f : CFields) (s : State) : Host.Outcome State Fault Refusal :=
  .next (s.engOne e slotC (opSlt f))

/-- ADDI (R137). -/
def execAddi (e : Fin 16) (f : CFields) (s : State) : Host.Outcome State Fault Refusal :=
  .next (s.engOne e slotC (opAddi f))

/-- LI (R137). -/
def execLi (e : Fin 16) (f : CFields) (s : State) : Host.Outcome State Fault Refusal :=
  .next (s.engOne e slotC (opLi f))

/-- LIH (R137). -/
def execLih (e : Fin 16) (f : CFields) (s : State) : Host.Outcome State Fault Refusal :=
  .next (s.engOne e slotC (opLih f))

/-- SHLI (R137). -/
def execShli (e : Fin 16) (f : CFields) (s : State) : Host.Outcome State Fault Refusal :=
  .next (s.engOne e slotC (opShli f))

/-- SHRI (R137). -/
def execShri (e : Fin 16) (f : CFields) (s : State) : Host.Outcome State Fault Refusal :=
  .next (s.engOne e slotC (opShri f))

/-- SARI (R137). -/
def execSari (e : Fin 16) (f : CFields) (s : State) : Host.Outcome State Fault Refusal :=
  .next (s.engOne e slotC (opSari f))

/-- CTX (R137). -/
def execCtx (e : Fin 16) (f : CFields) (s : State) : Host.Outcome State Fault Refusal :=
  .next (s.engOne e slotC (opCtx f))

/-- PSET (R137). -/
def execPset (e : Fin 16) (f : CFields) (s : State) : Host.Outcome State Fault Refusal :=
  .next (s.engOne e slotC (opPset f))

/-- PGET (R137). -/
def execPget (e : Fin 16) (f : CFields) (s : State) : Host.Outcome State Fault Refusal :=
  .next (s.engOne e slotC (opPget f))

/-- BR (R137). -/
def execBr (e : Fin 16) (f : CFields) (s : State) : Host.Outcome State Fault Refusal :=
  .next (s.engOne e slotC (opBr f))

/-- BRZ (R137). -/
def execBrz (e : Fin 16) (f : CFields) (s : State) : Host.Outcome State Fault Refusal :=
  .next (s.engOne e slotC (opBrz f))

/-- BRNZ (R137). -/
def execBrnz (e : Fin 16) (f : CFields) (s : State) : Host.Outcome State Fault Refusal :=
  .next (s.engOne e slotC (opBrnz f))

/-- BRLT (R137). -/
def execBrlt (e : Fin 16) (f : CFields) (s : State) : Host.Outcome State Fault Refusal :=
  .next (s.engOne e slotC (opBrlt f))

/-- LOOPV (R137). -/
def execLoopv (e : Fin 16) (f : CFields) (s : State) : Host.Outcome State Fault Refusal :=
  .next (s.engOne e slotC (opLoopv f))

/-- TICKWAIT (R137). -/
def execTickwait (e : Fin 16) (s : State) : Host.Outcome State Fault Refusal :=
  .next (s.engOne e slotC opTickwait)

/-- MBOX (R137). -/
def execMbox (e : Fin 16) (f : CFields) (s : State) : Host.Outcome State Fault Refusal :=
  .next (s.engOne e slotC (opMbox f))

/-- LD (R141). -/
def execLd (e : Fin 16) (f : WFields) (s : State) : Host.Outcome State Fault Refusal :=
  .next (s.engOne e slotW (opLd f))

/-- LDX (R141). -/
def execLdx (e : Fin 16) (f : WFields) (s : State) : Host.Outcome State Fault Refusal :=
  .next (s.engOne e slotW (opLdx f))

/-- LDP (R141). -/
def execLdp (e : Fin 16) (f : WFields) (s : State) : Host.Outcome State Fault Refusal :=
  .next (s.engOne e slotW (opLdp f))

/-- LDW (R141). -/
def execLdw (e : Fin 16) (f : WFields) (s : State) : Host.Outcome State Fault Refusal :=
  .next (s.engOne e slotW (opLdw f))

/-- LDT (R141). -/
def execLdt (e : Fin 16) (f : WFields) (s : State) : Host.Outcome State Fault Refusal :=
  .next (s.engOne e slotW (opLdt f))

/-- LDG (R141). -/
def execLdg (e : Fin 16) (f : WFields) (s : State) : Host.Outcome State Fault Refusal :=
  .next (s.engOne e slotW (opLdg f))

/-- LDH (R141). -/
def execLdh (e : Fin 16) (f : WFields) (s : State) : Host.Outcome State Fault Refusal :=
  .next (s.engOne e slotW (opLdh f))

/-- STW (R141). -/
def execStw (e : Fin 16) (f : WFields) (s : State) : Host.Outcome State Fault Refusal :=
  .next (s.engOne e slotW (opStw f))

/-- U_ADD (R144). -/
def execUAdd (e : Fin 16) (u1 : Bool) (f : UFields) (s : State) : Host.Outcome State Fault Refusal :=
  .next (s.engOne e (uSlot u1) (opUAdd f))

/-- U_SUB (R144). -/
def execUSub (e : Fin 16) (u1 : Bool) (f : UFields) (s : State) : Host.Outcome State Fault Refusal :=
  .next (s.engOne e (uSlot u1) (opUSub f))

/-- ADDIU (R144). -/
def execAddiu (e : Fin 16) (u1 : Bool) (f : UFields) (s : State) : Host.Outcome State Fault Refusal :=
  .next (s.engOne e (uSlot u1) (opAddiu f))

/-- ADDIS (R144). -/
def execAddis (e : Fin 16) (u1 : Bool) (f : UFields) (s : State) : Host.Outcome State Fault Refusal :=
  .next (s.engOne e (uSlot u1) (opAddis f))

/-- MULH (R144). -/
def execMulh (e : Fin 16) (u1 : Bool) (f : UFields) (s : State) : Host.Outcome State Fault Refusal :=
  .next (s.engOne e (uSlot u1) (opMulh f))

/-- ABS (R144). -/
def execAbs (e : Fin 16) (u1 : Bool) (f : UFields) (s : State) : Host.Outcome State Fault Refusal :=
  .next (s.engOne e (uSlot u1) (opAbs f))

/-- ABSD (R144). -/
def execAbsd (e : Fin 16) (u1 : Bool) (f : UFields) (s : State) : Host.Outcome State Fault Refusal :=
  .next (s.engOne e (uSlot u1) (opAbsd f))

/-- U_MIN (R144). -/
def execUMin (e : Fin 16) (u1 : Bool) (f : UFields) (s : State) : Host.Outcome State Fault Refusal :=
  .next (s.engOne e (uSlot u1) (opUMin f))

/-- U_MAX (R144). -/
def execUMax (e : Fin 16) (u1 : Bool) (f : UFields) (s : State) : Host.Outcome State Fault Refusal :=
  .next (s.engOne e (uSlot u1) (opUMax f))

/-- MIN3 (R144). -/
def execMin3 (e : Fin 16) (u1 : Bool) (f : UFields) (s : State) : Host.Outcome State Fault Refusal :=
  .next (s.engOne e (uSlot u1) (opMin3 f))

/-- MAX3 (R144). -/
def execMax3 (e : Fin 16) (u1 : Bool) (f : UFields) (s : State) : Host.Outcome State Fault Refusal :=
  .next (s.engOne e (uSlot u1) (opMax3 f))

/-- MED3 (R144). -/
def execMed3 (e : Fin 16) (u1 : Bool) (f : UFields) (s : State) : Host.Outcome State Fault Refusal :=
  .next (s.engOne e (uSlot u1) (opMed3 f))

/-- CLAMP (R144). -/
def execClamp (e : Fin 16) (u1 : Bool) (f : UFields) (s : State) : Host.Outcome State Fault Refusal :=
  .next (s.engOne e (uSlot u1) (opClamp f))

/-- SEL (R144). -/
def execSel (e : Fin 16) (u1 : Bool) (f : UFields) (s : State) : Host.Outcome State Fault Refusal :=
  .next (s.engOne e (uSlot u1) (opSel f))

/-- MOVI (R144). -/
def execMovi (e : Fin 16) (u1 : Bool) (f : UFields) (s : State) : Host.Outcome State Fault Refusal :=
  .next (s.engOne e (uSlot u1) (opMovi f))

/-- U_AND (R144). -/
def execUAnd (e : Fin 16) (u1 : Bool) (f : UFields) (s : State) : Host.Outcome State Fault Refusal :=
  .next (s.engOne e (uSlot u1) (opUAnd f))

/-- U_OR (R144). -/
def execUOr (e : Fin 16) (u1 : Bool) (f : UFields) (s : State) : Host.Outcome State Fault Refusal :=
  .next (s.engOne e (uSlot u1) (opUOr f))

/-- U_XOR (R144). -/
def execUXor (e : Fin 16) (u1 : Bool) (f : UFields) (s : State) : Host.Outcome State Fault Refusal :=
  .next (s.engOne e (uSlot u1) (opUXor f))

/-- ANDN (R144). -/
def execAndn (e : Fin 16) (u1 : Bool) (f : UFields) (s : State) : Host.Outcome State Fault Refusal :=
  .next (s.engOne e (uSlot u1) (opAndn f))

/-- U_SHL (R144). -/
def execUShl (e : Fin 16) (u1 : Bool) (f : UFields) (s : State) : Host.Outcome State Fault Refusal :=
  .next (s.engOne e (uSlot u1) (opUShl f))

/-- U_SHR (R144). -/
def execUShr (e : Fin 16) (u1 : Bool) (f : UFields) (s : State) : Host.Outcome State Fault Refusal :=
  .next (s.engOne e (uSlot u1) (opUShr f))

/-- CVT (R144). -/
def execCvt (e : Fin 16) (u1 : Bool) (f : UFields) (s : State) : Host.Outcome State Fault Refusal :=
  .next (s.engOne e (uSlot u1) (opCvt f))

/-- VSPL (R144). -/
def execVspl (e : Fin 16) (u1 : Bool) (f : UFields) (s : State) : Host.Outcome State Fault Refusal :=
  .next (s.engOne e (uSlot u1) (opVspl f))

/-- LANEIX (R144). -/
def execLaneix (e : Fin 16) (u1 : Bool) (f : UFields) (s : State) : Host.Outcome State Fault Refusal :=
  .next (s.engOne e (uSlot u1) (opLaneix f))

/-- CMPEQ (R144). -/
def execCmpeq (e : Fin 16) (u1 : Bool) (f : UFields) (s : State) : Host.Outcome State Fault Refusal :=
  .next (s.engOne e (uSlot u1) (opCmpeq f))

/-- CMPLT (R144). -/
def execCmplt (e : Fin 16) (u1 : Bool) (f : UFields) (s : State) : Host.Outcome State Fault Refusal :=
  .next (s.engOne e (uSlot u1) (opCmplt f))

/-- CMPLE (R144). -/
def execCmple (e : Fin 16) (u1 : Bool) (f : UFields) (s : State) : Host.Outcome State Fault Refusal :=
  .next (s.engOne e (uSlot u1) (opCmple f))

/-- CMPLTIU (R144). -/
def execCmpltiu (e : Fin 16) (u1 : Bool) (f : UFields) (s : State) : Host.Outcome State Fault Refusal :=
  .next (s.engOne e (uSlot u1) (opCmpltiu f))

/-- CMPLTIS (R144). -/
def execCmpltis (e : Fin 16) (u1 : Bool) (f : UFields) (s : State) : Host.Outcome State Fault Refusal :=
  .next (s.engOne e (uSlot u1) (opCmpltis f))

/-- CMPGTIU (R144). -/
def execCmpgtiu (e : Fin 16) (u1 : Bool) (f : UFields) (s : State) : Host.Outcome State Fault Refusal :=
  .next (s.engOne e (uSlot u1) (opCmpgtiu f))

/-- CMPGTIS (R144). -/
def execCmpgtis (e : Fin 16) (u1 : Bool) (f : UFields) (s : State) : Host.Outcome State Fault Refusal :=
  .next (s.engOne e (uSlot u1) (opCmpgtis f))

/-- PAND (R144). -/
def execPand (e : Fin 16) (u1 : Bool) (f : UFields) (s : State) : Host.Outcome State Fault Refusal :=
  .next (s.engOne e (uSlot u1) (opPand f))

/-- POR (R144). -/
def execPor (e : Fin 16) (u1 : Bool) (f : UFields) (s : State) : Host.Outcome State Fault Refusal :=
  .next (s.engOne e (uSlot u1) (opPor f))

/-- PXOR (R144). -/
def execPxor (e : Fin 16) (u1 : Bool) (f : UFields) (s : State) : Host.Outcome State Fault Refusal :=
  .next (s.engOne e (uSlot u1) (opPxor f))

/-- PANDN (R144). -/
def execPandn (e : Fin 16) (u1 : Bool) (f : UFields) (s : State) : Host.Outcome State Fault Refusal :=
  .next (s.engOne e (uSlot u1) (opPandn f))

/-- PNOT (R144). -/
def execPnot (e : Fin 16) (u1 : Bool) (f : UFields) (s : State) : Host.Outcome State Fault Refusal :=
  .next (s.engOne e (uSlot u1) (opPnot f))

/-- CHSH (R144). -/
def execChsh (e : Fin 16) (u1 : Bool) (f : UFields) (s : State) : Host.Outcome State Fault Refusal :=
  .next (s.engOne e (uSlot u1) (opChsh f))

/-- LFUN (R144). -/
def execLfun (e : Fin 16) (u1 : Bool) (f : UFields) (s : State) : Host.Outcome State Fault Refusal :=
  .next (s.engOne e (uSlot u1) (opLfun f))

/-- MAC (R145). -/
def execMac (e : Fin 16) (f : MFields) (s : State) : Host.Outcome State Fault Refusal :=
  .next (s.engOne e slotM (opMac f))

/-- MACI (R145). -/
def execMaci (e : Fin 16) (f : MFields) (s : State) : Host.Outcome State Fault Refusal :=
  .next (s.engOne e slotM (opMaci f))

/-- MULA (R145). -/
def execMula (e : Fin 16) (f : MFields) (s : State) : Host.Outcome State Fault Refusal :=
  .next (s.engOne e slotM (opMula f))

/-- ACCRD (R145). -/
def execAccrd (e : Fin 16) (f : MFields) (s : State) : Host.Outcome State Fault Refusal :=
  .next (s.engOne e slotM (opAccrd f))

/-- ACCCLR (R145). -/
def execAccclr (e : Fin 16) (f : MFields) (s : State) : Host.Outcome State Fault Refusal :=
  .next (s.engOne e slotM (opAccclr f))

/-- RSMPH (R145). -/
def execRsmph (e : Fin 16) (f : MFields) (s : State) : Host.Outcome State Fault Refusal :=
  .next (s.engOne e slotM (opRsmph f))

/-- RSMPV (R145). -/
def execRsmpv (e : Fin 16) (f : MFields) (s : State) : Host.Outcome State Fault Refusal :=
  .next (s.engOne e slotM (opRsmpv f))

/-- LUT4X (R145). -/
def execLut4x (e : Fin 16) (f : MFields) (s : State) : Host.Outcome State Fault Refusal :=
  .next (s.engOne e slotM (opLut4x f))

/-- LUT4W (R145). -/
def execLut4w (e : Fin 16) (f : MFields) (s : State) : Host.Outcome State Fault Refusal :=
  .next (s.engOne e slotM (opLut4w f))

/-- SIGN (R145). -/
def execSign (e : Fin 16) (f : MFields) (s : State) : Host.Outcome State Fault Refusal :=
  .next (s.engOne e slotM (opSign f))

/-- SHCMP (R145). -/
def execShcmp (e : Fin 16) (f : MFields) (s : State) : Host.Outcome State Fault Refusal :=
  .next (s.engOne e slotM (opShcmp f))

/-- STC (R151). -/
def execStc (e : Fin 16) (f : EFields) (s : State) : Host.Outcome State Fault Refusal :=
  .next (s.engOne e slotE (opStc f))

/-- EMIT (R151). -/
def execEmit (e : Fin 16) (f : EFields) (s : State) : Host.Outcome State Fault Refusal :=
  .next (s.engOne e slotE (opEmit f))

/-- PROJ (R151). -/
def execProj (e : Fin 16) (f : EFields) (s : State) : Host.Outcome State Fault Refusal :=
  .next (s.engOne e slotE (opProj f))

/-- SREG (R151). -/
def execSreg (e : Fin 16) (f : EFields) (s : State) : Host.Outcome State Fault Refusal :=
  .next (s.engOne e slotE (opSreg f))

end Sys2Proof.Machine
end

