-- ==== Sys2Proof/Machine/Zsp.lean ====
section
/-!
DEFINITION. Sys2Proof/Machine/Zsp.lean: the report service: frames and TLS sessions, the classes of the Ziette Service Protocol,
jobs, subscriptions, and the mailbox requests it makes for its clients (R297–R313). Core 0 writes as master 40, the
service's other cores as master 41.
-/
namespace Sys2Proof.Machine

/-! ### Sessions (R297–R300) -/

/-- A session. -/
def State.session (s : State) (sid : Nat) : Option Session :=
  (s.zsp.sessions.find? fun e => e.1 == sid).map Prod.snd

/-- Change a session. -/
def State.updSession (s : State) (sid : Nat) (f : Session → Session) : State :=
  { s with zsp := { s.zsp with sessions := s.zsp.sessions.map fun e => if e.1 = sid then (sid, f e.2) else e } }

/-- A session closes. -/
def State.closeSession (s : State) (sid : Nat) : State :=
  { s with zsp := { s.zsp with sessions := s.zsp.sessions.filter fun e => e.1 != sid } }

/-- The service cores run: the main domain is powered and the boot has released them (R409). -/
def State.serving (s : State) : Bool := s.live && s.pwr.booted

/-- A class is bound to the session's kind and granted by its role (R298, R300). -/
def Session.may (c : Session) (cls : Nat) : Bool := (if c.data then cls != 1 else cls == 1) && c.role.grants cls

/-- Act on a request of an open session, or refuse it with DENIED. -/
def State.zspDo (s : State) (sid cls typ rid : Nat) (f : State → State) : State :=
  if !s.serving then s
  else match s.session sid with
    | some c => if c.may cls then f s else s.zspReply sid cls typ rid rDENIED
    | none => s

/-- A request that is answered at once, with a result and a payload. -/
def State.zspNow (s : State) (sid cls typ rid : Nat) (f : State → Nat × List Byte × State) : State :=
  s.zspDo sid cls typ rid fun s =>
    let (r, b, s) := f s
    s.zspReply sid cls typ rid r b

/-- The least payload of each request (R299, R301, R309–R313); none for a type that does not exist. -/
def zspNeed (cls typ : Nat) : Option Nat :=
  match cls, typ with
  | 1, 1 | 1, 2 | 1, 3 | 1, 4 | 1, 5 | 1, 6 | 1, 0x10 | 1, 0x11 => some 0
  | 2, 1 => some 36
  | 2, 2 | 2, 3 | 2, 4 | 2, 5 | 2, 6 => some 0
  | 3, 1 => some 0
  | 3, 2 => some 8
  | 3, 3 => some 1
  | 3, 4 => some 16
  | 3, 5 => some 0
  | 4, 1 => some 16
  | 4, 2 => some 0
  | 5, 1 => some 4
  | 6, 1 => some 12
  | 7, 1 | 7, 2 | 7, 3 | 7, 4 | 7, 5 | 7, 0x11 | 7, 0x12 => some 0
  | 7, 0x10 | 7, 0x13 => some 8
  | 8, 1 | 8, 2 => some 12
  | 8, 3 => some 0
  | 8, 4 => some 32
  | 8, 5 => some 8
  | 8, 6 => some 0
  | _, _ => none

/-- A message whose last byte has arrived: a wrong magic number, version or length closes the session; a class the session
may not use, an unknown type and a short payload are answered here. A request that passes is left to its own row. -/
def State.zspMessage (s : State) (sid : Nat) (m : List Byte) : State :=
  match s.session sid with
  | none => s
  | some c =>
    if m.length < 16 then s
    else
      let n := fun (i k : Nat) => leNat ((m.drop i).take k)
      let cls := n 3 1
      let typ := n 4 2
      let rid := n 8 4
      let len := n 12 4
      if m.take 3 ≠ [0x5A, 0x53, 0x01] ∨ 1048560 < len then s.closeSession sid
      else if m.length < 16 + len then s
      else if !c.may cls then s.zspReply sid cls typ rid rDENIED
      else match zspNeed cls typ with
        | none => s.zspReply sid cls typ rid rNOT_FOUND
        | some k => if len < k then s.zspReply sid cls typ rid rRANGE else s

/-- ETH_FRAME_RECEIVE: a frame arrives at port p after software has returned the oldest frame of each queue in `back`; `msg`
is the message, of a session of this port, that its decrypted bytes complete. A frame for which no buffer is free is
dropped and completes nothing (R294, R295, R299). -/
def execEthFrameReceive (p : Fin 2) (back : List Nat) (frame : List Byte) (msg : Option (Nat × List Byte)) (s : State) :
    Host.Outcome State Fault Refusal :=
  .next (s.whenLive fun s =>
    let s := s.framesBack p back
    if !(s.on ETH_CTL_EN p && s.on ETH_STAT_LINK p) then s
    else match s.frameIn p frame, msg with
      | (true, s), some (sid, m) =>
        if s.serving && (s.session sid).any fun c => c.port == p.val then s.zspMessage sid m else s
      | (_, s), _ => s)

/-- Role of a client (R298). -/
def roleOf : ClientOu → Role
  | .ztOperator => .operator
  | .ztService => .service
  | .other => .none

/-- TLS_CONNECT: a TCP connection to port 7411 (control) or 7412 (data) of port p; `ok`: the handshake keeps to R297 and the
client's chain verifies; `ca`: the key it ends at. It opens a session, or is closed. -/
def execTlsConnect (p : Fin 2) (data : Bool) (ca : List Byte) (ou : ClientOu) (ok : Bool) (s : State) :
    Host.Outcome State Fault Refusal :=
  .next (
    let same := (s.zsp.sessions.filter fun e => e.2.data == data).length
    let room := decide (same < if data then 16 else 4)
    if s.serving && s.on ETH_CTL_EN p && s.on ETH_STAT_LINK p && room && s.boot.cert != 0 && s.lcState != 0
        && s.lcState != 3 && ok && s.boot.auth.contains ca then
      let c : Session := { port := p, data := data, role := roleOf ou }
      { s with zsp := { s.zsp with sessions := s.zsp.sessions ++ [(s.zsp.nextSid, c)], nextSid := s.zsp.nextSid + 1 } }
    else s)

/-! ### Writes of the service cores -/

/-- A read-modify-write of some bits of a register as a core: set or clear. -/
def State.coreBits (s : State) (m : Nat) (r : Reg) (mask : Word) (set : Bool) : State :=
  let v := s.reg r
  s.coreWrite m r 0 (if set then v ||| mask else v &&& ~~~ mask).toNat

/-- The enables of a job: TICK, REF, RPT, Sillage (R305). -/
def jobEnables : List (Reg × Word) := [(.TICK_CTL, 4), (.REF_CTL, 1), (.RPT_CTL, 1), (.SIL_CTL, 1)]

/-- Clear these enables. -/
def State.jobDisable (s : State) (l : List (Reg × Word)) : State := l.foldl (fun s x => s.coreBits 41 x.1 x.2 false) s

/-- Run, requested with a mark by master 41: the result. -/
def State.askRun (s : State) (h : Nat) : Nat × State :=
  let s := (s.coreWrite 41 .SYS_RUNMARK_LO 0 (h % 2 ^ 32)).coreWrite 41 .SYS_RUNMARK_HI 0 (h / 2 ^ 32 % 65536)
  let s := s.coreWrite 41 .SYS_PWRCMD 0 1
  (if s.resp.code = rOK then s.fld SYS_PWRRES_RESULT else s.resp.code, s)

/-- A hardware action of core 0: bits of ETH_HWACT set or cleared (R301, R302). -/
def State.hwactCore (s : State) (bit : Nat) (set : Bool) : State :=
  s.coreBits 40 .ETH_HWACT (BitVec.ofNat 32 (2 ^ bit)) set

/-! ### Mailbox requests of the service (R290–R292) -/

/-- The job has ended: the enables are cleared and JOB_ENDED goes out (R306, R309). -/
def State.jobFinish (s : State) : State :=
  match s.zsp.ending with
  | none => s
  | some e =>
    let s := s.jobDisable jobEnables
    let qwr := s.fld RPT_QWR_SEQ
    let b := leBytes 8 (s.pwr.holdLine % 2 ^ 48) ++ leBytes 4 e.qwr ++ leBytes 4 (seqSub qwr 1)
      ++ leBytes 8 (s.zsp.holdAdv + s.tick.holdAdv) ++ leBytes 4 s.zsp.jobId
    let s := { s with zsp := { s.zsp with job := .noJob, ending := none } }
    (s.zspFill e.sid 2 2 e.rid rOK).zspEvent 2 0x0104 b

/-- A request word 0: the opcode, with a tag the spec leaves to the firmware (free, log 1). -/
def State.askTag (s : State) (op : Nat) : Word × State := (BitVec.ofNat 32 (op + 256 * (s.free % 256)), s.drawn)

/-- Append a request for a mailbox. -/
def State.askAdd (s : State) (mb op : Nat) (args : List Nat) (why : AskFor) : State :=
  let (w, s) := s.askTag op
  { s with zsp := { s.zsp with asks := s.zsp.asks ++ [{ mb := mb, purpose := why, words := w :: args.map (BitVec.ofNat 32) }] } }

/-- The latest ticket, read from the window as master 41. -/
def State.ticketRead (s : State) : Nat × List Byte × State := s.regsRead 41 (regAddr .FL_TICKET 0) 64

/-- The payload of a reply that a mailbox has answered (R310, R312). -/
def State.askPayload (s : State) (cls typ res : Nat) (rs : List Nat) : Nat × List Byte × State :=
  let w := fun i => leBytes 4 (rs.getD i 0)
  if cls = 3 ∧ typ = 3 then (res, leBytes 1 (rs.getD 1 0) ++ leBytes 1 (rs.getD 2 0), s)
  else if cls = 3 ∧ typ = 4 then (res, w 3 ++ w 4, s)
  else if cls = 7 ∧ res = rOK ∧ typ = 1 then (res, (List.range 6).flatMap fun i => w (i + 1), s)
  else if cls = 7 ∧ res = rOK ∧ (typ = 2 ∨ typ = 4) then s.ticketRead
  else (res, [], s)

/-- What a mailbox's answer leads to. -/
def State.askDone (s : State) (why : AskFor) (rs : List Nat) : State :=
  match why with
  | .client sid cls typ rid =>
    let (res, b, s) := s.askPayload cls typ (rs.getD 0 0 % 256) rs
    s.zspFill sid cls typ rid res b
  | .endSync =>
    let e := s.zsp.ending.map fun e => { e with qwr := rs.getD 1 0 }
    { s with zsp := { s.zsp with ending := e } }.askAdd 1 2 [] .endFlush
  | .endFlush => s.jobFinish

/-- Remove the oldest request for a mailbox. -/
def dropAsk (n : Nat) : List Ask → List Ask
  | [] => []
  | a :: l => if a.mb = n then l else a :: dropAsk n l

/-- Mark the oldest request for a mailbox as posted. -/
def markAsk (n : Nat) : List Ask → List Ask
  | [] => []
  | a :: l => if a.mb = n then { a with posted := true } :: l else a :: markAsk n l

/-- Post the oldest request waiting for a free mailbox; one whose write is refused ends with that response. -/
def State.askPost (s : State) (n : Nat) : Nat → State
  | 0 => s
  | fuel + 1 =>
    match s.zsp.asks.find? fun a => a.mb == n with
    | none => s
    | some a =>
      if a.posted || s.on ETH_MB_CTL_BUSY n then s
      else
        let s := (List.range 8).foldl (fun s i => s.coreWrite 41 .ETH_MB_REQ (n * 8 + i) (a.words.getD i 0).toNat) s
        let s := s.coreWrite 41 .ETH_MB_CTL n 1
        if s.on ETH_MB_CTL_BUSY n then { s with zsp := { s.zsp with asks := markAsk n s.zsp.asks } }
        else
          let code := s.resp.code
          ({ s with zsp := { s.zsp with asks := dropAsk n s.zsp.asks } }.askDone a.purpose [max 1 code]).askPost n fuel

/-- Ask a mailbox for a client. -/
def State.askMail (s : State) (mb op : Nat) (args : List Nat) (sid cls typ rid : Nat) : State :=
  ((s.zspWait sid cls typ rid).askAdd mb op args (.client sid cls typ rid)).askPost mb (s.zsp.asks.length + 2)

/-- The service takes a reply that has been delivered to a request of its own, and posts its next one. -/
def State.askReply (s : State) (n : Nat) (r : List Word) : State :=
  match s.zsp.asks.find? fun a => a.mb == n with
  | some a =>
    let ws : List Nat := r.map fun (w : Word) => w.toNat
    let s := if a.posted then { s with zsp := { s.zsp with asks := dropAsk n s.zsp.asks } }.askDone a.purpose ws else s
    s.askPost n (s.zsp.asks.length + 2)
  | none => s

/-- MAILBOX_REPLY: the reply that the target of mailbox n has ready is written (R290). -/
def execMailboxReply (n : Fin 5) (s : State) : Host.Outcome State Fault Refusal :=
  .next (s.whenLive fun s => match s.mbReady n with
    | some r => (s.mbDeliver n r).askReply n r
    | none => s)

/-- MAILBOX_TIMEOUT: the request of mailbox n has been unanswered for 10 ms (R292). -/
def execMailboxTimeout (n : Fin 5) (s : State) : Host.Outcome State Fault Refusal :=
  .next (s.whenLive fun s =>
    if (s.mbox n).req.isSome then
      let s := s.mbExpire n
      s.askReply n ((List.range 8).map fun i => s.reg .ETH_MB_RSP (n.val * 8 + i))
    else s)

/-! ### Control class (R301) -/

/-- A hardware action for a client: the reply is the response to core 0's write. -/
def State.zspAct (s : State) (sid typ rid bit : Nat) (set : Bool) : State :=
  s.zspNow sid 1 typ rid fun s =>
    let s := s.hwactCore bit set
    (s.resp.code, [], s)

/-- STOP_REPORTS. -/
def execStopReports (sid rid : Nat) (s : State) : Host.Outcome State Fault Refusal := .next (s.zspAct sid 1 rid 0 true)

/-- STOP_EXPORT. -/
def execStopExport (sid rid : Nat) (s : State) : Host.Outcome State Fault Refusal := .next (s.zspAct sid 2 rid 1 true)

/-- HOLD: never refused. -/
def execHold (sid rid : Nat) (s : State) : Host.Outcome State Fault Refusal :=
  .next (s.zspNow sid 1 3 rid fun s => (rOK, [], s.hwactCore 2 true))

/-- RESUME_REPORTS. -/
def execResumeReports (sid rid : Nat) (s : State) : Host.Outcome State Fault Refusal := .next (s.zspAct sid 4 rid 0 false)

/-- RESUME_EXPORT. -/
def execResumeExport (sid rid : Nat) (s : State) : Host.Outcome State Fault Refusal := .next (s.zspAct sid 5 rid 1 false)

/-- Job states as STATUS shows them. -/
def JobSt.code : JobSt → Nat
  | .noJob => 0 | .cal => 1 | .jobRun => 2 | .jobHold => 3

/-- RUN: JOB_HOLD to JOB_RUN (R304). -/
def State.jobResume (s : State) : Nat × List Byte × State :=
  if s.zsp.job != .jobHold || s.zsp.ending.isSome || !s.inHoldIdle then (rSTATE_REFUSED, [], s)
  else
    let adv := s.tick.holdAdv
    match s.askRun (ofSigned 48 s.tick.hw) with
    | (0, s) =>
      let s := { s with zsp := { s.zsp with job := .jobRun, holdAdv := s.zsp.holdAdv + adv } }
      (rOK, [], s.zspEvent 2 0x0103 (leBytes 8 (s.pwr.t0 % 2 ^ 48) ++ leBytes 4 (min 0xFFFFFFFF adv)))
    | (r, s) => (r, [], s)

/-- RUN. -/
def execRun (sid rid : Nat) (s : State) : Host.Outcome State Fault Refusal := .next (s.zspNow sid 1 6 rid (·.jobResume))

/-- STATUS; the layout of its payload is not given (log 36). -/
def execStatus (sid rid : Nat) (s : State) : Host.Outcome State Fault Refusal :=
  .next (s.zspNow sid 1 0x10 rid fun s =>
    (rOK, Config.zspLayout 0 [s.zsp.job.code, if s.inRun then 0 else 1, (s.reg .ETH_HWACT).toNat, s.fld RPT_QWR_SEQ,
      ofSigned 48 s.tick.hw], s))

/-- ECHO. -/
def execEcho (sid rid : Nat) (b : List Byte) (s : State) : Host.Outcome State Fault Refusal :=
  .next (s.zspNow sid 1 0x11 rid fun s => (rOK, b, s))

/-! ### Job class (R304–R307, R309) -/

/-- The largest trigger offset in whole lines (R36). -/
def State.maxOffset (s : State) : Nat := (List.range 12).foldl (fun a c => max a (s.fld TICK_TOFF_I c)) 0

/-- The web stands still: |TICK_SPEED| below 256, and HOLDADV has not moved for 10 ms. -/
def State.standstill (s : State) (steady : Bool) : Bool := decide (s.tickSpeed.natAbs < 256) && steady

/-- Set the enables of a job; whether REF took its own (R192). -/
def State.jobEnable (s : State) : Bool × State :=
  let s := (s.coreBits 41 .TICK_CTL 4 true).coreBits 41 .REF_CTL 1 true
  if s.on REF_CTL_EN then (true, (s.coreBits 41 .RPT_CTL 1 true).coreBits 41 .SIL_CTL 1 true) else (false, s)

/-- Write the first line of a job. -/
def State.job0 (s : State) (j : Nat) : State := (s.coreWrite 41 .RPT_JOB0_LO 0 (j % 2 ^ 32)).coreWrite 41 .RPT_JOB0_HI 0 (j / 2 ^ 32 % 65536)

/-- JOB_START (R305). After RANGE the enable set before REF's is cleared and RPT_JOB0 is as it was (R12); after BUSY the enables are
cleared, as at the end of a job (DEDUCED, log 95). -/
def State.jobStart (s : State) (job : Nat) (name : List Byte) (steady : Bool) : Nat × List Byte × State :=
  if s.zsp.job != .noJob || s.zsp.ending.isSome || !s.inHoldIdle || !s.standstill steady then (rSTATE_REFUSED, [], s)
  else
    let h := ofSigned 48 s.tick.hw
    let j := h + 1 + s.maxOffset
    match (s.job0 j).jobEnable with
    | (false, t) => (rRANGE, [], (t.jobDisable (jobEnables.take 1)).job0 (s.wide .RPT_JOB0_LO .RPT_JOB0_HI 0))
    | (true, t) =>
      match t.askRun h with
      | (0, t) =>
        let t := { t with zsp := { t.zsp with
          job := .jobRun, jobId := job, jobName := fit 32 name, holdAdv := 0, tilesLost := 0 } }
        let b := leBytes 8 ((h + 1) % 2 ^ 48) ++ leBytes 8 (j % 2 ^ 48) ++ leBytes 1 (t.fld SYS_PROFILE_NUM) ++ leBytes 3 0
          ++ leBytes 4 (t.fld RPT_QWR_SEQ) ++ leBytes 4 job ++ leBytes 8 (j - (h + 1))
        (rOK, [], t.zspEvent 2 0x0101 b)
      | (_, t) => (rBUSY, [], t.jobDisable jobEnables)

/-- JOB_START; `steady`: TICK_HOLDADV has not changed over the last 10 ms. -/
def execJobStart (sid rid : Nat) (job : Word) (name : List Byte) (steady : Bool) (s : State) : Host.Outcome State Fault Refusal :=
  .next (s.zspNow sid 2 1 rid (·.jobStart job.toNat name steady))

/-- The end of a job from Hold on: FLUSH to Sillage, then SYNC for the last inspected line (R306). -/
def State.jobEndHeld (s : State) : State :=
  let s := s.coreWrite 41 .SIL_CMD 0 1
  let l := s.pwr.holdLine
  (s.askAdd 1 1 [l % 2 ^ 32, l / 2 ^ 32 % 65536] .endSync).askPost 1 (s.zsp.asks.length + 2)

/-- JOB_END: Hold first where the device is in Run. -/
def State.jobEnd (s : State) (sid rid : Nat) : State :=
  if !(s.zsp.job == .jobRun || s.zsp.job == .jobHold) || s.zsp.ending.isSome then s.zspReply sid 2 2 rid rSTATE_REFUSED
  else
    let t := (s.zspWait sid 2 2 rid)
    let t := { t with zsp := { t.zsp with ending := some { sid := sid, rid := rid } } }
    if s.inHold then t.jobEndHeld
    else
      let u := t.coreWrite 41 .SYS_PWRCMD 0 4
      if u.pwr.drain then u
      else { u with zsp := { u.zsp with ending := none } }.zspFill sid 2 2 rid (max 1 u.resp.code)

/-- JOB_END. -/
def execJobEnd (sid rid : Nat) (s : State) : Host.Outcome State Fault Refusal :=
  .next (s.zspDo sid 2 2 rid (·.jobEnd sid rid))

/-- CAL_RUN: Run without a job (R304). -/
def State.calRun (s : State) : Nat × List Byte × State :=
  if s.zsp.job != .noJob || s.zsp.ending.isSome || !s.inHoldIdle || s.fld TICK_CTL_SRC != 3 || s.on RPT_CTL_EN then
    (rSTATE_REFUSED, [], s)
  else match s.askRun (ofSigned 48 s.tick.hw) with
    | (0, s) => (rOK, [], { s with zsp := { s.zsp with job := .cal } })
    | (r, s) => (r, [], s)

/-- CAL_RUN. -/
def execCalRun (sid rid : Nat) (s : State) : Host.Outcome State Fault Refusal := .next (s.zspNow sid 2 3 rid (·.calRun))

/-- CAL_END: requests Hold; NO_JOB once it is entered. -/
def execCalEnd (sid rid : Nat) (s : State) : Host.Outcome State Fault Refusal :=
  .next (s.zspNow sid 2 4 rid fun s =>
    if s.zsp.job != .cal then (rSTATE_REFUSED, [], s)
    else
      let s := s.coreWrite 41 .SYS_PWRCMD 0 4
      (s.resp.code, [], s))

/-- STANDBY, accepted in NO_JOB only; the reply goes before the entry. -/
def execStandby (sid rid : Nat) (s : State) : Host.Outcome State Fault Refusal :=
  .next (s.zspDo sid 2 5 rid fun s =>
    if s.zsp.job != .noJob || s.zsp.ending.isSome then s.zspReply sid 2 5 rid rSTATE_REFUSED
    else
      let t := s.coreWrite 41 .SYS_PWRCMD 0 2
      let r := if t.resp.code = rOK then t.fld SYS_PWRRES_RESULT else t.resp.code
      (s.zspReply sid 2 5 rid r).coreWrite 41 .SYS_PWRCMD 0 2)

/-- Bands of a page not complete. -/
def State.bandsOpen (s : State) (p : RefPage) : List Nat := (List.range ((p.len + 63) / 64)).filter fun b => !s.bandOk p b

/-- FEED_STATUS. -/
def execFeedStatus (sid rid : Nat) (s : State) : Host.Outcome State Fault Refusal :=
  .next (s.zspNow sid 2 6 rid fun s =>
    let bands := (s.livePages.map fun p => (s.bandsOpen p).length).sum
    (rOK, leBytes 4 (s.view .REF_PID 0).toNat ++ leBytes 1 s.ref.queue.length ++ leBytes 3 0 ++ leBytes 4 bands
      ++ leBytes 4 s.zsp.tilesLost, s))

/-- The start of a page: declared, or expected from P′ and the page length for the i-th page of the queue. -/
def State.startOf (s : State) (p : RefPage) : Option Int :=
  match p.start with
  | some st => some st
  | none =>
    let i := (s.ref.queue.takeWhile fun q => q.qp != p.qp).length
    match s.ref.ready[i]? with
    | some st => some st
    | none => s.ref.exact.map fun x => nearStart (x + ((i - s.ref.ready.length : Nat) : Int) * s.pageLen)

/-- The line of the first run that reads row `64 b` of a page, of the engines that read the reference (R187, R189). -/
def State.firstRead (s : State) (st : Int) (b : Nat) : Option Int :=
  let lines := (List.range 16).filterMap fun e => ((s.eng e).prog.bind fun p => p.refRings.head?).map fun _ =>
    let up : Rat := (((64 * b : Nat) : Int) - (s.fld REF_CTL_LEAD : Int) : Int)
    max st (st + (up / s.rs - (s.trk e).md).ceil)
  lines.foldl (fun a x => some ((a.map (min x)).getD x)) none

/-- Bands now 2 × D ticks, or less, from their first reading run, incomplete and not yet reported. -/
def State.bandsDue (s : State) (p : RefPage) : List Nat :=
  match s.startOf p with
  | none => []
  | some st => (s.bandsOpen p).filter fun b => !p.missed.contains b &&
      (s.firstRead st b).any fun n => decide (n - s.depth ≤ s.nowTick)

/-- Report a band. -/
def State.bandMissing (s : State) (p : RefPage) (b : Nat) : State :=
  let ts := (List.range s.refTiles).filter fun t => !p.tiles.contains (b, t)
  let s := s.updPage p.qp fun p => { p with missed := b :: p.missed }
  s.zspEvent 2 0x0105 (leBytes 4 p.id ++ leBytes 4 b ++ leBytes 2 ts.length ++ leBytes 2 0 ++ ts.flatMap (leBytes 2))

/-- REF_MISSING: bands that fall due incomplete (R307). -/
def execRefMissing (s : State) : Host.Outcome State Fault Refusal :=
  .next (if s.serving && s.on REF_CTL_EN && s.refMode then
      s.livePages.foldl (fun s p => (s.bandsDue p).foldl (fun s b => s.bandMissing p b) s) s
    else s)

/-- The job at a Hold entry: a job in Run is held, CAL ends, and an end of a job goes on (R304, R306). -/
def State.jobHeld (s : State) : State :=
  if s.zsp.ending.isSome then { s with zsp := { s.zsp with job := .jobHold } }.jobEndHeld
  else match s.zsp.job with
    | .jobRun => { s with zsp := { s.zsp with job := .jobHold } }.zspEvent 2 0x0102 (leBytes 8 (s.pwr.holdLine % 2 ^ 48))
    | .cal => { s with zsp := { s.zsp with job := .noJob } }
    | _ => s

/-- HOLD_ENTRY: the drain ends and the device is in Hold (R394). -/
def execHoldEntry (s : State) : Host.Outcome State Fault Refusal :=
  .next (if s.drainOver then s.holdEnter.jobHeld else s)

/-! ### Profile class (R310) -/

/-- An entry of PROFILE_LIST. -/
def profEntry (cfg : List Byte) (n : Nat) : List Byte :=
  match profBytes cfg n with
  | some b =>
    let h := profHdr b
    [0x01] ++ leBytes 1 h.family ++ leBytes 1 h.engines ++ leBytes 1 h.d ++ leBytes 4 h.maxRate ++ fit 32 h.name ++ leBytes 8 0
  | none => leBytes 48 0

/-- PROFILE_LIST. -/
def execProfileList (sid rid : Nat) (s : State) : Host.Outcome State Fault Refusal :=
  .next (s.zspNow sid 3 1 rid fun s =>
    let v := s.on SYS_PSTAT_VALID
    (rOK, leBytes 1 (if v then s.fld SYS_PROFILE_NUM else 0xFF) ++ leBytes 1 v.toNat ++ leBytes 6 0
      ++ (List.range 8).flatMap (profEntry s.boot.cfg), s))

/-- A part of an image: RANGE where it leaves the image or overlaps a part received, else the image with it. A part that states
another total begins a new image. -/
def uploadPart (u : Option Upload) (total ofs : Nat) (part : List Byte) : Option Upload :=
  let u : Upload := match u with
    | some u => if u.total = total then u else { total := total }
    | none => { total := total }
  if total < ofs + part.length then none
  else if u.parts.any fun p => decide (p.1 < ofs + part.length) && decide (ofs < p.1 + p.2.length) then none
  else some { u with parts := insertBy (fun a b => decide (a.1 ≤ b.1)) (ofs, part) u.parts }

/-- The whole image, once every byte has come. -/
def Upload.whole (u : Upload) : Option (List Byte) :=
  let b := u.parts.flatMap Prod.snd
  if u.total ≤ b.length then some b else none

/-- Write a directory entry's length and version. -/
def flashEntry (flash : Memory) (d : DirEntry) (len ver : Nat) : Memory :=
  match (List.range 8).find? fun i => decide ((flashDir flash)[i]? = some d) with
  | some i => memPutNat (memPutNat flash (16 + 16 * i + 8) 4 len) (16 + 16 * i + 12) 4 ver
  | none => flash

/-- A complete configuration image: verified, it goes into the slot of kind 2 not tried first, with a version one higher than
the other's (R399, R400). Without such a slot there is no place for it, and the answer is the one R310 gives otherwise. -/
def State.profStore (s : State) (img : List Byte) : Nat × State :=
  match s.verifyImage 1 img with
  | (false, _, s) => (rAUTH_FAIL, s)
  | (true, _, s) =>
    match dirSlots s.boot.flash 2 with
    | first :: other :: _ =>
      let fl := flashEntry s.boot.flash other img.length ((first.ver + 1) % 2 ^ 32)
      (rOK, { s with boot := { s.boot with flash := memWrite fl other.ofs img } })
    | _ => (rAUTH_FAIL, s)

/-- PROFILE_UPLOAD. -/
def execProfileUpload (sid rid : Nat) (total ofs : Word) (part : List Byte) (s : State) : Host.Outcome State Fault Refusal :=
  .next (s.zspNow sid 3 2 rid fun s =>
    match uploadPart s.zsp.upload total.toNat ofs.toNat part with
    | none => (rRANGE, [], s)
    | some u => match u.whole with
      | none => (rOK, [], { s with zsp := { s.zsp with upload := some u } })
      | some img =>
        let (r, s) := { s with zsp := { s.zsp with upload := none } }.profStore img
        (r, [], s))

/-- PROFILE_SELECT: mailbox 0, opcode 1. -/
def execProfileSelect (sid rid : Nat) (n : Fin 8) (s : State) : Host.Outcome State Fault Refusal :=
  .next (s.zspDo sid 3 3 rid fun s => s.askMail 0 1 [n] sid 3 3 rid)

/-- PROFILE_SPLICE: mailbox 0, opcode 2. -/
def execProfileSplice (sid rid : Nat) (n : Fin 8) (line : BitVec 48) (s : State) : Host.Outcome State Fault Refusal :=
  .next (s.zspDo sid 3 4 rid fun s => s.askMail 0 2 [n, line.toNat % 2 ^ 32, line.toNat / 2 ^ 32] sid 3 4 rid)

/-- PROFILE_CANCEL: mailbox 0, opcode 3. -/
def execProfileCancel (sid rid : Nat) (s : State) : Host.Outcome State Fault Refusal :=
  .next (s.zspDo sid 3 5 rid fun s => s.askMail 0 3 [] sid 3 5 rid)

/-! ### Subscriptions (R303, R311) -/

/-- Sequence number a comes before b, modulo 2³². -/
def seqBefore (a b : Nat) : Bool := a != b && decide (seqSub b a < 2 ^ 31)

/-- A record belongs to a subscription; the class filter applies to region records (DEDUCED, log 37). -/
def Subscription.wants (u : Subscription) (b : List Byte) : Bool :=
  let n := fun i => leNat ((b.drop i).take 1)
  u.types.testBit (n 0) && u.chips.testBit (n 1 % 4)
    && (decide (2 < n 0) || (if n 2 = 0xFF then u.unsure else u.classes.testBit (n 2)))

/-- Records a subscription's backlog, or the service's store, holds at most: 256 MiB of 128 bytes. -/
def subMax : Nat := 2097152

/-- Widen a gap by a discarded sequence number. -/
def gapAdd (g : Option (Nat × Nat)) (n : Nat) : Option (Nat × Nat) := some ((g.map Prod.fst).getD n, n)

/-- A record taken from the queue is offered to a subscription. -/
def Subscription.offer (u : Subscription) (seq : Nat) (b : List Byte) : Subscription :=
  if seqBefore seq u.start || !u.wants b then u
  else
    let l := u.backlog ++ [(seq, b)]
    if subMax < l.length then { u with backlog := l.drop 1, gap := gapAdd u.gap ((l.head?.map Prod.fst).getD 0) }
    else { u with backlog := l }

/-- SUBSCRIBE. -/
def execSubscribe (sid rid : Nat) (types classes : BitVec 16) (unsure : Bool) (chips : BitVec 4) (start : Word) (next : Bool)
    (s : State) : Host.Outcome State Fault Refusal :=
  .next (s.zspNow sid 4 1 rid fun s =>
    if (s.session sid).any fun c => c.sub.isSome then (rSTATE_REFUSED, [], s)
    else
      let qwr := s.fld RPT_QWR_SEQ
      let from_ := if next then qwr else start.toNat
      let oldest := (s.zsp.store.head?.map Prod.fst).getD (s.fld RPT_QRD_SEQ)
      let gap := if seqBefore from_ oldest then some (from_, seqSub oldest 1) else none
      let u : Subscription :=
        { types := types.toNat, classes := classes.toNat, unsure := unsure, chips := chips.toNat, start := from_, gap := gap }
      let u := s.zsp.store.foldl (fun u e => u.offer e.1 e.2) u
      (rOK, [], s.updSession sid fun c => { c with sub := some u }))

/-- UNSUBSCRIBE. -/
def execUnsubscribe (sid rid : Nat) (s : State) : Host.Outcome State Fault Refusal :=
  .next (s.zspNow sid 4 2 rid fun s =>
    if (s.session sid).any fun c => c.sub.isSome then (rOK, [], s.updSession sid fun c => { c with sub := none })
    else (rSTATE_REFUSED, [], s))

/-- Take one record of the queue into the store and the subscriptions. -/
def State.takeRecord (s : State) (seq : Nat) : State :=
  let (_, b, s) := s.anyRead 41 (poolBase + s.fld RPT_QBASE_OFS + 128 * (seq % s.qSize)) 128
  let st := s.zsp.store ++ [(seq, b)]
  let st := if subMax < st.length then st.drop 1 else st
  let f := fun (c : Session) => { c with sub := c.sub.map fun u => u.offer seq b }
  { s with zsp := { s.zsp with store := st, sessions := s.zsp.sessions.map fun e => (e.1, f e.2) } }

/-- The service consumes the record queue (R223). -/
def State.takeRecords (s : State) : State :=
  let rd := s.fld RPT_QRD_SEQ
  let n := s.qOcc
  if n = 0 then s
  else
    let s := (List.range n).foldl (fun s i => s.takeRecord ((rd + i) % 2 ^ 32)) s
    s.coreWrite 41 .RPT_QRD 0 ((rd + n) % 2 ^ 32)

/-- The records of a backlog leave in RECORDS events of at most 8,191. -/
def State.sendRecords (s : State) (sid : Nat) : Nat → List (Nat × List Byte) → State
  | 0, _ => s
  | fuel + 1, l =>
    if l.isEmpty then s
    else
      let part := l.take 8191
      let s := s.zspSend 2 ⟨sid, 4, 0x0101, 4, 0, 0, leBytes 4 part.length ++ part.flatMap Prod.snd⟩
      s.sendRecords sid fuel (l.drop 8191)

/-- RECORDS: the service takes what the record queue holds, and sends a subscriber its gap and its backlog, while reports are not
stopped (R302, R303). -/
def execRecords (sid : Nat) (s : State) : Host.Outcome State Fault Refusal :=
  .next (if !s.serving then s
    else
      let s := s.takeRecords
      match (s.session sid).bind (·.sub) with
      | none => s
      | some u =>
        if s.txStopped 2 then s
        else
          let t := s.updSession sid fun c => { c with sub := some { u with backlog := [], gap := none } }
          let t := match u.gap with
            | some (a, b) => t.zspSend 2 ⟨sid, 4, 0x0102, 4, 0, 0, leBytes 4 a ++ leBytes 4 b⟩
            | none => t
          t.sendRecords sid (u.backlog.length / 8191 + 1) u.backlog)

/-! ### Crops and roll map (R308) -/

/-- CROP_GET. -/
def State.cropGet (s : State) (h : Nat) : Nat × List Byte × State :=
  let (r, e, s) := s.anyRead 41 (s.wide .RPT_CIBASE_LO .RPT_CIBASE_HI + 16 * (h % 65536)) 16
  let n := fun (i k : Nat) => leNat ((e.drop i).take k)
  let lost := leBytes 1 (n 12 1) ++ leBytes 1 (n 13 1)
  if r ≠ rOK then (r, [], s)
  else if n 12 1 = 1 then
    if s.rpt.crops.any (·.handle == h) || s.rpt.copy.any (·.handle == h) then (rBUSY, [], s) else (rNOT_FOUND, lost, s)
  else if n 12 1 ≠ 2 then (rNOT_FOUND, lost, s)
  else
    let a := s.wide .RPT_CSBASE_LO .RPT_CSBASE_HI + n 0 8
    let (r, hd, s) := s.anyRead 41 a 32
    if r ≠ rOK then (r, [], s)
    else if leNat (hd.take 4) ≠ h then (rNOT_FOUND, lost, s)
    else
      let (r, d, s) := s.anyRead 41 (a + 32) (leNat ((hd.drop 24).take 4))
      (r, if r = rOK then hd ++ d else [], s)

/-- CROP_GET. -/
def execCropGet (sid rid : Nat) (h : Word) (s : State) : Host.Outcome State Fault Refusal :=
  .next (s.zspNow sid 5 1 rid (·.cropGet h.toNat))

/-- Take one record of the archive on top of those found, if its number lies between first and last; its place in the archive
holds a record of that number or not. -/
def State.archiveTake (base size first last : Nat) (acc : List (Nat × List Byte) × State) (seq : Nat) :
    List (Nat × List Byte) × State :=
  if seqSub last first < seqSub seq first then acc
  else
    let (r, b, s) := acc.2.anyRead 41 (base + 128 * (seq % size)) 128
    if r = rOK ∧ leNat ((b.drop 4).take 4) = seq ∧ leNat ((b.drop 3).take 1) = 1 then (acc.1 ++ [(seq, b)], s)
    else (acc.1, s)

/-- The records of an archive of `size` records at `base`, whose next number is `wr`, that lie in a range. -/
def State.archivedIn (s : State) (base size wr first last : Nat) : List (Nat × List Byte) × State :=
  (List.range size).foldl (fun acc i => State.archiveTake base size first last acc (seqSub (wr + i) size)) ([], s)

/-- The archived records of a range of sequence numbers that are still there, in order. -/
def State.archived (s : State) (first last : Nat) : List (Nat × List Byte) × State :=
  s.archivedIn (s.wide .RPT_RMBASE_LO .RPT_RMBASE_HI) (2 ^ s.fld RPT_RMLOG_RMLOG) (s.fld RPT_RMWR_WR) first last

/-- ROLLMAP_GET; with no record held the two sequence numbers of the reply are not stated (free values, log 1). -/
def State.rollmapGet (s : State) (first last level : Nat) : Nat × List Byte × State :=
  if 9 < level then (rRANGE, [], s)
  else
    let (l, s) := s.archived first last
    let body := l.flatMap Prod.snd
    let body := if level = 0 then body else zcmEncode body level
    match l.head?, l.getLast? with
    | some a, some b => (rOK, leBytes 4 a.1 ++ leBytes 4 b.1 ++ body, s)
    | _, _ => (rOK, leBytes 8 s.free ++ body, s.drawn)

/-- ROLLMAP_GET. -/
def execRollmapGet (sid rid : Nat) (first last : Word) (level : Byte) (s : State) : Host.Outcome State Fault Refusal :=
  .next (s.zspNow sid 6 1 rid (·.rollmapGet first.toNat last.toNat level.toNat))

/-! ### Metrology tickets (R312) -/

/-- TOTALS, passed to mailbox 4. -/
def execZspTotals (sid rid : Nat) (s : State) : Host.Outcome State Fault Refusal :=
  .next (s.zspDo sid 7 1 rid fun s => s.askMail 4 1 [] sid 7 1 rid)

/-- TICKET. -/
def execZspTicket (sid rid : Nat) (s : State) : Host.Outcome State Fault Refusal :=
  .next (s.zspDo sid 7 2 rid fun s => s.askMail 4 2 [] sid 7 2 rid)

/-- LOT_START. -/
def execZspLotStart (sid rid : Nat) (s : State) : Host.Outcome State Fault Refusal :=
  .next (s.zspDo sid 7 3 rid fun s => s.askMail 4 3 [] sid 7 3 rid)

/-- LOT_END. -/
def execZspLotEnd (sid rid : Nat) (s : State) : Host.Outcome State Fault Refusal :=
  .next (s.zspDo sid 7 4 rid fun s => s.askMail 4 4 [] sid 7 4 rid)

/-- TICKET_KEY: the public key and its id, from the window. -/
def execTicketKey (sid rid : Nat) (s : State) : Host.Outcome State Fault Refusal :=
  .next (s.zspNow sid 7 5 rid fun s =>
    let (r, k, s) := s.regsRead 41 (regAddr .FL_TKEY 0) 15
    let (r', i, s) := s.regsRead 41 (regAddr .FL_TKID_LO 0) 2
    (worse r r', if worse r r' = rOK then k.take 57 ++ leBytes 7 0 ++ i else [], s))

/-- A type that requires ZT-SERVICE. -/
def State.zspService (s : State) (sid typ rid : Nat) (f : State → State) : State :=
  s.zspDo sid 7 typ rid fun s =>
    if (s.session sid).any fun c => c.role == .service then f s else s.zspReply sid 7 typ rid rDENIED

/-- PARAM. -/
def execZspParam (sid rid : Nat) (id v : Word) (s : State) : Host.Outcome State Fault Refusal :=
  .next (s.zspService sid 0x10 rid fun s => s.askMail 4 5 [id.toNat, v.toNat] sid 7 0x10 rid)

/-- INIT. -/
def execZspInit (sid rid : Nat) (s : State) : Host.Outcome State Fault Refusal :=
  .next (s.zspService sid 0x11 rid fun s => s.askMail 4 6 [] sid 7 0x11 rid)

/-- RESTORE. -/
def execZspRestore (sid rid : Nat) (s : State) : Host.Outcome State Fault Refusal :=
  .next (s.zspService sid 0x12 rid fun s => s.askMail 4 7 [] sid 7 0x12 rid)

/-- A complete Flacon image is placed in the shared pool, at a place the spec leaves to the service (free, log 1), and passed
on. -/
def State.installPass (s : State) (img : List Byte) (sid rid : Nat) : State :=
  if 0x1000000 < img.length then s.zspReply sid 7 0x13 rid rRANGE
  else
    let a := poolBase + s.free % (0x1000000 - img.length + 1)
    match s.drawn.anyWrite 41 a img with
    | (0, s) => s.askMail 4 8 [a % 2 ^ 32, a / 2 ^ 32, img.length] sid 7 0x13 rid
    | (r, s) => s.zspReply sid 7 0x13 rid r

/-- INSTALL: a part of an image. -/
def execZspInstall (sid rid : Nat) (total ofs : Word) (part : List Byte) (s : State) : Host.Outcome State Fault Refusal :=
  .next (s.zspService sid 0x13 rid fun s =>
    match uploadPart s.zsp.install total.toNat ofs.toNat part with
    | none => s.zspReply sid 7 0x13 rid rRANGE
    | some u => match u.whole with
      | none => { s with zsp := { s.zsp with install := some u } }.zspReply sid 7 0x13 rid rOK
      | some img => { s with zsp := { s.zsp with install := none } }.installPass img sid rid)

/-! ### Diagnostics (R313) -/

/-- Words read one by one as master 41: a word whose access fails reads 0. -/
def State.wordsRead (s : State) : Nat → Nat → Nat × List Byte × State
  | _, 0 => (rOK, [], s)
  | a, n + 1 =>
    let s := s.busGet 41 a 4
    let r := s.resp.code
    let d := leBytes 4 (if r = rOK then s.resp.data else 0)
    let (r', ds, s) := s.wordsRead (a + 4) n
    (worse r r', d ++ ds, s)

/-- REG_READ. -/
def execRegRead (sid rid : Nat) (a : BitVec 64) (n : Word) (s : State) : Host.Outcome State Fault Refusal :=
  .next (s.zspNow sid 8 1 rid fun s =>
    if n = 0 ∨ 256 < n.toNat then (rRANGE, [], s) else s.wordsRead a.toNat n.toNat)

/-- REG_WRITE. -/
def execRegWrite (sid rid : Nat) (a : BitVec 64) (v : Word) (s : State) : Host.Outcome State Fault Refusal :=
  .next (s.zspNow sid 8 2 rid fun s =>
    let s := s.busPut 41 a.toNat 4 v
    (s.resp.code, [], s))

/-- BOOT_REPORT. -/
def execBootReport (sid rid : Nat) (s : State) : Host.Outcome State Fault Refusal :=
  .next (s.zspNow sid 8 3 rid fun s =>
    let (r, b, s) := s.anyRead 41 (poolBase + 0xFFF000) 256
    (r, if r = rOK then b else [], s))

/-- QUOTE: the nonce is written, the root core signs once it is not BUSY, and the quote is read. -/
def execQuote (sid rid : Nat) (nonce : List Byte) (s : State) : Host.Outcome State Fault Refusal :=
  .next (s.zspNow sid 8 4 rid fun s =>
    let (r, s) := s.regsWrite 41 (regAddr .SEC_QNONCE 0) 8 (fit 32 nonce)
    if r ≠ rOK then (r, [], s)
    else
      let s := (s.quoteEnd.coreWrite 41 .SEC_QCMD 0 1).quoteEnd
      let r := if s.resp.code = rOK then s.fld SEC_QRES_RESULT else s.resp.code
      if r ≠ rOK then (r, [], s) else s.regsRead 41 (regAddr .SEC_QOUT 0) 192)

/-- Registers read one after another as master 41: the first response that is not OK, and their values. -/
def State.coreRegs (s : State) : List (Reg × Nat) → Nat × List Nat × State
  | [] => (rOK, [], s)
  | (r, i) :: l =>
    let s := s.regReadAt 41 (regAddr r i) 4
    let c := s.resp.code
    let d := s.resp.data
    let (c', ds, s) := s.coreRegs l
    (worse c c', d :: ds, s)

/-- The registers a log shows: SEC's status; the denied logs of the targets and the boot ROM (log 36). -/
def logRegs (log : Nat) : List (Reg × Nat) :=
  if log = 1 then [(.SEC_STAT, 0), (.SEC_INTSRC, 0), (.SEC_LC, 0), (.SEC_DBG, 0)]
  else if log = 2 then (List.range 46).flatMap fun t => [(.SEC_DLOG_A, t), (.SEC_DLOG_B, t), (.SEC_DLOG_CNT, t)]
  else []

/-- What a log shows (log 36): the system log, or the registers of log 1 or 2, which the service reads as master 41: a refused
access answers DENIED (R313). -/
def State.logOf (s : State) (log : Nat) : Nat × List Byte × State :=
  if log = 0 then (rOK, Config.zspLayout 1 (s.boot.log.map (·.toNat)), s)
  else
    let (r, ds, s) := s.coreRegs (logRegs log)
    (r, if r = rOK then Config.zspLayout (log + 1) ds else [], s)

/-- LOG_READ. -/
def execLogRead (sid rid : Nat) (log : Byte) (ofs : Word) (s : State) : Host.Outcome State Fault Refusal :=
  .next (s.zspNow sid 8 5 rid fun s =>
    if 2 < log.toNat then (rRANGE, [], s)
    else
      let (r, b, s) := s.logOf log.toNat
      (r, b.drop ofs.toNat, s))

/-- DEVICE_CERT: the chain presented; there is none in BLANK and RETURN (R379, R381). -/
def execDeviceCert (sid rid : Nat) (s : State) : Host.Outcome State Fault Refusal :=
  .next (s.zspNow sid 8 6 rid fun s => (rOK, if s.lcState = 0 ∨ s.lcState = 3 then [] else s.boot.certChain, s))

end Sys2Proof.Machine
end

