-- ==== Sys2Proof/Machine/Dispatch.lean ====
section
/-!
DEFINITION. Sys2Proof/Machine/Dispatch.lean: one arm per command of the table, each one direct call of its meaning.
-/
namespace Sys2Proof.Machine

/-- The effect of a command on everything but the queue. -/
def exec (i : Instr) (s : State) : Host.Outcome State Fault Refusal :=
  match i with
  | .registerWrite m a n w => Sys2Proof.Machine.execRegisterWrite m a n w s
  | .counterClear m a v => Sys2Proof.Machine.execCounterClear m a v s
  | .rwcComplementWrite m a v => Sys2Proof.Machine.execRwcComplementWrite m a v s
  | .rwcValueWrite m a v => Sys2Proof.Machine.execRwcValueWrite m a v s
  | .latchingRead m a n => Sys2Proof.Machine.execLatchingRead m a n s
  | .tick => Sys2Proof.Machine.execTick s
  | .fixedRatePeriod => Sys2Proof.Machine.execFixedRatePeriod s
  | .ovsNowClear => Sys2Proof.Machine.execOvsNowClear s
  | .drainTick => Sys2Proof.Machine.execDrainTick s
  | .servoUpdate m x v => Sys2Proof.Machine.execServoUpdate m x v s
  | .timeSetLoad m x v => Sys2Proof.Machine.execTimeSetLoad m x v s
  | .primarySwitch m v => Sys2Proof.Machine.execPrimarySwitch m v s
  | .pps => Sys2Proof.Machine.execPps s
  | .abEdge e a b t => Sys2Proof.Machine.execAbEdge e a b t s
  | .observerUpdate e t => Sys2Proof.Machine.execObserverUpdate e t s
  | .signalLost e => Sys2Proof.Machine.execSignalLost e s
  | .serialFrameStart e t => Sys2Proof.Machine.execSerialFrameStart e t s
  | .serialFrameEnd e w => Sys2Proof.Machine.execSerialFrameEnd e w s
  | .indexPulse z => Sys2Proof.Machine.execIndexPulse z s
  | .standstillTimeout e => Sys2Proof.Machine.execStandstillTimeout e s
  | .ptStateSend => Sys2Proof.Machine.execPtStateSend s
  | .ptRealign m v => Sys2Proof.Machine.execPtRealign m v s
  | .laneEnable m j v => Sys2Proof.Machine.execLaneEnable m j v s
  | .laneDisable m j v => Sys2Proof.Machine.execLaneDisable m j v s
  | .frameTransmit j => Sys2Proof.Machine.execFrameTransmit j s
  | .codewordReceive j w reads => Sys2Proof.Machine.execCodewordReceive j w reads s
  | .lockTimeout j => Sys2Proof.Machine.execLockTimeout j s
  | .laneRetrain m j v => Sys2Proof.Machine.execLaneRetrain m j v s
  | .correctedSymbolWindow j => Sys2Proof.Machine.execCorrectedSymbolWindow j s
  | .retrainSweepEnd j heights => Sys2Proof.Machine.execRetrainSweepEnd j heights s
  | .retryTimeout j => Sys2Proof.Machine.execRetryTimeout j s
  | .eyeScanStart m j v => Sys2Proof.Machine.execEyeScanStart m j v s
  | .eyeScanDone j n => Sys2Proof.Machine.execEyeScanDone j n s
  | .fmtAck p => Sys2Proof.Machine.execFmtAck p s
  | .cstat p => Sys2Proof.Machine.execCstat p s
  | .cameraRegAccess m p v => Sys2Proof.Machine.execCameraRegAccess m p v s
  | .regD p => Sys2Proof.Machine.execRegD p s
  | .cameraRegTimeout p => Sys2Proof.Machine.execCameraRegTimeout p s
  | .camPortEnable m p v => Sys2Proof.Machine.execCamPortEnable m p v s
  | .camPortDisable m p v => Sys2Proof.Machine.execCamPortDisable m p v s
  | .singleLaneSpeedRecovery p => Sys2Proof.Machine.execSingleLaneSpeedRecovery p s
  | .fmtTimeout p => Sys2Proof.Machine.execFmtTimeout p s
  | .fmtRepeat p => Sys2Proof.Machine.execFmtRepeat p s
  | .packetReceive j => Sys2Proof.Machine.execPacketReceive j s
  | .credit j => Sys2Proof.Machine.execCredit j s
  | .cameraLineArrival c k => Sys2Proof.Machine.execCameraLineArrival c k s
  | .tableCommit m c => Sys2Proof.Machine.execTableCommit m c s
  | .tableCheckDone c => Sys2Proof.Machine.execTableCheckDone c s
  | .statsBlockEnd c => Sys2Proof.Machine.execStatsBlockEnd c s
  | .accumulationStart m c v => Sys2Proof.Machine.execAccumulationStart m c v s
  | .accumulationDone c => Sys2Proof.Machine.execAccumulationDone c s
  | .engineRunStart e => Sys2Proof.Machine.execEngineRunStart e s
  | .bundleIssue e perr => Sys2Proof.Machine.execBundleIssue e perr s
  | .runOverrun e => Sys2Proof.Machine.execRunOverrun e s
  | .queueEntryDrain e => Sys2Proof.Machine.execQueueEntryDrain e s
  | .engineGo m e v => Sys2Proof.Machine.execEngineGo m e v s
  | .engineGoClear m e v => Sys2Proof.Machine.execEngineGoClear m e v s
  | .engineRestart m e v => Sys2Proof.Machine.execEngineRestart m e v s
  | .programLoad m e v => Sys2Proof.Machine.execProgramLoad m e v s
  | .loadDone e => Sys2Proof.Machine.execLoadDone e s
  | .cAdd e f => Sys2Proof.Machine.execCAdd e f s
  | .cSub e f => Sys2Proof.Machine.execCSub e f s
  | .cMul e f => Sys2Proof.Machine.execCMul e f s
  | .cAnd e f => Sys2Proof.Machine.execCAnd e f s
  | .cOr e f => Sys2Proof.Machine.execCOr e f s
  | .cXor e f => Sys2Proof.Machine.execCXor e f s
  | .cShl e f => Sys2Proof.Machine.execCShl e f s
  | .cShr e f => Sys2Proof.Machine.execCShr e f s
  | .cSar e f => Sys2Proof.Machine.execCSar e f s
  | .cMin e f => Sys2Proof.Machine.execCMin e f s
  | .cMax e f => Sys2Proof.Machine.execCMax e f s
  | .slt e f => Sys2Proof.Machine.execSlt e f s
  | .addi e f => Sys2Proof.Machine.execAddi e f s
  | .li e f => Sys2Proof.Machine.execLi e f s
  | .lih e f => Sys2Proof.Machine.execLih e f s
  | .shli e f => Sys2Proof.Machine.execShli e f s
  | .shri e f => Sys2Proof.Machine.execShri e f s
  | .sari e f => Sys2Proof.Machine.execSari e f s
  | .ctx e f => Sys2Proof.Machine.execCtx e f s
  | .pset e f => Sys2Proof.Machine.execPset e f s
  | .pget e f => Sys2Proof.Machine.execPget e f s
  | .br e f => Sys2Proof.Machine.execBr e f s
  | .brz e f => Sys2Proof.Machine.execBrz e f s
  | .brnz e f => Sys2Proof.Machine.execBrnz e f s
  | .brlt e f => Sys2Proof.Machine.execBrlt e f s
  | .loopv e f => Sys2Proof.Machine.execLoopv e f s
  | .tickwait e => Sys2Proof.Machine.execTickwait e s
  | .mbox e f => Sys2Proof.Machine.execMbox e f s
  | .ld e f => Sys2Proof.Machine.execLd e f s
  | .ldx e f => Sys2Proof.Machine.execLdx e f s
  | .ldp e f => Sys2Proof.Machine.execLdp e f s
  | .ldw e f => Sys2Proof.Machine.execLdw e f s
  | .ldt e f => Sys2Proof.Machine.execLdt e f s
  | .ldg e f => Sys2Proof.Machine.execLdg e f s
  | .ldh e f => Sys2Proof.Machine.execLdh e f s
  | .stw e f => Sys2Proof.Machine.execStw e f s
  | .uAdd e u1 f => Sys2Proof.Machine.execUAdd e u1 f s
  | .uSub e u1 f => Sys2Proof.Machine.execUSub e u1 f s
  | .addiu e u1 f => Sys2Proof.Machine.execAddiu e u1 f s
  | .addis e u1 f => Sys2Proof.Machine.execAddis e u1 f s
  | .mulh e u1 f => Sys2Proof.Machine.execMulh e u1 f s
  | .abs e u1 f => Sys2Proof.Machine.execAbs e u1 f s
  | .absd e u1 f => Sys2Proof.Machine.execAbsd e u1 f s
  | .uMin e u1 f => Sys2Proof.Machine.execUMin e u1 f s
  | .uMax e u1 f => Sys2Proof.Machine.execUMax e u1 f s
  | .min3 e u1 f => Sys2Proof.Machine.execMin3 e u1 f s
  | .max3 e u1 f => Sys2Proof.Machine.execMax3 e u1 f s
  | .med3 e u1 f => Sys2Proof.Machine.execMed3 e u1 f s
  | .clamp e u1 f => Sys2Proof.Machine.execClamp e u1 f s
  | .sel e u1 f => Sys2Proof.Machine.execSel e u1 f s
  | .movi e u1 f => Sys2Proof.Machine.execMovi e u1 f s
  | .uAnd e u1 f => Sys2Proof.Machine.execUAnd e u1 f s
  | .uOr e u1 f => Sys2Proof.Machine.execUOr e u1 f s
  | .uXor e u1 f => Sys2Proof.Machine.execUXor e u1 f s
  | .andn e u1 f => Sys2Proof.Machine.execAndn e u1 f s
  | .uShl e u1 f => Sys2Proof.Machine.execUShl e u1 f s
  | .uShr e u1 f => Sys2Proof.Machine.execUShr e u1 f s
  | .cvt e u1 f => Sys2Proof.Machine.execCvt e u1 f s
  | .vspl e u1 f => Sys2Proof.Machine.execVspl e u1 f s
  | .laneix e u1 f => Sys2Proof.Machine.execLaneix e u1 f s
  | .cmpeq e u1 f => Sys2Proof.Machine.execCmpeq e u1 f s
  | .cmplt e u1 f => Sys2Proof.Machine.execCmplt e u1 f s
  | .cmple e u1 f => Sys2Proof.Machine.execCmple e u1 f s
  | .cmpltiu e u1 f => Sys2Proof.Machine.execCmpltiu e u1 f s
  | .cmpltis e u1 f => Sys2Proof.Machine.execCmpltis e u1 f s
  | .cmpgtiu e u1 f => Sys2Proof.Machine.execCmpgtiu e u1 f s
  | .cmpgtis e u1 f => Sys2Proof.Machine.execCmpgtis e u1 f s
  | .pand e u1 f => Sys2Proof.Machine.execPand e u1 f s
  | .por e u1 f => Sys2Proof.Machine.execPor e u1 f s
  | .pxor e u1 f => Sys2Proof.Machine.execPxor e u1 f s
  | .pandn e u1 f => Sys2Proof.Machine.execPandn e u1 f s
  | .pnot e u1 f => Sys2Proof.Machine.execPnot e u1 f s
  | .chsh e u1 f => Sys2Proof.Machine.execChsh e u1 f s
  | .lfun e u1 f => Sys2Proof.Machine.execLfun e u1 f s
  | .mac e f => Sys2Proof.Machine.execMac e f s
  | .maci e f => Sys2Proof.Machine.execMaci e f s
  | .mula e f => Sys2Proof.Machine.execMula e f s
  | .accrd e f => Sys2Proof.Machine.execAccrd e f s
  | .accclr e f => Sys2Proof.Machine.execAccclr e f s
  | .rsmph e f => Sys2Proof.Machine.execRsmph e f s
  | .rsmpv e f => Sys2Proof.Machine.execRsmpv e f s
  | .lut4x e f => Sys2Proof.Machine.execLut4x e f s
  | .lut4w e f => Sys2Proof.Machine.execLut4w e f s
  | .sign e f => Sys2Proof.Machine.execSign e f s
  | .shcmp e f => Sys2Proof.Machine.execShcmp e f s
  | .stc e f => Sys2Proof.Machine.execStc e f s
  | .emit e f => Sys2Proof.Machine.execEmit e f s
  | .proj e f => Sys2Proof.Machine.execProj e f s
  | .sreg e f => Sys2Proof.Machine.execSreg e f s
  | .accordEnable m v => Sys2Proof.Machine.execAccordEnable m v s
  | .mapCheckStart m v => Sys2Proof.Machine.execMapCheckStart m v s
  | .mapCheckDone => Sys2Proof.Machine.execMapCheckDone s
  | .pageDescriptor => Sys2Proof.Machine.execPageDescriptor s
  | .tilePacket => Sys2Proof.Machine.execTilePacket s
  | .tileDecompressed ix => Sys2Proof.Machine.execTileDecompressed ix s
  | .pageStart => Sys2Proof.Machine.execPageStart s
  | .markMiss => Sys2Proof.Machine.execMarkMiss s
  | .pressPageEvent => Sys2Proof.Machine.execPressPageEvent s
  | .firstLineArm m v => Sys2Proof.Machine.execFirstLineArm m v s
  | .descriptorDrop m v => Sys2Proof.Machine.execDescriptorDrop m v s
  | .trackerReset m v => Sys2Proof.Machine.execTrackerReset m v s
  | .trackerWrite m e which v => Sys2Proof.Machine.execTrackerWrite m e which v s
  | .refEnable m v => Sys2Proof.Machine.execRefEnable m v s
  | .rowPrefetch e => Sys2Proof.Machine.execRowPrefetch e s
  | .registrationUpdate e => Sys2Proof.Machine.execRegistrationUpdate e s
  | .refMissing => Sys2Proof.Machine.execRefMissing s
  | .sillageLine => Sys2Proof.Machine.execSillageLine s
  | .eolMiss => Sys2Proof.Machine.execEolMiss s
  | .sillageEnable m v => Sys2Proof.Machine.execSillageEnable m v s
  | .flush m v => Sys2Proof.Machine.execFlush m v s
  | .swap m v => Sys2Proof.Machine.execSwap m v s
  | .recordBuild => Sys2Proof.Machine.execRecordBuild s
  | .holdBuildStep => Sys2Proof.Machine.execHoldBuildStep s
  | .recordQueue => Sys2Proof.Machine.execRecordQueue s
  | .blindExtentCap => Sys2Proof.Machine.execBlindExtentCap s
  | .qrdWrite m v => Sys2Proof.Machine.execQrdWrite m v s
  | .cropCopyStart => Sys2Proof.Machine.execCropCopyStart s
  | .cropCopyEnd => Sys2Proof.Machine.execCropCopyEnd s
  | .markerFiring k => Sys2Proof.Machine.execMarkerFiring k s
  | .markerPulseEnd k => Sys2Proof.Machine.execMarkerPulseEnd k s
  | .markerClear m k v => Sys2Proof.Machine.execMarkerClear m k v s
  | .markerEnable m k v => Sys2Proof.Machine.execMarkerEnable m k v s
  | .loupeCommand => Sys2Proof.Machine.execLoupeCommand s
  | .spanEnable m v => Sys2Proof.Machine.execSpanEnable m v s
  | .helloSend p => Sys2Proof.Machine.execHelloSend p s
  | .hello p => Sys2Proof.Machine.execHello p s
  | .spanLinkTimeout p => Sys2Proof.Machine.execSpanLinkTimeout p s
  | .echoReqSend p => Sys2Proof.Machine.execEchoReqSend p s
  | .echoReq p => Sys2Proof.Machine.execEchoReq p s
  | .echoRsp p => Sys2Proof.Machine.execEchoRsp p s
  | .tickPacket p => Sys2Proof.Machine.execTickPacket p s
  | .spanTickDue => Sys2Proof.Machine.execSpanTickDue s
  | .tickGap => Sys2Proof.Machine.execTickGap s
  | .tsyncMeasure a b => Sys2Proof.Machine.execTsyncMeasure a b s
  | .haloLine p k hdr pixels => Sys2Proof.Machine.execHaloLine p k hdr pixels s
  | .seamPacket p line runs ctxs mark => Sys2Proof.Machine.execSeamPacket p line runs ctxs mark s
  | .seamTimeout p => Sys2Proof.Machine.execSeamTimeout p s
  | .forwardedRecord p b => Sys2Proof.Machine.execForwardedRecord p b s
  | .blotterStart m v => Sys2Proof.Machine.execBlotterStart m v s
  | .blotterDone fails => Sys2Proof.Machine.execBlotterDone fails s
  | .cxlPortEnable m p v => Sys2Proof.Machine.execCxlPortEnable m p v s
  | .cxlLinkUp p ok rate32 x4 => Sys2Proof.Machine.execCxlLinkUp p ok rate32 x4 s
  | .cxlCfgAccess m p v => Sys2Proof.Machine.execCxlCfgAccess m p v s
  | .cxlCfgDone p ok data => Sys2Proof.Machine.execCxlCfgDone p ok data s
  | .inbound p => Sys2Proof.Machine.execInbound p s
  | .decoderEnable m k v => Sys2Proof.Machine.execDecoderEnable m k v s
  | .cxlResponse p ix kind l => Sys2Proof.Machine.execCxlResponse p ix kind l s
  | .cxlRequestTimeout p => Sys2Proof.Machine.execCxlRequestTimeout p s
  | .cxlLinkLoss p => Sys2Proof.Machine.execCxlLinkLoss p s
  | .unfreeze m p v => Sys2Proof.Machine.execUnfreeze m p v s
  | .logInfoRead m p => Sys2Proof.Machine.execLogInfoRead m p s
  | .poisonEntryClear m p ix v => Sys2Proof.Machine.execPoisonEntryClear m p ix v s
  | .l1Entry p => Sys2Proof.Machine.execL1Entry p s
  | .pmeToAck p => Sys2Proof.Machine.execPmeToAck p s
  | .srTo p => Sys2Proof.Machine.execSrTo p s
  | .dmaStart m k v => Sys2Proof.Machine.execDmaStart m k v s
  | .dmaPause m k v => Sys2Proof.Machine.execDmaPause m k v s
  | .dmaResume m k v => Sys2Proof.Machine.execDmaResume m k v s
  | .dmaClear m k v => Sys2Proof.Machine.execDmaClear m k v s
  | .descriptorFetch k => Sys2Proof.Machine.execDescriptorFetch k s
  | .descriptorComplete k => Sys2Proof.Machine.execDescriptorComplete k s
  | .channelHalt k ofs => Sys2Proof.Machine.execChannelHalt k ofs s
  | .pauseDrained k n => Sys2Proof.Machine.execPauseDrained k n s
  | .cmpEngineFree ix => Sys2Proof.Machine.execCmpEngineFree ix s
  | .mailboxGo m n v => Sys2Proof.Machine.execMailboxGo m n v s
  | .mailboxReply n => Sys2Proof.Machine.execMailboxReply n s
  | .mailboxTimeout n => Sys2Proof.Machine.execMailboxTimeout n s
  | .sync => Sys2Proof.Machine.execSync s
  | .flushBlind => Sys2Proof.Machine.execFlushBlind s
  | .ethFrameReceive p back frame msg => Sys2Proof.Machine.execEthFrameReceive p back frame msg s
  | .ethFrameSent p => Sys2Proof.Machine.execEthFrameSent p s
  | .tlsConnect p data ca ou ok => Sys2Proof.Machine.execTlsConnect p data ca ou ok s
  | .stopReports sid rid => Sys2Proof.Machine.execStopReports sid rid s
  | .stopExport sid rid => Sys2Proof.Machine.execStopExport sid rid s
  | .hold sid rid => Sys2Proof.Machine.execHold sid rid s
  | .resumeReports sid rid => Sys2Proof.Machine.execResumeReports sid rid s
  | .resumeExport sid rid => Sys2Proof.Machine.execResumeExport sid rid s
  | .run sid rid => Sys2Proof.Machine.execRun sid rid s
  | .status sid rid => Sys2Proof.Machine.execStatus sid rid s
  | .echo sid rid b => Sys2Proof.Machine.execEcho sid rid b s
  | .hwactStopReports m v => Sys2Proof.Machine.execHwactStopReports m v s
  | .hwactStopExport m v => Sys2Proof.Machine.execHwactStopExport m v s
  | .holdReq m v => Sys2Proof.Machine.execHoldReq m v s
  | .jobStart sid rid job name steady => Sys2Proof.Machine.execJobStart sid rid job name steady s
  | .jobEnd sid rid => Sys2Proof.Machine.execJobEnd sid rid s
  | .calRun sid rid => Sys2Proof.Machine.execCalRun sid rid s
  | .calEnd sid rid => Sys2Proof.Machine.execCalEnd sid rid s
  | .standby sid rid => Sys2Proof.Machine.execStandby sid rid s
  | .feedStatus sid rid => Sys2Proof.Machine.execFeedStatus sid rid s
  | .profileList sid rid => Sys2Proof.Machine.execProfileList sid rid s
  | .profileUpload sid rid total ofs part => Sys2Proof.Machine.execProfileUpload sid rid total ofs part s
  | .profileSelect sid rid n => Sys2Proof.Machine.execProfileSelect sid rid n s
  | .profileSplice sid rid n line => Sys2Proof.Machine.execProfileSplice sid rid n line s
  | .profileCancel sid rid => Sys2Proof.Machine.execProfileCancel sid rid s
  | .subscribe sid rid types classes unsure chips start next => Sys2Proof.Machine.execSubscribe sid rid types classes unsure chips start next s
  | .unsubscribe sid rid => Sys2Proof.Machine.execUnsubscribe sid rid s
  | .records sid => Sys2Proof.Machine.execRecords sid s
  | .cropGet sid rid h => Sys2Proof.Machine.execCropGet sid rid h s
  | .rollmapGet sid rid first last level => Sys2Proof.Machine.execRollmapGet sid rid first last level s
  | .zspTotals sid rid => Sys2Proof.Machine.execZspTotals sid rid s
  | .zspTicket sid rid => Sys2Proof.Machine.execZspTicket sid rid s
  | .zspLotStart sid rid => Sys2Proof.Machine.execZspLotStart sid rid s
  | .zspLotEnd sid rid => Sys2Proof.Machine.execZspLotEnd sid rid s
  | .ticketKey sid rid => Sys2Proof.Machine.execTicketKey sid rid s
  | .zspParam sid rid id v => Sys2Proof.Machine.execZspParam sid rid id v s
  | .zspInit sid rid => Sys2Proof.Machine.execZspInit sid rid s
  | .zspRestore sid rid => Sys2Proof.Machine.execZspRestore sid rid s
  | .zspInstall sid rid total ofs part => Sys2Proof.Machine.execZspInstall sid rid total ofs part s
  | .regRead sid rid a n => Sys2Proof.Machine.execRegRead sid rid a n s
  | .regWrite sid rid a v => Sys2Proof.Machine.execRegWrite sid rid a v s
  | .bootReport sid rid => Sys2Proof.Machine.execBootReport sid rid s
  | .quote sid rid nonce => Sys2Proof.Machine.execQuote sid rid nonce s
  | .logRead sid rid log ofs => Sys2Proof.Machine.execLogRead sid rid log ofs s
  | .deviceCert sid rid => Sys2Proof.Machine.execDeviceCert sid rid s
  | .sincOutput k bs => Sys2Proof.Machine.execSincOutput k bs s
  | .fixedRateOutput k => Sys2Proof.Machine.execFixedRateOutput k s
  | .tickLockedOutput k => Sys2Proof.Machine.execTickLockedOutput k s
  | .stuck k => Sys2Proof.Machine.execStuck k s
  | .channelSync k t => Sys2Proof.Machine.execChannelSync k t s
  | .detectorWindowEnd k => Sys2Proof.Machine.execDetectorWindowEnd k s
  | .bank => Sys2Proof.Machine.execBank s
  | .fadeEnd k => Sys2Proof.Machine.execFadeEnd k s
  | .fastPathOutput ph bit => Sys2Proof.Machine.execFastPathOutput ph bit s
  | .offsetAdapt ph => Sys2Proof.Machine.execOffsetAdapt ph s
  | .profileUpdate => Sys2Proof.Machine.execProfileUpdate s
  | .limitInputChange ix level => Sys2Proof.Machine.execLimitInputChange ix level s
  | .limitChatter => Sys2Proof.Machine.execLimitChatter s
  | .standstillOption => Sys2Proof.Machine.execStandstillOption s
  | .moveStartDelay => Sys2Proof.Machine.execMoveStartDelay s
  | .motEnable m v => Sys2Proof.Machine.execMotEnable m v s
  | .motDisable m v => Sys2Proof.Machine.execMotDisable m v s
  | .moveAbs => Sys2Proof.Machine.execMoveAbs s
  | .moveUm => Sys2Proof.Machine.execMoveUm s
  | .moveRel => Sys2Proof.Machine.execMoveRel s
  | .stop => Sys2Proof.Machine.execStop s
  | .estop => Sys2Proof.Machine.execEstop s
  | .home => Sys2Proof.Machine.execHome s
  | .setpos => Sys2Proof.Machine.execSetpos s
  | .motClear => Sys2Proof.Machine.execMotClear s
  | .evPinInput n level => Sys2Proof.Machine.execEvPinInput n level s
  | .captureRead m k => Sys2Proof.Machine.execCaptureRead m k s
  | .stretchEnd n => Sys2Proof.Machine.execStretchEnd n s
  | .relayOutput n => Sys2Proof.Machine.execRelayOutput n s
  | .relayReset m n dly v => Sys2Proof.Machine.execRelayReset m n dly v s
  | .linkEnableWrite m c hi v => Sys2Proof.Machine.execLinkEnableWrite m c hi v s
  | .softwareTrigger m v => Sys2Proof.Machine.execSoftwareTrigger m v s
  | .ownerWrite m ch v => Sys2Proof.Machine.execOwnerWrite m ch v s
  | .evtLock m v => Sys2Proof.Machine.execEvtLock m v s
  | .flaconSincosSample sn cs => Sys2Proof.Machine.execFlaconSincosSample sn cs s
  | .periodicCommit => Sys2Proof.Machine.execPeriodicCommit s
  | .pfail => Sys2Proof.Machine.execPfail s
  | .pfailRecommit => Sys2Proof.Machine.execPfailRecommit s
  | .commitDone => Sys2Proof.Machine.execCommitDone s
  | .sealChange low => Sys2Proof.Machine.execSealChange low s
  | .totals => Sys2Proof.Machine.execTotals s
  | .ticket => Sys2Proof.Machine.execTicket s
  | .lotStart => Sys2Proof.Machine.execLotStart s
  | .lotEnd => Sys2Proof.Machine.execLotEnd s
  | .param => Sys2Proof.Machine.execParam s
  | .init => Sys2Proof.Machine.execInit s
  | .restore => Sys2Proof.Machine.execRestore s
  | .install => Sys2Proof.Machine.execInstall s
  | .keyProg m v => Sys2Proof.Machine.execKeyProg m v s
  | .keyRevoke m v => Sys2Proof.Machine.execKeyRevoke m v s
  | .measurementExtend m v => Sys2Proof.Machine.execMeasurementExtend m v s
  | .quoteSign m => Sys2Proof.Machine.execQuoteSign m s
  | .challengeNew m => Sys2Proof.Machine.execChallengeNew m s
  | .lifecycleTransition m v => Sys2Proof.Machine.execLifecycleTransition m v s
  | .debugUnlock m v => Sys2Proof.Machine.execDebugUnlock m v s
  | .debugClose m v => Sys2Proof.Machine.execDebugClose m v s
  | .porstRelease env => Sys2Proof.Machine.execPorstRelease env s
  | .offEntry => Sys2Proof.Machine.execOffEntry s
  | .railFault flacon => Sys2Proof.Machine.execRailFault flacon s
  | .thermalTrip => Sys2Proof.Machine.execThermalTrip s
  | .pwrcmdRun m v => Sys2Proof.Machine.execPwrcmdRun m v s
  | .pwrcmdHold m v => Sys2Proof.Machine.execPwrcmdHold m v s
  | .pwrcmdStandby m v => Sys2Proof.Machine.execPwrcmdStandby m v s
  | .holdEntry => Sys2Proof.Machine.execHoldEntry s
  | .wake env => Sys2Proof.Machine.execWake env s
  | .profileStrobe sel => Sys2Proof.Machine.execProfileStrobe sel s
  | .select => Sys2Proof.Machine.execSelect s
  | .splice => Sys2Proof.Machine.execSplice s
  | .cancel => Sys2Proof.Machine.execCancel s
  | .spliceStaged => Sys2Proof.Machine.execSpliceStaged s
  | .spliceSequencer => Sys2Proof.Machine.execSpliceSequencer s
  | .sgmiiLinkChange p up => Sys2Proof.Machine.execSgmiiLinkChange p up s
  | .enc0ZFallingEdge => Sys2Proof.Machine.execEnc0ZFallingEdge s
  | .wakeNChange low => Sys2Proof.Machine.execWakeNChange low s
  | .pfailNRelease => Sys2Proof.Machine.execPfailNRelease s
  | .measErrNowEnd => Sys2Proof.Machine.execMeasErrNowEnd s
  | .flaconStill => Sys2Proof.Machine.execFlaconStill s

end Sys2Proof.Machine
end

