-- ==== Sys2Proof/Machine/Step.lean ====
section
/-!
DEFINITION. Sys2Proof/Machine/Step.lean: one step of the device: it takes the command at the front of the queue, or, when no
command waits, passes one cycle of the time base.
-/
namespace Sys2Proof.Machine

/-- One step. With no command waiting one 500 MHz cycle of the time base passes (DESIGN CHOICE, log 7), and a quote asked for is signed
(log 61). -/
def step (s : State) : Host.Outcome State Fault Refusal :=
  match s.pending with
  | [] => .next s.idle
  | c :: rest => exec c { s with pending := rest }

/-- The state with the command that a word of the opcode table spells put at the front of the queue. -/
def State.withFetchWord (s : State) (nbits w : Nat) : State :=
  match decodeTableWord nbits w with
  | some c => { s with pending := c :: s.pending }
  | none => s

end Sys2Proof.Machine
end

