-- ==== Sys2Proof/WellFormed.lean ====
section
/-!
DEFINITION. Sys2Proof/WellFormed.lean: which commands can be given at all. Operands held as bit vectors and as numbers below
a bound are in range by their type; what is left is the range of the plain numbers and the lengths of the lists.
-/
namespace Sys2Proof

/-- An access of `n` bytes at bus address `a`: the address field of a message has 64 bits (R313), an access takes at most 8 bytes. -/
def accessOk (a n : Nat) : Bool := decide (a < 2 ^ 64) && decide (n = 1 ∨ n = 2 ∨ n = 4 ∨ n = 8)

/-- The rest of a payload that carries its length and offset first: a payload has at most 1,048,560 bytes (R299). -/
def partOk (b : List Byte) : Bool := decide (b.length ≤ 1048560 - 8)

/-- Request ids are 32 bits wide (R299). -/
def ridOk (rid : Nat) : Bool := decide (rid < 2 ^ 32)

/-- A failing row of Blotter names one of the 48 banks (R252, R258). -/
def rowNamed (f : Nat × Nat) : Bool := decide (f.1 < 48)

/-- What the outside contributes to a boot: two CHIPID straps, three PROFILE_SEL straps, four CXL ports (R409, R415). -/
def BootEnv.wf (e : BootEnv) : Bool :=
  decide (e.chip.length = 2) && decide (e.sel.length = 3) && decide (e.ports.length = 4) && e.fails.all rowNamed

/-- A command is well formed. -/
def Instr.wf : Instr → Bool
  | .registerWrite _ a n _ => accessOk a n
  | .counterClear _ a _ => accessOk a 4
  | .rwcComplementWrite _ a _ => accessOk a 4
  | .rwcValueWrite _ a _ => accessOk a 4
  | .latchingRead _ a n => accessOk a n
  | .tick => true
  | .fixedRatePeriod => true
  | .ovsNowClear => true
  | .drainTick => true
  | .servoUpdate .. => true
  | .timeSetLoad .. => true
  | .primarySwitch .. => true
  | .pps => true
  | .abEdge _ _ _ t => decide (0 ≤ t)
  | .observerUpdate _ t => decide (0 ≤ t)
  | .signalLost .. => true
  | .serialFrameStart _ t => decide (0 ≤ t)
  | .serialFrameEnd _ w => decide (w < 2 ^ 48)
  | .indexPulse .. => true
  | .standstillTimeout .. => true
  | .ptStateSend => true
  | .ptRealign .. => true
  | .laneEnable .. => true
  | .laneDisable .. => true
  | .frameTransmit .. => true
  | .codewordReceive _ w _ => decide (w < 2 ^ 5440)
  | .lockTimeout .. => true
  | .laneRetrain .. => true
  | .correctedSymbolWindow .. => true
  | .retrainSweepEnd _ heights => decide (heights.length ≤ 32)
  | .retryTimeout .. => true
  | .eyeScanStart .. => true
  | .eyeScanDone _ n => decide (n ≤ 2 ^ 28)
  | .fmtAck .. => true
  | .cstat .. => true
  | .cameraRegAccess .. => true
  | .regD .. => true
  | .cameraRegTimeout .. => true
  | .camPortEnable .. => true
  | .camPortDisable .. => true
  | .singleLaneSpeedRecovery .. => true
  | .fmtTimeout .. => true
  | .fmtRepeat .. => true
  | .packetReceive .. => true
  | .credit .. => true
  | .cameraLineArrival .. => true
  | .tableCommit .. => true
  | .tableCheckDone .. => true
  | .statsBlockEnd .. => true
  | .accumulationStart .. => true
  | .accumulationDone .. => true
  | .engineRunStart .. => true
  | .bundleIssue .. => true
  | .runOverrun .. => true
  | .queueEntryDrain .. => true
  | .engineGo .. => true
  | .engineGoClear .. => true
  | .engineRestart .. => true
  | .programLoad .. => true
  | .loadDone .. => true
  | .cAdd .. => true
  | .cSub .. => true
  | .cMul .. => true
  | .cAnd .. => true
  | .cOr .. => true
  | .cXor .. => true
  | .cShl .. => true
  | .cShr .. => true
  | .cSar .. => true
  | .cMin .. => true
  | .cMax .. => true
  | .slt .. => true
  | .addi .. => true
  | .li .. => true
  | .lih .. => true
  | .shli .. => true
  | .shri .. => true
  | .sari .. => true
  | .ctx .. => true
  | .pset .. => true
  | .pget .. => true
  | .br .. => true
  | .brz .. => true
  | .brnz .. => true
  | .brlt .. => true
  | .loopv .. => true
  | .tickwait .. => true
  | .mbox .. => true
  | .ld .. => true
  | .ldx .. => true
  | .ldp .. => true
  | .ldw .. => true
  | .ldt .. => true
  | .ldg .. => true
  | .ldh .. => true
  | .stw .. => true
  | .uAdd .. => true
  | .uSub .. => true
  | .addiu .. => true
  | .addis .. => true
  | .mulh .. => true
  | .abs .. => true
  | .absd .. => true
  | .uMin .. => true
  | .uMax .. => true
  | .min3 .. => true
  | .max3 .. => true
  | .med3 .. => true
  | .clamp .. => true
  | .sel .. => true
  | .movi .. => true
  | .uAnd .. => true
  | .uOr .. => true
  | .uXor .. => true
  | .andn .. => true
  | .uShl .. => true
  | .uShr .. => true
  | .cvt .. => true
  | .vspl .. => true
  | .laneix .. => true
  | .cmpeq .. => true
  | .cmplt .. => true
  | .cmple .. => true
  | .cmpltiu .. => true
  | .cmpltis .. => true
  | .cmpgtiu .. => true
  | .cmpgtis .. => true
  | .pand .. => true
  | .por .. => true
  | .pxor .. => true
  | .pandn .. => true
  | .pnot .. => true
  | .chsh .. => true
  | .lfun .. => true
  | .mac .. => true
  | .maci .. => true
  | .mula .. => true
  | .accrd .. => true
  | .accclr .. => true
  | .rsmph .. => true
  | .rsmpv .. => true
  | .lut4x .. => true
  | .lut4w .. => true
  | .sign .. => true
  | .shcmp .. => true
  | .stc .. => true
  | .emit .. => true
  | .proj .. => true
  | .sreg .. => true
  | .accordEnable .. => true
  | .mapCheckStart .. => true
  | .mapCheckDone => true
  | .pageDescriptor => true
  | .tilePacket => true
  | .tileDecompressed .. => true
  | .pageStart => true
  | .markMiss => true
  | .pressPageEvent => true
  | .firstLineArm .. => true
  | .descriptorDrop .. => true
  | .trackerReset .. => true
  | .trackerWrite .. => true
  | .refEnable .. => true
  | .rowPrefetch .. => true
  | .registrationUpdate .. => true
  | .refMissing => true
  | .sillageLine => true
  | .eolMiss => true
  | .sillageEnable .. => true
  | .flush .. => true
  | .swap .. => true
  | .recordBuild => true
  | .holdBuildStep => true
  | .recordQueue => true
  | .blindExtentCap => true
  | .qrdWrite .. => true
  | .cropCopyStart => true
  | .cropCopyEnd => true
  | .markerFiring .. => true
  | .markerPulseEnd .. => true
  | .markerClear .. => true
  | .markerEnable .. => true
  | .loupeCommand => true
  | .spanEnable .. => true
  | .helloSend .. => true
  | .hello .. => true
  | .spanLinkTimeout .. => true
  | .echoReqSend .. => true
  | .echoReq .. => true
  | .echoRsp .. => true
  | .tickPacket .. => true
  | .spanTickDue => true
  | .tickGap => true
  | .tsyncMeasure .. => true
  | .haloLine _ _ hdr _ => decide (hdr.length = 32)
  | .seamPacket _ _ runs _ _ => runs.all fun r => decide (r.1 ≤ r.2.1)
  | .seamTimeout .. => true
  | .forwardedRecord _ b => decide (b.length = 64)
  | .blotterStart .. => true
  | .blotterDone fails => fails.all rowNamed
  | .cxlPortEnable .. => true
  | .cxlLinkUp .. => true
  | .cxlCfgAccess .. => true
  | .cxlCfgDone .. => true
  | .inbound .. => true
  | .decoderEnable .. => true
  | .cxlResponse .. => true
  | .cxlRequestTimeout .. => true
  | .cxlLinkLoss .. => true
  | .unfreeze .. => true
  | .logInfoRead .. => true
  | .poisonEntryClear .. => true
  | .l1Entry .. => true
  | .pmeToAck .. => true
  | .srTo .. => true
  | .dmaStart .. => true
  | .dmaPause .. => true
  | .dmaResume .. => true
  | .dmaClear .. => true
  | .descriptorFetch .. => true
  | .descriptorComplete .. => true
  | .channelHalt _ ofs => decide (ofs < 2 ^ 32)
  | .pauseDrained _ n => decide (n < 2 ^ 32)
  | .cmpEngineFree .. => true
  | .mailboxGo .. => true
  | .mailboxReply .. => true
  | .mailboxTimeout .. => true
  | .sync => true
  | .flushBlind => true
  | .ethFrameReceive _ back frame _ => (back.all fun q => decide (q < 4)) && decide (frame.length ≤ 1522)
  | .ethFrameSent .. => true
  | .tlsConnect .. => true
  | .stopReports _ rid => ridOk rid
  | .stopExport _ rid => ridOk rid
  | .hold _ rid => ridOk rid
  | .resumeReports _ rid => ridOk rid
  | .resumeExport _ rid => ridOk rid
  | .run _ rid => ridOk rid
  | .status _ rid => ridOk rid
  | .echo _ rid b => ridOk rid && decide (b.length ≤ 1048560)
  | .hwactStopReports .. => true
  | .hwactStopExport .. => true
  | .holdReq .. => true
  | .jobStart _ rid _ name _ => ridOk rid && decide (name.length = 32)
  | .jobEnd _ rid => ridOk rid
  | .calRun _ rid => ridOk rid
  | .calEnd _ rid => ridOk rid
  | .standby _ rid => ridOk rid
  | .feedStatus _ rid => ridOk rid
  | .profileList _ rid => ridOk rid
  | .profileUpload _ rid _ _ part => ridOk rid && partOk part
  | .profileSelect _ rid _ => ridOk rid
  | .profileSplice _ rid _ _ => ridOk rid
  | .profileCancel _ rid => ridOk rid
  | .subscribe _ rid _ _ _ _ _ _ => ridOk rid
  | .unsubscribe _ rid => ridOk rid
  | .records .. => true
  | .cropGet _ rid _ => ridOk rid
  | .rollmapGet _ rid _ _ _ => ridOk rid
  | .zspTotals _ rid => ridOk rid
  | .zspTicket _ rid => ridOk rid
  | .zspLotStart _ rid => ridOk rid
  | .zspLotEnd _ rid => ridOk rid
  | .ticketKey _ rid => ridOk rid
  | .zspParam _ rid _ _ => ridOk rid
  | .zspInit _ rid => ridOk rid
  | .zspRestore _ rid => ridOk rid
  | .zspInstall _ rid _ _ part => ridOk rid && partOk part
  | .regRead _ rid _ _ => ridOk rid
  | .regWrite _ rid _ _ => ridOk rid
  | .bootReport _ rid => ridOk rid
  | .quote _ rid nonce => ridOk rid && decide (nonce.length = 32)
  | .logRead _ rid _ _ => ridOk rid
  | .deviceCert _ rid => ridOk rid
  | .sincOutput .. => true
  | .fixedRateOutput .. => true
  | .tickLockedOutput .. => true
  | .stuck .. => true
  | .channelSync _ t => decide (0 ≤ t)
  | .detectorWindowEnd .. => true
  | .bank => true
  | .fadeEnd .. => true
  | .fastPathOutput .. => true
  | .offsetAdapt .. => true
  | .profileUpdate => true
  | .limitInputChange .. => true
  | .limitChatter => true
  | .standstillOption => true
  | .moveStartDelay => true
  | .motEnable .. => true
  | .motDisable .. => true
  | .moveAbs => true
  | .moveUm => true
  | .moveRel => true
  | .stop => true
  | .estop => true
  | .home => true
  | .setpos => true
  | .motClear => true
  | .evPinInput .. => true
  | .captureRead .. => true
  | .stretchEnd .. => true
  | .relayOutput .. => true
  | .relayReset .. => true
  | .linkEnableWrite .. => true
  | .softwareTrigger .. => true
  | .ownerWrite .. => true
  | .evtLock .. => true
  | .flaconSincosSample .. => true
  | .periodicCommit => true
  | .pfail => true
  | .pfailRecommit => true
  | .commitDone => true
  | .sealChange .. => true
  | .totals => true
  | .ticket => true
  | .lotStart => true
  | .lotEnd => true
  | .param => true
  | .init => true
  | .restore => true
  | .install => true
  | .keyProg .. => true
  | .keyRevoke .. => true
  | .measurementExtend .. => true
  | .quoteSign .. => true
  | .challengeNew .. => true
  | .lifecycleTransition .. => true
  | .debugUnlock .. => true
  | .debugClose .. => true
  | .porstRelease env => env.wf
  | .offEntry => true
  | .railFault .. => true
  | .thermalTrip => true
  | .pwrcmdRun .. => true
  | .pwrcmdHold .. => true
  | .pwrcmdStandby .. => true
  | .holdEntry => true
  | .wake env => env.wf
  | .profileStrobe .. => true
  | .select => true
  | .splice => true
  | .cancel => true
  | .spliceStaged => true
  | .spliceSequencer => true
  | .sgmiiLinkChange .. => true
  | .enc0ZFallingEdge => true
  | .wakeNChange .. => true
  | .pfailNRelease => true
  | .measErrNowEnd => true
  | .flaconStill => true

end Sys2Proof
end

