-- ==== Sys2Proof/Safety.lean ====
section
/-!
DEFINITION. Sys2Proof/Safety.lean: the terms in which statements about the device are made: what a good state is, when a
master's register write reaches its block, and what two states share.
-/
namespace Sys2Proof.Machine

/-- Every byte memory of the device keeps its canonical form: SRAM and CXL memory, the Flacon's FRAM, the boot flash. -/
def State.memOk (s : State) : Prop :=
  Memory.wf s.mem = true ∧ Memory.wf s.fl.fram = true ∧ Memory.wf s.boot.flash = true

/-- Every waiting command is well formed. -/
def State.queueOk (s : State) : Prop := ∀ c ∈ s.pending, c.wf = true

/-- Every pair of the access table of target `t` passes its check (R9, R386). -/
def State.tableOk (s : State) (t : Nat) : Prop := ∀ j < 128, s.pairOk .SEC_AT (t * 128 + j) = true

/-- An aligned word access of kind `k` by master `m` at register address `a` reaches the block: the main domain is powered,
the master is heard, the target's table passes its checks and the access is permitted (R10, R354, R382–R385, R392, R409). -/
def State.mayReach (s : State) (m a : Nat) (k : Kind) : Prop :=
  s.live = true ∧ s.hears m = true ∧ s.tableOk (regTarget a) ∧
  s.permitted m (regTarget a) (a % 2 ^ 20 / 4096) ((a % 2 ^ 20 + 4 - 1) / 4096) k = true ∧
  flLinksOnly m (regTarget a) (a % 2 ^ 20) = true

/-- A write by master `m` of register `r`, element `i`, reaches the block. -/
def State.mayWrite (s : State) (m : Nat) (r : Reg) (i : Nat) : Prop := s.mayReach m (regAddr r i) .w

/-- A write by master `m` of register `r`, element `i`, reaches the block in whatever power state its block answers in: in Standby the
always-on ones do (R392, R398). -/
def State.mayWriteOn (s : State) (m : Nat) (r : Reg) (i : Nat) : Prop :=
  s.answers (regTarget (regAddr r i)) = true ∧ s.hears m = true ∧ s.tableOk (regTarget (regAddr r i)) ∧
  s.permitted m (regTarget (regAddr r i)) (regAddr r i % 2 ^ 20 / 4096) ((regAddr r i % 2 ^ 20 + 4 - 1) / 4096) .w = true ∧
  flLinksOnly m (regTarget (regAddr r i)) (regAddr r i % 2 ^ 20) = true

/-- A read by master `m` of register `r`, element `i`, reaches the block. -/
def State.mayRead (s : State) (m : Nat) (r : Reg) (i : Nat) : Prop := s.mayReach m (regAddr r i) .r

/-- Every stored register but the listed ones holds in `t` what it holds in `s`. -/
def State.keeps (s t : State) (but : List RegKey) : Prop := ∀ r i, (r, i) ∉ but → t.reg r i = s.reg r i

/-- Registers an occurrence at the event router may change: the router's own records, and SYS_PSTAT where a Hold request ends
a pending splice (R408). -/
def routerRegs : List Reg :=
  [.EVT_STAT, .EVT_CAPO_CNT, .EVT_RLYO_CNT, .EVT_CAP, .EVT_ISTAT, .EVT_IRQ_CNT, .EVT_COIN_LO, .EVT_COIN_HI, .EVT_COIN_CNT,
    .SYS_PSTAT]

/-- `t` is `s` but for what occurrences of event channels do at the consumer inputs they are linked to (R345): the router's
records, a Hold request with what it latches, a wake, a press-page line, a stop of the carriage, and interrupts raised. -/
def State.routed (s t : State) : Prop :=
  t = { s with
    regs := t.regs, evt := t.evt, engs := t.engs, eths := t.eths, mot := t.mot
    pwr := { s.pwr with
      drain := t.pwr.drain, drainAt := t.pwr.drainAt, holdLine := t.pwr.holdLine, wake := t.pwr.wake }
    tick := { s.tick with hw := t.tick.hw, holdAdv := t.tick.holdAdv }
    ref := { s.ref with press := t.ref.press }
    boot := { s.boot with splice := t.boot.splice }
    zsp := { s.zsp with irqs := t.zsp.irqs } } ∧
  ∀ r i, r ∉ routerRegs → t.reg r i = s.reg r i

/-- Every stored register but the router's and the listed ones holds in `t` what it holds in `s`. -/
def State.keepsRouted (s t : State) (but : List RegKey) : Prop :=
  ∀ r i, r ∉ routerRegs → (r, i) ∉ but → t.reg r i = s.reg r i

/-- The answer OK stands. -/
def State.answered (s : State) : State := { s with resp := {} }

/-- The channels reached from channel `a` over enabled links and consumer inputs that drive a channel by a fixed path (R350). -/
inductive EvtPath (s : State) (a : Nat) : Nat → Prop
  | here : EvtPath s a a
  | step {b c d : Nat} : EvtPath s a b → c < 45 → s.evtLinked c b = true → evtFixed c = some d → EvtPath s a d

/-! ### Engines -/

/-- Engine e runs program `p` at run `r`, outside a loop, within its worst-case cost and with no write outstanding, in Run
(R107, R120, R126). -/
def State.engReady (s : State) (e : Nat) (r : Run) (p : Prog) : Prop :=
  s.inRun = true ∧ (s.eng e).st = .running ∧ (s.eng e).run = some r ∧ (s.eng e).prog = some p ∧ r.cycles < p.cost ∧
  (s.eng e).pend = [] ∧ r.loop = none

/-- Engine e runs program `p` at run `r`, in the loop `l`, within its worst-case cost and with no write outstanding, in Run
(R107, R120, R126, R135). -/
def State.engLoops (s : State) (e : Nat) (r : Run) (p : Prog) (l : LoopSt) : Prop :=
  s.inRun = true ∧ (s.eng e).st = .running ∧ (s.eng e).run = some r ∧ (s.eng e).prog = some p ∧ r.cycles < p.cost ∧
  (s.eng e).pend = [] ∧ r.loop = some l

/-- Address of the bundle at position `idx` of iteration `j` of a loop over `count` vectors of launch `n`: the iterations of the
prologue, of the body and of the epilogue (R135). -/
def Launch.bundleAt (n : Launch) (base count j idx : Nat) : Nat :=
  let ii := max 1 n.ii
  base + n.first + (if j < n.p / ii then j * ii + idx else if j < n.p / ii + count then n.p + idx
    else n.p + ii + (j - n.p / ii - count) * ii + idx)

/-- The run one cycle later in the loop `l`: at the next bundle of the iteration, at the first of the next iteration, or at the
bundle after the LOOPV bundle (R135). -/
def Run.looped (r : Run) (p : Prog) (l : LoopSt) : Run :=
  let n := p.launch l.k
  let ii := max 1 n.ii
  let j := if l.idx + 1 < ii then l.j else l.j + 1
  let idx := if l.idx + 1 < ii then l.idx + 1 else 0
  if j < n.p / ii + l.count + n.e / ii then
    { r with cycles := r.cycles + 1, loop := some { l with j := j, idx := idx }, pc := n.bundleAt p.base l.count j idx }
  else { r with cycles := r.cycles + 1, loop := none, pc := l.ret }

/-- Stripe bank e is under no DESTRUCTIVE test (R258). -/
def State.bankFree (s : State) (e : Nat) : Prop := ∀ b, s.blt = some b → b.preserving = true ∨ b.sb.testBit e = false

/-- What an instruction of engine e reads at issue. -/
def State.iss (s : State) (e : Nat) (r : Run) (p : Prog) : Iss := { s := s, e := e, g := s.eng e, p := p, r := r }

/-- The run one cycle later, at the next bundle. -/
def Run.stepped (r : Run) : Run := { r with cycles := r.cycles + 1, pc := r.pc + 1 }

/-- Engine e one cycle later with a register write carried out. -/
def State.engWrote (s : State) (e : Nat) (r : Run) (w : RegWr) : State :=
  s.updEng e fun g => { g.write w with run := some r.stepped }

/-- Engine e one cycle later with no register changed. -/
def State.engPassed (s : State) (e : Nat) (r : Run) : State := s.updEng e fun g => { g with run := some r.stepped }

/-- Engine e one cycle later with writes of one slot outstanding, `left` cycles before they take effect. -/
def State.engHolds (s : State) (e : Nat) (r : Run) (slot left : Nat) (ws : List RegWr) : State :=
  s.updEng e fun g => { g with
    pend := ws.map fun w => { left := left, slot := slot, wr := w }, run := some r.stepped }

/-- Engine e one cycle later with entries appended to its queue, at most 64, whose peak is kept in SE_QPEAK. -/
def State.engQueued (s : State) (e : Nat) (r : Run) (q : List QEntry) : State :=
  (s.updEng e fun g => { g with queue := g.queue ++ q, run := some r.stepped }).setFld SE_QPEAK_PEAK e
    (max ((s.eng e).queue.length + q.length) (s.fld SE_QPEAK_PEAK e))

/-! ### Sillage -/

/-- Sillage runs without a seam, line n is the next to process, and no weight bank change, seam run or context waits. -/
def State.silReady (s : State) (n : Int) : Prop :=
  s.inRun = true ∧ s.on SIL_CTL_EN = true ∧ s.silNext = some n ∧ s.silSpan = false ∧ s.on SIL_WSWAP_PEND = false ∧
  s.sil.seam = [] ∧ s.sil.seamCtx = []

/-! ### CXL -/

/-- `w` is `s` after the oldest waiting request `r` of port p has failed, before its master handles the ERROR: the flag of this
kind of failure, the port frozen with the log and the history of that request, the bytes a refused write replaced put back, and a
poisoned line in the first entry of an empty list (R264–R267). -/
def State.cxlFailsTo (s w : State) (p kind l : Nat) (r : CxlReq) (rs : List CxlReq) : Prop :=
  w.flag (cxlFlag kind) p = true ∧ (w.cxlp p).frozen = true ∧ (w.cxlp p).logrd = false ∧ (w.cxlp p).outst = rs ∧
  (w.cxlp p).st = (s.cxlp p).st ∧ (w.cxlp p).shown = (w.cxlp p).hist ∧ (∀ y, y ≠ p → w.cxlp y = s.cxlp y) ∧
  w.wide .CXL_P_LOG_LO .CXL_P_LOG_HI p = r.addr % 2 ^ 40 ∧
  w.reg .CXL_P_LOG_INFO p = BitVec.ofNat 32 (kind + 16 * r.write.toNat + 256 * (r.master % 64)) ∧
  w.mem = r.undo.foldl (fun m u => memPut m u.1 u.2) s.mem ∧
  (kind = 1 → (∀ i < 8, s.poisonEntry p i = none) → l < r.lines → (r.addr / 64 + l) * 64 < 2 ^ 40 →
    w.poisonEntry p 0 = some ((r.addr / 64 + l) * 64) ∧ ∀ i, 0 < i → i < 8 → w.poisonEntry p i = none) ∧
  w = { s with regs := w.regs, cxl := w.cxl, mem := w.mem } ∧
  ∀ q i, (q, i) ∉ [(.CXL_P_STAT, p), (.CXL_P_LOG_LO, p), (.CXL_P_LOG_HI, p), (.CXL_P_LOG_INFO, p)] →
    q ≠ (cxlFlag kind).cnt → q ≠ .CXL_P_PLF_CNT → (kind = 1 → q ≠ .CXL_P_PL_LO ∧ q ≠ .CXL_P_PL_HI) → w.reg q i = s.reg q i

/-- No request waits for a CXL device. -/
def State.noCxlWait (s : State) : Prop := ∀ p < 4, (s.cxlp p).outst = []

/-! ### DMA -/

/-- Channel k has taken up descriptor `d`, whose spans share no byte, and has moved nothing of it yet; none of its accesses waits for a
CXL device, and it does not serve RPT (R273, R279, R281). -/
def State.dmaFresh (s : State) (k : Nat) (d : Desc) : Prop :=
  (s.dma k).desc = some d ∧ (s.dma k).st = .running ∧ (s.dma k).waiting = false ∧ (s.dma k).stage = 0 ∧ (s.dma k).direct = false ∧
  (s.dma k).done = 0 ∧ (s.dma k).out = 0 ∧ (s.dma k).buf = [] ∧ (s.dma k).held = [] ∧ (s.dma k).bad = none ∧
  d.overlaps = false ∧ s.noCxlWait

/-! ### The Flacon -/

/-- The Flacon after a measurement fault, which counts while it is counting (R358). -/
def Flacon.faulted (f : Flacon) : Flacon :=
  if f.st = .counting then { f with
    faults := f.faults + 1, measErr := true, faultSince := true, lot := f.lot.map fun l => { l with fault := true } }
  else f

/-- The Flacon after its position has moved by `d` counts (R359, R361). -/
def Flacon.movedBy (f : Flacon) (d : Int) : Flacon :=
  ({ f with
    p := f.p + d, h := max f.h (f.p + d), still := false
    lot := f.lot.map fun l => if d < 0 then { l with rev := l.rev + d.natAbs } else l } : Flacon).paired

/-! ### The report service -/

/-- The service runs, and session `sid` is open and may use class `cls` (R298, R300, R409). -/
def State.zspMay (s : State) (sid cls : Nat) : Prop :=
  s.serving = true ∧ ∃ c, s.session sid = some c ∧ c.may cls = true

/-- `t` is `s` but for what an answer or an event to clients changes: the sessions and the ports (R296, R299). -/
def State.spoke (s t : State) : Prop := t = { s with eths := t.eths, zsp := { s.zsp with sessions := t.zsp.sessions } }

/-- `t` is `s` after the service has asked mailbox `mb` for opcode `op` with these arguments, and has posted what is next
there; bits 15–8 of the first request word are a tag of the firmware's (R290, R291). -/
def State.asked (s t : State) (mb : Nat) (why : AskFor) (op : Nat) (args : List Nat) : Prop :=
  ∃ (u : State) (tag : Nat), tag < 256 ∧ t = u.askPost mb (s.zsp.asks.length + 2) ∧
    u = { s with
      freeCtr := u.freeCtr
      zsp := { s.zsp with asks := s.zsp.asks ++
        [{ mb := mb, purpose := why, words := BitVec.ofNat 32 (op + 256 * tag) :: args.map (BitVec.ofNat 32) }] } }

end Sys2Proof.Machine
end

