-- ==== Sys2Proof/Certificates/Slice0/Obligations.lean ====
section
/-!
DEFINITION. Sys2Proof/Certificates/Slice0/Obligations.lean: the statements about the device that are to be proved, in the order
of the spec's sections. Each docstring says what is stated and names the rules R<n> of spec/ it rests on.
-/
open Sys2Proof Sys2Proof.Machine

/-- A command at the front of the queue is run on the state with the queue's rest; nothing else is added. -/
def Obligations.FrontCommandRuns : Prop :=
  ∀ (s : State) (c : Instr) (rest : List Instr), s.pending = c :: rest →
    step s = exec c { s with pending := rest }

/-- With no command waiting one 2 ns cycle of the time base passes (the model's choice, log 7): in a powered state in which no quote
is being signed (log 61) each domain whose frequency term is 0 advances exactly 2 ns, seconds and nanoseconds together and modulo
2⁴⁸ s, and keeps its fraction; span time advances 2 ns where the main domain is powered, a pulse that holds an event pin is one
cycle shorter (log 132), and nothing else changes. In Off the step changes nothing.
TIME_SET_LOAD (R45): a value of TIME_x_SET_NS of 10⁹ or more loads nothing; the primary domain in Run takes no time and sets
SET_REFUSED; otherwise the domain takes the seconds of the two other registers and these nanoseconds, STEPPED is set, LOCKED
is cleared and both lock counts restart. The fraction of a nanosecond is a free value (log 1).
SERVO_UPDATE below the step threshold (R43): the domain's integral and frequency terms are those of the rule, clamped to the
slew limit; neither time nor the other domain changes; the count of updates in or out of the lock window moves (R44).
The value out of range is ignored before the primary domain is refused (the model's choice, log 115).
PRIMARY_SWITCH (R46): a write of the domain that is not primary switches when that domain is LOCKED, and TIME_SWSTEP holds
the jump in device time, the difference of the whole nanoseconds of the domains (the model's choice, log 115), clamped to 32 bits; when it is not LOCKED only SW_REFUSED is set; the present primary written again
changes nothing. -/
def Obligations.TimeBaseAndServo : Prop :=
  (
  ∀ s : State, s.pending = [] →
    (s.powered = false → step s = .next s) ∧
    (s.powered = true → s.live = false ∨ s.on SEC_QRES_BUSY = false → ∃ t, step s = .next t ∧
      t = { s with times := t.times, span := { s.span with time := t.span.time }, evt := { s.evt with out := t.evt.out } } ∧
      (∀ n c : Nat, (n, c) ∈ t.evt.out ↔ 0 < c ∧ (n, c + 1) ∈ s.evt.out) ∧
      t.span.time = s.span.time + (if s.live then 2 else 0) ∧
      (∀ x < 2, (s.dom x).freq = 0 → (s.dom x).sub < 2 ^ 32 →
        (t.dom x).ns < 1000000000 ∧
        1000000000 * (t.dom x).sec + (t.dom x).ns
          = (1000000000 * (s.dom x).sec + (s.dom x).ns + 2) % (1000000000 * 2 ^ 48) ∧
        (t.dom x).sub = (s.dom x).sub ∧ (t.dom x).freq = 0 ∧ (t.dom x).integ = (s.dom x).integ ∧
        (t.dom x).inWin = (s.dom x).inWin ∧ (t.dom x).outWin = (s.dom x).outWin))) ∧
  (
  ∀ (s : State) (m : Master) (x : Fin 2) (v : Word), s.mayWrite m .TIME_SET_NS x →
    (1000000000 ≤ bits v.toNat 29 0 → exec (.timeSetLoad m x v) s = .next { s with resp := {} }) ∧
    (bits v.toNat 29 0 < 1000000000 → s.pri = x.val → s.inRun = true →
      ∃ t, exec (.timeSetLoad m x v) s = .next t ∧ t.flag TIME_STAT_X_SET_REFUSED x = true ∧
        t = { s with regs := t.regs, resp := {} } ∧ s.keeps t [(.TIME_STAT_X, x.val), (.TIME_SETREF_CNT, x.val)]) ∧
    (bits v.toNat 29 0 < 1000000000 → ¬(s.pri = x.val ∧ s.inRun = true) →
      ∃ t, exec (.timeSetLoad m x v) s = .next t ∧
        (t.dom x).sec = s.wide .TIME_SET_SEC_LO .TIME_SET_SEC_HI x % 2 ^ 48 ∧ (t.dom x).ns = bits v.toNat 29 0 ∧
        (t.dom x).inWin = 0 ∧ (t.dom x).outWin = 0 ∧ (t.dom x).freq = (s.dom x).freq ∧
        (t.dom x).integ = (s.dom x).integ ∧
        t.fld TIME_STAT_X_LOCKED x = 0 ∧ t.flag TIME_STAT_X_STEPPED x = true ∧
        t.reg .TIME_STEP_CNT x = BitVec.ofNat 32 (min 0xFFFF ((s.reg .TIME_STEP_CNT x).toNat + 1)) ∧
        (∀ y, y ≠ x.val → t.dom y = s.dom y) ∧
        t = { s with regs := t.regs, resp := {}, times := t.times, freeCtr := t.freeCtr } ∧
        s.keeps t [(.TIME_SET_NS, x.val), (.TIME_STAT_X, x.val), (.TIME_STEP_CNT, x.val)])) ∧
  (
  ∀ (s : State) (m : Master) (x : Fin 2) (v : Word), s.mayWrite m .TIME_OFS x →
    (v.toInt).natAbs < s.fld TIME_STEPTHR_THR x →
    ∃ t, exec (.servoUpdate m x v) s = .next t ∧ t.reg .TIME_OFS x = v ∧
      (t.dom x).integ = clampInt (-s.timeLim x) (s.timeLim x) ((s.dom x).integ - (s.fld TIME_GAIN_KI x : Int) * v.toInt) ∧
      (t.dom x).freq = clampInt (-s.timeLim x) (s.timeLim x)
        (-(256 * (s.fld TIME_GAIN_KP x : Int) * v.toInt) + (t.dom x).integ) ∧
      (t.dom x).inWin = (if (v.toInt).natAbs ≤ s.fld TIME_LIM_LOCK_WIN x then (s.dom x).inWin + 1 else 0) ∧
      (t.dom x).outWin = (if (v.toInt).natAbs ≤ s.fld TIME_LIM_LOCK_WIN x then 0 else (s.dom x).outWin + 1) ∧
      (t.dom x).sec = (s.dom x).sec ∧ (t.dom x).ns = (s.dom x).ns ∧ (t.dom x).sub = (s.dom x).sub ∧
      (∀ y, y ≠ x.val → t.dom y = s.dom y) ∧
      t = { s with regs := t.regs, resp := {}, times := t.times } ∧
      s.keeps t [(.TIME_OFS, x.val), (.TIME_STAT_X, x.val)]) ∧
  (
  ∀ (s : State) (m : Master) (v : Word), s.mayWrite m .TIME_CTL 0 →
    (bits v.toNat 0 0 = s.pri → exec (.primarySwitch m v) s = .next { s with resp := {} }) ∧
    (bits v.toNat 0 0 ≠ s.pri → s.fld TIME_STAT_X_LOCKED (bits v.toNat 0 0) = 1 →
      ∃ t, exec (.primarySwitch m v) s = .next t ∧ t.pri = bits v.toNat 0 0 ∧
        t.sfld TIME_SWSTEP_STEP = max (-(2 ^ 31)) (min (2 ^ 31 - 1)
          (((s.dom (bits v.toNat 0 0)).total : Int) - (s.dom s.pri).total)) ∧
        t = { s with regs := t.regs, resp := {} } ∧ s.keeps t [(.TIME_CTL, 0), (.TIME_SWSTEP, 0)]) ∧
    (bits v.toNat 0 0 ≠ s.pri → s.fld TIME_STAT_X_LOCKED (bits v.toNat 0 0) ≠ 1 →
      ∃ t, exec (.primarySwitch m v) s = .next t ∧ t.flag TIME_STAT_SW_REFUSED = true ∧ t.pri = s.pri ∧
        t = { s with regs := t.regs, resp := {} } ∧ s.keeps t [(.TIME_STAT, 0), (.TIME_SWREF_CNT, 0)]))

/-- REGISTER_WRITE of a register that is one 32-bit RW field (R5), by a master whose access is permitted: the register holds
the value, the answer is OK, and nothing else of the device changes. The three registers left out are those whose write the
spec gives a further effect (R43, R333).
COUNTER_CLEAR (R5, R7): a permitted write of any value to a 16-bit counter register makes the count 0 and leaves everything
else as it was.
The two writes of a complement-protected pair (R8; whole words are compared, the model's choice, log 42), on the distances of the markers: the complement write holds its value
and changes no register; the value write that follows with its complement held stores value and complement, and the pair
passes its check; a value write without its complement held changes neither register, answers INTEGRITY and sets the marker's
INTEGRITY flag.
LATCHING_READ of TIME_x_NS (R373): the answer is OK with the nanoseconds of the domain, and the seconds of the same instant
are latched into the two other registers; nothing else changes. -/
def Obligations.RegisterAccesses : Prop :=
  (
  ∀ (s : State) (m : Master) (a : Nat) (r : Reg) (i : Nat) (v : Word) (b : Bool),
    a % 4 = 0 → locate a = some (r, i) → (regRow r).fields = [⟨31, 0, .rw, .none, .any⟩] →
    r ∉ [Reg.TIME_OFS, .MOT_D1, .MOT_D2] → s.mayReach m a .w →
    ∃ t, exec (.registerWrite m a 4 ⟨v, b⟩) s = .next t ∧ t.reg r i = v ∧
      t = { s with regs := t.regs, resp := {} } ∧ s.keeps t [(r, i)]) ∧
  (
  ∀ (s : State) (m : Master) (a : Nat) (r : Reg) (i : Nat) (v : Word),
    a % 4 = 0 → locate a = some (r, i) → (regRow r).fields = [⟨15, 0, .clr, .none, .any⟩] → s.mayReach m a .w →
    ∃ t, exec (.counterClear m a v) s = .next t ∧ bits (t.reg r i).toNat 15 0 = 0 ∧
      bits (t.reg r i).toNat 31 16 = bits (s.reg r i).toNat 31 16 ∧
      t = { s with regs := t.regs, resp := {} } ∧ s.keeps t [(r, i)]) ∧
  (
  ∀ (s : State) (m : Master) (k : Fin 4) (v c : Word), s.mayWrite m .RPT_MK_DIST k → s.mayWrite m .RPT_MK_DISTC k →
    (∃ t, exec (.rwcComplementWrite m (regAddr .RPT_MK_DISTC k) c) s = .next t ∧
      t = { s with sec := { s.sec with held := t.sec.held }, resp := {} } ∧
      look 0 t.sec.held (.RPT_MK_DIST, k.val) = c) ∧
    (s.sec.held.find? (fun e => decide (e.1 = (Reg.RPT_MK_DIST, k.val))) = some ((.RPT_MK_DIST, k.val), ~~~ v) →
      ∃ t, exec (.rwcValueWrite m (regAddr .RPT_MK_DIST k) v) s = .next t ∧
        t.reg .RPT_MK_DIST k = v ∧ t.reg .RPT_MK_DISTC k = ~~~ v ∧ t.pairOk .RPT_MK_DIST k = true ∧
        t = { s with regs := t.regs, resp := {}, sec := { s.sec with held := t.sec.held, raised := t.sec.raised } } ∧
        (∀ e ∈ t.sec.held, e.1 ≠ (.RPT_MK_DIST, k.val)) ∧ (.RPT_MK_DIST, k.val) ∉ t.sec.raised ∧
        s.keeps t [(.RPT_MK_DIST, k.val), (.RPT_MK_DISTC, k.val)]) ∧
    (s.sec.held.find? (fun e => decide (e.1 = (Reg.RPT_MK_DIST, k.val))) = none →
      ∃ t, exec (.rwcValueWrite m (regAddr .RPT_MK_DIST k) v) s = .next t ∧
        t.reg .RPT_MK_DIST k = s.reg .RPT_MK_DIST k ∧ t.reg .RPT_MK_DISTC k = s.reg .RPT_MK_DISTC k ∧
        t.resp.code = rINTEGRITY ∧ t.flag RPT_MK_STAT_INTEGRITY k = true ∧
        s.keeps t [(.RPT_MK_STAT, k.val), (.RPT_MK_INT_CNT, k.val)])) ∧
  (
  ∀ (s : State) (m : Master) (x : Fin 2), s.mayRead m .TIME_NS x → (s.dom x).ns < 2 ^ 32 →
    ∃ t, exec (.latchingRead m (regAddr .TIME_NS x) 4) s = .next t ∧
      t.resp = { code := rOK, data := (s.dom x).ns } ∧
      t.wide .TIME_SEC_LO .TIME_SEC_HI x = (s.dom x).sec % 2 ^ 48 ∧
      t = { s with regs := t.regs, resp := t.resp } ∧ s.keeps t [(.TIME_SEC_LO, x.val), (.TIME_SEC_HI, x.val)])

/-- An access that no entry of the target's table and no rule above it permits, of a register or of a byte range of a row store, the
shared pool or the CXL window within one page, has no effect but its log (R10, R385): the answer is DENIED, a read reads 0, the denial
log of the target holds offset, master and kind, its count rises by one, and SEC's DENIED flag is set. -/
def Obligations.DeniedAccessOnlyLogged : Prop :=
  ∀ (s : State) (m : Master) (a n t ofs : Nat) (v : Word) (b : Bool) (c : Instr) (k : Kind), s.live = true →
    s.hears m = true → s.tableOk t →
    ((regSpace a = true ∧ a % 4 = 0 ∧ n = 4 ∧ t = regTarget a ∧ ofs = a % 2 ^ 20) ∨
      (regSpace a = false ∧ 1 ≤ n ∧ n ≤ 4 ∧ a % 4096 + n ≤ 4096 ∧ s.region a n = .sram t ofs) ∨
      (regSpace a = false ∧ 1 ≤ n ∧ n ≤ 4 ∧ a % 4096 + n ≤ 4096 ∧ s.region a n = .cxl (t - 17) ∧ 17 ≤ t ∧
        ofs = a - s.decBase (t - 17))) →
    (c = .registerWrite m a n ⟨v, b⟩ ∧ k = .w) ∨ (c = .latchingRead m a n ∧ k = .r) →
    s.permitted m t (ofs / 4096) ((ofs + n - 1) / 4096) k = false →
    ∃ u : State, exec c s = .next u ∧ u.resp = { code := rDENIED, data := 0 } ∧
      u = { s with regs := u.regs, resp := u.resp } ∧
      u.reg .SEC_DLOG_A t = BitVec.ofNat 32 ofs ∧
      u.reg .SEC_DLOG_B t = BitVec.ofNat 32 (m.val % 64 + (if k = .w then 256 else 0)) ∧
      u.reg .SEC_DLOG_CNT t = BitVec.ofNat 32 (min 0xFFFFFFFF ((s.reg .SEC_DLOG_CNT t).toNat + 1)) ∧
      u.flag SEC_STAT_DENIED = true ∧
      s.keeps u [(.SEC_DLOG_A, t), (.SEC_DLOG_B, t), (.SEC_DLOG_CNT, t), (.SEC_STAT, 0), (.SEC_DEN_CNT, 0)]

/-- AB_EDGE (R48, R56), ×4 decoding, main domain powered: a change of one pin counts one step in the direction the levels and INV
give (that a leading A counts forward is the model's, log 8, PRESUMED); an edge from standstill puts the observer at the count, and a second edge in the same direction gives the speed, one
count over the time between the edges, 200,000,000 cycles a second. The other channel is untouched; on ENC1 nothing else
changes but the ENC1 status and what the event router does with ENC1_MOVE.
Both pins of an A/B channel changing together, and SIGNAL_LOST of a sin/cos or serial channel: the rule's flag is set and its
counter counts, the count is kept, the observer coasts after SIGNAL_LOST, ENC_FAULT interrupts; before the limit is reached
SIGNAL_LOST changes nothing (R48, R50, R51, R57).
INDEX_PULSE on ENC1 in A/B mode (R52, R53): the first index is recorded; an index in the same direction whose distance differs
from a non-zero IDXPER stores the difference and sets INDEX_ERR, and outside Hold nothing is corrected. The counts moved are a
magnitude in the direction of travel (the model's choice, log 116). -/
def Obligations.IncrementalEncoders : Prop :=
  (
  ∀ (s : State) (e : Fin 2) (a b : Bool) (t : Int) (fwd : Bool), s.live = true → s.fld ENC_CTL_MODE e = 1 →
    s.fld ENC_CTL_DECODE e = 2 → (a != (s.enc e).a) ≠ (b != (s.enc e).b) →
    fwd = ((if a != (s.enc e).a then a != b else a == b) != s.on ENC_CTL_INV e) →
    ∃ u : State, exec (.abEdge e a b t) s = .next u ∧
      (u.enc e).count = (s.enc e).count + (if fwd then 1 else -1) ∧ (u.enc e).a = a ∧ (u.enc e).b = b ∧
      (u.enc e).edgeAt = t ∧ (u.enc e).back = !fwd ∧
      ((s.enc e).phase = .still → (u.enc e).phase = .first (!fwd) ∧ (u.enc e).p = ((u.enc e).count : Rat) ∧
        (u.enc e).v = 0) ∧
      ((s.enc e).phase = .first (!fwd) → (u.enc e).phase = .seeded ∧
        (u.enc e).v = (if fwd then 1 else -1) * 200000000 / ((max 1 (t - (s.enc e).edgeAt) : Int) : Rat)) ∧
      (∀ x, x ≠ e.val → u.enc x = s.enc x) ∧
      (e = 1 → ({ s with regs := u.regs, encs := u.encs, evt := u.evt } : State).routed u ∧
        s.keepsRouted u [(.ENC_STAT, e.val)])) ∧
  (
  ∀ (s : State) (e : Fin 2), s.live = true →
    (∀ (a b : Bool) (t : Int), e = 1 → s.fld ENC_CTL_MODE e = 1 → a ≠ (s.enc e).a → b ≠ (s.enc e).b →
      ∃ u : State, exec (.abEdge e a b t) s = .next u ∧ u.enc e = { s.enc e with a := a, b := b } ∧
        u.flag ENC_STAT_PHASE_JUMP e = true ∧ u.zsp.irqs.contains "ENC_FAULT" = true ∧
        ({ s with regs := u.regs, encs := u.encs } : State).routed u ∧
        s.keepsRouted u [(.ENC_STAT, e.val), (.ENC_PJ_CNT, e.val)]) ∧
    (2 ≤ s.fld ENC_CTL_MODE e → (s.enc e).coast = false →
      (if s.fld ENC_CTL_MODE e = 2 then 64 else max 1 (s.fld ENC_SER_FAILLIM e)) ≤ (s.enc e).bad →
      ∃ u : State, exec (.signalLost e) s = .next u ∧ u.enc e = { s.enc e with coast := true, acc := 0 } ∧
        u.flag ENC_STAT_SIGNAL_LOST e = true ∧ u.zsp.irqs.contains "ENC_FAULT" = true ∧
        (∀ x, x ≠ e.val → u.enc x = s.enc x) ∧ ({ s with regs := u.regs, encs := u.encs } : State).routed u ∧
        s.keepsRouted u [(.ENC_STAT, e.val), (.ENC_LOST_CNT, e.val)]) ∧
    ((s.enc e).bad < (if s.fld ENC_CTL_MODE e = 2 then 64 else max 1 (s.fld ENC_SER_FAILLIM e)) →
      exec (.signalLost e) s = .next s)) ∧
  (
  ∀ (s : State) (t : Int), s.live = true → s.fld ENC_CTL_MODE 1 = 1 → s.on ENC_CTL_IDX_EN 1 = true →
    ((s.enc 1).idx = none → ∃ u : State, exec (.indexPulse ⟨1, t⟩) s = .next u ∧
      u.enc 1 = { s.enc 1 with z := true, idx := some ((s.enc 1).count, (s.enc 1).back) } ∧
      u = { s with encs := u.encs } ∧ ∀ x, x ≠ 1 → u.enc x = s.enc x) ∧
    (∀ old d : Int, (s.enc 1).idx = some (old, (s.enc 1).back) → s.fld ENC_IDXPER_IDXPER 1 ≠ 0 → s.inHold = false →
      d = (if (s.enc 1).back then old - (s.enc 1).count else (s.enc 1).count - old) - s.fld ENC_IDXPER_IDXPER 1 →
      d ≠ 0 →
      ∃ u : State, exec (.indexPulse ⟨1, t⟩) s = .next u ∧
        u.enc 1 = { s.enc 1 with z := true, idx := some ((s.enc 1).count, (s.enc 1).back) } ∧
        u.fld ENC_IDXDIFF_DIFF 1 = ofSigned 32 d ∧ u.flag ENC_STAT_INDEX_ERR 1 = true ∧
        ({ s with regs := u.regs, encs := u.encs } : State).routed u ∧
        s.keepsRouted u [(.ENC_IDXDIFF, 1), (.ENC_STAT, 1), (.ENC_IDX_CNT, 1)]))

/-- OBSERVER_UPDATE of a moving A/B channel with a fresh edge that TICK does not take (R54, R55): speed and acceleration are the
rule's, with x = 2π·BW·T and the error taken at the edge's instant; the position is the rule's where that lies strictly within one
count of the edge count, and is kept within it otherwise (log 9); then the camera ports judge, and nothing else of the observer's device changes.
Serial encoders (R51): a frame that is started latches its instant; an SSI frame without parity or Gray code adds to the
count the signed difference from the last word modulo 2^BITS (log 8 for its frame); a BiSS-C frame whose CRC fails counts nothing and sets CRC_ERR.
STANDSTILL_TIMEOUT, ENC0_Z_FALLING_EDGE, PT_STATE_SEND and PT_REALIGN (R56, R58, R59): the observer stands at the count with
speed 0 and STILL set; the falling edge shows on PT_Z in A/B mode; the oldest queued state leaves the pass-through; a write of
ENC_PT_CTL discards queue and lag and queues the states that take the output count to ⌊count ÷ DIV⌋. -/
def Obligations.ObserverAndSerialEncoders : Prop :=
  (
  ∀ (s : State) (e : Fin 2) (t : Int) (T lag x err pos : Rat), s.live = true → s.fld ENC_CTL_MODE e = 1 →
    s.fld TICK_CTL_SRC ≠ e.val → (s.enc e).phase = .moving → (s.enc e).fresh = true → (s.enc e).coast = false →
    T = ((s.fld ENC_OBS_UPD e * 5 : Nat) : Rat) / 1000000000 →
    lag = ((t - (s.enc e).edgeAt : Int) : Rat) * 5 / 1000000000 →
    x = 2 * piRat * (max 1 (s.fld ENC_OBS_BW e) : Nat) * T →
    err = ((s.enc e).count : Rat)
      - ((s.enc e).p + (s.enc e).v * T + (s.enc e).acc * T * T / 2 - ((s.enc e).v + (s.enc e).acc * T) * lag) →
    pos = (s.enc e).p + (s.enc e).v * T + (s.enc e).acc * T * T / 2 + 3 * x * err →
    ∃ u : State, exec (.observerUpdate e t) s = .next u.camEvalAll ∧
      (u.enc e).v = (s.enc e).v + (s.enc e).acc * T + 3 * x * x * err / T ∧
      (u.enc e).acc = (s.enc e).acc + x * x * x * err / (T * T) ∧
      (((s.enc e).count : Rat) - 1 < pos → pos < ((s.enc e).count : Rat) + 1 → (u.enc e).p = pos) ∧
      ((s.enc e).count : Rat) - 1 < (u.enc e).p ∧ (u.enc e).p < ((s.enc e).count : Rat) + 1 ∧
      (u.enc e).count = (s.enc e).count ∧ (u.enc e).fresh = false ∧ (u.enc e).given = (u.enc e).p.floor ∧
      (∀ y, y ≠ e.val → u.enc y = s.enc y) ∧ u = { s with encs := u.encs }) ∧
  (
  ∀ (s : State) (t : Int) (w : Nat), s.live = true → s.fld ENC_CTL_MODE 1 = 3 →
    ((s.enc 1).frame = none → ∃ u : State, exec (.serialFrameStart 1 t) s = .next u ∧
      u.enc 1 = { s.enc 1 with frame := some t } ∧ u = { s with encs := u.encs } ∧ ∀ x, x ≠ 1 → u.enc x = s.enc x) ∧
    (∀ old : Nat, (s.enc 1).frame = some t → s.fld ENC_CTL_SERIAL 1 = 1 → s.on ENC_SER_PAR 1 = false →
      s.on ENC_SER_GRAY 1 = false → s.on ENC_CTL_INV 1 = false → (s.enc 1).word = some old →
      old < 2 ^ s.fld ENC_SER_BITS 1 → w < 2 ^ s.fld ENC_SER_BITS 1 →
      ∃ u : State, exec (.serialFrameEnd 1 w) s = .next u ∧
        (u.enc 1).count = (s.enc 1).count + toSigned (s.fld ENC_SER_BITS 1) (w + 2 ^ s.fld ENC_SER_BITS 1 - old) ∧
        (u.enc 1).word = some w ∧ (u.enc 1).frame = none ∧ (u.enc 1).bad = 0 ∧ (u.enc 1).fresh = true ∧
        (u.enc 1).edgeAt = t ∧ ({ s with regs := u.regs, encs := u.encs, evt := u.evt } : State).routed u ∧
        s.keepsRouted u [(.ENC_STAT, 1)]) ∧
    ((s.enc 1).frame = some t → s.fld ENC_CTL_SERIAL 1 = 0 →
      crc6 (w / 64) (s.fld ENC_SER_BITS 1 + 2) 0 ≠ 63 - w % 64 →
      ∃ u : State, exec (.serialFrameEnd 1 w) s = .next u ∧ u.enc 1 = { s.enc 1 with frame := none, bad := (s.enc 1).bad + 1 } ∧
        u.flag ENC_STAT_CRC_ERR 1 = true ∧ ({ s with regs := u.regs, encs := u.encs } : State).routed u ∧
        s.keepsRouted u [(.ENC_STAT, 1), (.ENC_CRC_CNT, 1)])) ∧
  (
  ∀ s : State, s.live = true →
    (∀ e : Fin 2, s.fld ENC_CTL_MODE e = 1 → ∃ u : State, exec (.standstillTimeout e) s = .next u ∧
      u.enc e = { s.enc e with phase := .still, p := ((s.enc e).count : Rat), v := 0, acc := 0, fresh := false } ∧
      u.fld ENC_STAT_STILL e = 1 ∧ u = { s with regs := u.regs, encs := u.encs } ∧ s.keeps u [(.ENC_STAT, e.val)] ∧
      ∀ x, x ≠ e.val → u.enc x = s.enc x) ∧
    (∃ u : State, exec .enc0ZFallingEdge s = .next u ∧ (u.enc 0) = { s.enc 0 with z := false } ∧
      u.pt = (if s.fld ENC_CTL_MODE 0 = 1 then { s.pt with z := false } else s.pt) ∧
      u = { s with encs := u.encs, pt := u.pt }) ∧
    (∀ (fwd : Bool) (q : List Bool), s.pt.queue = fwd :: q → s.fld ENC_CTL_MODE 0 = 1 →
      exec .ptStateSend s
        = .next { s with pt := { s.pt with queue := q, out := s.pt.out + (if fwd then 1 else -1) } }) ∧
    (∀ (m : Master) (v : Word), s.mayWrite m .ENC_PT_CTL 0 → ∃ u : State, exec (.ptRealign m v) s = .next u ∧
      (∀ k : Int, k = u.ptInput / u.ptDiv → (k - s.pt.out).natAbs ≤ 65535 →
        u.pt.queue = List.replicate (k - s.pt.out).natAbs (decide (0 < k - s.pt.out)) ∧ u.pt.lag = 0 ∧ u.pt.seen = k) ∧
      u.pt.out = s.pt.out ∧ u = { s with regs := u.regs, resp := {}, pt := u.pt }))

/-- TICK (R31, R42): while ticks are issued and the counter has reached the line above the high-water mark, a device that is no
tick master of an array records tick n — high-water mark, ticked lines, the 256 indexes released last, instant, and its history entry at n modulo
512 — and then acts on it; a tick master with no port UP only queues it for the span time of its crossing plus TDLY (R241 of
12_span_arrays.md); where the
counter has not reached that line, or no ticks are issued, nothing changes.
FIXED_RATE_PERIOD (R30–R32): at the end of a period of the fixed-rate generator, which ends PER × 2/3 ns after the last one, the
counter moves one line with remainder 0 and the speed is 1,500,000,000 ÷ PER lines/s; overspeed is judged; the line above the
high-water mark is ticked where the counter has reached it, and no other; without the generator nothing changes.
OVS_NOW_CLEAR and DRAIN_TICK (R40, R394): OVS_NOW goes back to 0 once neither overspeed condition has held for 64 ticks, and
not before; a drain tick advances the drain by one, and engines receive the line that is then due only up to L_h; without a
drain nothing changes. -/
def Obligations.TicksAndOverspeed : Prop :=
  (
  ∀ (s : State) (n : Int) (entry : List Byte), n = s.tickLast + 1 →
    entry = s.entry (65536 * ofSigned 48 n) (s.tickCross n).2 0 →
    (s.issuing = true → s.fld TICK_CTL_SRC < 2 → n ≤ s.tick.line → (s.inArray && s.on SPAN_CTL_MASTER) = false →
      ∃ u : State, exec .tick s = .next (u.tickActs n (s.tickCross n).1 (s.tickDue n)) ∧ u.tick.hw = n ∧
        u.tick.ticked = tickedAdd s.tick.ticked n ∧ u.tick.instants = ((s.tickCross n).1 :: s.tick.instants).take 5 ∧
        look [] u.tick.hist (n % 512).toNat = entry ∧
        (∀ j, j ≠ (n % 512).toNat → look [] u.tick.hist j = look [] s.tick.hist j) ∧
        u = { s with tick := { s.tick with
          hw := n, ticked := u.tick.ticked, rel := (n :: s.tick.rel).take 256, instants := u.tick.instants, hist := u.tick.hist
          ovsClear := u.tick.ovsClear } }) ∧
    (s.issuing = true → s.fld TICK_CTL_SRC < 2 → n ≤ s.tick.line → (s.inArray && s.on SPAN_CTL_MASTER) = true →
      (∀ p < 2, (s.spanPort p).st ≠ .up) →
      ∃ (u : State) (t : Nat), exec .tick s = .next u ∧ u.span.ticks = s.span.ticks ++ [(65536 * ofSigned 48 n, entry, t, 0)] ∧
        t = (freeRound 8 ((s.span.time : Rat) - (s.tickCross n).2 + (s.fld SPAN_TDLY_TDLY : Nat))).toNat ∧
        u = { s with span := { s.span with ticks := u.span.ticks } }) ∧
    ((s.issuing = false ∨ 2 ≤ s.fld TICK_CTL_SRC ∨ s.tick.line < n) → exec .tick s = .next s)) ∧
  (
  ∀ s : State,
    (s.issuing = true → s.fld TICK_CTL_SRC = 3 →
      ∃ u : State, exec .fixedRatePeriod s = .next (if u.ovsOnset.tickLast < u.ovsOnset.tick.line
          then u.ovsOnset.tickMade (u.ovsOnset.tickLast + 1) u.tick.genAt 0 2 else u.ovsOnset) ∧
        u.tick.line = s.tick.line + 1 ∧ u.tick.rem = 0 ∧ u.tick.hw = s.tick.hw ∧
        u.tick.speed = (1500000000 : Rat) / ((s.fld TICK_FIXPER_PER : Nat) : Rat) ∧
        u.tick.genAt = s.tick.genAt + ((s.fld TICK_FIXPER_PER : Nat) : Rat) * 2 / 3 ∧
        u = { s with regs := u.regs, tick := u.tick } ∧ s.keeps u [(.TICK_STAT, 0), (.TICK_REV_CNT, 0)] ∧
        (u.overspeed = false → s.tick.line < s.tickLast → exec .fixedRatePeriod s = .next u) ∧
        ∀ (n : Int) (entry : List Byte), n = s.tickLast + 1 → entry = s.entry (65536 * ofSigned 48 n) 0 2 →
          u.overspeed = false → (s.inArray && s.on SPAN_CTL_MASTER) = false → s.tickLast ≤ s.tick.line →
          exec .fixedRatePeriod s = .next ((u.tickMark n u.tick.genAt entry).tickActs n u.tick.genAt (s.tickDue n))) ∧
    ((s.issuing = false ∨ s.fld TICK_CTL_SRC ≠ 3) → exec .fixedRatePeriod s = .next s)) ∧
  (
  ∀ s : State,
    (s.live = true → s.fld TICK_STAT_OVS_NOW = 1 → s.overspeed = false → 64 ≤ s.tick.ovsClear →
      ∃ u : State, exec .ovsNowClear s = .next u ∧ u.fld TICK_STAT_OVS_NOW = 0 ∧ u = { s with regs := u.regs } ∧
        s.keeps u [(.TICK_STAT, 0)]) ∧
    ((s.overspeed = true ∨ s.tick.ovsClear < 64) → exec .ovsNowClear s = .next s) ∧
    (s.pwr.drain = true → s.rpt.loupeTry = false → (s.pwr.holdLine : Int) < s.pwr.drainAt + 1 - s.depth →
      exec .drainTick s = .next { s with pwr := { s.pwr with drainAt := s.pwr.drainAt + 1 } }) ∧
    (s.pwr.drain = true → ((s.pwr.drainAt : Int) + 1 - s.depth ≤ s.pwr.holdLine) →
      exec .drainTick s = .next ((({ s with pwr := { s.pwr with drainAt := s.pwr.drainAt + 1 } } : State).tickEngines
        ((s.pwr.drainAt : Int) + 1 - s.depth)).loupeTick)) ∧
    (s.pwr.drain = false → exec .drainTick s = .next s))

/-- LANE_ENABLE, LANE_DISABLE and LANE_RETRAIN on a feed lane that is not LOCKED (R66, R67): enabling an OFF lane starts the hunt
at candidate 0, disabling takes it to OFF with nothing left to send, RETRAIN takes an enabled lane to RETRAIN; nothing else
changes but LANE_CTL.
CODEWORD_RECEIVE before LOCKED and FRAME_TRANSMIT (R66, R67), lane not in loopback and not inverted: in HUNT a codeword that is
not good moves the candidate offset on by one modulo 5,440 and a good one begins VERIFY with one good codeword; in VERIFY the
second and third good codewords only count, and a bad one returns to HUNT at the next candidate; an enabled lane sends its next
frame and its frame counter counts modulo 65,536; a disabled lane sends nothing.
CODEWORD_RECEIVE in LOCKED, its headers keeping lock (R67–R69): every codeword is counted. One that cannot be corrected sets UCW
and counts in LANE_UCWTOT, its blocks are discarded, the elastic buffer keeps its contents, and the expected frame counter moves on
by one. One with n corrected symbols counts them, FCNT_ERR is set just where its frame counter is not the last one plus 1, and,
with 16 to 18 blocks in the buffer and a block taken for each one written, each block written puts the oldest out: of data blocks
outside a packet nothing is kept.
LOCK_TIMEOUT, RETRY_TIMEOUT, CORRECTED_SYMBOL_WINDOW and RETRAIN_SWEEP_END on a feed lane (R67, R71, R72): the first two retrain
a lane in HUNT or VERIFY with AUTO_RT, and a FAILED lane with RETRY ≠ 0; the end of a window restarts the count of corrected
symbols, and a count within its limit changes nothing else; a sweep takes the working code with the greatest height, the lowest of
equals, sets RT_DONE and hunts again at candidate 0 (the candidate is the model's, log 53, DEDUCED), and a sweep without one fails
the lane and sets FAILED, which on a feed lane also sets REF's FEED_LANE (R181 of 09_reference_compare.md). -/
def Obligations.LaneStateMachine : Prop :=
  (
  ∀ (s : State) (m : Master) (j : Fin 36) (v : Word), 24 ≤ j.val → j.val < 28 → s.mayWrite m .LANE_CTL j →
    (s.on LANE_CTL_EN j = false → (s.lane j).st = .off → v.getLsbD 13 = false →
      ∃ u : State, exec (.laneEnable m j v) s = .next u ∧ u.on LANE_CTL_EN j = true ∧
        u.lane j = { s.lane j with st := .hunt, cand := 0, good := 0 } ∧ (∀ k, k ≠ j.val → u.lane k = s.lane k) ∧
        u = { s with regs := u.regs, resp := {}, lanes := u.lanes } ∧ s.keeps u [(.LANE_CTL, j.val)]) ∧
    (s.on LANE_CTL_EN j = true → (s.lane j).st ≠ .locked → v.getLsbD 13 = false →
      ∃ u : State, exec (.laneDisable m j v) s = .next u ∧ u.on LANE_CTL_EN j = false ∧
        u.lane j = { s.lane j with st := .off, ctlOut := [], txq := [], sinceIdle := 0 } ∧
        (∀ k, k ≠ j.val → u.lane k = s.lane k) ∧
        u = { s with regs := u.regs, resp := {}, lanes := u.lanes } ∧ s.keeps u [(.LANE_CTL, j.val)]) ∧
    (s.on LANE_CTL_EN j = true → v.getLsbD 0 = true → (s.lane j).st ≠ .locked → (s.lane j).st ≠ .off →
      ∃ u : State, exec (.laneRetrain m j v) s = .next u ∧ u.lane j = { s.lane j with st := .retrain } ∧
        (∀ k, k ≠ j.val → u.lane k = s.lane k) ∧
        u = { s with regs := u.regs, resp := {}, lanes := u.lanes } ∧ s.keeps u [(.LANE_CTL, j.val)])) ∧
  (
  ∀ (s : State) (j : Fin 36) (w n : Nat), 24 ≤ j.val → j.val < 28 → s.live = true → w < 2 ^ 5440 →
    s.on LANE_CTL_LPBK j = false → s.on LANE_CTL_RX_INV j = false →
    ((s.lane j).st = .hunt → frameValid w = false →
      exec (.codewordReceive j w n) s = .next (s.updLane j fun l => { l with cand := (l.cand + 1) % 5440 })) ∧
    ((s.lane j).st = .hunt → frameValid w = true →
      ∃ u : State, exec (.codewordReceive j w n) s = .next u ∧ u.lane j = { s.lane j with st := .verify, good := 1 } ∧
        u = { s with lanes := u.lanes } ∧ ∀ k, k ≠ j.val → u.lane k = s.lane k) ∧
    ((s.lane j).st = .verify → frameValid w = true → (s.lane j).good + 1 < 4 →
      exec (.codewordReceive j w n) s = .next (s.updLane j fun l => { l with good := l.good + 1 })) ∧
    ((s.lane j).st = .verify → frameValid w = false →
      ∃ u : State, exec (.codewordReceive j w n) s = .next u ∧
        u.lane j = { s.lane j with st := .hunt, good := 0, cand := ((s.lane j).cand + 1) % 5440 } ∧
        u = { s with lanes := u.lanes } ∧ ∀ k, k ≠ j.val → u.lane k = s.lane k) ∧
    (s.on LANE_CTL_EN j = true → ∃ u : State, exec (.frameTransmit j) s = .next u ∧
      (u.lane j).txCnt = ((s.lane j).txCnt + 1) % 65536 ∧ (u.lane j).st = (s.lane j).st ∧
      u = { s with lanes := u.lanes } ∧ ∀ k, k ≠ j.val → u.lane k = s.lane k) ∧
    (s.on LANE_CTL_EN j = false → exec (.frameTransmit j) s = .next s)) ∧
  (
  ∀ (s : State) (j : Fin 36) (w : Nat) (hs : List Bool), 24 ≤ j.val → j.val < 28 → s.live = true → w < 2 ^ 5440 →
    s.on LANE_CTL_LPBK j = false → s.on LANE_CTL_RX_INV j = false → (s.lane j).st = .locked →
    hs = ((List.range 77).map fun k => (frameHeader w k).isSome) → headersLost (s.lane j).hdrs hs = false →
    (∀ n : Nat, rsDecode (frameSymbols w) = none → ∃ u : State, exec (.codewordReceive j w n) s = .next u ∧
      u.flag LANE_STAT_UCW j = true ∧
      u.reg .LANE_UCWTOT j = BitVec.ofNat 32 (min 0xFFFFFFFF ((s.reg .LANE_UCWTOT j).toNat + 1)) ∧
      u.reg .LANE_CW j = s.reg .LANE_CW j + 1 ∧
      u.lane j = { s.lane j with
        hdrs := (hs.reverse ++ (s.lane j).hdrs).take 63, descr := (frameBlocks w (s.lane j).descr).2
        rxCnt := (s.lane j).rxCnt.map fun c => (c + 1) % 65536, gap := true } ∧
      (∀ k, k ≠ j.val → u.lane k = s.lane k) ∧ u = { s with regs := u.regs, lanes := u.lanes } ∧
      s.keeps u [(.LANE_CW, j.val), (.LANE_STAT, j.val), (LANE_STAT_UCW.cnt, j.val), (.LANE_UCWTOT, j.val)]) ∧
    (∀ (syms : List Nat) (n f cnt : Nat), rsDecode (frameSymbols w) = some (syms, n) → f = symbolsFrame syms →
      cnt = bits f 5097 5082 → bits f 5129 5126 = 0 → (∀ k < 77, frameHeader f k = some false) →
      16 ≤ (s.lane j).eb.length → (s.lane j).eb.length ≤ 18 → (∀ b ∈ (s.lane j).eb, b.ctl = false ∧ b.gap = false) →
      (s.lane j).gap = false → (s.lane j).ebFilling = false → (s.lane j).ebDel = false → (s.lane j).ebIns = false →
      (s.lane j).open_ = none →
      ∃ u : State, exec (.codewordReceive j w 77) s = .next u ∧
        u.flag LANE_STAT_FCNT_ERR j = (s.flag LANE_STAT_FCNT_ERR j
          || (match (s.lane j).rxCnt with | some c => decide ((c + 1) % 65536 ≠ cnt) | none => false)) ∧
        u.reg .LANE_CSYM j = BitVec.ofNat 32 (min 0xFFFFFFFF ((s.reg .LANE_CSYM j).toNat + n)) ∧
        u.reg .LANE_CW j = s.reg .LANE_CW j + 1 ∧
        u.lane j = { s.lane j with
          hdrs := (hs.reverse ++ (s.lane j).hdrs).take 63, descr := (frameBlocks f (s.lane j).descr).2, rxCnt := some cnt
          csym := (s.lane j).csym + n
          eb := ((s.lane j).eb ++ (frameBlocks f (s.lane j).descr).1.filterMap id).drop 77 } ∧
        (∀ k, k ≠ j.val → u.lane k = s.lane k) ∧ u = { s with regs := u.regs, lanes := u.lanes } ∧
        s.keeps u [(.LANE_CW, j.val), (.LANE_STAT, j.val), (LANE_STAT_FCNT_ERR.cnt, j.val), (.LANE_CSYM, j.val)])) ∧
  (
  ∀ (s : State) (j : Fin 36), 24 ≤ j.val → j.val < 28 → s.live = true →
    ((s.lane j).st = .hunt ∨ (s.lane j).st = .verify → s.on LANE_CTL_AUTO_RT j = true →
      ∃ u : State, exec (.lockTimeout j) s = .next u ∧ u.lane j = { s.lane j with st := .retrain } ∧
        u = { s with lanes := u.lanes }) ∧
    ((s.lane j).st = .failed → s.fld LANE_RT_RETRY j ≠ 0 →
      ∃ u : State, exec (.retryTimeout j) s = .next u ∧ u.lane j = { s.lane j with st := .retrain } ∧
        u = { s with lanes := u.lanes }) ∧
    ((s.lane j).csym ≤ s.fld LANE_CSLIM_CSYM_LIM j →
      exec (.correctedSymbolWindow j) s = .next (s.updLane j fun l => { l with csym := 0 })) ∧
    (∀ (hs : List (Option Nat)) (code h : Nat), (s.lane j).st = .retrain →
      hs.length ≤ 32 → hs[code]? = some (some h) → s.fld LANE_RT_HMIN j ≤ h →
      (∀ k g : Nat, hs[k]? = some (some g) → g ≤ h ∧ (k < code → g < h ∨ g < s.fld LANE_RT_HMIN j)) →
      ∃ u : State, exec (.retrainSweepEnd j hs) s = .next u ∧ (u.lane j).st = .hunt ∧ (u.lane j).height = min 63 h ∧
        (u.lane j).cand = 0 ∧ u.fld LANE_CTL_PEAK j = code ∧ u.flag LANE_STAT_RT_DONE j = true ∧
        u = { s with regs := u.regs, lanes := u.lanes } ∧
        s.keeps u [(.LANE_CTL, j.val), (.LANE_STAT, j.val), (.LANE_RT_CNT, j.val)]) ∧
    (∀ hs : List (Option Nat), (s.lane j).st = .retrain →
      (∀ k g : Nat, hs[k]? = some (some g) → g < s.fld LANE_RT_HMIN j) →
      ∃ u : State, exec (.retrainSweepEnd j hs) s = .next u ∧ (u.lane j).st = .failed ∧
        u.flag LANE_STAT_FAILED j = true ∧ u.flag REF_STAT_FEED_LANE = true ∧
        u = { s with regs := u.regs, lanes := u.lanes } ∧
        s.keeps u [(.LANE_STAT, j.val), (.LANE_FL_CNT, j.val), (.REF_STAT, 0), (.REF_FEED_CNT, 0)]))

/-- EYE_SCAN_START and EYE_SCAN_DONE (R70): a scan started on a LOCKED lane is BUSY; on another lane it is DONE at once with all
ones; at its end DONE is set, BUSY cleared and the disagreements stored, at most the bits compared.
PACKET_RECEIVE and CREDIT on a Span lane (R84, R237): the oldest whole packet of channel 0 to 5 goes to its port's inbox and frees
its blocks, of which each full unit of 16 is granted to the neighbour again by a CREDIT word of an enabled lane (the instant is the
model's, log 138, DEDUCED), and one of a higher channel is an error; a CREDIT word adds its 16-block units to the credit of its channel, or replaces it. -/
def Obligations.EyeScansAndPackets : Prop :=
  (
  ∀ (s : State) (m : Master) (j : Fin 36) (v : Word) (n : Nat),
    (s.mayWrite m .LANE_ESCAN_CTL j → v.getLsbD 31 = true → s.on LANE_ESCAN_RES_BUSY j = false →
      ∃ u : State, exec (.eyeScanStart m j v) s = .next u ∧
        (s.locked j = true → u.on LANE_ESCAN_RES_BUSY j = true ∧ u.on LANE_ESCAN_RES_DONE j = false) ∧
        (s.locked j = false → u.on LANE_ESCAN_RES_DONE j = true ∧ u.reg .LANE_ESCAN_ERR j = 0xFFFFFFFF) ∧
        u = { s with regs := u.regs, resp := {} } ∧
        s.keeps u [(.LANE_ESCAN_CTL, j.val), (.LANE_ESCAN_RES, j.val), (.LANE_ESCAN_ERR, j.val)]) ∧
    (s.live = true → s.on LANE_ESCAN_RES_BUSY j = true →
      ∃ u : State, exec (.eyeScanDone j n) s = .next u ∧ u.on LANE_ESCAN_RES_DONE j = true ∧
        u.on LANE_ESCAN_RES_BUSY j = false ∧
        u.reg .LANE_ESCAN_ERR j = BitVec.ofNat 32 (min n (2 ^ (16 + min 12 (s.fld LANE_ESCAN_CTL_DWELL j)))) ∧
        u = { s with regs := u.regs } ∧ s.keeps u [(.LANE_ESCAN_RES, j.val), (.LANE_ESCAN_ERR, j.val)])) ∧
  (
  ∀ (s : State) (j : Fin 12) (k : Packet) (ks : List Packet) (w : Nat), 4 ≤ j.val → s.live = true →
    ((s.lane (24 + j)).pkts = k :: ks →
      (k.ch < 6 → (s.spanPort ((j - 4) / 4)).st = .up → ∃ u : State, exec (.packetReceive j) s = .next u ∧
        (∀ n : Nat, n = look 0 (s.lane (24 + j)).used k.ch + k.blocks →
          (u.lane (24 + j)) = { s.lane (24 + j) with
            pkts := ks, used := put (n % 16) (s.lane (24 + j)).used k.ch
            ctlOut := (s.lane (24 + j)).ctlOut ++ (if 16 ≤ n ∧ s.on LANE_CTL_EN (24 + j) = true
              then [2147483648 + 33554432 * k.ch + n / 16 % 65536] else []) }) ∧
        (∀ y, y ≠ 24 + j.val → u.lane y = s.lane y) ∧
        (u.spanPort ((j - 4) / 4)).inbox = (s.spanPort ((j - 4) / 4)).inbox ++ [k] ∧
        u = { s with lanes := u.lanes, spanPorts := u.spanPorts }) ∧
      (6 ≤ k.ch → ∃ u : State, exec (.packetReceive j) s = .next u ∧ u.flag SPAN_STAT_PKT_ERR = true ∧
        (u.lane (24 + j)) = { s.lane (24 + j) with pkts := ks } ∧ u = { s with lanes := u.lanes, regs := u.regs } ∧
        s.keeps u [(.SPAN_STAT, 0), (SPAN_STAT_PKT_ERR.cnt, 0)])) ∧
    ((s.lane (24 + j)).ctlIn = [w] → w / 2 ^ 28 = 8 → ∃ u : State, exec (.credit j) s = .next u ∧
      u.lane (24 + j) = { s.lane (24 + j) with
        ctlIn := [],
        credit := put ((if w.testBit 24 then 0 else look 0 (s.lane (24 + j)).credit (bits w 27 25)) + 16 * bits w 15 0)
          (s.lane (24 + j)).credit (bits w 27 25) } ∧
      u = { s with lanes := u.lanes }))

/-- CAM_PORT_ENABLE and CAM_PORT_DISABLE (R81): a port enabled in OFF whose lanes are all enabled goes to NORMAL with the profile's
format; a port disabled goes to OFF from any state, with no cause and no FMT awaited.
FMT_ACK, FMT_TIMEOUT, FMT_REPEAT and SINGLE_LANE_SPEED_RECOVERY (R81, R82, R428): an FMT_ACK that repeats the pending FMT ends
it, its format becomes the present one from its effective index, and with its lanes LOCKED a port whose FMT asked for NORMAL is
NORMAL; a word that is no copy changes nothing but that it is taken; no FMT_ACK by the effective index stops the port with cause 4;
256 ticks after it was sent the FMT is sent again, 16 ticks ahead, on the lane that carries the port's control words, which the
model chooses (log 12, DESIGN CHOICE), where that lane is enabled; and a port stopped with cause 3
asks for its single-lane format after 64 calm ticks. -/
def Obligations.CameraPorts : Prop :=
  (
  ∀ (s : State) (m : Master) (p : Fin 12) (v : Word), s.mayWrite m .CAM_CTL p →
    (s.inRun = true → (s.cam p).st = .off → (s.cam p).fmt = none →
      (∀ j ∈ lanesOf p (s.fld CAM_CTL_LANES p), s.on LANE_CTL_EN j = true) →
      ∃ u : State, exec (.camPortEnable m p v) s = .next u ∧ u.on CAM_CTL_EN p = true ∧ (u.cam p).st = .normal ∧
        (u.cam p).cause = 0 ∧ (u.cam p).curLanes = s.fld CAM_CTL_LANES p ∧ (u.cam p).curWidth = s.fld CAM_CTL_WIDTH p ∧
        (∀ q, q ≠ p.val → u.cam q = s.cam q) ∧ u = { s with regs := u.regs, resp := {}, cams := u.cams }) ∧
    (∃ u : State, exec (.camPortDisable m p v) s = .next u ∧ u.on CAM_CTL_EN p = false ∧
      u.cam p = { s.cam p with st := .off, cause := 0, fmt := none, half := [], done := [] } ∧
      (∀ q, q ≠ p.val → u.cam q = s.cam q) ∧ u = { s with regs := u.regs, resp := {}, cams := u.cams })) ∧
  (
  ∀ (s t : State) (p : Fin 12) (w : Nat) (f : FmtReq), s.live = true →
    (s.camTake p 7 = some (w, t) → (s.cam p).fmt = some f → w % 2 ^ 28 = f.word → f.target = .normal →
      s.camLocked p f.lanes = true → f.lanes < 4 →
      ∃ u : State, exec (.fmtAck p) s = .next u ∧ (u.cam p).st = .normal ∧ (u.cam p).cause = 0 ∧ (u.cam p).fmt = none ∧
        (u.cam p).curWidth = f.width ∧ (u.cam p).curLanes = f.lanes ∧ (u.cam p).effAt = f.eff ∧
        (u.cam p).oldWidth = (s.cam p).curWidth ∧ (u.cam p).oldLanes = (s.cam p).curLanes ∧
        u = { s with cams := u.cams, lanes := t.lanes } ∧ ∀ q, q ≠ p.val → u.cam q = s.cam q) ∧
    (s.camTake p 7 = some (w, t) → (s.cam p).fmt = some f → w % 2 ^ 28 ≠ f.word → exec (.fmtAck p) s = .next t) ∧
    ((s.cam p).fmt = some f → f.late = false → f.eff ≤ s.tick.hw → (s.cam p).st ≠ .stopped →
      ∃ u : State, exec (.fmtTimeout p) s = .next u ∧ (u.cam p).st = .stopped ∧ (u.cam p).cause = 4 ∧
        (u.cam p).fmt = some { f with late := true } ∧ u.flag CAM_STAT_FMT_TO p = true ∧
        u.flag CAM_STAT_STOPPED p = true ∧ u.zsp.irqs.contains "LINK_FAULT" = true ∧
        ({ s with regs := u.regs, cams := u.cams } : State).routed u ∧
        s.keepsRouted u [(.CAM_STAT, p.val), (.CAM_FMTTO_CNT, p.val), (.CAM_STOP_CNT, p.val)]) ∧
    ((s.cam p).fmt = some f → f.late = true → f.eff + 240 ≤ s.tick.hw →
      ∃ u : State, exec (.fmtRepeat p) s = .next u ∧
        (u.cam p).fmt = some { width := f.width, lanes := f.lanes, eff := s.tick.hw + 16, target := f.target } ∧
        (u.lane (s.camWordLane p)).ctlOut = (s.lane (s.camWordLane p)).ctlOut
          ++ (if s.on LANE_CTL_EN (s.camWordLane p)
            then [6 * 2 ^ 28 + f.width * 2 ^ 26 + f.lanes * 2 ^ 24 + ofSigned 24 (s.tick.hw + 16)] else []) ∧
        u = { s with cams := u.cams, lanes := u.lanes }) ∧
    ((s.cam p).st = .stopped → (s.cam p).cause = 3 → (s.cam p).fmt = none → 64 ≤ (s.cam p).calm →
      s.on CAM_CTL_EN p = true →
      ∃ u : State, exec (.singleLaneSpeedRecovery p) s = .next u ∧
        (u.cam p).fmt = some { width := s.camFallWidth p, lanes := (s.cam p).work, eff := s.tick.hw + 16, target := .degraded } ∧
        u = { s with cams := u.cams, lanes := u.lanes }))

/-- CSTAT and the register access of a camera (R74, R78): a status word received is taken, and sets EXPO_OVR exactly where it tells of
an exposure or hold overflow; with none received nothing changes. GO sends REG_A, and for a write the two data halves, on the lane
that carries the port's control words, which the model chooses (log 12, DESIGN CHOICE), where that lane is enabled, takes the next tag and shows BUSY; while an access runs a GO is ignored. An answer word with the tag of the access ends
a write with its result; of a read the first half is kept and the second ends it with the data; a code other than OK, RANGE and
DENIED counts as ERROR; a word with another tag is only taken. 64 µs without a complete answer end the access with ERROR and REG_TO;
without an access nothing changes. -/
def Obligations.CameraRegisterAccess : Prop :=
  ∀ (s : State) (m : Master) (p : Fin 12) (v : Word),
    (s.live = true → s.camTake p 9 = none → exec (.cstat p) s = .next s) ∧
    (∀ (w : Nat) (t : State), s.live = true → s.camTake p 9 = some (w, t) →
      ∃ u : State, exec (.cstat p) s = .next u ∧
        u.flag CAM_STAT_EXPO_OVR p = (s.flag CAM_STAT_EXPO_OVR p || w.testBit 2 || w.testBit 3) ∧
        u = { s with regs := u.regs, lanes := t.lanes } ∧ s.keeps u [(.CAM_STAT, p.val), (.CAM_EXPO_CNT, p.val)] ∧
        ((w.testBit 2 || w.testBit 3) = false → u.regs = s.regs)) ∧
    (s.mayWrite m .CAM_REGCMD p → v.getLsbD 31 = true → (s.cam p).reg = none →
      ∃ u : State, exec (.cameraRegAccess m p v) s = .next u ∧
        (u.cam p).reg = some { write := v.getLsbD 24, tag := (s.cam p).tag, addr := bits v.toNat 23 0 } ∧
        (u.cam p).tag = ((s.cam p).tag + 1) % 8 ∧ u.on CAM_REGRES_BUSY p = true ∧ u.on CAM_REGRES_DONE p = false ∧
        (s.on LANE_CTL_EN (s.camWordLane p) = true →
          (u.lane (s.camWordLane p)).ctlOut = (s.lane (s.camWordLane p)).ctlOut
            ++ (4 * 2 ^ 28 + (if v.getLsbD 24 then 2 ^ 27 else 0) + (s.cam p).tag * 2 ^ 24 + bits v.toNat 23 0)
            :: (if v.getLsbD 24 then
                [5 * 2 ^ 28 + (s.cam p).tag * 2 ^ 24 + (s.reg .CAM_REGWD p).toNat % 2 ^ 16,
                  5 * 2 ^ 28 + 2 ^ 27 + (s.cam p).tag * 2 ^ 24 + (s.reg .CAM_REGWD p).toNat / 2 ^ 16]
              else [])) ∧
        (s.on LANE_CTL_EN (s.camWordLane p) = false → u.lanes = s.lanes) ∧
        (∀ j, j ≠ s.camWordLane p → u.lane j = s.lane j) ∧ (∀ q, q ≠ p.val → u.cam q = s.cam q) ∧
        u = { s with regs := u.regs, resp := {}, cams := u.cams, lanes := u.lanes } ∧
        s.keeps u [(.CAM_REGCMD, p.val), (.CAM_REGRES, p.val)]) ∧
    (∀ a : RegAcc, s.mayWrite m .CAM_REGCMD p → (s.cam p).reg = some a →
      ∃ u : State, exec (.cameraRegAccess m p v) s = .next u ∧ u = { s with regs := u.regs, resp := {} } ∧
        s.keeps u [(.CAM_REGCMD, p.val)]) ∧
    (∀ (w : Nat) (t : State) (a : RegAcc) (res : Nat), s.live = true → s.camTake p 5 = some (w, t) → (s.cam p).reg = some a →
      res = (if a.res ≠ rOK then a.res
        else if bits w 23 16 = rOK ∨ bits w 23 16 = rRANGE ∨ bits w 23 16 = rDENIED then bits w 23 16 else rERROR) →
      (bits w 26 24 ≠ a.tag → exec (.regD p) s = .next t) ∧
      (bits w 26 24 = a.tag → a.write = true →
        ∃ u : State, exec (.regD p) s = .next u ∧ (u.cam p).reg = none ∧ u.fld CAM_REGRES_RESULT p = res % 256 ∧
          u.on CAM_REGRES_DONE p = true ∧ u.on CAM_REGRES_BUSY p = false ∧
          u = { s with regs := u.regs, cams := u.cams, lanes := t.lanes } ∧ s.keeps u [(.CAM_REGRES, p.val)]) ∧
      (bits w 26 24 = a.tag → a.write = false → (if w.testBit 27 then a.lo = none else a.hi = none) →
        ∃ u : State, exec (.regD p) s = .next u ∧
          (u.cam p).reg = some (if w.testBit 27 then { a with hi := some (w % 2 ^ 16), res := res }
            else { a with lo := some (w % 2 ^ 16), res := res }) ∧
          (∀ q, q ≠ p.val → u.cam q = s.cam q) ∧ u = { s with cams := u.cams, lanes := t.lanes }) ∧
      (∀ lo hi : Nat, bits w 26 24 = a.tag → a.write = false →
        (if w.testBit 27 then a.lo = some lo ∧ hi = w % 2 ^ 16 else a.hi = some hi ∧ lo = w % 2 ^ 16) →
        ∃ u : State, exec (.regD p) s = .next u ∧ (u.cam p).reg = none ∧
          u.fld CAM_REGRD_DATA p = (lo + 2 ^ 16 * hi) % 2 ^ 32 ∧ u.fld CAM_REGRES_RESULT p = res % 256 ∧
          u.on CAM_REGRES_DONE p = true ∧ u.on CAM_REGRES_BUSY p = false ∧
          u = { s with regs := u.regs, cams := u.cams, lanes := t.lanes } ∧
          s.keeps u [(.CAM_REGRD, p.val), (.CAM_REGRES, p.val)])) ∧
    (s.live = true → (s.cam p).reg = none → exec (.cameraRegTimeout p) s = .next s) ∧
    (∀ a : RegAcc, s.live = true → (s.cam p).reg = some a →
      ∃ u : State, exec (.cameraRegTimeout p) s = .next u ∧ (u.cam p).reg = none ∧ u.flag CAM_STAT_REG_TO p = true ∧
        u.fld CAM_REGRES_RESULT p = rERROR ∧ u.on CAM_REGRES_DONE p = true ∧ u.on CAM_REGRES_BUSY p = false ∧
        (∀ q, q ≠ p.val → u.cam q = s.cam q) ∧ u = { s with regs := u.regs, cams := u.cams } ∧
        s.keeps u [(.CAM_STAT, p.val), (.CAM_REGTO_CNT, p.val), (.CAM_REGRES, p.val)])

/-- CAMERA_LINE_ARRIVAL at an enabled ingest unit whose table reads OK (R85, R97), for a line of the block in progress or of a later
one that no run has missed: the line leaves the port, the ticked lines before it that did not come are lost, it is corrected at unity
gain while the lamp correction is off, is recorded as the newest line seen and counted into its statistics block; then it is
copied to the routes and halo windows of its camera. A line whose table read is not complete at its last sample is lost with
TABLE_ERR (R91). A disabled unit only takes the line.
TABLE_COMMIT and TABLE_CHECK_DONE (R92): a commit latches the new offset and the switch line and shows BUSY; one while a check
runs or a table waits is STATE_REFUSED; a check that finds no bad pixel accepts the table, which then waits for its line, and one
that finds a bad pixel answers RANGE with the pixel.
STATS_BLOCK_END, ACCUMULATION_START and ACCUMULATION_DONE (R97, R99): the oldest block that has ended is taken, its results are stored
in the unit's registers and its number's successor in SRIDX; START clears the count and shows BUSY with the stage and the number
of lines, and is ignored while BUSY; when the last line is accumulated DONE replaces BUSY. -/
def Obligations.IngestUnits : Prop :=
  (
  ∀ (s s1 s2 : State) (c : Fin 12) (late busy : Bool) (l : CamLine) (ls : List CamLine) (cal code : List Byte), s.live = true →
    (s.cam c).lines = l :: ls → s1 = s.updCam c (fun q => { q with lines := ls }) → s2 = s1.iuReach c l.line →
    (s.on IU_CTL_EN c = false → exec (.cameraLineArrival c ⟨late, busy⟩) s = .next s1) ∧
    (s.on IU_CTL_EN c = true → (s.iu c).pend = none → (s.iu c).acc = none → s.on IU_CTL_LAMP_EN c = false →
      (s.iu c).stats.first ≤ l.line - l.line % s.iuBlock c → (∀ x ∈ (s.cam c).lost, x.1 = l.line → x.2 = 0) →
      s2.busRead 16 (poolBase + s.fld IU_TBASE_OFS c) (16 * s.camPx c) = (rOK, cal, s2) →
      s2.busRead 16 (poolBase + s.fld IU_TBASE_OFS c + 32 * s.camPx c) (s.camPx c) = (rOK, code, s2) →
      (late = true → ∃ u : State, exec (.cameraLineArrival c ⟨late, busy⟩) s = .next u ∧ u.flag IU_STAT_TABLE_ERR c = true ∧
        (u.iu c).stats.lost = true ∧ (u.iu c).seen = (s.iu c).seen ∧ (∀ k, k ≠ c.val → u.iu k = s.iu k) ∧
        u = { s with regs := u.regs, cams := s1.cams, ius := u.ius } ∧
        s.keeps u [(.IU_STAT, c.val), (IU_STAT_TABLE_ERR.cnt, c.val)]) ∧
      (late = false → ∃ (u : State) (o : IuOut), exec (.cameraLineArrival c ⟨late, busy⟩) s
          = .next (((u.routesOf c).foldl (fun s k => s.routeCopy c k o) u).haloSend c o) ∧
        o.line = l.line ∧ o.px = s.camPx c ∧ o.g = 16384 ∧ o.held = false ∧ o.tsw = (s.iu c).tsw ∧
        (u.iu c).seen = (l.line :: (s.iu c).seen).take 512 ∧ (u.iu c).last = max (s.iu c).last l.line ∧
        (u.iu c).tsw = false ∧
        (u.iu c).stats.first = l.line - l.line % s.iuBlock c ∧
        (u.iu c).stats.count
          = (if (s.iu c).stats.first = l.line - l.line % s.iuBlock c then (s.iu c).stats.count else 0) + 1 ∧
        (∀ k, k ≠ c.val → u.iu k = s.iu k) ∧ u = { s with cams := s1.cams, ius := u.ius, freeCtr := u.freeCtr }))) ∧
  (
  ∀ (s : State) (m : Master) (c : Fin 12),
    (s.mayWrite m .IU_TCMD c → (s.iu c).check = none → (s.iu c).pend = none →
      ∃ u : State, exec (.tableCommit m c) s = .next u ∧
        u.iu c = { s.iu c with check := some (s.fld IU_TNEW_OFS c, (s.wide .IU_TLINE_LO .IU_TLINE_HI c : Int)) } ∧
        u.on IU_TRES_BUSY c = true ∧ u.on IU_TRES_DONE c = false ∧
        u = { s with regs := u.regs, resp := {}, ius := u.ius } ∧ s.keeps u [(.IU_TRES, c.val)]) ∧
    (s.mayWrite m .IU_TCMD c → ((s.iu c).check.isSome || (s.iu c).pend.isSome) = true →
      ∃ u : State, exec (.tableCommit m c) s = .next u ∧ u.fld IU_TRES_RESULT c = rSTATE_REFUSED ∧
        u.on IU_TRES_DONE c = true ∧ u = { s with regs := u.regs, resp := {} } ∧ s.keeps u [(.IU_TRES, c.val)]) ∧
    (∀ (ofs : Nat) (line : Int) (bad : Option Nat) (t : State), s.live = true → (s.iu c).check = some (ofs, line) →
      t = (s.setFld IU_TRES_DONE c 1).setFld IU_TRES_BUSY c 0 → t.iuBadPixel c ofs = (bad, t) →
      ∃ u : State, exec (.tableCheckDone c) s = .next u ∧ u.on IU_TRES_DONE c = true ∧ u.on IU_TRES_BUSY c = false ∧
        (bad = none → u.fld IU_TRES_RESULT c = rOK ∧ u.on IU_TRES_PEND c = true ∧
          u.iu c = { s.iu c with check := none, pend := some (ofs, line) }) ∧
        (∀ p, bad = some p → u.fld IU_TRES_RESULT c = rRANGE ∧ u.fld IU_TRES_BADPIX c = p % 2 ^ 14 ∧
          u.iu c = { s.iu c with check := none }) ∧
        u = { s with regs := u.regs, ius := u.ius } ∧ s.keeps u [(.IU_TRES, c.val)])) ∧
  (
  ∀ (s : State) (m : Master) (c : Fin 12) (v : Word) (b : IuStats) (bs : List IuStats) (a : IuAcc),
    (s.live = true → (s.iu c).ended = b :: bs → b.count ≠ 0 →
      ∃ u : State, exec (.statsBlockEnd c) s = .next u ∧ u.iu c = { s.iu c with ended := bs } ∧
        u.fld IU_SRIDX_IDX c = ((b.first / s.iuBlock c % 256).toNat + 1) % 256 ∧
        u.fld IU_MEAN_RG_CH0 c
          = look 0 b.sum 0 / (b.count * (s.fld IU_STWIN_HI c + 1 - s.fld IU_STWIN_LO c)) % 65536 ∧
        u.fld IU_SATN_SATN c = b.satn % 2 ^ 32 ∧ ∀ k, k ≠ c.val → u.iu k = s.iu k) ∧
    (s.mayWrite m .IU_ACC_CTL c → v.getLsbD 0 = true → s.on IU_ACC_STAT_BUSY c = false →
      ∃ u : State, exec (.accumulationStart m c v) s = .next u ∧
        u.iu c = { s.iu c with acc := some { stage := min 2 (bits v.toNat 2 1), left := max 1 (bits v.toNat 31 16) } } ∧
        u.on IU_ACC_STAT_BUSY c = true ∧ u.on IU_ACC_STAT_DONE c = false ∧ u.fld IU_ACC_STAT_COUNT c = 0 ∧
        u = { s with regs := u.regs, resp := {}, ius := u.ius } ∧
        s.keeps u [(.IU_ACC_CTL, c.val), (.IU_ACC_STAT, c.val)]) ∧
    (s.mayWrite m .IU_ACC_CTL c → s.on IU_ACC_STAT_BUSY c = true →
      ∃ u : State, exec (.accumulationStart m c v) s = .next u ∧ u = { s with regs := u.regs, resp := {} } ∧
        s.keeps u [(.IU_ACC_CTL, c.val)]) ∧
    (s.live = true → (s.iu c).acc = some a → a.left = 0 →
      ∃ u : State, exec (.accumulationDone c) s = .next u ∧ u.iu c = { s.iu c with acc := none } ∧
        u.on IU_ACC_STAT_DONE c = true ∧ u.on IU_ACC_STAT_BUSY c = false ∧
        u = { s with regs := u.regs, ius := u.ius } ∧ s.keeps u [(.IU_ACC_STAT, c.val)]))

/-- ACCORD_ENABLE, MAP_CHECK_START and MAP_CHECK_DONE (R166, R171): EN is set only in Hold and only when the checks in their order
find nothing, and the result names the check and the entry; outside Hold it is STATE_REFUSED with CFG_ERR; a map check started
shows BUSY with the engine and slots as written, and its end stores result, check, entry and slot with DONE. -/
def Obligations.AccordEnableAndMapCheck : Prop :=
  ∀ (s : State) (m : Master) (v : Word),
    (s.mayWrite m .ACCORD_CTL 0 → v.getLsbD 0 = true → s.inHold = true →
      ∃ u : State, exec (.accordEnable m v) s = .next u ∧ u.on ACCORD_CTL_EN = decide (s.accordCheck.1 = rOK) ∧
        u.fld ACCORD_RES_RESULT = s.accordCheck.1 % 256 ∧ u.fld ACCORD_RES_CHK = s.accordCheck.2.1 % 8 ∧
        u.fld ACCORD_RES_ENTRY = s.accordCheck.2.2 % 64 ∧ u = { s with regs := u.regs, resp := {} } ∧
        s.keeps u [(.ACCORD_CTL, 0), (.ACCORD_RES, 0)]) ∧
    (s.mayWrite m .ACCORD_CTL 0 → v.getLsbD 0 = true → s.inHold = false →
      ∃ u : State, exec (.accordEnable m v) s = .next u ∧ u.fld ACCORD_RES_RESULT = rSTATE_REFUSED ∧
        u.flag ACCORD_STAT_CFG_ERR = true ∧ u.on ACCORD_CTL_EN = s.on ACCORD_CTL_EN ∧
        u = { s with regs := u.regs, resp := {} } ∧
        s.keeps u [(.ACCORD_RES, 0), (.ACCORD_STAT, 0), (.ACCORD_CFG_CNT, 0)]) ∧
    (s.mayWrite m .ACCORD_MCHK_CMD 0 → v.getLsbD 31 = true → s.on ACCORD_MRES_BUSY = false →
      ∃ u : State, exec (.mapCheckStart m v) s = .next u ∧
        u.accord.check = some (bits v.toNat 3 0, s.fld ACCORD_MCHK_SET_SLOTS) ∧ u.on ACCORD_MRES_BUSY = true ∧
        u.on ACCORD_MRES_DONE = false ∧ u = { s with regs := u.regs, resp := {}, accord := u.accord } ∧
        s.keeps u [(.ACCORD_MCHK_CMD, 0), (.ACCORD_MRES, 0)]) ∧
    (∀ e set : Nat, s.live = true → s.accord.check = some (e, set) →
      ∃ u : State, exec .mapCheckDone s = .next u ∧ u.accord.check = none ∧
        u.fld ACCORD_MRES_RESULT = (s.mapCheck e set).1 % 256 ∧ u.fld ACCORD_MRES_CHK = (s.mapCheck e set).2.1 % 8 ∧
        u.fld ACCORD_MRES_BADENT = (s.mapCheck e set).2.2.1 % 2 ^ 14 ∧
        u.fld ACCORD_MRES_SLOT = (s.mapCheck e set).2.2.2 % 4 ∧ u.on ACCORD_MRES_DONE = true ∧
        u.on ACCORD_MRES_BUSY = false ∧ u = { s with regs := u.regs, accord := u.accord } ∧
        s.keeps u [(.ACCORD_MRES, 0)])

/-- Occurrences at the event router (R344, R345, R351, R352): PPS, WAKE_N, an event pin and a relay's delayed occurrence rise on
channels 22, 21, 24 + n and 56 + n, and reach exactly the consumer inputs linked to them; a channel linked to nothing changes
nothing, and one linked only to an event output in pulse mode gives that output one pulse and holds it for one EVCLK cycle, five
cycles of 2 ns (log 132). A level stands until it falls.
CAPTURE_READ, RELAY_RESET, OWNER_WRITE and EVT_LOCK (R348, R352, R353): reading word 7 answers it and frees the entry, which
takes the occurrence held back if there is one; a relay write restarts count and held occurrences; the root core writes an
owner while LOCK is 0, except of the Flacon's two channels, and any other such write only sets CFG_ERR; LOCK once set stays. -/
def Obligations.EventRouter : Prop :=
  (
  ∀ s : State, s.live = true →
    exec .pps s = .next (s.strobe [22]) ∧
    (∀ ch : Nat, (∀ c < 45, s.evtLinked c ch = false) → s.strobe [ch] = s) ∧
    (∀ ch c : Nat, c < 24 → s.evtLinked c ch = true → (∀ d < 45, d ≠ c → s.evtLinked d ch = false) →
      s.evt.level.any (s.evtLinked c) = false → s.on EVT_PIN_OMODE c = false →
      s.strobe [ch] = { s with evt := { s.evt with
        out := put 5 s.evt.out c, pulses := upd 0 (· + 1) s.evt.pulses c } }) ∧
    (∀ low : Bool, ∃ u : State, exec (.wakeNChange low) s = .next u ∧ u.evt.level.contains 21 = low ∧
      ({ s with regs := u.regs, evt := u.evt } : State).routed u ∧ s.keepsRouted u []) ∧
    (∀ (n : Fin 24) (level : Bool), ∃ u : State, exec (.evPinInput n level) s = .next u ∧
      u.evt.level.contains (24 + n.val) = (level != s.on EVT_PIN_IINV n) ∧
      ({ s with regs := u.regs, evt := u.evt } : State).routed u ∧ s.keepsRouted u []) ∧
    (∀ n : Fin 8, 0 < look 0 s.evt.rlyHeld n.val → exec (.relayOutput n) s
      = .next (({ s with evt := { s.evt with rlyHeld := put (look 0 s.evt.rlyHeld n.val - 1) s.evt.rlyHeld n.val } } :
          State).strobe [56 + n.val])) ∧
    (∀ n : Fin 24, exec (.stretchEnd n) s
      = .next { s with evt := { s.evt with stretch := s.evt.stretch.filter (· != n.val) } })) ∧
  (
  ∀ (s : State) (m : Master) (v : Word),
    (∀ k : Fin 4, s.mayRead m .EVT_CAP (k * 8 + 7) → (look {} s.evt.caps k.val).held = none →
      ∃ u : State, exec (.captureRead m k) s = .next u ∧
        u.resp = { code := rOK, data := (s.reg .EVT_CAP (k * 8 + 7)).toNat } ∧ look {} u.evt.caps k.val = {} ∧
        u = { s with resp := u.resp, evt := { s.evt with caps := u.evt.caps } }) ∧
    (∀ (k : Fin 4) (e : List Byte), s.mayRead m .EVT_CAP (k * 8 + 7) → (look {} s.evt.caps k.val).held = some e →
      ∃ u : State, exec (.captureRead m k) s = .next u ∧ look {} u.evt.caps k.val = { unread := true } ∧
        (∀ i < 8, u.reg .EVT_CAP (k * 8 + i) = BitVec.ofNat 32 (leNat ((e.drop (4 * i)).take 4))) ∧
        u = { s with regs := u.regs, resp := u.resp, evt := { s.evt with caps := u.evt.caps } }) ∧
    (∀ (n : Fin 8) (dly : Bool), s.mayWrite m (if dly then .EVT_RLY_DLY else .EVT_RLY_DIV) n →
      ∃ u : State, exec (.relayReset m n dly v) s = .next u ∧ look 0 u.evt.rlyCount n.val = 0 ∧
        look 0 u.evt.rlyHeld n.val = 0 ∧ (dly = true → bits (u.reg .EVT_RLY_DLY n).toNat 23 0 = bits v.toNat 23 0) ∧
        u = { s with regs := u.regs, resp := {}, evt := { s.evt with
          rlyCount := u.evt.rlyCount, rlyHeld := u.evt.rlyHeld } }) ∧
    (∀ ch : Fin 64, s.mayWrite m .EVT_OWN ch → m = 48 → s.fld EVT_LOCK_LOCK = 0 → ch ≠ 19 → ch ≠ 20 →
      ∃ u : State, exec (.ownerWrite m ch v) s = .next u ∧ u.reg .EVT_OWN ch = v &&& 7 ∧
        u = { s with regs := u.regs, resp := {} } ∧ s.keeps u [(.EVT_OWN, ch.val)]) ∧
    (∀ ch : Fin 64, s.mayWrite m .EVT_OWN ch → (m ≠ 48 ∨ s.fld EVT_LOCK_LOCK ≠ 0 ∨ ch = 19 ∨ ch = 20) →
      ∃ u : State, exec (.ownerWrite m ch v) s = .next u ∧ u.flag EVT_STAT_CFG_ERR = true ∧
        u = { s with regs := u.regs, resp := {} } ∧ s.keeps u [(.EVT_STAT, 0), (.EVT_CFG_CNT, 0)]) ∧
    (s.mayWrite m .EVT_LOCK 0 → ∃ u : State, exec (.evtLock m v) s = .next u ∧
      u.fld EVT_LOCK_LOCK = (if v.getLsbD 0 then 1 else s.fld EVT_LOCK_LOCK) ∧
      u = { s with regs := u.regs, resp := {} } ∧ s.keeps u [(.EVT_LOCK, 0)]))

/-- LINK_ENABLE_WRITE of the LO and of the HI word, and SOFTWARE_TRIGGER (R349, R350): when every link bit that would change belongs
to a channel of the writer — the root core, the service cores, for which the debug master also stands (log 6, DEDUCED), or the
Flacon — and a link to the root core's interrupt is one of a SECURE channel, the wired bits are stored with result OK, unless a newly
enabled link would close a path back to the channel the consumer drives: then nothing is stored, the result is LOOP_REJECTED and the
flag is set. When some such bit belongs to another owner nothing is stored, the answer is DENIED and the flag is set; a software
trigger of channels the writer owns raises exactly them, and one that names a channel of another owner raises none. -/
def Obligations.LinkAndTriggerOwnership : Prop :=
  ∀ (s : State) (m : Master) (v : Word),
    (∀ (c : Fin 45) (r : Reg) (base : Nat) (hi : Bool) (new : Word),
      (r, base) = (if hi then (Reg.EVT_LNK_HI, 32) else (Reg.EVT_LNK_LO, 0)) →
      new = v &&& BitVec.ofNat 32 (evtWireWord c / 2 ^ base) → s.mayWrite m r c →
      ((∀ b < 32, new.getLsbD b ≠ (s.reg r c).getLsbD b → some (s.evtOwner (base + b)) = ownerOfMaster m ∧
          (c = 36 → new.getLsbD b = true → s.on EVT_OWN_SECURE (base + b) = true)) →
        ((∀ b < 32, new.getLsbD b = true → (s.reg r c).getLsbD b = false → ∀ ch, evtFixed c = some ch →
            ¬EvtPath s ch (base + b)) →
          ∃ u : State, exec (.linkEnableWrite m c hi v) s = .next u ∧ u.reg r c = new ∧ u.fld EVT_RES_RESULT = rOK ∧
            u.fld EVT_RES_CONS = c.val ∧ u = { s with regs := u.regs, resp := {} } ∧ s.keeps u [(r, c.val), (.EVT_RES, 0)]) ∧
        (∀ b < 32, new.getLsbD b = true → (s.reg r c).getLsbD b = false → ∀ ch, evtFixed c = some ch →
            EvtPath s ch (base + b) →
          ∃ u : State, exec (.linkEnableWrite m c hi v) s = .next u ∧ u.reg r c = s.reg r c ∧
            u.fld EVT_RES_RESULT = rLOOP_REJECTED ∧ u.fld EVT_RES_CONS = c.val ∧ u.flag EVT_STAT_LOOP_REJ = true ∧
            u = { s with regs := u.regs, resp := {} } ∧
            s.keeps u [(.EVT_RES, 0), (.EVT_STAT, 0), (EVT_STAT_LOOP_REJ.cnt, 0)])) ∧
      (∀ b < 32, new.getLsbD b ≠ (s.reg r c).getLsbD b →
        (some (s.evtOwner (base + b)) ≠ ownerOfMaster m ∨
          (c = 36 ∧ new.getLsbD b = true ∧ s.on EVT_OWN_SECURE (base + b) = false)) →
        ∃ u : State, exec (.linkEnableWrite m c hi v) s = .next u ∧ u.resp.code = rDENIED ∧ u.reg r c = s.reg r c ∧
          u.fld EVT_RES_RESULT = rDENIED ∧ u.flag EVT_STAT_DENIED = true ∧
          u = { s with regs := u.regs, resp := u.resp })) ∧
    (s.mayWrite m .EVT_SWTRIG 0 → (∀ b < 8, v.getLsbD b = true → some (s.evtOwner (48 + b)) = ownerOfMaster m) →
      ∃ u : State, exec (.softwareTrigger m v) s
          = .next (u.strobe (((List.range 8).filter fun b => v.getLsbD b).map (48 + ·))) ∧
        u.fld EVT_RES_RESULT = rOK ∧ u = { s with regs := u.regs, resp := {}, freeCtr := s.freeCtr + 1 } ∧
        s.keeps u [(.EVT_RES, 0)]) ∧
    (∀ b : Nat, s.mayWrite m .EVT_SWTRIG 0 → b < 8 → v.getLsbD b = true →
      some (s.evtOwner (48 + b)) ≠ ownerOfMaster m →
      ∃ u : State, exec (.softwareTrigger m v) s = .next u ∧ u.resp.code = rDENIED ∧ u.fld EVT_RES_RESULT = rDENIED ∧
        u.flag EVT_STAT_DENIED = true ∧ u = { s with regs := u.regs, resp := u.resp, freeCtr := s.freeCtr + 1 })

/-- The scalar instructions that complete in one cycle and C_MUL in three (R107, R137): on an engine that runs with no
write outstanding, the result is written to SD and the run goes on, one cycle later, to the next bundle or, in a loop, to the bundle
R135 gives; S0 discards every result.
Signed comparisons are of 64-bit two's complement numbers; shifts take the low 6 bits of the count.
PSET and the branches (R137, R138): PSET writes the predicate SD names, P0 excepted; a branch taken goes OFS bundles on, 0 taken
as 1, as long as it stays within the program; one past the last bundle queues the end-of-line entry and the engine enters FAULT with
cause OVERRUN; a branch not taken goes to the next bundle. In a kernel bundle the branches, LOOPV, TICKWAIT and MBOX are NOPs (R134).
LOOPV, TICKWAIT and MBOX (R135, R139, R140): LOOPV with no vector to run goes on, and otherwise enters the loop of its launch over
the vectors from SA/64 to SB/64, at most V of them, at the first bundle of its prologue or, without one, of its body, to return to the
bundle after it; TICKWAIT ends a run without runs of records, with no spliced program due: the end-of-line entry is queued, the
cycles are stored, and the engine is ARMED with the line as its last; MBOX queues one entry with the scalar, the tag and the line. -/
def Obligations.ControlInstructions : Prop :=
  (
  ∀ (s : State) (e : Fin 16) (f : CFields) (r : Run) (p : Prog) (a b : BitVec 64) (i : Instr) (v : BitVec 64),
    s.engReady e r p → a = (s.eng e).sreg f.sa → b = (s.eng e).sreg (bits f.imm.toNat 31 27) →
    (i, v) ∈ [(.cAdd e f, a + b), (.cSub e f, a - b), (.cAnd e f, a &&& b), (.cOr e f, a ||| b), (.cXor e f, a ^^^ b),
      (.cShl e f, a <<< (b.toNat % 64)), (.cShr e f, a >>> (b.toNat % 64)), (.cSar e f, a.sshiftRight (b.toNat % 64)),
      (.cMin e f, if a.sle b then a else b), (.cMax e f, if a.sle b then b else a), (.slt e f, if a.slt b then 1 else 0),
      (.addi e f, a + f.imm.signExtend 64), (.li e f, f.imm.signExtend 64), (.lih e f, f.imm ++ a.truncate 32),
      (.shli e f, a <<< (f.imm.toNat % 64)), (.shri e f, a >>> (f.imm.toNat % 64)),
      (.sari e f, a.sshiftRight (f.imm.toNat % 64)), (.ctx e f, r.ctx.getD (f.imm.toNat % 8) 0),
      (.pget e f, (s.eng e).preg (f.sa.val % 8))] →
    (f.sd ≠ 0 → exec i s = .next (s.engWrote e r (.sca f.sd v)) ∧
      exec (.cMul e f) s = .next (s.engHolds e r slotC 2 [.sca f.sd (a * b)])) ∧
    (f.sd = 0 → exec i s = .next (s.engPassed e r) ∧ exec (.cMul e f) s = .next (s.engPassed e r)))∧
  (
  ∀ (s : State) (e : Fin 16) (f : CFields) (r : Run) (p : Prog) (l : LoopSt) (a b : BitVec 64) (i : Instr) (v : BitVec 64),
    s.engLoops e r p l → a = (s.eng e).sreg f.sa → b = (s.eng e).sreg (bits f.imm.toNat 31 27) →
    ((i, v) ∈ [(.cAdd e f, a + b), (.cSub e f, a - b), (.cAnd e f, a &&& b), (.cOr e f, a ||| b), (.cXor e f, a ^^^ b),
      (.cShl e f, a <<< (b.toNat % 64)), (.cShr e f, a >>> (b.toNat % 64)), (.cSar e f, a.sshiftRight (b.toNat % 64)),
      (.cMin e f, if a.sle b then a else b), (.cMax e f, if a.sle b then b else a), (.slt e f, if a.slt b then 1 else 0),
      (.addi e f, a + f.imm.signExtend 64), (.li e f, f.imm.signExtend 64), (.lih e f, f.imm ++ a.truncate 32),
      (.shli e f, a <<< (f.imm.toNat % 64)), (.shri e f, a >>> (f.imm.toNat % 64)),
      (.sari e f, a.sshiftRight (f.imm.toNat % 64)), (.ctx e f, r.ctx.getD (f.imm.toNat % 8) 0),
      (.pget e f, (s.eng e).preg (f.sa.val % 8))] → f.sd ≠ 0 →
      exec i s = .next (s.updEng e fun g => { g.write (.sca f.sd v) with run := some (r.looped p l) })) ∧
    (f.sd ≠ 0 → exec (.cMul e f) s = .next (s.updEng e fun g => { g with
      pend := [{ left := 2, slot := slotC, wr := .sca f.sd (a * b) }], run := some (r.looped p l) })) ∧
    (f.sd.val % 8 ≠ 0 → exec (.pset e f) s = .next (s.updEng e fun g => { g.write (.pred (f.sd.val % 8) a) with
      run := some (r.looped p l) })) ∧
    (i ∈ [.br e f, .brz e f, .brnz e f, .brlt e f, .loopv e f, .tickwait e, .mbox e f] →
      exec i s = .next (s.updEng e fun g => { g with run := some (r.looped p l) }))) ∧
  (
  ∀ (s : State) (e : Fin 16) (f : CFields) (r : Run) (p : Prog) (a b : BitVec 64) (t : State),
    s.engReady e r p → a = (s.eng e).sreg f.sa → b = (s.eng e).sreg (bits f.imm.toNat 31 27) →
    t = s.updEng e (fun g => { g with run := some { r with
      cycles := r.cycles + 1, pc := r.pc + max 1 (bits f.imm.toNat 10 0) } }) →
    (f.sd.val % 8 ≠ 0 → exec (.pset e f) s = .next (s.engWrote e r (.pred (f.sd.val % 8) a))) ∧
    (f.sd.val % 8 = 0 → exec (.pset e f) s = .next (s.engPassed e r)) ∧
    (r.pc + max 1 (bits f.imm.toNat 10 0) < p.base + p.bundles →
      exec (.br e f) s = .next t ∧
      exec (.brz e f) s = .next (if a = 0 then t else s.engPassed e r) ∧
      exec (.brnz e f) s = .next (if a = 0 then s.engPassed e r else t) ∧
      exec (.brlt e f) s = .next (if a.slt b then t else s.engPassed e r)) ∧
    (p.base + p.bundles ≤ r.pc + max 1 (bits f.imm.toNat 10 0) → r.u0.cur = none → r.u1.cur = none → r.buf = [] → r.mask = 0 →
      (s.eng e).queue.length < 64 → (s.eng e).nexts = [] →
      ∃ u : State, exec (.br e f) s = .next u ∧ (a = 0 → exec (.brz e f) s = .next u) ∧ (a ≠ 0 → exec (.brnz e f) s = .next u) ∧
        (a.slt b = true → exec (.brlt e f) s = .next u) ∧
        (u.eng e).st = .fault ∧ (u.eng e).fcause = 1 ∧ (u.eng e).run = none ∧
        (u.eng e).queue = (s.eng e).queue ++ [.eol [] r.line 0 0 false []] ∧ u.flag SE_STAT_FAULT e = true ∧
        (∀ x, x ≠ e.val → u.eng x = s.eng x) ∧
        u = { s with regs := u.regs, engs := u.engs, zsp := { s.zsp with irqs := "SE_FAULT" :: s.zsp.irqs } })) ∧
  (
  ∀ (s : State) (e : Fin 16) (f : CFields) (r : Run) (p : Prog) (n : Launch) (a b : Int) (k : Nat), s.engReady e r p →
    (n = p.launch (f.sd.val / 2) → a = ((s.eng e).sreg f.sa).toInt → b = ((s.eng e).sreg (bits f.imm.toNat 31 27)).toInt →
      k = min n.v ((b + 63) / 64 - a / 64).toNat →
      (k = 0 → exec (.loopv e f) s = .next (s.engPassed e r)) ∧
      (0 < k → ∃ u : State, exec (.loopv e f) s = .next u ∧ u = { s with engs := u.engs } ∧
        (∀ x, x ≠ e.val → u.eng x = s.eng x) ∧
        u.eng e = { s.eng e with run := some { r with
          cycles := r.cycles + 1, pc := p.base + n.first + (if n.p / max 1 n.ii = 0 then n.p else 0)
          loop := some { k := f.sd.val / 2, b0 := a / 64 * 64, count := k, sa := a, sb := b, ret := r.pc + 1 } } })) ∧
    (r.u0.cur = none → r.u1.cur = none → r.buf = [] → r.mask = 0 → (s.eng e).queue.length < 64 → (s.eng e).stop = false →
      look [] s.tick.slack e.val = [] → (s.eng e).nexts = [] →
      ∃ u : State, exec (.tickwait e) s = .next u ∧ (u.eng e).st = .armed ∧ (u.eng e).run = none ∧
        (u.eng e).runs = (s.eng e).runs + 1 ∧ (u.eng e).lastLine = r.line ∧ (u.eng e).due = none ∧
        (u.eng e).queue = (s.eng e).queue ++ [.eol [] r.line 0 0 false []] ∧
        u.fld SE_RUNCYC_CYCLES e = (r.cycles + 1) % 2 ^ 24 ∧ (∀ x, x ≠ e.val → u.eng x = s.eng x) ∧
        u = { s with regs := u.regs, engs := u.engs, tick := { s.tick with slack := u.tick.slack } } ∧
        s.keeps u [(.SE_RUNCYC, e.val), (.SE_RUNPEAK, e.val), (.SE_QPEAK, e.val)]) ∧
    ((s.eng e).queue.length < 64 → exec (.mbox e f) s = .next (s.engQueued e r [.mbox
      (leBytes 8 ((s.eng e).sreg f.sa).toNat ++ leBytes 1 (f.imm.toNat % 256) ++ leBytes 1 e ++ leBytes 6 0
        ++ leBytes 8 (65536 * ofSigned 48 r.line) ++ leBytes 8 0)])))

/-- The U-slot instructions of two vectors (R132, R133, R144): in every lane of PG and every channel the mask CMN leaves open the
destination takes the value of the rule; elsewhere it keeps its own, or becomes 0 where Z is set and only PG excludes the lane. Sums,
differences and products saturate to type T. All complete in one cycle, MULH in two.
The U-slot instructions of three vectors, and those of one vector with an immediate (R132, R144): the same of MIN3, MAX3, MED3, CLAMP,
ADDIU, ADDIS, ABS, U_SHL, U_SHR and CVT. -/
def Obligations.VectorArithmetic : Prop :=
  (
  ∀ (s : State) (e : Fin 16) (u1 : Bool) (f : UFields) (r : Run) (p : Prog) (va vb : Vec) (i : Instr)
      (op : BitVec 16 → BitVec 16 → BitVec 16),
    s.engReady e r p → va = (s.eng e).vreg f.va → vb = (s.eng e).vreg f.vb → va.length = 256 → vb.length = 256 →
    (i, op) ∈ ([
      (.uAdd e u1 f, fun a b => if f.t then BitVec.ofInt 16 (max (-32768) (min 32767 (a.toInt + b.toInt)))
        else BitVec.ofNat 16 (min 65535 (a.toNat + b.toNat))),
      (.uSub e u1 f, fun a b => if f.t then BitVec.ofInt 16 (max (-32768) (min 32767 (a.toInt - b.toInt)))
        else BitVec.ofNat 16 (a.toNat - b.toNat)),
      (.mulh e u1 f, fun a b => if f.t
        then BitVec.ofInt 16 (max (-32768) (min 32767 ((a.toInt * b.toInt + (if f.rnd && f.sh != 0 then 2 ^ (f.sh - 1) else 0)) / 2 ^ f.sh)))
        else BitVec.ofNat 16 (min 65535 ((a.toNat * b.toNat + (if f.rnd && f.sh != 0 then 2 ^ (f.sh - 1) else 0)) / 2 ^ f.sh))),
      (.absd e u1 f, fun a b => if f.t then BitVec.ofNat 16 (a.toInt - b.toInt).natAbs
        else BitVec.ofNat 16 (max a.toNat b.toNat - min a.toNat b.toNat)),
      (.uMin e u1 f, fun a b => if f.t then (if a.sle b then a else b) else (if a.ule b then a else b)),
      (.uMax e u1 f, fun a b => if f.t then (if a.sle b then b else a) else (if a.ule b then b else a)),
      (.uAnd e u1 f, fun a b => a &&& b), (.uOr e u1 f, fun a b => a ||| b), (.uXor e u1 f, fun a b => a ^^^ b),
      (.andn e u1 f, fun a b => a &&& ~~~ b)] : List (Instr × (BitVec 16 → BitVec 16 → BitVec 16))) →
    ∃ (t : State) (vals : List (Option (BitVec 16))), exec i s = .next t ∧
      t = (if i = .mulh e u1 f then s.engHolds e r (uSlot u1) 1 [.vec f.vd vals] else s.engWrote e r (.vec f.vd vals)) ∧
      vals.length = 256 ∧ ∀ l < 64, ∀ ch < 4, vals[4 * l + ch]? = some
        (if f.cmn.getLsbD ch then none
         else if ((s.eng e).preg f.pg).getLsbD l then some (op (vch va l ch) (vch vb l ch))
         else if f.z then some 0 else none)) ∧
  (
  ∀ (s : State) (e : Fin 16) (u1 : Bool) (f : UFields) (r : Run) (p : Prog) (va vb vc : Vec) (i : Instr)
      (op : BitVec 16 → BitVec 16 → BitVec 16 → BitVec 16) (le : BitVec 16 → BitVec 16 → Bool) (mn mx : BitVec 16 → BitVec 16 → BitVec 16),
    s.engReady e r p → va = (s.eng e).vreg f.va → vb = (s.eng e).vreg f.vb → vc = (s.eng e).vreg (bits f.low.toNat 10 6) →
    va.length = 256 → vb.length = 256 → vc.length = 256 →
    le = (fun a b => if f.t then a.sle b else a.ule b) → mn = (fun a b => if le a b then a else b) →
    mx = (fun a b => if le a b then b else a) →
    (i, op) ∈ ([
      (.min3 e u1 f, fun a b c => mn (mn a b) c), (.max3 e u1 f, fun a b c => mx (mx a b) c),
      (.med3 e u1 f, fun a b c => mx (mn a b) (mn (mx a b) c)), (.clamp e u1 f, fun a b c => mn (mx a b) c),
      (.addiu e u1 f, fun a _ _ => BitVec.ofInt 16 (max 0 (min 65535 ((a.toNat : Int) + f.imm.toInt)))),
      (.addis e u1 f, fun a _ _ => BitVec.ofInt 16 (max (-32768) (min 32767 (a.toInt + f.imm.toInt)))),
      (.abs e u1 f, fun a _ _ => BitVec.ofNat 16 (min 32767 a.toInt.natAbs)),
      (.uShl e u1 f, fun a _ _ => if f.t then BitVec.ofInt 16 (max (-32768) (min 32767 (a.toInt * 2 ^ f.sh)))
        else BitVec.ofNat 16 (min 65535 (a.toNat * 2 ^ f.sh))),
      (.uShr e u1 f, fun a _ _ => BitVec.ofInt 16 (((if f.t then a.toInt else (a.toNat : Int))
        + (if f.rnd && f.sh != 0 then 2 ^ (f.sh - 1) else 0)) / 2 ^ f.sh)),
      (.cvt e u1 f, fun a _ _ => if a.msb then (if f.t then 0 else 32767) else a)] :
        List (Instr × (BitVec 16 → BitVec 16 → BitVec 16 → BitVec 16))) →
    ∃ vals : List (Option (BitVec 16)), exec i s = .next (s.engWrote e r (.vec f.vd vals)) ∧
      vals.length = 256 ∧ ∀ l < 64, ∀ ch < 4, vals[4 * l + ch]? = some
        (if f.cmn.getLsbD ch then none
         else if ((s.eng e).preg f.pg).getLsbD l then some (op (vch va l ch) (vch vb l ch) (vch vc l ch))
         else if f.z then some 0 else none))

/-- The other U-slot instructions that write a vector (R132, R144): SEL takes PG as its selector and writes every lane; MOVI, VSPL,
LANEIX, CHSH and LFUN give each lane and channel the immediate, a scalar's 16-bit piece, the lane's index, a channel of the same lane,
and the lane K further on in VA, or in VB beyond its ends.
The U-slot instructions that write a predicate (R132, R144): a compare gives lane l the value 1 where PG holds it and any, or with CMB
all, of the channels CMN leaves open satisfy the relation; a predicate instruction combines PA and PB lane by lane under PG. P0 takes no
result. -/
def Obligations.VectorMovesAndPredicates : Prop :=
  (
  ∀ (s : State) (e : Fin 16) (u1 : Bool) (f : UFields) (r : Run) (p : Prog) (va vb : Vec) (i : Instr)
      (x : Nat → Nat → BitVec 16),
    s.engReady e r p → va = (s.eng e).vreg f.va → vb = (s.eng e).vreg f.vb → va.length = 256 → vb.length = 256 →
    (∃ vals : List (Option (BitVec 16)), exec (.sel e u1 f) s = .next (s.engWrote e r (.vec f.vd vals)) ∧
      vals.length = 256 ∧ ∀ l < 64, ∀ ch < 4, vals[4 * l + ch]? = some
        (if f.cmn.getLsbD ch then none
         else some (if ((s.eng e).preg f.pg).getLsbD l then vch va l ch else vch vb l ch))) ∧
    ((i, x) ∈ ([
      (.movi e u1 f, fun _ _ => BitVec.ofNat 16 (2048 * f.vb.val + f.low.toNat)),
      (.vspl e u1 f, fun _ ch => BitVec.ofNat 16 (((s.eng e).sreg f.va).toNat / 2 ^ (16 * ch))),
      (.laneix e u1 f, fun l ch => if ch = 0 then BitVec.ofInt 16 ((l : Int) + f.imm.toInt) else 0),
      (.chsh e u1 f, fun l ch => vch va l (f.low.toNat / 4 ^ ch % 4)),
      (.lfun e u1 f, fun l ch =>
        let k := max (-63) (toSigned 7 f.low.toNat);
        if (l : Int) + k < 0 then vch vb ((l : Int) + k + 64).toNat ch
        else if (l : Int) + k ≤ 63 then vch va ((l : Int) + k).toNat ch else vch vb ((l : Int) + k - 64).toNat ch)] :
        List (Instr × (Nat → Nat → BitVec 16))) →
      ∃ vals : List (Option (BitVec 16)), exec i s = .next (s.engWrote e r (.vec f.vd vals)) ∧
        vals.length = 256 ∧ ∀ l < 64, ∀ ch < 4, vals[4 * l + ch]? = some
          (if f.cmn.getLsbD ch then none
           else if ((s.eng e).preg f.pg).getLsbD l then some (x l ch)
           else if f.z then some 0 else none))) ∧
  (
  ∀ (s : State) (e : Fin 16) (u1 : Bool) (f : UFields) (r : Run) (p : Prog) (va vb : Vec) (i : Instr)
      (rel : BitVec 16 → BitVec 16 → Bool) (pr : Bool → Bool → Bool),
    s.engReady e r p → va = (s.eng e).vreg f.va → vb = (s.eng e).vreg f.vb → va.length = 256 → vb.length = 256 →
    ((i, rel) ∈ ([
      (.cmpeq e u1 f, fun a b => a == b),
      (.cmplt e u1 f, fun a b => if f.t then a.slt b else a.ult b),
      (.cmple e u1 f, fun a b => if f.t then a.sle b else a.ule b),
      (.cmpltiu e u1 f, fun a _ => decide ((a.toNat : Int) < f.imm.toInt)),
      (.cmpltis e u1 f, fun a _ => decide (a.toInt < f.imm.toInt)),
      (.cmpgtiu e u1 f, fun a _ => decide (f.imm.toInt < (a.toNat : Int))),
      (.cmpgtis e u1 f, fun a _ => decide (f.imm.toInt < a.toInt))] : List (Instr × (BitVec 16 → BitVec 16 → Bool))) →
      (f.vd.val % 8 = 0 → exec i s = .next (s.engPassed e r)) ∧
      (f.vd.val % 8 ≠ 0 → ∃ v : BitVec 64, exec i s = .next (s.engWrote e r (.pred (f.vd.val % 8) v)) ∧
        ∀ l < 64, (v.getLsbD l = true ↔ ((s.eng e).preg f.pg).getLsbD l = true ∧
          (if f.z then ∀ ch < 4, f.cmn.getLsbD ch = false → rel (vch va l ch) (vch vb l ch) = true
           else ∃ ch < 4, f.cmn.getLsbD ch = false ∧ rel (vch va l ch) (vch vb l ch) = true)))) ∧
    ((i, pr) ∈ ([(.pand e u1 f, fun a b => a && b), (.por e u1 f, fun a b => a || b), (.pxor e u1 f, fun a b => a ^^ b),
      (.pandn e u1 f, fun a b => a && !b), (.pnot e u1 f, fun a _ => !a)] : List (Instr × (Bool → Bool → Bool))) →
      (f.vd.val % 8 = 0 → exec i s = .next (s.engPassed e r)) ∧
      (f.vd.val % 8 ≠ 0 → ∃ v : BitVec 64, exec i s = .next (s.engWrote e r (.pred (f.vd.val % 8) v)) ∧
        ∀ l < 64, v.getLsbD l = (((s.eng e).preg f.pg).getLsbD l
          && pr (((s.eng e).preg (f.va.val % 8)).getLsbD l) (((s.eng e).preg (f.vb.val % 8)).getLsbD l)))))

/-- LD, LDX, LDP and LDW (R110, R112, R113, R142): where the row store grants the reads, lane l of PG takes the element at OFF + l,
moved by the clamped coordinate of VC for LDX and by −32 and +32 into the even and odd register for LDP, clamped to the ring's width;
LDW takes that element, or the least or the greatest of the 2h + 1 around it, channel by channel; a 16-bit element gives two
little-endian bytes a channel and an 8-bit one a byte. The registers are written three cycles after issue. Of a bank under a DESTRUCTIVE
test LD reads 0 (R258).
LDT, LDG, LDH and STW (R141, R142): a table element of 8 bytes at OFF + l, or at OFF plus the index in channel 0 of VC or the index of
vertex 0 to 4 that LUT4X left in VC, clamped to the area, gives its four little-endian channels, and one of 4 bytes its first two with
0 in the others; LDH reads one 8-byte word of the header of the slot into a scalar; STW into a work ring leaves one row-store write for
every lane of PG, two bytes a channel or one, one cycle before it takes effect, and into any other ring nothing. The bank's access table
passes its checks. -/
def Obligations.VectorMemoryInstructions : Prop :=
  (
  ∀ (s : State) (e : Fin 16) (f : WFields) (r : Run) (p : Prog) (g : Ring) (at_ : Int → Nat) (x : Int → Nat → BitVec 16)
      (vec : (Nat → Int) → List (Option (BitVec 16)) → Prop),
    s.engReady e r p → s.tableOk e → s.bankFree e → p.rings[f.src.val]? = some g → (∀ k < g.width,
      (s.iss e r p).grants .r (g.slotOfs ((s.iss e r p).slot g f.rel) + k * g.esize) g.esize = true) →
    at_ = (fun i => stripeBase e + g.slotOfs ((s.iss e r p).slot g f.rel)
      + (max 0 (min ((g.width : Int) - 1) i)).toNat * g.esize) → 0 < g.width →
    x = (fun i ch => BitVec.ofNat 16 (if g.elem = 0 then (memByte s.mem (at_ i + 2 * ch)).toNat
        + 256 * (memByte s.mem (at_ i + 2 * ch + 1)).toNat else (memByte s.mem (at_ i + ch)).toNat)) →
    (g.elem = 0 → g.esize = 8) → (g.elem ≠ 0 → g.esize = 4) →
    vec = (fun ix vals => vals.length = 256 ∧ ∀ l < 64, ∀ ch < 4, vals[4 * l + ch]? = some
      (if ((s.eng e).preg f.pg).getLsbD l then some (x (ix l) ch) else none)) →
    (∃ vals, exec (.ld e f) s = .next (s.engHolds e r slotW 2 [.vec f.vd vals]) ∧ vec (fun l => f.ofs.toInt + l) vals) ∧
    (∃ vals, exec (.ldx e f) s = .next (s.engHolds e r slotW 2 [.vec f.vd vals]) ∧
      vec (fun l => f.ofs.toInt + l + max (-64) (min 64 (vch ((s.eng e).vreg f.vc) l 1).toInt)) vals) ∧
    (∃ vals vals', exec (.ldp e f) s = .next (s.engHolds e r slotW 2
        [.vec (f.vd.val / 2 * 2) vals, .vec (f.vd.val / 2 * 2 + 1) vals']) ∧
      vec (fun l => f.ofs.toInt + l - 32) vals ∧ vec (fun l => f.ofs.toInt + l + 32) vals') ∧
    (f.mode.val = 0 ∨ f.mode.val = 3 →
      ∃ vals, exec (.ldw e f) s = .next (s.engHolds e r slotW 2 [.vec f.vd vals]) ∧ vec (fun l => f.ofs.toInt + l) vals) ∧
    (f.mode.val = 1 ∨ f.mode.val = 2 →
      ∃ vals : List (Option (BitVec 16)), exec (.ldw e f) s = .next (s.engHolds e r slotW 2 [.vec f.vd vals]) ∧
        ∀ l < 64, ∀ ch < 4, ((s.eng e).preg f.pg).getLsbD l = true → ∃ v : BitVec 16, vals[4 * l + ch]? = some (some v) ∧
          (∃ k ≤ 2 * min 4 f.arg.val, v = x (f.ofs.toInt + l - (min 4 f.arg.val : Nat) + (k : Int)) ch) ∧
          ∀ k ≤ 2 * min 4 f.arg.val,
            if f.mode.val = 1 then v ≤ x (f.ofs.toInt + l - (min 4 f.arg.val : Nat) + (k : Int)) ch
            else x (f.ofs.toInt + l - (min 4 f.arg.val : Nat) + (k : Int)) ch ≤ v)) ∧
  (
  ∀ (s : State) (e : Fin 16) (f : WFields) (r : Run) (p : Prog) (g : Ring) (b : BltTest), s.engReady e r p → s.tableOk e →
    s.blt = some b → b.preserving = false → b.sb.testBit e = true → p.rings[f.src.val]? = some g → 0 < g.width →
    (g.elem = 0 → g.esize = 8) → (g.elem ≠ 0 → g.esize = 4) → (∀ k < g.width,
      (s.iss e r p).grants .r (g.slotOfs ((s.iss e r p).slot g f.rel) + k * g.esize) g.esize = true) →
    ∃ vals, exec (.ld e f) s = .next (s.engHolds e r slotW 2 [.vec f.vd vals]) ∧ vals.length = 256 ∧
      ∀ l < 64, ∀ ch < 4, vals[4 * l + ch]? = some (if ((s.eng e).preg f.pg).getLsbD l then some 0 else none)) ∧
  (
  ∀ (s : State) (e : Fin 16) (f : WFields) (r : Run) (p : Prog) (g : Ring) (ar : Nat × Nat) (x : Int → Nat → BitVec 16)
      (vec : (Nat → Int) → List (Option (BitVec 16)) → Prop),
    s.engReady e r p → s.tableOk e → s.bankFree e →
    x = (fun i ch => BitVec.ofNat 16 (memNat s.mem
      (stripeBase e + (ar.1 + (clampInt 0 ((ar.2 / 8 : Nat) - 1 : Int) i).toNat * 8) + 2 * ch) 2)) →
    vec = (fun ix vals => vals.length = 256 ∧ ∀ l < 64, ∀ ch < 4, vals[4 * l + ch]? = some
      (if ((s.eng e).preg f.pg).getLsbD l then some (x (ix l) ch) else none)) →
    (p.areas[f.src.val]? = some ar → f.mode = 0 →
      (∀ k < max 1 (ar.2 / 8), (s.iss e r p).grants .r (ar.1 + k * 8) 8 = true) →
      (∃ vals, exec (.ldt e f) s = .next (s.engHolds e r slotW 2 [.vec f.vd vals]) ∧ vec (fun l => f.ofs.toInt + l) vals) ∧
      (∃ vals, exec (.ldg e f) s = .next (s.engHolds e r slotW 2 [.vec f.vd vals]) ∧
        vec (fun l => f.ofs.toInt + (vch ((s.eng e).vreg f.vc) l 0).toNat) vals)) ∧
    (p.areas[f.src.val]? = some ar → f.mode = 1 → (∀ k < max 1 (ar.2 / 4), (s.iss e r p).grants .r (ar.1 + k * 4) 4 = true) →
      ∃ vals : List (Option (BitVec 16)), exec (.ldt e f) s = .next (s.engHolds e r slotW 2 [.vec f.vd vals]) ∧
        vals.length = 256 ∧ ∀ l < 64, ∀ ch < 4, vals[4 * l + ch]? = some (if ((s.eng e).preg f.pg).getLsbD l then
          some (if ch < 2 then BitVec.ofNat 16 (memNat s.mem (stripeBase e + (ar.1
            + (clampInt 0 ((ar.2 / 4 : Nat) - 1 : Int) (f.ofs.toInt + l)).toNat * 4) + 2 * ch) 2) else 0) else none)) ∧
    (p.areas[f.src.val]? = some ar → f.mode = 1 → (∀ k < max 1 (ar.2 / 8), (s.iss e r p).grants .r (ar.1 + k * 8) 8 = true) →
      ∃ vals, exec (.ldg e f) s = .next (s.engHolds e r slotW 2 [.vec f.vd vals]) ∧
        vec (fun l => f.ofs.toInt + (((vch ((s.eng e).vreg f.vc) l 0).toNat : Int)
          + ((List.range (min 4 f.arg.val)).map fun k =>
              ([729, 81, 9, 1].getD ((vch ((s.eng e).vreg f.vc) l 1).toNat / 4 ^ k % 4) 0 : Nat)).sum)) vals) ∧
    (p.rings[f.src.val]? = some g → g.kind < 3 → f.vd ≠ 0 →
      (∀ k < 4, (s.iss e r p).grants .r (g.hdrOfs ((s.iss e r p).slot g f.rel) + 8 * k) 8 = true) →
      exec (.ldh e f) s = .next (s.engHolds e r slotW 2 [.sca f.vd (BitVec.ofNat 64 (memNat s.mem
        (stripeBase e + (g.hdrOfs ((s.iss e r p).slot g f.rel) + 8 * (f.arg.val % 4))) 8))])) ∧
    (p.rings[f.src.val]? = some g → g.kind ≠ 3 → exec (.stw e f) s = .next (s.engPassed e r)) ∧
    (p.rings[f.src.val]? = some g → g.kind = 3 → 0 < g.width →
      (∀ k < g.width, (s.iss e r p).grants .w (g.slotOfs ((s.iss e r p).slot g 0) + k * g.esize) g.esize = true) →
      exec (.stw e f) s = .next (s.engHolds e r slotW 1
        (((List.range 64).filter fun l => ((s.eng e).preg f.pg).getLsbD l).map fun (l : Nat) =>
          .row ((s.iss e r p).elemAt g 0 (f.ofs.toInt + (l : Int)))
            ((List.range 4).flatMap fun c => leBytes (if g.elem = 0 then 2 else 1) (vch ((s.eng e).vreg f.vd) l c).toNat)))))

/-- MAC, MACI, MULA, ACCCLR and ACCRD (R145, R146): in the lanes of PG the product of type T is added to, or replaces, the
accumulator after three cycles; ACCCLR makes it 0 after one; a write that falls due saturates to 40 bits and leaves the other lanes as
they were; ACCRD, of the accumulator that VA names modulo 4 (log 18, DEDUCED), gives the lanes of PG the accumulator shifted right with rounding and saturated to type T, and with CLR makes it 0 in
those lanes as well.
RSMPH, RSMPV, LUT4X, LUT4W, SIGN and SHCMP (R147–R150): in the lanes of PG the resamplers sum coefficient times tap over TAPS taps,
RSMPV over registers from VA on and RSMPH over the elements of the even and odd register of VA about the lane and its clamped
coordinate, and scale by 2¹⁴ with rounding and saturation to type T; LUT4X gives the base index of the cell and the order of the
fractions, and the fractions in falling order, equal ones in the order of the axes; LUT4W adds or takes table element times the weight
of vertex 0 to 4, and a weight that is not stated for a higher vertex; SIGN is within 1 of the rounded residual before saturation; SHCMP
with an offset beyond ±2 has no effect, and otherwise counts the active lanes into lane 25 and adds the four sums of the five shifts of
its row. -/
def Obligations.AccumulatorAndMatrix : Prop :=
  (
  ∀ (s : State) (e : Fin 16) (f : MFields) (r : Run) (p : Prog) (va vb : Vec) (tv : Bool → BitVec 16 → Int)
      (act : Nat → Bool) (vec : (Nat → Nat → Int) → List (Option Int) → Prop),
    s.engReady e r p → va = (s.eng e).vreg f.va → vb = (s.eng e).vreg f.vb →
    tv = (fun t x => if t then x.toInt else (x.toNat : Int)) → act = (fun l => ((s.eng e).preg f.pg).getLsbD l) →
    vec = (fun x vals => vals.length = 256 ∧ ∀ l < 64, ∀ ch < 4, vals[4 * l + ch]? = some (if act l then some (x l ch) else none)) →
    (∃ vals, exec (.mac e f) s = .next (s.engHolds e r slotM 2 [.acc (f.vd.val % 4) true vals]) ∧
      vec (fun l ch => tv (f.mod.getLsbD 14) (vch va l ch) * tv (f.mod.getLsbD 14) (vch vb l ch)) vals) ∧
    (∃ vals, exec (.maci e f) s = .next (s.engHolds e r slotM 2 [.acc (f.vd.val % 4) true vals]) ∧
      vec (fun l ch => tv (f.mod.getLsbD 3) (vch va l ch) * f.imm) vals) ∧
    (∃ vals, exec (.mula e f) s = .next (s.engHolds e r slotM 2 [.acc (f.vd.val % 4) false vals]) ∧
      vec (fun l ch => tv (f.mod.getLsbD 14) (vch va l ch) * tv (f.mod.getLsbD 14) (vch vb l ch)) vals) ∧
    (∃ vals, exec (.accclr e f) s = .next (s.engWrote e r (.acc (f.vd.val % 4) false vals)) ∧ vec (fun _ _ => 0) vals) ∧
    (∃ vals : List (Option (BitVec 16)), ∃ more : List RegWr,
      exec (.accrd e f) s = .next (s.engHolds e r slotM 2 (.vec f.vd vals :: more)) ∧
      vals.length = 256 ∧ (∀ l < 64, ∀ ch < 4, vals[4 * l + ch]? = some (if act l
        then some (satT (f.mod.getLsbD 14)
          (rshr (((s.eng e).areg (f.va.val % 4)).getD (4 * l + ch) 0).toInt (f.mod.toNat % 64))) else none)) ∧
      (f.mod.getLsbD 13 = false → more = []) ∧
      (f.mod.getLsbD 13 = true → ∃ zero, more = [.acc (f.va.val % 4) false zero] ∧ vec (fun _ _ => 0) zero)) ∧
    (∀ (g : Eng) (k : Nat) (add : Bool) (vals : List (Option Int)) (i : Nat) (old : BitVec 40) (new : Option Int),
      (g.areg k)[i]? = some old → vals[i]? = some new →
      ((g.write (.acc k add vals)).areg k)[i]? = some (match new with
        | some x => BitVec.ofInt 40 (max (-(2 ^ 39)) (min (2 ^ 39 - 1) (if add then old.toInt + x else x)))
        | none => old))) ∧
  (
  ∀ (s : State) (e : Fin 16) (f : MFields) (r : Run) (p : Prog) (va vb : Vec) (act : Nat → Bool),
    s.engReady e r p → va = (s.eng e).vreg f.va → vb = (s.eng e).vreg f.vb →
    act = (fun l => ((s.eng e).preg f.pg).getLsbD l) →
    (∃ vals : List (Option (BitVec 16)), exec (.rsmpv e f) s = .next (s.engHolds e r slotM 3 [.vec f.vd vals]) ∧
      ∀ l < 64, ∀ ch < 4, vals[4 * l + ch]? = some (if act l then some (satT (f.mod.getLsbD 9) (rshr
        ((List.range f.taps).foldl (fun acc k => acc + p.coef f.set (bits ((s.eng e).sreg f.vc).toNat 15 10) k
          * tval (f.mod.getLsbD 9) (vch ((s.eng e).vreg ((f.va.val + k) % 32)) l ch)) 0) 14)) else none)) ∧
    (∃ vals : List (Option (BitVec 16)), exec (.rsmph e f) s = .next (s.engHolds e r slotM 3 [.vec f.vd vals]) ∧
      ∀ l < 64, ∀ ch < 4, ∀ (c : Vec) (ph : Nat) (d : Int) (at_ : Nat → Nat) (x : Nat → BitVec 16),
        c = (s.eng e).vreg f.vc → ph = (vch c l 0).toNat / 1024 → d = max (-64) (min 64 (vch c l 1).toInt) →
        at_ = (fun (k : Nat) => (max 0 (min 127 ((l : Int) + d + (k : Int) - ((f.taps - 1) / 2 : Nat) + 32))).toNat) →
        x = (fun k => if at_ k < 64 then vch ((s.eng e).vreg (f.va.val / 2 * 2)) (at_ k) ch
          else vch ((s.eng e).vreg (f.va.val / 2 * 2 + 1)) (at_ k - 64) ch) →
        vals[4 * l + ch]? = some (if act l then some (satT (f.mod.getLsbD 9) (rshr
          ((List.range f.taps).map fun k => p.coef f.set ph k * tval (f.mod.getLsbD 9) (x k)).sum 14)) else none)) ∧
    (∃ vals vals' : List (Option (BitVec 16)), exec (.lut4x e f) s
        = .next (s.engHolds e r slotM 2 [.vec (f.vd.val / 2 * 2) vals, .vec (f.vd.val / 2 * 2 + 1) vals']) ∧
      (va.length = 256 → ∀ l < 64, (act l = false → ∀ ch < 4, vals[4 * l + ch]? = some none ∧ vals'[4 * l + ch]? = some none) ∧
        (act l = true → ∃ ord : List Nat, ord.Perm [0, 1, 2, 3] ∧
          (∀ i j : Nat, i < j → j < 4 → (vch va l (ord.getD j 0)).toNat % 8192 < (vch va l (ord.getD i 0)).toNat % 8192 ∨
            ((vch va l (ord.getD j 0)).toNat % 8192 = (vch va l (ord.getD i 0)).toNat % 8192 ∧ ord.getD i 0 < ord.getD j 0)) ∧
          vals[4 * l]? = some (some (BitVec.ofNat 16 (729 * ((vch va l 0).toNat / 8192) + 81 * ((vch va l 1).toNat / 8192)
            + 9 * ((vch va l 2).toNat / 8192) + (vch va l 3).toNat / 8192))) ∧
          vals[4 * l + 1]? = some (some (BitVec.ofNat 16
            (ord.getD 0 0 + 4 * ord.getD 1 0 + 16 * ord.getD 2 0 + 64 * ord.getD 3 0))) ∧
          vals[4 * l + 2]? = some (some 0) ∧ vals[4 * l + 3]? = some (some 0) ∧
          ∀ k < 4, vals'[4 * l + k]? = some (some (BitVec.ofNat 16 ((vch va l (ord.getD k 0)).toNat % 8192)))))) ∧
    (∀ k : Nat, k = bits f.mod.toNat 12 10 → k ≤ 4 →
      ∃ vals : List (Option Int), exec (.lut4w e f) s
          = .next (s.engHolds e r slotM 2 [.acc (f.vd.val % 4) (!f.mod.getLsbD 14) vals]) ∧
        ∀ l < 64, ∀ ch < 4, vals[4 * l + ch]? = some (if act l then some (((vch va l ch).toNat : Int)
          * ((if k = 0 then 8192 else ((vch vb l (k - 1)).toNat : Int)) - (if k = 4 then 0 else ((vch vb l k).toNat : Int))))
          else none)) ∧
    (5 ≤ bits f.mod.toNat 12 10 → ∃ vals : List (Option Int), exec (.lut4w e f) s
      = .next { s.engHolds e r slotM 2 [.acc (f.vd.val % 4) (!f.mod.getLsbD 14) vals] with freeCtr := s.freeCtr + 1 }) ∧
    (∃ vals : List (Option (BitVec 16)), exec (.sign e f) s = .next (s.engHolds e r slotM 5 [.vec f.vd vals]) ∧
      ∀ l < 64, ∀ ch < 4, ∀ a b : Nat, a = (vch va l ch).toNat → b = (vch vb l ch).toNat →
        (act l = false → vals[4 * l + ch]? = some none) ∧ (act l = true → ∃ d na nb g : Nat, d ≤ 2 ∧ na = (vch ((s.eng e).vreg (f.vc.val / 2 * 2)) l ch).toNat ∧
          nb = (vch ((s.eng e).vreg (f.vc.val / 2 * 2 + 1)) l ch).toNat ∧
          g = ((s.eng e).sreg (bits f.mod.toNat 13 9)).toNat % 65536 ∧
          vals[4 * l + ch]? = some (some (satS (roundDivSqrt (((a : Int) - b) * 256)
            (max 1 (na * (if f.mod.getLsbD 14 then a else b) * g / 2 ^ 26 + nb * g * g / 2 ^ 28)) + (d : Int) - 1))))) ∧
    (∀ dy : Int, dy = toSigned 3 (bits f.mod.toNat 14 12) →
      ((dy < -2 ∨ 2 < dy) → exec (.shcmp e f) s = .next (s.engPassed e r)) ∧
      (-2 ≤ dy → dy ≤ 2 → ∃ vals : List (Option Int),
        exec (.shcmp e f) s = .next (s.engHolds e r slotM 3 [.acc (f.vd.val % 4) true vals]) ∧ vals.length = 256 ∧
        vals[100]? = some (some (((List.range 64).filter act).length : Int)) ∧
        (∀ k < 5, ∀ (ch : Nat) (x y : Nat → Nat), ch = bits f.mod.toNat 11 10 → x = (fun l => (vch va l ch).toNat / 256) →
          y = (fun l => (if l + k + 30 < 64 then vch ((s.eng e).vreg (f.vb.val / 2 * 2)) (l + k + 30) ch
            else vch ((s.eng e).vreg (f.vb.val / 2 * 2 + 1)) (l + k + 30 - 64) ch).toNat / 256) →
          ∀ i < 4, ∀ n : Nat, n = (((List.range 64).filter act).map fun l => [x l * y l, y l * y l, x l, y l].getD i 0).sum →
            vals[4 * ((5 * (dy + 2)).toNat + k) + i]? = some (some (n : Int))) ∧
        (∀ l : Nat, l < 64 → (l = 25 ∨ ((l : Int) < 5 * (dy + 2) ∨ 5 * (dy + 2) + 5 ≤ l)) → ∀ ch < 4, (l = 25 → ch ≠ 0) →
          vals[4 * l + ch]? = some none))))

/-- STC, EMIT, PROJ and SREG outside a loop (R151–R154, R158): STC queues six entries with a byte for every lane of PG, three to a lane,
rounded from 14 to 8 bits and limited to 255; EMIT with no open run and nothing in the run buffer queues an empty notice of a vector
without a flagged lane, and of one whose flagged lanes are a to b, with b not the last, a notice with their one record; PROJ queues one
entry with the address and the eight sums of eight lanes; SREG queues its 14 entries, the header and the 100 sums limited to 32 bits, and
with CLR makes the accumulator 0 in the lanes of PG.
BUNDLE_ISSUE and RUN_OVERRUN (R120, R122, R126): a bundle of six NOPs takes one cycle and goes on to the next; a parity error puts a
LOADED, ARMED or RUNNING engine into FAULT with cause 3, and a run at its worst-case cost is stopped with cause 1; both end run and
outstanding writes, set FAULT and interrupt; a program past its splice line then takes over, since no run of an earlier line is left
(R128); before that cost RUN_OVERRUN changes nothing. -/
def Obligations.QueueAndBundles : Prop :=
  (
  ∀ (s : State) (e : Fin 16) (f : EFields) (r : Run) (p : Prog) (va : Vec) (act : Nat → Bool),
    s.engReady e r p → va = (s.eng e).vreg f.va → act = (fun l => ((s.eng e).preg f.pg).getLsbD l) →
    (s.eng e).queue.length + 14 ≤ 64 →
    (r.mask = 0 → ∃ q : List QEntry, exec (.stc e f) s = .next (s.engQueued e r q) ∧ q.length = 6 ∧
      ∀ n < 6, q[n]? = some (.stc (((List.range 32).filter fun k => act ((32 * n + k) / 3)).map fun k =>
        ((((s.eng e).sreg f.sa).toNat + 32 * n + k) % 2 ^ 40,
          BitVec.ofNat 8 (min 255 (((vch va ((32 * n + k) / 3) ((32 * n + k) % 3)).toNat + 32) / 64)))))) ∧
    (f.imm.getLsbD 0 = false → r.u0.cur = none → r.buf = [] → (∀ l < 64, act l = false) →
      ∃ u : State, exec (.emit e f) s = .next u ∧ (u.eng e).queue = (s.eng e).queue ++ [.emit []] ∧
        (u.eng e).run = some { r.stepped with u0 := { cur := none, prev := some (0, false) } } ∧
        u = { s with regs := u.regs, engs := u.engs } ∧ s.keeps u [(.SE_QPEAK, e.val)]) ∧
    (∀ (a b : Nat), f.imm.getLsbD 0 = false → r.u0.cur = none → r.buf = [] → r.mask = 0 → va.length = 256 → a ≤ b → b < 63 →
      (∀ l < 64, act l = true ↔ a ≤ l ∧ l ≤ b) → s.stripeStart e + 64 ≤ 2 ^ 18 →
      ∃ (u : State) (x : RunRec), exec (.emit e f) s = .next u ∧ (u.eng e).queue = (s.eng e).queue ++ [.emit [x]] ∧
        x.first = s.stripeStart e + a ∧ x.last = s.stripeStart e + b ∧ x.unit = 0 ∧ x.user = bits f.imm.toNat 7 4 ∧
        x.eng = e.val ∧ x.line = ofSigned 16 r.line ∧ x.ovf = false ∧ x.cutL = false ∧ x.cutR = false ∧
        (∀ ch < 4, x.sums[ch]? = some ((List.range (b + 1 - a)).map fun k => (vch va (a + k) ch).toInt).sum) ∧
        (∀ k, a ≤ k → k ≤ b → (vch va k (bits f.imm.toNat 9 8)).toInt.natAbs ≤ x.peak) ∧
        x.peak = (vch va (a + x.off) (bits f.imm.toNat 9 8)).toInt.natAbs ∧ a + x.off ≤ b ∧
        (u.eng e).run = some { r.stepped with u0 := { cur := none, prev := some (0, false) }, buf := [x] } ∧
        u = { s with regs := u.regs, engs := u.engs } ∧ s.keeps u [(.SE_QPEAK, e.val)]) ∧
    (∃ bs : List Byte, exec (.proj e f) s
        = .next (s.engQueued e r [.proj (((s.eng e).sreg f.sa).toNat % 2 ^ 40) bs]) ∧ bs.length = 32 ∧
      ∀ k < 8, (bs.drop (4 * k)).take 4 = leBytes 4 (ofSigned 32
        ((List.range 8).foldl (fun a j => if act (8 * k + j) then a + (vch va (8 * k + j) (f.imm.toNat % 4)).toInt else a) 0))) ∧
    (∀ (val : Nat → Nat), val = (fun k => if k < 100 then
          (max 0 (min 4294967295 (((s.eng e).areg (f.va.val % 4)).getD k 0).toInt)).toNat else 0) →
      ∃ q : List QEntry, q.length = 14 ∧ q[0]? = some (.sreg 0 (leBytes 8 (65536 * ofSigned 48 r.line) ++ leBytes 1 e
          ++ leBytes 1 (decide (r.mask = 0)).toNat ++ leBytes 6 0 ++ leBytes 4
            (max 0 (min 4294967295 (((s.eng e).areg (f.va.val % 4)).getD 100 0).toInt)).toNat ++ leBytes 12 0)) ∧
        (∀ n < 13, q[n + 1]? = some (.sreg (n + 1) ((List.range 8).flatMap fun k => leBytes 4 (val (8 * n + k))))) ∧
        (f.imm.getLsbD 0 = false → exec (.sreg e f) s = .next (s.engQueued e r q)) ∧
        (f.imm.getLsbD 0 = true → ∃ vals : List (Option Int), vals.length = 256 ∧
          (∀ l < 64, ∀ ch < 4, vals[4 * l + ch]? = some (if act l then some 0 else none)) ∧
          exec (.sreg e f) s = .next ((s.engQueued e r q).updEng e (·.write (.acc (f.va.val % 4) false vals)))))) ∧
  (
  ∀ (s : State) (e : Fin 16) (r : Run) (p : Prog),
    (s.engReady e r p → look 0 (s.eng e).imem (r.pc % 2048) = 0 →
      exec (.bundleIssue e false) s = .next (s.engPassed e r) ∧ exec (.runOverrun e) s = .next s) ∧
    (s.inRun = true → ((s.eng e).st = .loaded ∨ (s.eng e).st = .armed ∨ (s.eng e).st = .running) → (s.eng e).nexts = [] →
      ∃ u : State, exec (.bundleIssue e true) s = .next u ∧
        u.eng e = { s.eng e with st := .fault, fcause := 3, run := none, pend := [] } ∧ u.flag SE_STAT_FAULT e = true ∧
        u = { s with regs := u.regs, engs := u.engs, zsp := { s.zsp with irqs := "SE_FAULT" :: s.zsp.irqs } } ∧
        s.keeps u [(.SE_STAT, e.val), (.SE_FAULT_CNT, e.val)]) ∧
    (∀ (q : Prog) (lim : Nat) (at_ : Int), s.inRun = true →
      ((s.eng e).st = .loaded ∨ (s.eng e).st = .armed ∨ (s.eng e).st = .running) → (s.eng e).nexts = [(q, lim, at_)] →
      ∃ u : State, exec (.bundleIssue e true) s = .next u ∧ (∀ x, x ≠ e.val → u.eng x = s.eng x) ∧
        u.eng e = { s.eng e with
          st := .fault, fcause := 3, run := none, pend := [], prog := some q, nexts := [], firstSplice := true } ∧
        u.flag SE_STAT_FAULT e = true ∧
        u = { s with regs := u.regs, engs := u.engs, zsp := { s.zsp with irqs := "SE_FAULT" :: s.zsp.irqs } }) ∧
    (s.inRun = true → (s.eng e).st = .running → (s.eng e).run = some r → (s.eng e).prog = some p → p.cost ≤ r.cycles →
      (s.eng e).nexts = [] →
      ∃ u : State, exec (.runOverrun e) s = .next u ∧
        u.eng e = { s.eng e with st := .fault, fcause := 1, run := none, pend := [] } ∧ u.flag SE_STAT_FAULT e = true ∧
        u = { s with regs := u.regs, engs := u.engs, zsp := { s.zsp with irqs := "SE_FAULT" :: s.zsp.irqs } } ∧
        s.keeps u [(.SE_STAT, e.val), (.SE_FAULT_CNT, e.val)]))

/-- ENGINE_GO, ENGINE_GO_CLEAR and ENGINE_RESTART (R126): GO arms a LOADED engine, whose next run is a first run and whose oldest
waiting tick falls due; in EMPTY and in FAULT it is ignored with CFG_ERR; in ARMED it changes nothing. GO cleared takes an ARMED
engine back to LOADED, a tick it had taken going back to the front of a FIFO that is not full (log 67, DEDUCED), and stops a RUNNING one after
its run.
RESTART arms an engine in FAULT, with no spliced program due, with its registers reading 0 and none of its ticks waiting; elsewhere it
does what a clear of GO does.
ENGINE_RUN_START (R115–R117): the tick that has reached an ARMED engine with no spliced or staged program and not barred from REF
starts its run where no camera is routed or sent on a halo and no camera ring fails: the run is for that line, at the program's entry
bundle with no cycle spent, its context's first word carries the line, its sixth the stripe and its last the runs before it; the mask of
missing rings is 0 exactly where every check passes, else BLIND_RUN is set. No other engine, and no memory, changes. -/
def Obligations.EngineControlAndRuns : Prop :=
  (
  ∀ (s : State) (m : Master) (e : Fin 16) (v : Word), s.mayWrite m .SE_CTL e → v.getLsbD 0 = false → v.getLsbD 1 = false →
    ((s.eng e).st = .loaded →
      ∃ u : State, exec (.engineGo m e v) s = .next u ∧
        u.eng e = { s.eng e with st := .armed, firstRun := true, due := (s.slackOf e).head? } ∧
        u.slackOf e = (s.slackOf e).drop 1 ∧ u.fld SE_CTL_GO e = 1 ∧
        u = { s with regs := u.regs, engs := u.engs, tick := { s.tick with slack := u.tick.slack }, resp := {} } ∧
        (∀ y, y ≠ e.val → u.eng y = s.eng y ∧ u.slackOf y = s.slackOf y) ∧ s.keeps u [(.SE_CTL, e.val)]) ∧
    (((s.eng e).st = .empty ∨ (s.eng e).st = .fault) →
      ∃ u : State, exec (.engineGo m e v) s = .next u ∧ u.flag SE_STAT_CFG_ERR e = true ∧
        u = { s with regs := u.regs, resp := {} } ∧ s.keeps u [(.SE_STAT, e.val), (.SE_CFG_CNT, e.val)]) ∧
    ((s.eng e).st = .armed → exec (.engineGo m e v) s = .next { s with resp := {} }) ∧
    ((s.eng e).st = .armed → (s.eng e).due = none →
      ∃ u : State, exec (.engineGoClear m e v) s = .next u ∧ u.eng e = { s.eng e with st := .loaded } ∧ u.fld SE_CTL_GO e = 0 ∧
        u = { s with regs := u.regs, engs := u.engs, resp := {} } ∧ (∀ y, y ≠ e.val → u.eng y = s.eng y) ∧
        s.keeps u [(.SE_CTL, e.val)]) ∧
    (∀ n : Int, (s.eng e).st = .armed → (s.eng e).due = some n → (s.slackOf e).length < 8 →
      ∃ u : State, exec (.engineGoClear m e v) s = .next (if s.slackOf e = [] then u.strobe [3] else u) ∧
        u.eng e = { s.eng e with st := .loaded, due := none } ∧ u.slackOf e = n :: s.slackOf e ∧ u.fld SE_CTL_GO e = 0 ∧
        u = { s with regs := u.regs, engs := u.engs, tick := { s.tick with slack := u.tick.slack }, resp := {} } ∧
        (∀ y, y ≠ e.val → u.eng y = s.eng y ∧ u.slackOf y = s.slackOf y) ∧
        s.keeps u [(.SE_CTL, e.val), (TICK_SLACK_PEAK.reg, e.val)]) ∧
    ((s.eng e).st = .running →
      ∃ u : State, exec (.engineGoClear m e v) s = .next u ∧ u.eng e = { s.eng e with stop := true } ∧ u.fld SE_CTL_GO e = 0 ∧
        u = { s with regs := u.regs, engs := u.engs, resp := {} } ∧
        (∀ y, y ≠ e.val → u.eng y = s.eng y) ∧ s.keeps u [(.SE_CTL, e.val)]) ∧
    ((s.eng e).st = .fault → (s.eng e).nexts = [] →
      ∃ u : State, exec (.engineRestart m e v) s = .next u ∧
        u.eng e = { s.eng e with
          st := .armed, due := none, stop := false, firstRun := true, v := [], acc := [], p := [], sc := [], pend := []
          judged := (u.eng e).judged } ∧
        u.fld SE_CTL_GO e = 1 ∧ u.slackOf e = [] ∧ (∀ y, y ≠ e.val → u.eng y = s.eng y) ∧
        (s.slackOf e = [] → (s.eng e).due = none → (u.eng e).judged = (s.eng e).judged ∧
          u = { s with regs := u.regs, engs := u.engs, tick := { s.tick with slack := u.tick.slack }, resp := {} } ∧
          s.keeps u [(.SE_CTL, e.val)])) ∧
    ((s.eng e).st ≠ .fault → exec (.engineRestart m e v) s = exec (.engineGoClear m e v) s)) ∧
  (
  ∀ (s : State) (e : Fin 16) (n : Int) (p : Prog), s.inRun = true → s.on TICK_CTL_EN = true → (s.eng e).st = .armed →
    (s.eng e).due = some n → (s.eng e).prog = some p → (s.eng e).staged = none → (s.eng e).nexts = [] →
    (∀ c < 12, s.routesOf c = [] ∧ s.haloOf c = []) → s.ref.barred.contains e.val = false → s.ref.nextRow ≤ s.ref.freed →
    (∀ x ∈ p.rings.zipIdx, x.1.kind = 0 → (s.ringCheck e n (s.pageCtx e p n) x.2 x.1).1 = false) →
    ∃ (u : State) (r : Run), exec (.engineRunStart e) s = .next u ∧
      u.eng e = { s.eng e with
        st := .running, due := none, run := some r, firstRun := false, firstSplice := false, lastLine := n
        judged := max (s.eng e).judged n } ∧
      r.line = n ∧ r.pc = p.base + p.entry ∧ r.cycles = 0 ∧ r.loop = none ∧ r.ctx.length = 8 ∧
      r.ctx[0]? = some (BitVec.ofNat 64 (65536 * ofSigned 48 n)) ∧
      r.ctx[5]? = some (BitVec.ofNat 64 (s.fld SE_STRIPE_START e + 2 ^ 18 * s.fld SE_STRIPE_WIDTH e)) ∧
      r.ctx[7]? = some (BitVec.ofNat 64 (s.eng e).runs) ∧
      (if p.rings.zipIdx.all (fun x => !(s.ringCheck e n (s.pageCtx e p n) x.2 x.1).1) then r.mask = 0 ∧ u.regs = s.regs
        else r.mask ≠ 0 ∧ u.flag SE_STAT_BLIND_RUN e = true) ∧
      u = { s with
        regs := u.regs, engs := u.engs, freeCtr := u.freeCtr, ref := { s.ref with trk := u.ref.trk }
        rpt := { s.rpt with wait := u.rpt.wait, open_ := u.rpt.open_, startLine := u.rpt.startLine } } ∧
      (∀ y, y ≠ e.val → u.eng y = s.eng y) ∧ s.keeps u [(.SE_STAT, e.val), (.SE_BLIND_CNT, e.val)])

/-- PROGRAM_LOAD and LOAD_DONE (R127, R259): a LOAD latches image address, bundle base and limit, and BUSY reads 1; while it does a
second is ignored. A load into an engine whose bank has FAILED ends with ERROR, at STEP 0 (log 69, DEDUCED). A load whose image fails its signature or any later
check ends with that result and step, DONE and LOAD_FAIL, and the program stays (STEP has three bits: log 40); one that passes extends
MR2; with SPLICE = 1 it stages the program, with SPLICE = 0, in an engine that had taken no tick and with Accord, REF and SPAN disabled,
it puts the program in, discarding a staged one and restarting the count of runs (log 66, DEDUCED), the engine into LOADED with registers
reading 0. Without a load LOAD_DONE changes nothing. -/
def Obligations.ProgramLoadAndCheck : Prop :=
  ∀ (s : State) (m : Master) (e : Fin 16) (v : Word),
    (s.mayWrite m .SE_LDCMD e → s.on SE_LDRES_BUSY e = false →
      ∃ u : State, exec (.programLoad m e v) s = .next u ∧
        (u.eng e).load = some { addr := s.fld SE_IMG_LO_ADDR_L e + 2 ^ 32 * s.fld SE_IMG_HI_ADDR_H e
                                splice := v.getLsbD 1, base := bits v.toNat 26 16
                                limit := if v.getLsbD 1 then s.fld SE_SBUDGET_SLIMIT e else s.fld SE_BUDGET_LIMIT e } ∧
        u.fld SE_LDRES_BUSY e = 1 ∧ u.fld SE_LDRES_DONE e = 0 ∧ (u.eng e).prog = (s.eng e).prog ∧
        u = { s with regs := u.regs, engs := u.engs, resp := {} } ∧ (∀ y, y ≠ e.val → u.eng y = s.eng y) ∧
        s.keeps u [(.SE_LDCMD, e.val), (.SE_LDRES, e.val)]) ∧
    (s.mayWrite m .SE_LDCMD e → s.on SE_LDRES_BUSY e = true →
      ∃ u : State, exec (.programLoad m e v) s = .next u ∧ u = { s with regs := u.regs, resp := {} } ∧
        s.keeps u [(.SE_LDCMD, e.val)]) ∧
    (s.live = true → (s.eng e).load = none → exec (.loadDone e) s = .next s) ∧
    (∀ l : LoadReq, s.live = true → (s.eng e).load = some l → s.on MEM_RPR_FAILED e = true →
      ∃ u : State, exec (.loadDone e) s = .next u ∧ u.fld SE_LDRES_RESULT e = rERROR ∧ u.fld SE_LDRES_STEP e = 0 ∧
        u.fld SE_LDRES_DONE e = 1 ∧ u.fld SE_LDRES_BUSY e = 0 ∧ u.flag SE_STAT_LOAD_FAIL e = true ∧
        u.eng e = { s.eng e with load := none } ∧ (∀ y, y ≠ e.val → u.eng y = s.eng y) ∧
        u = { s with regs := u.regs, engs := u.engs } ∧
        s.keeps u [(.SE_LDRES, e.val), (.SE_STAT, e.val), (.SE_LDF_CNT, e.val)]) ∧
    (∀ (l : LoadReq) (hdr img digest : List Byte) (r w x : State) (ok : Bool) (res step : Nat), s.live = true →
      (s.eng e).load = some l → s.on MEM_RPR_FAILED e = false →
      s.busRead 48 l.addr 64 = (rOK, hdr, r) → r.busRead 48 l.addr (imgSize hdr) = (rOK, img, w) → w = { s with cxl := w.cxl } →
      (ok, digest, x) = w.verifyImage 2 img → (res, step) = (if ok then x.loadCheck e l img else (rAUTH_FAIL, 1)) →
      ∃ u : State, exec (.loadDone e) s = .next u ∧ u.fld SE_LDRES_RESULT e = res ∧ u.fld SE_LDRES_STEP e = step % 8 ∧
        u.fld SE_LDRES_DONE e = 1 ∧ u.fld SE_LDRES_BUSY e = 0 ∧ (∀ y, y ≠ e.val → u.eng y = s.eng y) ∧
        (res ≠ rOK → u.eng e = { s.eng e with load := none } ∧ u.flag SE_STAT_LOAD_FAIL e = true ∧
          u = { x with regs := u.regs, engs := u.engs } ∧
          x.keeps u [(.SE_LDRES, e.val), (.SE_STAT, e.val), (.SE_LDF_CNT, e.val), (.SE_FMAXC, e.val)]) ∧
        (res = rOK → u.mreg 2 = fit 64 (Config.shake256 (s.mreg 2 ++ leBytes 1 2 ++ fit 64 digest) 64)) ∧
        (res = rOK → l.splice = true → (u.eng e).prog = (s.eng e).prog ∧ (u.eng e).st = (s.eng e).st ∧
          (u.eng e).staged = some (imgProg img l.base, l.limit)) ∧
        (res = rOK → l.splice = false → (s.eng e).due = none → s.on ACCORD_CTL_EN = false → s.on REF_CTL_EN = false →
          s.on SPAN_CTL_EN = false →
          u.eng e = { s.eng e with
            st := .loaded, prog := some (imgProg img l.base), staged := none, spliceAt := none, nexts := [], stop := false
            firstSplice := false, runs := 0, load := none, v := [], acc := [], p := [], sc := [], pend := []
            imem := imemWrite (s.eng e).imem l.base (imgBundles img) } ∧
          u.fld SE_CTL_GO e = 0 ∧ u = { x with regs := u.regs, engs := u.engs, sec := { x.sec with mr := u.sec.mr } }))

/-- QUEUE_ENTRY_DRAIN (R123, R125, R156, R158, R293): the oldest entry leaves an engine's queue and is acted on: a byte of a
store is written where the bus answers OK, and sets STC_ERR where it does not; run records reach an enabled Sillage, each but a record
255 sent again, which takes the place of the one received (log 55, DEDUCED), appended to those received, and no other; a projection is written; an entry of an empty kernel mask does nothing; a
mailbox entry is lost with EMB_OVF while the ring is disabled or full or, the model's choice (log 128), its write is refused, else it is
written at the write index, which advances; an SREG part reaches REF only in reference mode; an end of line tells an enabled Sillage the
line with its blind intervals. -/
def Obligations.QueueEntryDrains : Prop :=
  ∀ (s : State) (e : Fin 16) (qs : List QEntry), s.live = true →
    ((s.eng e).queue = [] → exec (.queueEntryDrain e) s = .next s) ∧
    (∀ (a : Nat) (b : Byte) (t : State), (s.eng e).queue = .stc [(a, b)] :: qs →
      (s.updEng e fun g => { g with queue := qs }).busWrite e a [b] = (rOK, t) →
      ∃ u : State, exec (.queueEntryDrain e) s = .next u ∧ u = { t with cxl := u.cxl } ∧
        ((∀ p < 4, ∀ x ∈ (t.cxlp p).outst, x.master = e → x.tag.isSome = true) → u = t)) ∧
    (∀ (a r : Nat) (b : Byte) (t : State), (s.eng e).queue = .stc [(a, b)] :: qs → r ≠ rOK →
      (s.updEng e fun g => { g with queue := qs }).busWrite e a [b] = (r, t) →
      ∃ u : State, exec (.queueEntryDrain e) s = .next u ∧ u.flag SE_STAT_STC_ERR e = true ∧ u.mem = t.mem) ∧
    (∀ recs : List RunRec, (s.eng e).queue = .emit recs :: qs →
      (s.on SIL_CTL_EN = false → exec (.queueEntryDrain e) s = .next (s.updEng e fun g => { g with queue := qs })) ∧
      (s.on SIL_CTL_EN = true → ∃ u : State, exec (.queueEntryDrain e) s = .next u ∧ u.sil.runs = recs.foldl runsAdd s.sil.runs ∧
        ((∀ x ∈ recs, x.ovf = false) → u.sil.runs = s.sil.runs ++ recs) ∧
        u.eng e = { s.eng e with queue := qs } ∧
        u = { s with regs := u.regs, engs := u.engs, sil := { s.sil with runs := u.sil.runs } } ∧
        s.keeps u [(.SIL_STAT, 0), (.SIL_ROVF_CNT, 0)] ∧
        ((recs.any fun r => r.ovf) = true → u.flag SIL_STAT_RUN_OVF = true) ∧
        ((recs.any fun r => r.ovf) = false → u.regs = s.regs))) ∧
    ((s.eng e).queue = .void :: qs → exec (.queueEntryDrain e) s = .next (s.updEng e fun g => { g with queue := qs })) ∧
    (∀ (a : Nat) (bs : List Byte), (s.eng e).queue = .proj a bs :: qs →
      ∃ t u : State, t = ((s.updEng e fun g => { g with queue := qs }).busWrite e a bs).2 ∧
        exec (.queueEntryDrain e) s = .next u ∧ u = { t with cxl := u.cxl } ∧
        ((∀ p < 4, ∀ x ∈ (t.cxlp p).outst, x.master = e → x.tag.isSome = true) → u = t)) ∧
    (∀ bs : List Byte, (s.eng e).queue = .mbox bs :: qs →
      (s.on ETH_EMB_CFG_EN = false ∨
          seqSub (s.fld ETH_EMB_WR_IDX) (s.fld ETH_EMB_RD_IDX) = 2 ^ s.fld ETH_EMB_CFG_ELOG →
        ∃ u : State, exec (.queueEntryDrain e) s = .next u ∧ u.flag ETH_MB_STAT_EMB_OVF = true ∧
          u.eng e = { s.eng e with queue := qs } ∧ u = { s with regs := u.regs, engs := u.engs } ∧
          s.keeps u [(.ETH_MB_STAT, 0), (.ETH_EMBO_CNT, 0)]) ∧
      (∀ (r : Nat) (t : State), s.on ETH_EMB_CFG_EN = true → t.regs = s.regs →
        seqSub (s.fld ETH_EMB_WR_IDX) (s.fld ETH_EMB_RD_IDX) ≠ 2 ^ s.fld ETH_EMB_CFG_ELOG →
        (s.updEng e fun g => { g with queue := qs }).busWrite e
            (poolBase + s.fld ETH_EMB_BASE_OFS + 32 * (s.fld ETH_EMB_WR_IDX % 2 ^ s.fld ETH_EMB_CFG_ELOG)) (fit 32 bs) = (r, t) →
        (r = rOK → ∃ u : State, exec (.queueEntryDrain e) s = .next u ∧
          u.fld ETH_EMB_WR_IDX = (s.fld ETH_EMB_WR_IDX + 1) % 2 ^ 32 ∧
          u = { t with regs := u.regs, zsp := { t.zsp with irqs := "ENGINE_MBOX" :: t.zsp.irqs } } ∧
          t.keeps u [(.ETH_EMB_WR, 0)]) ∧
        (r ≠ rOK → ∃ u : State, exec (.queueEntryDrain e) s = .next u ∧ u.flag ETH_MB_STAT_EMB_OVF = true ∧
          u = { t with regs := u.regs } ∧ t.keeps u [(.ETH_MB_STAT, 0), (.ETH_EMBO_CNT, 0)]))) ∧
    (∀ (part : Nat) (bs : List Byte), (s.eng e).queue = .sreg part bs :: qs →
      (s.refMode = false → exec (.queueEntryDrain e) s = .next (s.updEng e fun g => { g with queue := qs })) ∧
      (s.refMode = true → part ≠ 13 →
        exec (.queueEntryDrain e) s = .next ((s.updEng e fun g => { g with queue := qs }).updTrk e fun t =>
          { t with part := (if part = 0 then [] else (s.trk e).part) ++ bs }))) ∧
    (∀ (recs : List RunRec) (l : Int) (a b : Nat) (c : Bool) (ranges : List (Nat × Nat)),
      (s.eng e).queue = .eol recs l a b c ranges :: qs →
      ∃ u : State, exec (.queueEntryDrain e) s = .next u ∧ (u.eng e) = { s.eng e with queue := qs } ∧
        u.sil.eols = (if s.on SIL_CTL_EN then s.sil.eols ++ [{ eng := e, line := l, runs := [], blind := ranges.map fun r => (s.stripeStart e + r.1, s.stripeStart e + r.2) }] else s.sil.eols) ∧
        u.sil.runs = (if s.on SIL_CTL_EN then recs.foldl runsAdd s.sil.runs else s.sil.runs) ∧
        u = { s with
          regs := u.regs, engs := u.engs, sil := { s.sil with runs := u.sil.runs, eols := u.sil.eols }
          ref := { s.ref with trk := u.ref.trk }
          rpt := { s.rpt with wait := u.rpt.wait, open_ := u.rpt.open_, doneLine := u.rpt.doneLine } } ∧
        s.keeps u [(.SIL_STAT, 0), (.SIL_ROVF_CNT, 0)])

/-- PAGE_DESCRIPTOR, TILE_PACKET and TILE_DECOMPRESSED (R178–R181, R199), each with the oldest packet received taken: a descriptor
of an unused id and a permitted length joins the queue with the next reference rows, any other is discarded with DESC_ERR, and
credit is granted; a tile of a live page at its place, not yet complete, goes to the lowest idle CMP engine or waits, a duplicate
is counted and any other discarded with TILE_ERR, its blocks returned; in the self-reference modes both are PKT_ERR. A stored
tile of full size whose rows are written becomes complete in its page. -/
def Obligations.ReferenceFeed : Prop :=
  ∀ (s : State) (j : Nat) (p : Packet) (rest : List (Nat × Packet)), s.live = true →
    (s.ref.inbox = (j, p) :: rest → p.ch = 1 →
      (s.refMode = false → ∃ u : State, exec .pageDescriptor s = .next u.refGrant ∧ u.flag REF_STAT_PKT_ERR = true ∧
        u = { s with ref := { s.ref with inbox := rest }, regs := u.regs } ∧ s.keeps u [(.REF_STAT, 0), (.REF_PKT_CNT, 0)]) ∧
      (s.refMode = true → (leNat ((p.bytes.drop 4).take 4) < 32 ∨ s.fld REF_PMAX_PMAX < leNat ((p.bytes.drop 4).take 4) ∨
          leNat (p.bytes.take 4) = 0xFFFFFFFF ∨ ∃ q ∈ s.ref.queue, q.id = leNat (p.bytes.take 4)) →
        ∃ u : State, exec .pageDescriptor s = .next u.refGrant ∧ u.flag REF_STAT_DESC_ERR = true ∧
          u = { s with ref := { s.ref with inbox := rest }, regs := u.regs } ∧
          s.keeps u [(.REF_STAT, 0), (.REF_DESC_CNT, 0)]) ∧
      (s.refMode = true → 32 ≤ leNat ((p.bytes.drop 4).take 4) → leNat ((p.bytes.drop 4).take 4) ≤ s.fld REF_PMAX_PMAX →
        leNat (p.bytes.take 4) ≠ 0xFFFFFFFF → (∀ q ∈ s.ref.queue, q.id ≠ leNat (p.bytes.take 4)) →
        exec .pageDescriptor s = .next ({ s with ref := { s.ref with
          inbox := rest, nextRow := s.ref.nextRow + leNat ((p.bytes.drop 4).take 4)
          queue := s.ref.queue ++ [{ id := leNat (p.bytes.take 4), len := leNat ((p.bytes.drop 4).take 4)
                                     design := leNat ((p.bytes.drop 8).take 2), qp := s.ref.nextRow }] } } : State).refGrant)) ∧
    (∀ pg : RefPage, s.ref.inbox = (j, p) :: rest → p.ch = 0 →
      s.livePages.find? (fun q => q.id == leNat ((p.bytes.drop 0).take 4)) = some pg → s.refMode = true →
      (pg.len + 63) / 64 > leNat ((p.bytes.drop 4).take 4) → s.refTiles > leNat ((p.bytes.drop 8).take 2) →
      leNat ((p.bytes.drop 10).take 2) = min (s.fld REF_TILE_TILEW)
        (s.fld REF_RWIDTH_WIDTH - leNat ((p.bytes.drop 8).take 2) * s.fld REF_TILE_TILEW) →
      let t : RefTile :=
        { page := leNat ((p.bytes.drop 0).take 4), band := leNat ((p.bytes.drop 4).take 4), tile := leNat ((p.bytes.drop 8).take 2),
          width := leNat ((p.bytes.drop 10).take 2), rows := pg.bandRows (leNat ((p.bytes.drop 4).take 4)),
          stored := (leNat ((p.bytes.drop 12).take 1)).testBit 0, lane := j, stream := p.bytes.drop 16, qp := pg.qp };
      (pg.tiles.contains (t.band, t.tile) = true → ∃ u : State, exec .tilePacket s = .next (u.refReturn j t.blocks) ∧
        u = { s with ref := { s.ref with inbox := rest }, regs := u.regs
                     zsp := { s.zsp with tilesLost := s.zsp.tilesLost + 1 } } ∧
        (u.reg .REF_DUP_CNT).toNat = min 0xFFFF ((s.reg .REF_DUP_CNT).toNat + 1) ∧ s.keeps u [(.REF_DUP_CNT, 0)]) ∧
      (∀ i : Nat, pg.tiles.contains (t.band, t.tile) = false → s.cmpIdle = some i → s.ref.waiting = [] →
        exec .tilePacket s = .next { s with
          ref := { s.ref with inbox := rest }, cmp := { s.cmp with eng := put (CmpOwner.tile t) s.cmp.eng i } }) ∧
      (pg.tiles.contains (t.band, t.tile) = false → (s.cmpIdle = none ∨ s.ref.waiting ≠ []) →
        exec .tilePacket s = .next { s with ref := { s.ref with inbox := rest, waiting := s.ref.waiting ++ [t] } })) ∧
    (s.ref.inbox = (j, p) :: rest → p.ch = 0 → s.refMode = false →
      ∃ u : State, exec .tilePacket s = .next (u.refReturn j ((p.bytes.drop 16).length / 8 + 2)) ∧
        u.flag REF_STAT_PKT_ERR = true ∧ u = { s with ref := { s.ref with inbox := rest }, regs := u.regs } ∧
        s.keeps u [(.REF_STAT, 0), (.REF_PKT_CNT, 0)]) ∧
    (s.ref.inbox = (j, p) :: rest → p.ch = 0 → s.refMode = true →
      (∀ pg : RefPage, s.livePages.find? (fun q => q.id == leNat ((p.bytes.drop 0).take 4)) = some pg →
        (pg.len + 63) / 64 ≤ leNat ((p.bytes.drop 4).take 4) ∨ s.refTiles ≤ leNat ((p.bytes.drop 8).take 2) ∨
          leNat ((p.bytes.drop 10).take 2) ≠ min (s.fld REF_TILE_TILEW)
            (s.fld REF_RWIDTH_WIDTH - leNat ((p.bytes.drop 8).take 2) * s.fld REF_TILE_TILEW)) →
      ∃ u : State, exec .tilePacket s = .next (u.refReturn j ((p.bytes.drop 16).length / 8 + 2)) ∧
        u.flag REF_STAT_TILE_ERR = true ∧
        u = { s with ref := { s.ref with inbox := rest }, regs := u.regs
                     zsp := { s.zsp with tilesLost := s.zsp.tilesLost + 1 } } ∧
        s.keeps u [(.REF_STAT, 0), (.REF_TILE_CNT, 0)]) ∧
    (∀ (i : Fin 8) (t : RefTile) (pg : RefPage) (u v : State), s.cmpOwner i = .tile t → t.stored = true →
      t.stream.length = t.width * t.rows * 4 →
      u = ((s.cmpGive i .idle).refReturn t.lane t.blocks).cmpCount t.stream.length t.stream.length →
      s.livePages.find? (fun q => q.qp == t.qp && q.id == t.page) = some pg → u.livePages = s.livePages →
      u.tileWrite pg t t.stream = (true, v) →
      exec (.tileDecompressed i) s = .next (v.updPage pg.qp fun q => { q with tiles := (t.band, t.tile) :: q.tiles })) ∧
    (∀ i : Fin 8, (∀ t : RefTile, s.cmpOwner i ≠ .tile t) → exec (.tileDecompressed i) s = .next s)

/-- PAGE_START, MARK_MISS, PRESS_PAGE_EVENT and FIRST_LINE_ARM (R183–R186): the oldest accepted start is declared: the page at the
front of the queue, or in the self-reference modes the number of starts, starts there, PAGE_STROBE occurs outside a drain and a
PAGE notice is queued; in length mode the armed line, and after it the expected start, is accepted once the high-water mark has
reached that very line (log 63, DEDUCED). A missed mark accepts the expected start and sets MARK_MISS; a press event proposes its line plus PAGEOFS, refused
with PAGE_ERR where not past the last start. REF_FIRST_HI arms its line in length mode. -/
def Obligations.PageStarts : Prop :=
  ∀ (s : State) (m : Master) (v : Word) (p a l : Int) (ps : List Int),
    (s.inRun = true → s.on REF_CTL_EN = true → s.ref.ready = p :: ps → (∀ x ∈ s.rpt.startLine, x.2 < p) →
      (∀ (q : RefPage) (qs : List RefPage), s.refMode = true → s.ref.queue = q :: qs →
        ∃ w u : State, exec .pageStart s = .next (u.notice (p + u.depth + 2) (.page p q.id q.design q.len)).refGrant ∧
          w = { s with
            ref := { s.ref with ready := ps, queue := qs, pages := { q with start := some p } :: s.ref.pages
                                count := s.ref.count + 1, last := some p }
            tick := { s.tick with page := 65536 * ofSigned 48 p } } ∧
          u = (if s.pwr.drain then w else w.strobe [2])) ∧
      (s.refMode = true → s.ref.queue = [] →
        ∃ w u : State, exec .pageStart s = .next (u.notice (p + u.depth + 2) (.page p 0xFFFFFFFF 0 0)).refGrant ∧
          w.flag REF_STAT_PAGE_UNDER = true ∧ s.keeps w [(.REF_STAT, 0), (.REF_PUNDER_CNT, 0)] ∧
          w = { s with
            regs := w.regs
            ref := { s.ref with ready := ps, pages := { id := 0xFFFFFFFF, len := 0, start := some p } :: s.ref.pages
                                count := s.ref.count + 1, last := some p }
            tick := { s.tick with page := 65536 * ofSigned 48 p } } ∧
          u = (if s.pwr.drain then w else w.strobe [2])) ∧
      (s.refMode = false →
        ∃ w u : State, exec .pageStart s = .next (u.notice (p + u.depth + 2) (.page p ((s.ref.count + 1) % 2 ^ 32) 0 0)) ∧
          w = { s with
            ref := { s.ref with ready := ps
                                pages := { id := (s.ref.count + 1) % 2 ^ 32, len := 0, start := some p } :: s.ref.pages
                                count := s.ref.count + 1, last := some p }
            tick := { s.tick with page := 65536 * ofSigned 48 p } } ∧
          u = (if s.pwr.drain then w else w.strobe [2]))) ∧
    (s.inRun = true → s.on REF_CTL_EN = true → s.ref.ready = [] → s.pageSrc = 2 → s.pwr.drain = false →
      (s.ref.armed = some a → a ≤ s.tick.hw → exec .pageStart s = exec .pageStart { s with
        ref := { s.ref with armed := none, exact := some (a * 65536 + s.pageLen), ready := [a] } }) ∧
      (s.ref.armed = none → s.ref.exact = some l → nearStart l ≤ s.tick.hw → exec .pageStart s = exec .pageStart { s with
        ref := { s.ref with exact := some (l + s.pageLen), ready := [nearStart l] } }) ∧
      (s.ref.armed = some a → s.tick.hw < a → exec .pageStart s = .next s)) ∧
    (s.inRun = true → s.on REF_CTL_EN = true → s.pageSrc = 0 → s.ref.exact = some l →
      (l / 65536 + s.fld REF_MARK_MWIN - s.fld REF_MARK_MARKOFS ≤ s.sil.lastLine →
        ∃ u : State, exec .markMiss s = .next u ∧ u.ref.ready = s.ref.ready ++ [nearStart l] ∧
          u.ref.exact = some (l + s.pageLen) ∧ u.flag REF_STAT_MARK_MISS = true ∧
          u = { s with regs := u.regs, ref := { s.ref with ready := u.ref.ready, exact := u.ref.exact } } ∧
          s.keeps u [(.REF_STAT, 0), (.REF_MMISS_CNT, 0)]) ∧
      (s.sil.lastLine < l / 65536 + s.fld REF_MARK_MWIN - s.fld REF_MARK_MARKOFS → exec .markMiss s = .next s)) ∧
    (s.live = true → s.on REF_CTL_EN = true → s.pageSrc = 1 → s.ref.press = l :: ps →
      ((∀ q, s.lastStart = some q → q < l + s.sfld REF_PAGEOFS_PAGEOFS) →
        exec .pressPageEvent s = .next { s with ref := { s.ref with
          press := ps, ready := s.ref.ready ++ [l + s.sfld REF_PAGEOFS_PAGEOFS] } }) ∧
      (∀ q, s.lastStart = some q → l + s.sfld REF_PAGEOFS_PAGEOFS ≤ q →
        ∃ u : State, exec .pressPageEvent s = .next u ∧ u.flag REF_STAT_PAGE_ERR = true ∧
          u = { s with regs := u.regs, ref := { s.ref with press := ps } } ∧
          s.keeps u [(.REF_STAT, 0), (.REF_PERR_CNT, 0)])) ∧
    (s.mayWrite m .REF_FIRST_HI 0 → s.pageSrc = 2 → (∀ q, s.on REF_CTL_EN = true → s.ref.last = some q →
        q < ((s.reg .REF_FIRST_LO).toNat : Int) + 2 ^ 32 * (bits v.toNat 15 0 : Int)) →
      ∃ u : State, exec (.firstLineArm m v) s = .next u ∧ u.fld REF_FIRST_HI_LINE_H = bits v.toNat 15 0 ∧
        (bits (s.reg .REF_FIRST_HI).toNat 31 16 = 0 →
          u.ref.armed = some (((s.reg .REF_FIRST_LO).toNat : Int) + 2 ^ 32 * (bits v.toNat 15 0 : Int))) ∧
        u = { s with regs := u.regs, resp := {}, ref := { s.ref with armed := u.ref.armed } } ∧
        s.keeps u [(.REF_FIRST_HI, 0), (.REF_STAT, 0), (.REF_PERR_CNT, 0)])

/-- DESCRIPTOR_DROP, TRACKER_RESET, TRACKER_WRITE and REF_ENABLE (R185, R192, R198): DROP takes the oldest descriptor from the
queue, frees its rows in index order and grants credit; RESET gives every tracker the written values, and a write of a tracker
register gives one tracker its value, each with a new window of the next generation and rates of 0; enabling in Hold runs the
checks, those of the engines before that of the page length (log 74, DEDUCED), and only where all pass is EN set and REF's job begins with no page declared. -/
def Obligations.ReferenceCommands : Prop :=
  ∀ (s : State) (m : Master) (v : Word),
    (s.mayWrite m .REF_CMD 0 → v.getLsbD 1 = false →
      (s.ref.queue = [] → exec (.descriptorDrop m v) s = .next s.answered) ∧
      (∀ (q : RefPage) (qs : List RefPage), s.ref.queue = q :: qs →
        exec (.descriptorDrop m v) s = .next ({ s with
          ref := { s.ref with queue := qs, freed := if q.qp ≤ s.ref.freed then max s.ref.freed (q.qp + q.len) else s.ref.freed }
          resp := {} } : State).refGrant)) ∧
    (s.mayWrite m .REF_CMD 0 → v.getLsbD 0 = false →
      ∃ u : State, exec (.trackerReset m v) s = .next u ∧ u = { s with ref := { s.ref with trk := u.ref.trk }, resp := {} } ∧
        ∀ e < 16, u.trk e = { (s.trk e).renew with
          md := ((s.reg .REF_TRK_MD e).toInt : Rat) / 65536, cd := ((s.reg .REF_TRK_CD e).toInt : Rat) / 65536
          k := ((s.reg .REF_TRK_K e).toNat : Rat) / 1073741824 }) ∧
    (∀ (e : Fin 16) (w : Fin 3),
      s.mayWrite m (if w = 0 then .REF_TRK_MD else if w = 1 then .REF_TRK_CD else .REF_TRK_K) e →
      ∃ u : State, exec (.trackerWrite m e w v) s = .next u ∧
        u.reg (if w = 0 then .REF_TRK_MD else if w = 1 then .REF_TRK_CD else .REF_TRK_K) e = v ∧
        u.trk e = { (s.trk e).renew with
          md := if w = 0 then (v.toInt : Rat) / 65536 else (s.trk e).md
          cd := if w = 1 then (v.toInt : Rat) / 65536 else (s.trk e).cd
          k := if w = 2 then (v.toNat : Rat) / 1073741824 else (s.trk e).k } ∧
        (∀ y, y ≠ e.val → u.trk y = s.trk y) ∧
        u = { s with regs := u.regs, ref := { s.ref with trk := u.ref.trk }, resp := {} } ∧
        s.keeps u [(if w = 0 then .REF_TRK_MD else if w = 1 then .REF_TRK_CD else .REF_TRK_K, e.val)]) ∧
    (∀ w : State, s.mayWrite m .REF_CTL 0 → s.inHold = true →
      w = ((s.answered.regStore .REF_CTL 0 (v ||| 1)).setFld REF_CTL_EN 0 0) →
      (∀ e : Nat, w.enginesInUse.find? (fun e => !w.refEngineOk e) = some e →
        ∃ u : State, exec (.refEnable m v) s = .next u ∧ u.fld REF_CTL_EN = 0 ∧ u.fld REF_RES_RESULT = rRANGE ∧
          u.fld REF_RES_ENG = e ∧ u.fld REF_RES_PLEN_ERR = 0 ∧ u = { w with regs := u.regs } ∧ w.keeps u [(.REF_RES, 0)]) ∧
      ((∀ e ∈ w.enginesInUse, w.refEngineOk e = true) → w.pageSrc ≠ 1 → w.pageLen < 65536 →
        ∃ u : State, exec (.refEnable m v) s = .next u ∧ u.fld REF_CTL_EN = 0 ∧ u.fld REF_RES_RESULT = rRANGE ∧
          u.fld REF_RES_PLEN_ERR = 1 ∧ u = { w with regs := u.regs } ∧ w.keeps u [(.REF_RES, 0)]) ∧
      ((∀ e ∈ w.enginesInUse, w.refEngineOk e = true) → (w.pageSrc = 1 ∨ 65536 ≤ w.pageLen) →
        ∃ u : State, exec (.refEnable m v) s = .next u ∧ u.fld REF_CTL_EN = 1 ∧ u.fld REF_RES_RESULT = rOK ∧
          u.fld REF_RES_PLEN_ERR = 0 ∧
          u = { w with
            regs := u.regs
            ref := { w.ref with pages := [], exact := none, last := none, count := 0, ready := [], press := [], barred := [] } } ∧
          w.keeps u [(.REF_RES, 0), (.REF_CTL, 0)]))

/-- ROW_PREFETCH and REGISTRATION_UPDATE (R189, R190, R195–R198): for an engine with one reference ring the lowest row of its window
that is ready, not yet in its slot and not being read is read from the ring; where the data come at once its pixels, then its header, are
written to the reference ring, and where a CXL port has yet to answer the row waits for it (R266); a row whose read is refused is noted as
failed and stands behind the others while it still cannot be read (log 118, DESIGN CHOICE); while REF is
disabled nothing is read. A window that is due and
whose peak is neither on the border nor flat moves md and cd by the filter, each clamped with its rate then 0, and begins a new
window of the next generation; at a quality below QMIN it keeps them, with LOW_TEXTURE and rates of 0. -/
def Obligations.ReferencePrefetchAndRegistration : Prop :=
  ∀ (s : State) (e : Fin 16), s.live = true →
    (∀ (p : Prog) (r : Ring) (i k hdr : Nat) (pg : RefPage) (bs : List Byte) (x y : State) (res : Nat) (want : Nat → RefPage → Prop),
      s.on REF_CTL_EN = true → s.refMode = true → s.ref.barred.contains e.val = false → (s.eng e).prog = some p →
      p.refRings = [r] → i < r.depth →
      want = (fun k q => s.ref.freed ≤ k ∧ s.bandOk q ((k - q.qp) / 64) = true ∧ s.refHolds e r k q.id = false ∧
        (∀ f ∈ s.ref.fills, f.hdrAt ≠ stripeBase e + r.hdrOfs (s.refSlot r k)) ∧
        ¬((stripeBase e + r.hdrOfs (s.refSlot r k), k) ∈ s.ref.missed ∧ s.rowReads e k = false)) →
      (∀ j < i, ∀ q : RefPage, s.rowPage (s.rowBase e p r + j) = some q → ¬want (s.rowBase e p r + j) q) →
      k = s.rowBase e p r + i → s.rowPage k = some pg → want k pg → hdr = stripeBase e + r.hdrOfs (s.refSlot r k) →
      s.busRead 17 (s.refAddr k (s.fld REF_EWIN_EFIRST e)) (4 * s.fld REF_EWIN_ECOUNT e) = (res, bs, x) →
      (res = rOK → x = { s with cxl := x.cxl } → y = x.tagNew 17 hdr k →
        (y.tagWaits 17 (· == (hdr, k)) = true → ∃ f : RowFill,
          exec (.rowPrefetch e) s = .next { y with ref := { s.ref with fills := s.ref.fills ++ [f] } } ∧
          f.eng = e.val ∧ f.id = pg.id ∧ f.row = k ∧ f.hdrAt = hdr ∧ f.slotAt = stripeBase e + r.slotOfs (s.refSlot r k) ∧
          f.pixels = bs ∧ f.hdr = s.rowHeader e k pg) ∧
        (∀ t u : State, y.tagWaits 17 (· == (hdr, k)) = false →
          ({ y with ref := { s.ref with
            fail := s.ref.fail.filter (·.1 != e.val), missed := s.ref.missed.filter (· != (hdr, k)) } } : State).busWrite 17
            (stripeBase e + r.slotOfs (s.refSlot r k)) bs = (rOK, t) →
          t.busWrite 17 hdr (s.rowHeader e k pg) = (rOK, u) → exec (.rowPrefetch e) s = .next u)) ∧
      (res ≠ rOK → x.ref = s.ref → ∃ u : State, exec (.rowPrefetch e) s = .next u ∧
        u.ref.missed = s.ref.missed.filter (· != (hdr, k)) ++ [(hdr, k)] ∧
        u = { x with cxl := u.cxl, ref := { s.ref with missed := u.ref.missed, fail := u.ref.fail } })) ∧
    (s.on REF_CTL_EN = false → exec (.rowPrefetch e) s = .next s) ∧
    ((s.trk e).due = false → exec (.registrationUpdate e) s = .next s) ∧
    (∀ (k : Nat) (dx qx dy qy : Rat), (s.trk e).due = true → (s.trk e).right.sums = [] →
      (∀ f, (s.trk e).left.peak f = k) → (∀ f, (s.trk e).left.axis k 1 (k % 5) f = (dx, qx, false)) →
      (∀ f, (s.trk e).left.axis k 5 (k / 5) f = (dy, qy, false)) →
      ((if qx < qy then qx else qy) < (s.fld REF_Q_QMIN : Rat) / 65536 →
        ∃ u : State, exec (.registrationUpdate e) s = .next u ∧
          u.trk e = { s.trk e with
            q := if qx < qy then qx else qy, runs := 0, left := {}, right := {}, left2 := {}, due := false, lt := true
            mdR := 0, cdR := 0, kR := 0 } ∧
          ((s.trk e).lt = false → u.flag REF_STAT_LOW_TEXTURE = true) ∧ (∀ y, y ≠ e.val → u.trk y = s.trk y) ∧
          u = { s with regs := u.regs, freeCtr := u.freeCtr, ref := { s.ref with trk := u.ref.trk } } ∧
          s.keeps u [(.REF_STAT, 0), (.REF_LOWT_CNT, 0)]) ∧
      ((s.fld REF_Q_QMIN : Rat) / 65536 ≤ (if qx < qy then qx else qy) →
        let alpha : Rat := (s.fld REF_AB_ALPHA : Rat) / 65536;
        let beta : Rat := (s.fld REF_AB_BETA : Rat) / 65536;
        let md : Rat × Rat × Bool := trkStep (s.trk e).md (s.trk e).mdR ((s.trk e).md + dy / s.rs) alpha beta 0 (s.fld REF_LIM_MD : Rat);
        let cd : Rat × Rat × Bool := trkStep (s.trk e).cd (s.trk e).cdR ((s.trk e).cd + dx) alpha beta 0 (s.fld REF_LIM_CD : Rat);
        ∃ u : State, exec (.registrationUpdate e) s = .next u ∧
          u.trk e = { s.trk e with
            q := if qx < qy then qx else qy, runs := 0, left := {}, right := {}, left2 := {}, due := false
            lt := (s.trk e).lt && decide ((if qx < qy then qx else qy) < (s.fld REF_Q_QHI : Rat) / 65536)
            md := md.1, mdR := md.2.1, cd := cd.1, cdR := cd.2.1, gen := ((s.trk e).gen + 1) % 256 } ∧
          ((md.2.2 || cd.2.2) = true → u.flag REF_STAT_REG_LIMIT = true) ∧
          ((md.2.2 || cd.2.2) = false → u.regs = s.regs) ∧ (∀ y, y ≠ e.val → u.trk y = s.trk y) ∧
          u = { s with regs := u.regs, freeCtr := u.freeCtr, ref := { s.ref with trk := u.ref.trk } } ∧
          s.keeps u [(.REF_STAT, 0), (.REF_RLIM_CNT, 0)]))

/-- SILLAGE_LINE (R200–R206): the next ticked line whose entries have come is processed when its time has come, and not before.
With no run it opens nothing in an empty table, and its entries go; one run opens, in an empty table, one region in a context
below 16,384, with the next id and the page of the line, and the id counter advances; a run adjacent to the one run kept of the
only open region joins it. The line is then the last one processed, and where a region is open the contexts are written to their
table.
EOL_MISS, SILLAGE_ENABLE, FLUSH and SWAP (R200, R205, R214, R217): once SIL_EOLTO ticks, at least 10, have passed, a line whose
entries of some engines are missing is processed with those stripes blind, EOL_MISS set; not before. Enabling in Hold empties the
region store and sets the id counter to 1, in Run it is refused with CFG_ERR; FLUSH in Hold leaves no region open, OK, and in Run
ends with STATE_REFUSED; SWAP sets PEND and leaves the active bank, and with PEND set it is CFG_ERR. -/
def Obligations.SillageLinesAndControl : Prop :=
  (
  ∀ (s : State) (n : Int), s.silReady n → s.silMissing n = [] →
    (s.silDue n = false → exec .sillageLine s = .next s) ∧
    (s.silDue n = true → s.sil.eols.filter (fun x => x.line == n && !x.blind.isEmpty) = [] → s.sil.carry = [] →
      (s.sil.regions = [] → s.sil.runs.filter (fun q => q.line == ofSigned 16 n) = [] →
        ∃ u : State, exec .sillageLine s = .next u ∧ u.sil.lastLine = n ∧ u.sil.regions = [] ∧
          u.sil.eols = s.sil.eols.filter (fun x => decide (n < x.line)) ∧ u.sil.counter = s.sil.counter ∧
          u.fld SIL_OPEN_PEAK = max (s.fld SIL_OPEN_PEAK) 0 ∧ u.mem = s.mem ∧
          u = { s with regs := u.regs, sil := u.sil } ∧ s.keeps u [(.SIL_OPEN, 0)]) ∧
      (∀ q : RunRec, s.sil.runs.filter (fun q => q.line == ofSigned 16 n) = [q] → q.user.testBit 3 = false → s.inJob n = true →
        s.sil.freedNow = [] →
        (s.sil.regions = [] → s.sil.kept = [] → 2 ≤ s.fld SIL_LONGLEN_LINES →
          ∃ (u : State) (i : Nat), exec .sillageLine s = .next u.silStore ∧ i < 16384 ∧
            u.sil.regions = [(newRegion (.ctx i) (s.span.chip * 2 ^ 30 + s.sil.counter) (s.pageIdAt n) n q.first q.last).join n q] ∧
            u.sil.counter = (if s.sil.counter = 0x3FFFFFFF then 1 else s.sil.counter + 1) ∧
            u.sil.kept = [{ line := n, first := q.first, last := q.last, region := s.span.chip * 2 ^ 30 + s.sil.counter }] ∧
            u.sil.lastLine = n ∧ u = { s with regs := u.regs, sil := u.sil, freeCtr := u.freeCtr } ∧
            s.keeps u [(.SIL_OPEN, 0)]) ∧
        (∀ (r : Region) (k : KeptRun), s.sil.regions = [r] → s.sil.kept = [k] → k.region = r.id → idChip r.id = s.span.chip →
          s.silAdjacent n q.first q.last k = true → s.sil.links = [] → r.isSat = false → r.long = false → r.last ≤ n →
          n - r.f + 1 < s.longLen →
          ∃ u : State, exec .sillageLine s = .next u.silStore ∧ u.sil.regions = [r.join n q] ∧ u.sil.lastLine = n ∧
            u.sil.counter = s.sil.counter ∧ u = { s with regs := u.regs, sil := u.sil } ∧ s.keeps u [(.SIL_OPEN, 0)])))) ∧
  (
  ∀ (s : State) (m : Master) (v : Word),
    (∀ n : Int, s.silReady n → s.silMissing n ≠ [] →
      (s.nowTick < n + s.depth + 1 + (max 10 (s.fld SIL_EOLTO_TO) : Nat) → exec .eolMiss s = .next s) ∧
      (n + s.depth + 1 + (max 10 (s.fld SIL_EOLTO_TO) : Nat) ≤ s.nowTick → s.sil.regions = [] → s.sil.runs = [] → s.sil.eols = [] →
        s.inJob n = true →
        ∃ u : State, exec .eolMiss s = .next u ∧ u.flag SIL_STAT_EOL_MISS = true ∧ u.sil.lastLine = n ∧
          u.sil.blind.head? = some (n, (s.silMissing n).map s.stripeExt) ∧ u.sil.regions = [] ∧
          u = { s with regs := u.regs, sil := u.sil, rpt := { s.rpt with wait := u.rpt.wait } } ∧
          s.keeps u [(.SIL_OPEN, 0), (.SIL_STAT, 0), (.SIL_EOLM_CNT, 0)])) ∧
    (s.mayWrite m .SIL_CTL 0 → s.inHold = true → s.on SIL_CTL_EN = false →
      ∃ u : State, exec (.sillageEnable m v) s = .next u ∧ u.fld SIL_CTL_EN = 1 ∧
        u.sil = { s.sil with
          regions := [], kept := [], carry := [], freedNow := [], counter := 1, runs := [], eols := [], blind := []
          seam := [], seamEnd := [], seamCtx := [], seamSkip := [], links := [] } ∧
        u = { s with regs := u.regs, sil := u.sil, resp := {} } ∧ s.keeps u [(.SIL_CTL, 0)]) ∧
    (s.mayWrite m .SIL_CTL 0 → s.inRun = true → s.on SIL_CTL_EN = false →
      ∃ u : State, exec (.sillageEnable m v) s = .next u ∧ u.fld SIL_CTL_EN = 0 ∧ u.flag SIL_STAT_CFG_ERR = true ∧
        u = { s with regs := u.regs, resp := {} } ∧ s.keeps u [(.SIL_CTL, 0), (.SIL_STAT, 0), (.SIL_CFG_CNT, 0)]) ∧
    (s.mayWrite m .SIL_CTL 0 → s.on SIL_CTL_EN = true →
      ∃ u : State, exec (.sillageEnable m v) s = .next u ∧ u.fld SIL_CTL_EN = 1 ∧ u = { s with regs := u.regs, resp := {} } ∧
        s.keeps u [(.SIL_CTL, 0), (.SIL_STAT, 0), (.SIL_CFG_CNT, 0)]) ∧
    (s.mayWrite m .SIL_CMD 0 → s.inHold = true → s.sil.links = [] →
      ∃ u : State, exec (.flush m v) s = .next u ∧ u.fld SIL_CMDRES_DONE = 1 ∧ u.fld SIL_CMDRES_RESULT = rOK ∧
        u.sil.regions = [] ∧ u.sil.kept = [] ∧ u.sil.carry = [] ∧
        u = { s with
          regs := u.regs, freeCtr := u.freeCtr, resp := {}, rpt := { s.rpt with wait := u.rpt.wait }
          sil := { s.sil with regions := [], kept := [], carry := [], freedNow := [], links := [] } } ∧
        s.keeps u [(.SIL_CMDRES, 0), (.SIL_CLOSE_CNT, 0), (.SIL_SUP_CNT, 0)]) ∧
    (s.mayWrite m .SIL_CMD 0 → s.inRun = true →
      ∃ u : State, exec (.flush m v) s = .next u ∧ u.fld SIL_CMDRES_DONE = 1 ∧ u.fld SIL_CMDRES_RESULT = rSTATE_REFUSED ∧
        u = { s with regs := u.regs, resp := {} } ∧ s.keeps u [(.SIL_CMDRES, 0)]) ∧
    (s.mayWrite m .SIL_WSWAP 0 →
      (s.fld SIL_WSWAP_PEND = 0 → ∃ u : State, exec (.swap m v) s = .next u ∧ u.fld SIL_WSWAP_PEND = 1 ∧
        u.fld SIL_WSWAP_ACTIVE = s.fld SIL_WSWAP_ACTIVE ∧ u = { s with regs := u.regs, resp := {} } ∧
        s.keeps u [(.SIL_WSWAP, 0)]) ∧
      (s.fld SIL_WSWAP_PEND = 1 → ∃ u : State, exec (.swap m v) s = .next u ∧ u.flag SIL_STAT_CFG_ERR = true ∧
        u = { s with regs := u.regs, resp := {} } ∧ s.keeps u [(.SIL_STAT, 0), (.SIL_CFG_CNT, 0)])))

/-- RECORD_BUILD, RECORD_QUEUE, HOLD_BUILD_STEP, BLIND_EXTENT_CAP and QRD_WRITE (R218–R231, R250, R429): the build step of a tick makes
one 128-byte record of the one notice that waits and is due, and where the tick has had its step it does nothing. A due record that is
not to be forwarded is written at the write index with its sequence number, which advances, with the handle of the crop it
requests and with its crop and marker bits, and is archived where ARCH_EN is set; one to be forwarded goes to the port of a neighbour
that is the master; a BLIND record goes to the BLIND buffer while that holds one or the queue is full; with the queue full any other is
lost with REC_LOST and its extent held as a BLIND record of cause 7. A record of a type of RPT_CROP.TYPES takes the next handle, and
a box cut to the device, to CMAXW columns about its middle and to CMAXL lines, the last ones of a LONG record and else the first; the
crop waits, its index entry PENDING, or is lost where 256 wait. A record that an enabled marker channel selects schedules a firing DIST
lines after its anchor and sets the channel's MARKED bit, or its MARK_LOST bit where that line is reached, 256 firings wait or DIST fails
its check; other channels keep their firings. In Hold
the one built record leaves RPT at once. An extent of 4,096 lines is emitted, due at the next tick (log 70, DEDUCED). RPT_QRD takes a
value that leaves at most a whole queue before the write index, else CFG_ERR. -/
def Obligations.RecordsBuiltAndQueued : Prop :=
  ∀ (s : State) (m : Master) (v : Word),
    (s.inRun = true → s.on RPT_CTL_EN = true → s.nowTick ≤ s.rpt.builtAt → exec .recordBuild s = .next s) ∧
    (∀ i : Pending, s.inRun = true → s.on RPT_CTL_EN = true → s.rpt.builtAt < s.nowTick → s.lineLive s.nowTick = true →
      s.rpt.wait = [i] →
      (s.nowTick < i.due → exec .recordBuild s = .next { s with rpt := { s.rpt with builtAt := s.nowTick } }) ∧
      (i.due ≤ s.nowTick → ∃ (u : State) (r : Record), exec .recordBuild s = .next u ∧ u.rpt.built = s.rpt.built ++ [r] ∧
        r.bytes.length = 128 ∧ r.due = s.nowTick + 1 ∧
        r.typ = (match i.item with | .splice _ _ _ => 5 | .page _ _ _ _ => 4 | .region h => h.typ | .blind _ => 3) ∧
        (i.delayed = true → u.flag RPT_STAT_DELAYED = true) ∧
        u = { s with regs := u.regs, rpt := { s.rpt with wait := [], built := u.rpt.built, builtAt := s.nowTick } } ∧
        s.keeps u [(.RPT_STAT, 0), (.RPT_DELAY_CNT, 0), (.RPT_TSL_CNT, 0)])) ∧
    (∀ (r : Record) (rs : List Record), s.inRun = true → s.on RPT_CTL_EN = true → s.rpt.built = r :: rs → r.due ≤ s.nowTick →
      s.rpt.back = [] →
      (s.forwards = true → (s.spanPort s.span.tickPort).st = .up → s.on SPAN_NB_MASTER s.span.tickPort = true →
        s.on RPT_CTL_CROP_EN = false →
        exec .recordQueue s = .next (({ s with rpt := { s.rpt with built := rs } } : State).recForward s.span.tickPort
          (patch (patch r.bytes 108 (leBytes 4 0)) 112 (leBytes 2 (leNat ((r.bytes.drop 112).take 2)))))) ∧
      (∀ b : BlindRec, s.forwards = false → r.blind = some b → (s.rpt.blind ≠ [] ∨ s.qFull = true) →
        exec .recordQueue s = .next { s with rpt := { s.rpt with built := rs, blind := placeBlind s.rpt.blind b } }) ∧
      (s.forwards = false → s.qFull = true → r.blind = none → ∃ u : State, exec .recordQueue s = .next u ∧
        u.flag RPT_STAT_REC_LOST = true ∧
        u = { s with regs := u.regs, rpt := { s.rpt with built := rs, blind := u.rpt.blind } } ∧
        (∃ b : BlindRec, b.cause = 7 ∧ b.ext = r.ext ∧ u.rpt.blind = placeBlind s.rpt.blind b) ∧
        s.keeps u [(.RPT_STAT, 0), (.RPT_RLOST_CNT, 0), (.RPT_TSL_CNT, 0)]) ∧
      (∀ (t t1 t2 w : State) (h cf mf a : Nat) (b : List Byte), s.forwards = false → s.qFull = false →
        (r.blind ≠ none → s.rpt.blind = []) →
        a = poolBase + s.fld RPT_QBASE_OFS + 128 * (s.fld RPT_QWR_SEQ % s.qSize) →
        ({ s with rpt := { s.rpt with built := rs } } : State).busWrite 19 a (fit 128 r.bytes) = (rOK, t) →
        t = { s with rpt := { s.rpt with built := rs }, mem := t.mem } →
        t.cropRequest r ((leNat ((r.bytes.drop 106).take 2)).testBit 5) = (h, cf, t1) → t1.markAll r = (mf, t2) →
        b = patch (patch (patch r.bytes 4 (leBytes 4 (s.fld RPT_QWR_SEQ))) 108 (leBytes 4 h)) 112
          (leBytes 2 (leNat ((r.bytes.drop 112).take 2) + cf + mf)) →
        w = ({ t2 with mem := memWrite t2.mem a b } : State).setFld RPT_QWR_SEQ 0 ((s.fld RPT_QWR_SEQ + 1) % 2 ^ 32) →
        ∃ u : State, exec .recordQueue s = .next u ∧
          (w.on RPT_CTL_ARCH_EN = false → u = { w with zsp := { w.zsp with irqs := u.zsp.irqs } }) ∧
          (∀ (res : Nat) (y : State), w.on RPT_CTL_ARCH_EN = true →
            w.busWrite 19 (w.wide .RPT_RMBASE_LO .RPT_RMBASE_HI + 128 * (s.fld RPT_QWR_SEQ % 2 ^ w.fld RPT_RMLOG_RMLOG)) b = (res, y) →
            y.regs = w.regs →
            (res = rOK → u.fld RPT_RMWR_WR = (s.fld RPT_QWR_SEQ + 1) % 2 ^ 32 ∧
              u = { y with regs := u.regs, zsp := { y.zsp with irqs := u.zsp.irqs } } ∧ w.keeps u [(.RPT_RMWR, 0)]) ∧
            (res ≠ rOK → u.flag RPT_STAT_ARCH_ERR = true ∧
              u = { y with regs := u.regs, zsp := { y.zsp with irqs := u.zsp.irqs } } ∧
              w.keeps u [(.RPT_STAT, 0), (RPT_STAT_ARCH_ERR.cnt, 0)])))) ∧
    (∀ (r : Record) (seam want : Bool), want = (s.on RPT_CTL_CROP_EN && decide (r.typ < 3) && (s.fld RPT_CROP_TYPES).testBit r.typ) →
      (want = false → s.cropRequest r seam = (0, 0, s)) ∧
      (∀ (mg w n p0 p1 : Nat) (l0 l1 : Int) (cut wide long : Bool) (res : Nat) (t : State), want = true →
        mg = s.fld RPT_CROP_MARGIN → w = max 1 (s.fld RPT_CLIM_CMAXW) → n = max 1 (s.fld RPT_CLIM_CMAXL) →
        p0 = r.xmin - mg → p1 = min (r.xmax + mg) s.lastPx → l0 = max (r.f - mg) s.jobLine → l1 = r.last + mg →
        wide = decide (w < p1 + 1 - p0) → long = decide ((n : Int) < l1 - l0 + 1) →
        cut = (seam && (decide (s.lastPx < r.xmax + mg) || decide (r.xmin < mg))) →
        (s.setFld RPT_CHANDLE_HANDLE 0 (if s.fld RPT_CHANDLE_HANDLE = 0xFFFFFFFF then 1 else s.fld RPT_CHANDLE_HANDLE + 1)).busWrite 19
          (s.wide .RPT_CIBASE_LO .RPT_CIBASE_HI + 16 * (s.fld RPT_CHANDLE_HANDLE % 65536))
          (leBytes 8 0 ++ leBytes 4 0 ++ leBytes 1 1 ++ leBytes 1 0 ++ leBytes 2 0) = (res, t) →
        ∃ u : State, s.cropRequest r seam = (s.fld RPT_CHANDLE_HANDLE, 1 + 2 * (wide || long || cut).toNat, u) ∧
          (s.rpt.crops.length < 256 → u = { t with rpt := { t.rpt with crops := t.rpt.crops ++ [
            { handle := s.fld RPT_CHANDLE_HANDLE, region := r.region
              l0 := if long = true ∧ r.typ = 1 then l1 - n + 1 else l0
              l1 := if long = true ∧ r.typ ≠ 1 then l0 + n - 1 else l1
              p0 := if wide then p0 + (p1 + 1 - p0 - w) / 2 else p0
              p1 := if wide then p0 + (p1 + 1 - p0 - w) / 2 + w - 1 else p1 }] } }) ∧
          (256 ≤ s.rpt.crops.length → u.flag RPT_STAT_CROP_LOST = true ∧ u.rpt.crops = s.rpt.crops))) ∧
    (∀ (r : Record) (k mf : Nat) (w : State) (want : Bool) (a f : Int), k < 4 → s.markAll r = (mf, w) →
      want = (s.on RPT_MK_CTL_EN k && (s.fld RPT_MK_CTL_TYPES k).testBit r.typ && decide (r.typ < 3) &&
        (r.typ == 1 || (if r.cls = 0xFF then s.on RPT_MK_CTL_UNSURE k else (s.fld RPT_MK_CTL_CLS k).testBit r.cls))) →
      a = (if r.typ = 1 ∨ s.fld RPT_MK_CTL_ANCHOR k = 1 then r.last
        else if s.fld RPT_MK_CTL_ANCHOR k = 2 then (r.f + r.last) / 2 else r.f) →
      f = a + s.fld RPT_MK_DIST_DIST k →
      (want = false → (w.marker k).fires = (s.marker k).fires ∧ mf.testBit (8 + k) = false ∧ mf.testBit (12 + k) = false) ∧
      (want = true → s.pairOk .RPT_MK_DIST k = true →
        (f ≤ s.tick.hw → (w.marker k).fires = (s.marker k).fires ∧ mf.testBit (8 + k) = false ∧ mf.testBit (12 + k) = true ∧
          w.flag RPT_MK_STAT_LATE k = true) ∧
        (s.tick.hw < f → (s.marker k).fires.length < 256 → mf.testBit (8 + k) = true ∧ mf.testBit (12 + k) = false ∧
          ∃ x : Firing, (w.marker k).fires = (s.marker k).fires ++ [x] ∧ x.f = f ∧ x.anchor = a ∧
            x.target = (if s.on RPT_MK_CTL_LOUPE k then some r.cdMid else none)) ∧
        (s.tick.hw < f → 256 ≤ (s.marker k).fires.length → (w.marker k).fires = (s.marker k).fires ∧
          mf.testBit (8 + k) = false ∧ mf.testBit (12 + k) = true ∧ w.flag RPT_MK_STAT_OVF k = true)) ∧
      (want = true → s.pairOk .RPT_MK_DIST k = false → (w.marker k).fires = [] ∧ w.fld RPT_MK_CTL_EN k = 0 ∧
        mf.testBit (8 + k) = false ∧ mf.testBit (12 + k) = true)) ∧
    (∀ (r : Record) (w : State), s.inHold = true → s.on RPT_CTL_EN = true → s.rpt.built = [r] → s.rpt.wait = [] → s.rpt.back = [] →
      w = ({ s with rpt := { s.rpt with built := [] } } : State).recOut r →
      w.rpt.wait = [] → w.rpt.built = [] → w.rpt.blind = [] → w.rpt.back = [] →
      exec .holdBuildStep s = .next w) ∧
    (s.live = true → s.on RPT_CTL_EN = true → (∀ k < 4, (s.marker k).off = none) → (∀ p < 2, (s.spanPort p).lost = none) →
      exec .blindExtentCap s = .next { s with rpt := { s.rpt with
        open_ := s.rpt.open_.filter (fun c => !decide (c.ext.l0 + 4095 ≤ c.ext.l1))
        wait := s.rpt.wait ++ (s.rpt.open_.filter fun c => decide (c.ext.l0 + 4095 ≤ c.ext.l1)).map fun c =>
          { due := max 0 (s.nowTick + 1)
            item := .blind { cause := c.cause, detail := c.detail, src := c.src, ext := c.ext } } } }) ∧
    (s.mayWrite m .RPT_QRD 0 →
      (seqSub (s.fld RPT_QWR_SEQ) v.toNat ≤ 2 ^ s.fld RPT_QCFG_QLOG →
        ∃ u : State, exec (.qrdWrite m v) s = .next u ∧ u.reg .RPT_QRD = v ∧ u = { s with regs := u.regs, resp := {} } ∧
          s.keeps u [(.RPT_QRD, 0)]) ∧
      (2 ^ s.fld RPT_QCFG_QLOG < seqSub (s.fld RPT_QWR_SEQ) v.toNat →
        ∃ u : State, exec (.qrdWrite m v) s = .next u ∧ u.flag RPT_STAT_CFG_ERR = true ∧ u.reg .RPT_QRD = s.reg .RPT_QRD ∧
          u = { s with regs := u.regs, resp := {} } ∧ s.keeps u [(.RPT_STAT, 0), (.RPT_CFG_CNT, 0)]))

/-- MARKER_ENABLE, MARKER_CLEAR, MARKER_FIRING, MARKER_PULSE_END and LOUPE_COMMAND (R231–R234): enabling sets EN and ends the
channel's blind extent, clearing discards its pending firings; the firings that share the lowest line, none of the loupe, fire
together when the high-water mark has reached it: the output, if low, is high and FIRED counts one, with COIN set for a second one;
if high it stays high with COIN set. Before that line nothing fires. The output falls at the pulse's end. The carriage is commanded
to the oldest loupe firing's target, and a refused command is to be tried again. -/
def Obligations.MarkerChannels : Prop :=
  ∀ (s : State) (m : Master) (k : Fin 4) (v : Word),
    (s.mayWrite m .RPT_MK_CTL k →
      (∃ u : State, exec (.markerEnable m k v) s = .next u ∧ u.fld RPT_MK_CTL_EN k = 1 ∧
        u.marker k = { s.marker k with off := none, fires := if v.getLsbD 31 then [] else (s.marker k).fires } ∧
        (∀ j, j ≠ k.val → u.marker j = s.marker j) ∧ ((s.marker k).off = none → u.rpt.wait = s.rpt.wait) ∧
        u = { s with regs := u.regs, resp := {}, rpt := { s.rpt with marks := u.rpt.marks, wait := u.rpt.wait } } ∧
        s.keeps u [(.RPT_MK_CTL, k.val), (.RPT_STAT, 0), (.RPT_CFG_CNT, 0)]) ∧
      (∃ u : State, exec (.markerClear m k v) s = .next u ∧
        u.marker k = { s.marker k with fires := [], off := if v.getLsbD 0 then none else (s.marker k).off } ∧
        (∀ j, j ≠ k.val → u.marker j = s.marker j) ∧ ((s.marker k).off = none → u.rpt.wait = s.rpt.wait) ∧
        u = { s with regs := u.regs, resp := {}, rpt := { s.rpt with marks := u.rpt.marks, wait := u.rpt.wait } } ∧
        s.keeps u [(.RPT_MK_CTL, k.val), (.RPT_STAT, 0), (.RPT_CFG_CNT, 0)])) ∧
    (s.live = true → (∀ x ∈ (s.marker k).fires, s.tick.hw < x.f) → exec (.markerFiring k) s = .next s) ∧
    (∀ f : Int, s.live = true → f ≤ s.tick.hw → (∃ x ∈ (s.marker k).fires, x.f = f) → (∀ x ∈ (s.marker k).fires, f ≤ x.f) →
      (∀ x ∈ (s.marker k).fires, x.f = f → x.target = none) →
      ∃ w u : State, exec (.markerFiring k) s = .next u ∧
        w.marker k = { s.marker k with fires := (s.marker k).fires.filter (·.f != f), high := true } ∧
        (∀ j, j ≠ k.val → w.marker j = s.marker j) ∧ w = { s with regs := w.regs, rpt := { s.rpt with marks := w.rpt.marks } } ∧
        s.keeps w [(.RPT_MK_STAT, k.val), (.RPT_MK_COIN_CNT, k.val), (.RPT_MK_FIRED, k.val)] ∧
        ((s.marker k).high = true → u = w ∧ w.flag RPT_MK_STAT_COIN k = true) ∧
        ((s.marker k).high = false → w.routed u ∧
          (w.reg .RPT_MK_FIRED k).toNat = min 0xFFFFFFFF ((s.reg .RPT_MK_FIRED k).toNat + 1) ∧
          (2 ≤ ((s.marker k).fires.filter (·.f == f)).length → w.flag RPT_MK_STAT_COIN k = true))) ∧
    (s.live = true → (s.marker k).high = false → exec (.markerPulseEnd k) s = .next s) ∧
    (s.live = true → (s.marker k).high = true →
      exec (.markerPulseEnd k) s = .next ((s.updMarker k fun x => { x with high := false }).strobeDown (9 + k.val))) ∧
    (s.live = true → s.loupeWant = none → exec .loupeCommand s = .next s) ∧
    (∀ (f : Firing) (t : State), s.live = true → s.loupeWant = some f → s.rpt.loupeFor ≠ some f.id →
      (s.rpt.loupeTry = true ∨ s.mot.st = .idle) →
      (s.motRpt (f.target.getD 0) = (true, t) →
        exec .loupeCommand s = .next { t with rpt := { t.rpt with loupeFor := some f.id, loupeTry := false } }) ∧
      (s.motRpt (f.target.getD 0) = (false, t) →
        exec .loupeCommand s = .next { t with rpt := { t.rpt with loupeTry := true } }))

/-- CROP_COPY_START and CROP_COPY_END (R227–R230): once every engine in use has passed its last line and its channel is idle, the
oldest waiting crop takes its worst-case space (log 76, DEDUCED) in the empty store, from offset 0 where it would run past its end, and
its first descriptor goes to the channel; one that cannot fit is lost with CROP_LOST. When the copy has ended its header is written, with COMP as it was at its
start, and its index entry names offset and length as STORED; one whose first line an engine has passed by the ring's depth is lost
with CROP_LOST, and one whose copy failed is lost with CROP_LOST and CROP_ERR. While the channel runs nothing ends. -/
def Obligations.CropCopies : Prop :=
  ∀ (s : State) (c : Crop) (cs : List Crop) (d : Desc) (ds : List Desc), s.live = true →
    (s.rpt.crops = c :: cs → s.rpt.copy = none → s.on RPT_CTL_EN = true → (s.dma (s.fld RPT_CROP_DCH)).st = .idle →
      (∀ e < 16, (s.fld SIL_ENGMASK_MASK).testBit e = true →
        ∃ x, s.rpt.doneLine.find? (·.1 == e) = some x ∧ c.l1 ≤ x.2) →
      (∀ (r : Nat) (t : State), max 1 (s.fld RPT_CSSIZE_SIZE) * 2 ^ 20 < cropSpace (s.cropMax c) →
        ({ s with rpt := { s.rpt with crops := cs } } : State).busWrite 19
          (s.wide .RPT_CIBASE_LO .RPT_CIBASE_HI + 16 * (c.handle % 65536))
          (leBytes 8 0 ++ leBytes 4 0 ++ leBytes 1 3 ++ leBytes 1 4 ++ leBytes 2 0) = (r, t) →
        ∃ u : State, exec .cropCopyStart s = .next u ∧ u.flag RPT_STAT_CROP_LOST = true ∧ u = { t with regs := u.regs } ∧
          t.keeps u [(.RPT_STAT, 0), (.RPT_CLOST_CNT, 0)]) ∧
      (∀ ofs : Nat, cropSpace (s.cropMax c) ≤ max 1 (s.fld RPT_CSSIZE_SIZE) * 2 ^ 20 → s.rpt.store = [] →
        ofs = (if max 1 (s.fld RPT_CSSIZE_SIZE) * 2 ^ 20 < s.rpt.storeAt + cropSpace (s.cropMax c) then 0 else s.rpt.storeAt) →
        s.cropDescs c (s.wide .RPT_CSBASE_LO .RPT_CSBASE_HI + ofs + 32) = d :: ds →
        exec .cropCopyStart s = .next (({ s with rpt := { s.rpt with
          crops := cs, copy := some { c with ofs := ofs, bytes := cropSpace (s.cropMax c), comp := s.on RPT_CROP_COMP }, descs := ds,
          stored := 0, failed := false, storeAt := ofs + cropSpace (s.cropMax c) } } : State).dmaDirect (s.fld RPT_CROP_DCH) d))) ∧
    (s.rpt.crops = [] → exec .cropCopyStart s = .next s) ∧
    (s.rpt.copy = some c →
      (s.rpt.failed = false → (s.dma (s.fld RPT_CROP_DCH)).st ≠ .idle → exec .cropCopyEnd s = .next s) ∧
      (∀ (r : Nat) (t : State), s.rpt.failed = true →
        ({ s with rpt := { s.rpt with copy := none, descs := [], failed := false } } : State).busWrite 19
          (s.wide .RPT_CIBASE_LO .RPT_CIBASE_HI + 16 * (c.handle % 65536))
          (leBytes 8 0 ++ leBytes 4 0 ++ leBytes 1 3 ++ leBytes 1 3 ++ leBytes 2 0) = (r, t) →
        ∃ u : State, exec .cropCopyEnd s = .next u ∧ u.flag RPT_STAT_CROP_LOST = true ∧ u.flag RPT_STAT_CROP_ERR = true ∧
          u = { t with regs := u.regs } ∧ t.keeps u [(.RPT_STAT, 0), (.RPT_CLOST_CNT, 0), (.RPT_CERR_CNT, 0)]) ∧
      (∀ (r e : Nat) (x : Nat × Int) (t : State), s.rpt.failed = false → (s.dma (s.fld RPT_CROP_DCH)).st = .idle →
        s.rpt.descs = [] → e < 16 → s.rpt.startLine.find? (·.1 == e) = some x → c.l0 + 2 ^ s.fld RPT_CRING_CDLOG ≤ x.2 →
        ({ s with rpt := { s.rpt with copy := none, descs := [], failed := false } } : State).busWrite 19
          (s.wide .RPT_CIBASE_LO .RPT_CIBASE_HI + 16 * (c.handle % 65536))
          (leBytes 8 0 ++ leBytes 4 0 ++ leBytes 1 3 ++ leBytes 1 2 ++ leBytes 2 0) = (r, t) →
        ∃ u : State, exec .cropCopyEnd s = .next u ∧ u.flag RPT_STAT_CROP_LOST = true ∧ u = { t with regs := u.regs } ∧
          t.keeps u [(.RPT_STAT, 0), (.RPT_CLOST_CNT, 0)]) ∧
      (∀ (r r' : Nat) (t t' : State), s.rpt.failed = false → (s.dma (s.fld RPT_CROP_DCH)).st = .idle → s.rpt.descs = [] →
        (∀ e < 16, ∀ x : Nat × Int, s.rpt.startLine.find? (·.1 == e) = some x → x.2 < c.l0 + 2 ^ s.fld RPT_CRING_CDLOG) →
        ({ s with rpt := { s.rpt with copy := none, descs := [], failed := false } } : State).busWrite 19
          (s.wide .RPT_CSBASE_LO .RPT_CSBASE_HI + c.ofs)
          (leBytes 4 c.handle ++ leBytes 4 c.region ++ leBytes 6 (ofSigned 48 c.l0) ++ leBytes 2 c.rows ++ leBytes 4 c.p0
            ++ leBytes 2 (c.p1 + 1 - c.p0) ++ leBytes 1 c.comp.toNat ++ leBytes 1 0 ++ leBytes 4 s.rpt.stored
            ++ leBytes 4 0) = (r, t) → t.regs = s.regs →
        ({ t with rpt := { t.rpt with store := t.rpt.store ++ [(c.handle, c.ofs, cropSpace s.rpt.stored)],
                                      storeAt := c.ofs + cropSpace s.rpt.stored } } : State).busWrite 19
          (s.wide .RPT_CIBASE_LO .RPT_CIBASE_HI + 16 * (c.handle % 65536))
          (leBytes 8 c.ofs ++ leBytes 4 (cropSpace s.rpt.stored) ++ leBytes 1 2 ++ leBytes 1 0 ++ leBytes 2 0) = (r', t') →
        exec .cropCopyEnd s = .next t'))

/-- SPAN_ENABLE, HELLO_SEND, HELLO, SPAN_LINK_TIMEOUT, ECHO_REQ_SEND, ECHO_REQ and ECHO_RSP (R237–R240, R245): enabling in Hold
checks the halo entries, and an OFF port without a LOCKED lane is then DOWN; one that fails leaves EN 0 with its result; in Run it
changes no EN and sets CFG_ERR. A port with a LOCKED lane queues HELLO with chip, array, role and pixels; a consistent one brings a
WAIT port UP with the neighbour's fields latched, an inconsistent one sets its conflict flags. An UP port that hears none goes DOWN
with LINK_DOWN and gives up what it holds but for channel 0; the lines its neighbour loses count from then on, and so do those of the
neighbour that the other port had, where that port is DOWN too (R251; what reaches beyond a neighbour is log 122, DESIGN CHOICE). An UP port queues an echo request under the next tag; it is answered
with its send time and its arrival time, and the answer gives half the round trip as LAT, and on the tick path of a device that is
not the master an offset of at most 20 ns as OFS with SYNCED. -/
def Obligations.SpanLinks : Prop :=
  ∀ (s : State) (m : Master) (p : Fin 2) (v : Word) (k : Packet) (rest : List Packet),
    (∀ w : State, s.mayWrite m .SPAN_CTL 0 → w = s.answered.regStore .SPAN_CTL 0 (v ||| 1) →
      (s.inRun = true → exec (.spanEnable m v) s = .next w ∧ w.fld SPAN_CTL_EN = s.fld SPAN_CTL_EN ∧
        w.flag SPAN_STAT_CFG_ERR = true) ∧
      (∀ i : Nat, s.inHold = true → w.haloEntries.find? (fun i => w.haloCheck i != rOK) = some i →
        (∀ y < 2, (s.spanPort y).st = .off ∧ (s.spanPort y).outbox = [] ∧ (s.spanPort y).sending = []) →
        ∃ u : State, exec (.spanEnable m v) s = .next u ∧ u.fld SPAN_CTL_EN = 0 ∧ u.fld SPAN_RES_RESULT = w.haloCheck i ∧
          u.fld SPAN_RES_ENG = w.fld SPAN_HRX_ENG i ∧ (∀ y < 2, (u.spanPort y).st = .off) ∧
          u = { w with regs := u.regs, spanPorts := u.spanPorts } ∧ w.keeps u [(.SPAN_RES, 0), (.SPAN_CTL, 0)]) ∧
      (s.inHold = true → (∀ i ∈ w.haloEntries, w.haloCheck i = rOK) →
        (∀ y < 2, (s.spanPort y).st = .off ∧ s.spanLanes y = []) →
        ∃ u : State, exec (.spanEnable m v) s = .next u ∧ u.fld SPAN_CTL_EN = 1 ∧ u.fld SPAN_RES_RESULT = rOK ∧
          (∀ y < 2, u.spanPort y = { s.spanPort y with st := .down }) ∧
          u = { w with regs := u.regs, spanPorts := u.spanPorts, span := { w.span with barred := u.span.barred } } ∧
          w.keeps u [(.SPAN_RES, 0)])) ∧
    (s.live = true → s.on SPAN_CTL_EN = true → s.spanLanes p ≠ [] →
      exec (.helloSend p) s = .next (s.updSpan p fun q => { q with outbox := q.outbox ++ [Packet.mk 1 (
        leBytes 1 1 ++ leBytes 1 s.span.chip ++ leBytes 1 (s.fld SPAN_ID_ARRAY)
          ++ leBytes 1 ((s.on SPAN_CTL_MASTER).toNat + 2 * (s.spanSeam p).toNat) ++ leBytes 4 (s.fld SPAN_XBASE_XBASE)
          ++ leBytes 4 (s.fld ACCORD_OUTW_OUTW) ++ leBytes 4 0) 0 []] })) ∧
    (s.live = true → (s.on SPAN_CTL_EN = false ∨ s.spanLanes p = []) → exec (.helloSend p) s = .next s) ∧
    (s.live = true → (s.spanPort p).inbox = k :: rest → k.ch = 1 → k.at 0 1 = 1 →
      ((s.spanPort p).st = .wait → (∀ y < 2, (s.spanPort y).lost = none) → s.helloErrs p k = (false, false, false) →
        ∃ u : State, exec (.hello p) s = .next u ∧
          u.spanPort p = { s.spanPort p with
            inbox := rest, outw := k.at 8 4, met := true, st := .up, echo := [] } ∧
          u.fld SPAN_NB_XBASE p = k.at 4 4 % 2 ^ 20 ∧ u.fld SPAN_NB_CHIPID p = k.at 1 1 % 4 ∧
          u.fld SPAN_NB_MASTER p = k.at 3 1 % 2 ∧ (∀ y, y ≠ p.val → u.spanPort y = s.spanPort y) ∧
          u = { s with regs := u.regs, spanPorts := u.spanPorts } ∧ s.keeps u [(.SPAN_NB, p.val)]) ∧
      (∀ a b c : Bool, (s.spanPort p).st = .wait → s.helloErrs p k = (a, b, c) → (a || b || c) = true →
        ∃ u : State, exec (.hello p) s = .next u ∧ u.spanPort p = { s.spanPort p with inbox := rest } ∧
          (a = true → u.flag SPAN_STAT_ID_CONFLICT = true) ∧ (b = true → u.flag SPAN_STAT_MASTER_CONFLICT = true) ∧
          (c = true → u.flag SPAN_STAT_ORDER_ERR = true) ∧ u = { s with regs := u.regs, spanPorts := u.spanPorts } ∧
          s.keeps u [(.SPAN_STAT, 0), (.SPAN_IDC_CNT, 0), (.SPAN_MC_CNT, 0), (.SPAN_ORD_CNT, 0)]) ∧
      ((s.spanPort p).st = .down → exec (.hello p) s = .next (s.updSpan p fun q => { q with inbox := rest }))) ∧
    (s.live = true → (s.spanPort p).st ≠ .up → exec (.spanLinkTimeout p) s = .next s) ∧
    (s.live = true → (s.spanPort p).st = .up → s.spanSeam p = false → (s.spanPort (1 - p.val)).st ≠ .up →
      (s.spanPort p).sending = [] → (∀ x ∈ (s.spanPort p).outbox, x.rec_ = []) →
      ∃ w u : State, exec (.spanLinkTimeout p) s = .next u ∧ w.flag SPAN_STAT_LINK_DOWN = true ∧
        w.spanPort p = { s.spanPort p with
          st := .down, lost := some ((s.spanPort p).lost.getD (s.tick.hw + 1))
          outbox := (s.spanPort p).outbox.filter (·.ch == 0) } ∧
        (∀ y, y ≠ p.val → w.spanPort y =
          if y = 1 - p.val ∧ (s.spanPort y).st = .down ∧ (s.spanPort y).met = true then
            { s.spanPort y with lost := some ((s.spanPort y).lost.getD (s.tick.hw + 1)) }
          else s.spanPort y) ∧
        w = { s with regs := w.regs, spanPorts := w.spanPorts } ∧ s.keeps w [(.SPAN_STAT, 0), (.SPAN_LD_CNT, 0)] ∧ w.routed u) ∧
    (s.live = true → (s.spanPort p).st = .up →
      ∃ u : State, exec (.echoReqSend p) s = .next u ∧
        u.spanPort p = { s.spanPort p with
          tag := ((s.spanPort p).tag + 1) % 256
          outbox := (s.spanPort p).outbox ++ [Packet.mk 1 (
            fit 8 (leBytes 1 2 ++ leBytes 1 (s.spanPort p).tag) ++ leBytes 24 0) 0 []] } ∧
        (∀ y, y ≠ p.val → u.spanPort y = s.spanPort y) ∧ u = { s with spanPorts := u.spanPorts }) ∧
    (s.live = true → (s.spanPort p).st ≠ .up → exec (.echoReqSend p) s = .next s) ∧
    (s.live = true → (s.spanPort p).inbox = k :: rest → k.ch = 1 → k.at 0 1 = 2 →
      ∃ u : State, exec (.echoReq p) s = .next u ∧
        u.spanPort p = { s.spanPort p with
          inbox := rest
          outbox := (s.spanPort p).outbox ++ [Packet.mk 1 (
            fit 8 (leBytes 1 3 ++ leBytes 1 (k.at 1 1)) ++ leBytes 8 (k.at 8 8) ++ leBytes 8 k.at_ ++ leBytes 8 0) 0 []] } ∧
        (∀ y, y ≠ p.val → u.spanPort y = s.spanPort y) ∧ u = { s with spanPorts := u.spanPorts }) ∧
    (∀ (lat ofs : Int), s.live = true → (s.spanPort p).inbox = k :: rest → k.ch = 1 → k.at 0 1 = 3 →
      (s.spanPort p).echo = [(k.at 1 1, k.at 8 8)] →
      ((k.at_ : Int) - k.at 8 8) - ((k.at 24 8 : Int) - k.at 16 8) = 2 * lat →
      ((k.at 16 8 : Int) - k.at 8 8) - ((k.at_ : Int) - k.at 24 8) = 2 * ofs →
      (s.on SPAN_CTL_MASTER = true →
        ∃ u : State, exec (.echoRsp p) s = .next u ∧ u.fld SPAN_LAT_LAT p = (max 0 (min 65535 lat)).toNat ∧
          u.spanPort p = { s.spanPort p with inbox := rest, echo := [] } ∧
          u = { s with regs := u.regs, spanPorts := u.spanPorts } ∧ s.keeps u [(.SPAN_LAT, p.val)]) ∧
      (s.on SPAN_CTL_MASTER = false → s.span.tickPort = p.val → ofs.natAbs ≤ 20 →
        ∃ u : State, exec (.echoRsp p) s = .next u ∧ u.fld SPAN_LAT_LAT p = (max 0 (min 65535 lat)).toNat ∧
          u.sfld SPAN_TOFS_OFS = ofs ∧ u.fld SPAN_STAT_SYNCED = 1 ∧ u.span.bad = 0 ∧
          u = { s with
            regs := u.regs, spanPorts := u.spanPorts, freeCtr := u.freeCtr
            span := { s.span with bad := 0, time := u.span.time } } ∧
          s.keeps u [(.SPAN_LAT, p.val), (.SPAN_TOFS, 0), (.SPAN_STAT, 0)]))

/-- TICK_PACKET, SPAN_TICK_DUE, TICK_GAP and TSYNC_MEASURE (R32, R241–R243): the first packet of a line is noted and relayed to
the other port where that is UP, and in Span mode, with the counter at its line, it waits with its issue time, with TICK_LATE where
that time is past; on the master, or of a line already seen, it is dropped. A waiting tick is issued, the record of unticked lines before it emitted, once span time has
reached its time and every line before it is past; where predecessors are missing it waits, and TICK_GAP passes over their lines
with its flag, leaving the high-water mark. That the record of unticked lines goes with the next tick issued is log 81 (DEDUCED). A tick
that this device does not issue is discarded, while SYNCED reads 0 too (log 27, DEDUCED). With TSYNC on a device that is not
the master the two measured offsets are written. -/
def Obligations.SpanTicks : Prop :=
  ∀ (s : State) (p : Fin 2) (k : Packet) (rest : List Packet) (pos t port : Nat) (entry : List Byte)
    (more : List (Nat × List Byte × Nat × Nat)), s.live = true →
    ((s.spanPort p).inbox = k :: rest → k.ch = 1 → k.at 0 1 = 4 →
      ((s.on SPAN_CTL_MASTER = true ∨ packetLine (k.at 8 8) ∈ s.span.seen) →
        exec (.tickPacket p) s = .next (s.updSpan p fun q => { q with inbox := rest })) ∧
      (s.on SPAN_CTL_MASTER = false → packetLine (k.at 8 8) ∉ s.span.seen → s.fld TICK_CTL_SRC ≠ 2 →
        ∃ u : State, exec (.tickPacket p) s = .next u ∧ u.spanPort p = { s.spanPort p with inbox := rest } ∧
          ((s.spanPort (1 - p.val)).st ≠ .up → u.spanPort (1 - p.val) = s.spanPort (1 - p.val)) ∧
          ((s.spanPort (1 - p.val)).st = .up → u.spanPort (1 - p.val) = { s.spanPort (1 - p.val) with
            outbox := (s.spanPort (1 - p.val)).outbox ++ [Packet.mk 1 (
              tickPacket ((k.bytes.drop 8).take 32) (k.at 40 8) true) 0 []] }) ∧
          u = { s with
            spanPorts := u.spanPorts
            span := { s.span with seen := (packetLine (k.at 8 8) :: s.span.seen).take 256, tickPort := p } }) ∧
      (s.on SPAN_CTL_MASTER = false → packetLine (k.at 8 8) ∉ s.span.seen → s.fld TICK_CTL_SRC = 2 → s.tick.spanFirst = false →
        s.tick.line = packetLine (k.at 8 8) → s.span.ticks = [] → s.span.time ≤ k.at 40 8 →
        ∃ u : State, exec (.tickPacket p) s = .next u ∧
          u.span.ticks = [(k.at 8 8, (k.bytes.drop 8).take 32, k.at 40 8, p.val)] ∧
          u = { s with
            spanPorts := u.spanPorts, tick := { s.tick with spanFrac := k.at 8 8 % 65536 }
            span := { s.span with
              seen := (packetLine (k.at 8 8) :: s.span.seen).take 256, tickPort := p, ticks := u.span.ticks } }) ∧
      (s.on SPAN_CTL_MASTER = false → packetLine (k.at 8 8) ∉ s.span.seen → s.fld TICK_CTL_SRC = 2 → s.tick.spanFirst = false →
        s.tick.line = packetLine (k.at 8 8) → s.span.ticks = [] → k.at 40 8 < s.span.time →
        ∃ u : State, exec (.tickPacket p) s = .next u ∧ u.flag SPAN_STAT_TICK_LATE = true ∧
          u.span.ticks = [(k.at 8 8, (k.bytes.drop 8).take 32, k.at 40 8, p.val)] ∧
          u = { s with
            regs := u.regs, spanPorts := u.spanPorts, tick := { s.tick with spanFrac := k.at 8 8 % 65536 }
            span := { s.span with
              seen := (packetLine (k.at 8 8) :: s.span.seen).take 256, tickPort := p, ticks := u.span.ticks } } ∧
          s.keeps u [(.SPAN_STAT, 0), (.SPAN_TL_CNT, 0)])) ∧
    (s.span.ticks = (pos, entry, t, port) :: more →
      (s.span.time < t → exec .spanTickDue s = .next s) ∧
      (t ≤ s.span.time → s.issuing = true → (s.on SPAN_CTL_MASTER = true ∨ s.on SPAN_STAT_SYNCED = true) →
        (packetLine pos = s.spanPast + 1 →
          exec .spanTickDue s = .next
            ((({ s with span := { s.span with ticks := more } } : State).gapEmit (packetLine pos)).tickIssue (packetLine pos) (t : Nat)
              entry)) ∧
        (s.spanPast + 1 < packetLine pos → exec .spanTickDue s = .next s)) ∧
      (t ≤ s.span.time → (s.issuing = false ∨ packetLine pos ≤ s.spanPast ∨
          (s.on SPAN_CTL_MASTER = false ∧ s.on SPAN_STAT_SYNCED = false)) →
        exec .spanTickDue s = .next { s with span := { s.span with ticks := more } }) ∧
      (t ≤ s.span.time → s.issuing = true → s.on SPAN_CTL_MASTER = false → s.on SPAN_STAT_SYNCED = true →
        s.spanPast + 1 < packetLine pos →
        ∃ u : State, exec .tickGap s = .next u ∧ u.flag SPAN_STAT_TICK_GAP = true ∧ u.spanPast = max (packetLine pos - 1) s.tick.hw ∧
          u = { s with
            regs := u.regs, span := { s.span with gap := some (packetLine pos - 1) }
            rpt := { s.rpt with wait := u.rpt.wait, open_ := u.rpt.open_ } } ∧
          s.keeps u [(.SPAN_STAT, 0), (.SPAN_TG_CNT, 0)]) ∧
      (packetLine pos ≤ s.spanPast + 1 → exec .tickGap s = .next s)) ∧
    (∀ a b : Word, (s.on SPAN_CTL_EN = true → s.on SPAN_CTL_TSYNC = true → s.on SPAN_CTL_MASTER = false →
        ∃ u : State, exec (.tsyncMeasure a b) s = .next u ∧ u.reg .TIME_OFS 0 = a ∧ u.reg .TIME_OFS 1 = b ∧
          u = { s with regs := u.regs, times := u.times } ∧
          s.keeps u [(.TIME_OFS, 0), (.TIME_OFS, 1), (.TIME_STAT_X, 0), (.TIME_STAT_X, 1), (.TIME_STEP_CNT, 0),
            (.TIME_STEP_CNT, 1), (.TIME_HELD_CNT, 0), (.TIME_HELD_CNT, 1)]) ∧
      (s.on SPAN_CTL_TSYNC = false → exec (.tsyncMeasure a b) s = .next s))

/-- HALO_LINE, SEAM_PACKET, SEAM_TIMEOUT and FORWARDED_RECORD (R244, R247–R250), each with the oldest packet of its channel taken,
its content an operand (log 16): a halo line's pixels, cut to the pitch of the slot (log 60, DEDUCED), and then its header are written to
the slot of the ring its entry names, of a lost line the header alone; seam runs and contexts, a late context too (log 78, DEDUCED), are kept in this device's pixels with the line's marker, but of a line already
given up neither runs nor marker; where a marker's time is past it is waited for no longer, with SEAM_LATE, and not before; a record
goes on towards a neighbour that is the master; where the other port is not UP it is for the own queue, with FWD_LOCAL, and where the
queue of this device or of the master is full it is lost with REC_LOST. -/
def Obligations.SpanHaloSeamAndRecords : Prop :=
  ∀ (s : State) (p : Fin 2) (x : Packet) (rest : List Packet), s.live = true → (s.spanPort p).inbox = x :: rest →
    (∀ (k : Fin 2) (hdr pixels : List Byte) (r : Ring) (t u : State), x.ch = 3 → (s.spanPort p).st = .up →
      s.on SPAN_HRX_V (2 * p.val + k.val) = true →
      s.engRing (s.fld SPAN_HRX_ENG (2 * p.val + k.val)) (s.fld SPAN_HRX_RING (2 * p.val + k.val)) = some r → r.kind = 2 →
      (((fit 32 hdr).drop 11).take 1) = [0] →
      (s.updSpan p fun q => { q with inbox := rest }).busWrite 37 (stripeBase (s.fld SPAN_HRX_ENG (2 * p.val + k.val))
        + r.slotOfs (r.slotOf (toSigned 48 (hdrLine (fit 32 hdr))))) (pixels.take r.pitch) = (rOK, t) →
      t.busWrite 37 (stripeBase (s.fld SPAN_HRX_ENG (2 * p.val + k.val))
        + r.hdrOfs (r.slotOf (toSigned 48 (hdrLine (fit 32 hdr))))) (fit 32 hdr) = (rOK, u) →
      exec (.haloLine p k hdr pixels) s = .next u) ∧
    (∀ (k : Fin 2) (hdr pixels : List Byte) (r : Ring) (u : State), x.ch = 3 → (s.spanPort p).st = .up →
      s.on SPAN_HRX_V (2 * p.val + k.val) = true →
      s.engRing (s.fld SPAN_HRX_ENG (2 * p.val + k.val)) (s.fld SPAN_HRX_RING (2 * p.val + k.val)) = some r → r.kind = 2 →
      (((fit 32 hdr).drop 11).take 1) = [1] →
      (s.updSpan p fun q => { q with inbox := rest }).busWrite 37 (stripeBase (s.fld SPAN_HRX_ENG (2 * p.val + k.val))
        + r.hdrOfs (r.slotOf (toSigned 48 (hdrLine (fit 32 hdr))))) (fit 32 hdr) = (rOK, u) →
      exec (.haloLine p k hdr pixels) s = .next u) ∧
    (∀ (line : Int) (runs : List (Int × Int × Nat)) (ctxs : List (Nat × Nat × List Int)) (mark : Bool), x.ch = 2 →
      s.silSpan = true → s.spanSeam p = true → (s.spanPort p).st = .up →
      ∃ u : State, exec (.seamPacket p line runs ctxs mark) s = .next u ∧
        (s.sil.lastLine < line + 2 →
          u.sil.seam = s.sil.seam ++ runs.map (fun r => (line, ({
            port := p, first := r.1 + ((s.fld SPAN_NB_XBASE p : Int) - s.fld SPAN_XBASE_XBASE)
            last := r.2.1 + ((s.fld SPAN_NB_XBASE p : Int) - s.fld SPAN_XBASE_XBASE), region := r.2.2 } : SeamRun))) ∧
          u.sil.seamEnd = (if mark then s.sil.seamEnd ++ [(p.val, line)] else s.sil.seamEnd)) ∧
        (line + 2 ≤ s.sil.lastLine → u.sil.seam = s.sil.seam ∧ u.sil.seamEnd = s.sil.seamEnd) ∧
        u.sil.seamCtx = s.sil.seamCtx ++ ctxs.map (fun c => (max line (s.sil.lastLine - 1), c.1, c.2.1,
          ctxOf c.1 c.2.2 ((s.fld SPAN_NB_XBASE p : Int) - s.fld SPAN_XBASE_XBASE))) ∧
        u.spanPort p = { s.spanPort p with inbox := rest } ∧ (∀ y, y ≠ p.val → u.spanPort y = s.spanPort y) ∧
        u = { s with
          spanPorts := u.spanPorts
          sil := { s.sil with seam := u.sil.seam, seamEnd := u.sil.seamEnd, seamCtx := u.sil.seamCtx } }) ∧
    (∀ n : Int, s.inRun = true → s.on SIL_CTL_EN = true → s.silNext = some n → p.val ∈ s.silSeamWait n →
      (n + s.depth + 1 + (max 2 (s.fld SPAN_SEAMTO_SEAMTO) : Nat) ≤ s.nowTick →
        ∃ u : State, exec (.seamTimeout p) s = .next u ∧ u.flag SPAN_STAT_SEAM_LATE = true ∧
          u = { s with regs := u.regs, sil := { s.sil with seamSkip := s.sil.seamSkip ++ [(p.val, n)] } } ∧
          s.keeps u [(.SPAN_STAT, 0), (.SPAN_SL_CNT, 0)]) ∧
      (s.nowTick < n + s.depth + 1 + (max 2 (s.fld SPAN_SEAMTO_SEAMTO) : Nat) → exec (.seamTimeout p) s = .next s)) ∧
    (∀ b : List Byte, x.ch = 4 →
      (s.on SPAN_CTL_MASTER = false → (s.spanPort (1 - p.val)).st = .up → s.on SPAN_NB_MASTER (1 - p.val) = true →
        ∃ u : State, exec (.forwardedRecord p b) s = .next u ∧ u.spanPort p = { s.spanPort p with inbox := rest } ∧
          u.spanPort (1 - p.val) = { s.spanPort (1 - p.val) with
            outbox := (s.spanPort (1 - p.val)).outbox ++ [{ ch := 4, bytes := x.bytes, rec_ := b }] } ∧
          u = { s with spanPorts := u.spanPorts }) ∧
      (s.on SPAN_CTL_MASTER = false → (s.spanPort (1 - p.val)).st ≠ .up → s.qFull = true → (s.recordOf b).blind = none →
        ∃ u : State, exec (.forwardedRecord p b) s = .next u ∧ u.flag SPAN_STAT_FWD_LOCAL = true ∧ u.flag RPT_STAT_REC_LOST = true ∧
          u = { s with regs := u.regs, spanPorts := u.spanPorts, rpt := { s.rpt with blind := u.rpt.blind } } ∧
          s.keeps u [(.SPAN_STAT, 0), (.SPAN_FWD_CNT, 0), (.RPT_STAT, 0), (.RPT_RLOST_CNT, 0), (.RPT_TSL_CNT, 0)]) ∧
      (s.on SPAN_CTL_MASTER = true → s.qFull = true → (s.recordOf b).blind = none →
        ∃ u : State, exec (.forwardedRecord p b) s = .next u ∧ u.flag RPT_STAT_REC_LOST = true ∧
          (∃ y : BlindRec, y.cause = 7 ∧ y.ext = (s.recordOf b).ext ∧ u.rpt.blind = placeBlind s.rpt.blind y) ∧
          u = { s with regs := u.regs, spanPorts := u.spanPorts, rpt := { s.rpt with blind := u.rpt.blind } } ∧
          s.keeps u [(.RPT_STAT, 0), (.RPT_RLOST_CNT, 0), (.RPT_TSL_CNT, 0)]))

/-- BLOTTER_START and BLOTTER_DONE (R257–R261): a start with no bank ends with RANGE; a test that keeps contents is accepted in any
state, a DESTRUCTIVE one only as R258 permits, else STATE_REFUSED; one while BUSY is CFG_ERR. The end of a test without failing
rows reports OK; a DESTRUCTIVE test leaves its banks zero. One failing row of a bank under test takes one of four spares with
REPAIRED, or without one FAILED is set with UNREPAIRED and an interrupt, its bank and row named; of several rows each does so in turn,
and the last is named. A test that leaves a row unrepaired ends with OK too (log 82, DEDUCED), and the repairs are made at the end of the
test (log 125, DESIGN CHOICE). -/
def Obligations.BlotterTests : Prop :=
  ∀ (s : State) (m : Master) (v : Word),
    (s.mayWrite m .MEM_BLT_CTL 0 → s.on MEM_BLT_RES_BUSY = true →
      ∃ u : State, exec (.blotterStart m v) s = .next u ∧ u.flag MEM_STAT_CFG_ERR = true ∧ u = { s with regs := u.regs, resp := {} } ∧
        s.keeps u [(.MEM_BLT_CTL, 0), (.MEM_STAT, 0), (.MEM_CFG_CNT, 0)]) ∧
    (s.mayWrite m .MEM_BLT_CTL 0 → s.on MEM_BLT_RES_BUSY = false →
      (s.fld MEM_BLT_SB_SB = 0 → s.fld MEM_BLT_SP_SP = 0 →
        ∃ u : State, exec (.blotterStart m v) s = .next u ∧ u.fld MEM_BLT_RES_RESULT = rRANGE ∧ u.fld MEM_BLT_RES_DONE = 1 ∧
          u.fld MEM_BLT_RES_BUSY = 0 ∧ u = { s with regs := u.regs, resp := {}, blt := none } ∧
          s.keeps u [(.MEM_BLT_CTL, 0), (.MEM_BLT_RES, 0)]) ∧
      ((s.fld MEM_BLT_SB_SB ≠ 0 ∨ s.fld MEM_BLT_SP_SP ≠ 0) →
        (v.getLsbD 1 = true ∨ s.bltMay m (s.fld MEM_BLT_SB_SB) (s.fld MEM_BLT_SP_SP) = true) →
        ∃ u : State, exec (.blotterStart m v) s = .next u ∧
          u.blt = some { preserving := v.getLsbD 1, alg := bits v.toNat 3 2, sb := s.fld MEM_BLT_SB_SB, sp := s.fld MEM_BLT_SP_SP } ∧
          u.fld MEM_BLT_RES_BUSY = 1 ∧ u.fld MEM_BLT_RES_DONE = 0 ∧ u = { s with regs := u.regs, resp := {}, blt := u.blt } ∧
          s.keeps u [(.MEM_BLT_CTL, 0), (.MEM_BLT_RES, 0)]) ∧
      ((s.fld MEM_BLT_SB_SB ≠ 0 ∨ s.fld MEM_BLT_SP_SP ≠ 0) → v.getLsbD 1 = false →
        s.bltMay m (s.fld MEM_BLT_SB_SB) (s.fld MEM_BLT_SP_SP) = false →
        ∃ u : State, exec (.blotterStart m v) s = .next u ∧ u.fld MEM_BLT_RES_RESULT = rSTATE_REFUSED ∧
          u.fld MEM_BLT_RES_DONE = 1 ∧ u.fld MEM_BLT_RES_BUSY = 0 ∧ u = { s with regs := u.regs, resp := {}, blt := none } ∧
          s.keeps u [(.MEM_BLT_CTL, 0), (.MEM_BLT_RES, 0)])) ∧
    (s.live = true → s.blt = none → ∀ l : List (Nat × Nat), exec (.blotterDone l) s = .next s) ∧
    (∀ t : BltTest, s.live = true → s.blt = some t →
      (∃ u : State, exec (.blotterDone []) s = .next u ∧ u.mem = (if t.preserving then s.mem else clearBanksMem s.mem t.has) ∧
        u.fld MEM_BLT_RES_RESULT = rOK ∧ u.fld MEM_BLT_RES_DONE = 1 ∧ u.fld MEM_BLT_RES_BUSY = 0 ∧
        u = { s with regs := u.regs, mem := u.mem, blt := none } ∧ s.keeps u [(.MEM_BLT_RES, 0)]) ∧
      (∀ b r : Nat, b < 48 → t.has b = true → r < bankRows b →
        (s.fld MEM_RPR_USED b < 4 →
          ∃ u : State, exec (.blotterDone [(b, r)]) s = .next u ∧ u.fld MEM_RPR_USED b = s.fld MEM_RPR_USED b + 1 ∧
            u.fld MEM_RPR_LASTROW b = r ∧ u.flag MEM_STAT_REPAIRED = true ∧ u.fld MEM_BLT_FAIL_BANK = b ∧
            u.fld MEM_BLT_FAIL_ROW = r ∧ u.fld MEM_BLT_RES_RESULT = rOK ∧
            u.mem = (if t.preserving then s.mem else clearBanksMem s.mem t.has) ∧
            u = { s with regs := u.regs, mem := u.mem, blt := none } ∧
            s.keeps u [(.MEM_BLT_RES, 0), (.MEM_BLT_FAIL, 0), (.MEM_RPR, b), (.MEM_STAT, 0), (.MEM_RPR_CNT, 0)]) ∧
        (4 ≤ s.fld MEM_RPR_USED b →
          ∃ u : State, exec (.blotterDone [(b, r)]) s = .next u ∧ u.fld MEM_RPR_FAILED b = 1 ∧
            u.flag MEM_STAT_UNREPAIRED = true ∧ u.fld MEM_BLT_FAIL_BANK = b ∧ u.fld MEM_BLT_FAIL_ROW = r ∧
            u.fld MEM_BLT_RES_RESULT = rOK ∧ (t.preserving = false → u.mem = clearBanksMem s.mem t.has) ∧
            u = { s with
              regs := u.regs, mem := u.mem, blt := none, freeCtr := u.freeCtr
              zsp := { s.zsp with irqs := "UNREPAIRED" :: s.zsp.irqs } } ∧
            s.keeps u [(.MEM_BLT_RES, 0), (.MEM_BLT_FAIL, 0), (.MEM_RPR, b), (.MEM_STAT, 0), (.MEM_UNRPR_CNT, 0)])) ∧
      (∀ l rows : List (Nat × Nat), rows = l.filter (fun x => decide (x.1 < 48) && t.has x.1 && decide (x.2 < bankRows x.1)) →
        ∃ u : State, exec (.blotterDone l) s = .next u ∧
          (∀ b < 48, u.fld MEM_RPR_USED b =
            max (s.fld MEM_RPR_USED b) (min 4 (s.fld MEM_RPR_USED b + (rows.filter (·.1 == b)).length))) ∧
          (∀ b < 48, (u.fld MEM_RPR_FAILED b = 1 ↔ (s.fld MEM_RPR_FAILED b = 1 ∨
            (rows.filter (·.1 == b) ≠ [] ∧ 4 < s.fld MEM_RPR_USED b + (rows.filter (·.1 == b)).length)))) ∧
          (∀ b r : Nat, rows.getLast? = some (b, r) → u.fld MEM_BLT_FAIL_BANK = b ∧ u.fld MEM_BLT_FAIL_ROW = r) ∧
          u.fld MEM_BLT_RES_RESULT = rOK ∧ u.fld MEM_BLT_RES_DONE = 1 ∧ u.fld MEM_BLT_RES_BUSY = 0 ∧
          u = { s with
            regs := u.regs, mem := u.mem, blt := none, freeCtr := u.freeCtr, zsp := { s.zsp with irqs := u.zsp.irqs } } ∧
          (∀ q i, q ≠ .MEM_RPR → (q, i) ∉ [(.MEM_BLT_RES, 0), (.MEM_BLT_FAIL, 0), (.MEM_STAT, 0), (.MEM_RPR_CNT, 0),
            (.MEM_UNRPR_CNT, 0)] → u.reg q i = s.reg q i)))

/-- CXL_PORT_ENABLE, CXL_LINK_UP, CXL_CFG_ACCESS, CXL_CFG_DONE, INBOUND, L1_ENTRY, DECODER_ENABLE, UNFREEZE, LOG_INFO_READ,
POISON_ENTRY_CLEAR, PME_TO_ACK and SR_TO (R262–R271): a port enabled in Hold trains, and comes UP, frozen with SR_LOST where its
device was not in self-refresh, or DOWN; a configuration access is BUSY until done; an inbound request sets INBOUND; an idle port
enters L1 in Hold; a decoder stays enabled only if its check passes; UNFREEZE needs a frozen port that is UP with its log read; a
poison entry is cleared by V = 0; at Standby entry a port ends in L2, or with SR_TO DOWN, and the last one lets Standby begin, which
clears LOCKED of both time domains and silences the producers that lose power (R392 and R395 of 20_security_power.md, R344 of
18_event_routing.md). That UNFREEZE needs a port that is UP is log 83 (DEDUCED). -/
def Obligations.CxlPorts : Prop :=
  ∀ (s : State) (m : Master) (p : Fin 4) (i : Fin 8) (v : Word),
    (s.mayWrite m .CXL_P_CTL p → s.inHold = true → s.on CXL_P_CTL_EN p = false →
      ∃ u : State, exec (.cxlPortEnable m p v) s = .next u ∧ u.fld CXL_P_CTL_EN p = 1 ∧
        u.cxlp p = { s.cxlp p with st := .training } ∧ (∀ y, y ≠ p.val → u.cxlp y = s.cxlp y) ∧
        u = { s with regs := u.regs, cxl := u.cxl, resp := {} } ∧ s.keeps u [(.CXL_P_CTL, p.val)]) ∧
    (s.live = true → (s.cxlp p).st = .training →
      exec (.cxlLinkUp p false false false) s = .next (s.updCxl p fun c => { c with st := .down }) ∧
      ∀ rate32 x4 : Bool, ∃ u : State, exec (.cxlLinkUp p true rate32 x4) s = .next u ∧
        u.cxlp p = { s.cxlp p with
          st := .up, rate32 := rate32 || s.on CXL_P_CTL_MAXRATE p, x4 := x4, srLost := false
          frozen := (s.cxlp p).frozen || (s.cxlp p).srLost, logrd := (s.cxlp p).logrd && !(s.cxlp p).srLost } ∧
        (∀ y, y ≠ p.val → u.cxlp y = s.cxlp y) ∧ ((s.cxlp p).srLost = true → u.flag CXL_P_STAT_SR_LOST p = true) ∧
        ((s.cxlp p).srLost = false → u.regs = s.regs) ∧
        u = { s with regs := u.regs, cxl := u.cxl } ∧ s.keeps u [(.CXL_P_STAT, p.val), (.CXL_P_SRL_CNT, p.val)]) ∧
    (s.mayWrite m .CXL_P_CFGA p →
      ∃ u : State, exec (.cxlCfgAccess m p v) s = .next u ∧ u.fld CXL_P_CFGRES_BUSY p = 1 ∧
        u.fld CXL_P_CFGA_DW p = bits v.toNat 11 2 ∧ u.fld CXL_P_CFGA_WRITE p = bits v.toNat 12 12 ∧
        u.fld CXL_P_CFGA_SPACE p = bits v.toNat 13 13 ∧ (s.fld CXL_P_CFGRES_BUSY p = 0 → u.fld CXL_P_CFGRES_DONE p = 0) ∧
        u = { s with regs := u.regs, resp := {} } ∧ s.keeps u [(.CXL_P_CFGA, p.val), (.CXL_P_CFGRES, p.val)]) ∧
    (∀ (ok : Bool) (data : Word), s.live = true →
      (s.fld CXL_P_CFGRES_BUSY p = 0 → exec (.cxlCfgDone p ok data) s = .next s) ∧
      (s.fld CXL_P_CFGRES_BUSY p = 1 →
        ∃ u : State, exec (.cxlCfgDone p ok data) s = .next u ∧ u.fld CXL_P_CFGRES_RESULT p = (if ok then rOK else rERROR) ∧
          u.fld CXL_P_CFGRES_DONE p = 1 ∧ u.fld CXL_P_CFGRES_BUSY p = 0 ∧
          u.reg .CXL_P_CFGD p = (if ok && s.fld CXL_P_CFGA_WRITE p == 0 then data else s.reg .CXL_P_CFGD p) ∧
          u = { s with regs := u.regs } ∧ s.keeps u [(.CXL_P_CFGRES, p.val), (.CXL_P_CFGD, p.val)])) ∧
    (s.live = true → ((s.cxlp p).st = .up ∨ (s.cxlp p).st = .l1) → ∃ u : State, exec (.inbound p) s = .next u ∧ u.flag CXL_P_STAT_INBOUND p = true ∧
      u = { s with regs := u.regs } ∧ s.keeps u [(.CXL_P_STAT, p.val), (.CXL_P_INB_CNT, p.val)]) ∧
    (s.inHold = true → s.on CXL_P_CTL_L1_EN p = true → (s.cxlp p).st = .up → (s.cxlp p).outst = [] →
      exec (.l1Entry p) s = .next (s.updCxl p fun c => { c with st := .l1 })) ∧
    (s.inRun = true → exec (.l1Entry p) s = .next s) ∧
    (∀ w : State, s.mayWrite m .CXL_DEC_CTL p → s.inHold = true → w = s.answered.regStore .CXL_DEC_CTL p (v ||| 1) →
      (w.decCheck p = rOK → ∃ u : State, exec (.decoderEnable m p v) s = .next u ∧ u.fld CXL_DEC_RES_RESULT = rOK ∧
        u.fld CXL_DEC_RES_DEC = p ∧ u.fld CXL_DEC_CTL_EN p = 1 ∧ u = { w with regs := u.regs } ∧
        w.keeps u [(.CXL_DEC_RES, 0)]) ∧
      (w.decCheck p ≠ rOK → ∃ u : State, exec (.decoderEnable m p v) s = .next u ∧ u.fld CXL_DEC_RES_RESULT = w.decCheck p ∧
        u.fld CXL_DEC_RES_DEC = p ∧ u.fld CXL_DEC_CTL_EN p = 0 ∧ u.flag CXL_DEC_RES_DEC_ERR = true ∧
        u = { w with regs := u.regs } ∧ w.keeps u [(.CXL_DEC_RES, 0), (.CXL_DEC_CTL, p.val), (.CXL_DEC_ERR_CNT, 0)])) ∧
    (s.mayWrite m .CXL_P_CMD p →
      ((s.cxlp p).frozen = true → (s.cxlp p).logrd = true → (s.cxlp p).st = .up →
        ∃ u : State, exec (.unfreeze m p v) s = .next u ∧ u.cxlp p = { s.cxlp p with frozen := false } ∧
          u.fld CXL_P_CMDRES_RESULT p = rOK ∧ u.fld CXL_P_CMDRES_DONE p = 1 ∧ (∀ y, y ≠ p.val → u.cxlp y = s.cxlp y) ∧
          u = { s with regs := u.regs, cxl := u.cxl, resp := {} } ∧ s.keeps u [(.CXL_P_CMDRES, p.val)]) ∧
      (¬((s.cxlp p).frozen = true ∧ (s.cxlp p).logrd = true ∧ (s.cxlp p).st = .up) →
        ∃ u : State, exec (.unfreeze m p v) s = .next u ∧ u.fld CXL_P_CMDRES_RESULT p = rSTATE_REFUSED ∧
          u.fld CXL_P_CMDRES_DONE p = 1 ∧ u = { s with regs := u.regs, resp := {} } ∧ s.keeps u [(.CXL_P_CMDRES, p.val)])) ∧
    (s.mayRead m .CXL_P_LOG_INFO p → exec (.logInfoRead m p) s = .next { (s.updCxl p fun c => { c with logrd := true }) with
      resp := { code := rOK, data := (s.reg .CXL_P_LOG_INFO p).toNat } }) ∧
    (s.mayWrite m .CXL_P_PL_LO (p.val * 8 + i.val) →
      ∃ u : State, exec (.poisonEntryClear m p i v) s = .next u ∧ u.poisonEntry p i = none ∧
        u = { s with regs := u.regs, resp := {} } ∧ s.keeps u [(.CXL_P_PL_LO, p.val * 8 + i.val)]) ∧
    (s.live = true → (s.cxlp p).pme = false → exec (.pmeToAck p) s = .next s ∧ exec (.srTo p) s = .next s) ∧
    (s.live = true → (s.cxlp p).pme = true → (∃ y < 4, y ≠ p.val ∧ (s.cxlp y).pme = true) →
      exec (.pmeToAck p) s = .next (s.updCxl p fun c => { c with pme := false, st := .l2, outst := [] }) ∧
      ∃ u : State, exec (.srTo p) s = .next u ∧ u.flag CXL_P_STAT_SR_TO p = true ∧
        u.cxlp p = { s.cxlp p with pme := false, st := .down, srLost := true, outst := [] } ∧
        u = { s with regs := u.regs, cxl := u.cxl } ∧ s.keeps u [(.CXL_P_STAT, p.val), (.CXL_P_SRTO_CNT, p.val)]) ∧
    (s.live = true → (s.cxlp p).pme = true → (∀ y < 4, y ≠ p.val → (s.cxlp y).pme = false) → s.pwr.entering = true →
      ∃ u : State, exec (.pmeToAck p) s = .next u ∧ u.pwr = { s.pwr with st := .standby, entering := false } ∧
        (u.cxlp p).st = .l2 ∧ (∀ x < 2, u.fld TIME_STAT_X_LOCKED x = 0) ∧
        u.evt = { s.evt with level := s.evt.level.filter evtStandby } ∧
        u = { s with regs := u.regs, cxl := u.cxl, pwr := u.pwr, times := u.times, evt := u.evt } ∧
        s.keeps u [(.TIME_STAT_X, 0), (.TIME_STAT_X, 1)])

/-- CXL_RESPONSE, CXL_REQUEST_TIMEOUT and CXL_LINK_LOSS (R264–R268) at a port that is not frozen. Of the oldest request that waits an
OK answer ends it, and its master goes on: an engine has nothing left to do, and a row of REF whose last read it was enters its slot.
Poison, an uncorrectable error or a timeout sets the port's flag and freezes it, its log naming address, kind,
direction and master, a write gives back the bytes it replaced (logs 59, DEDUCED, and 123, DESIGN CHOICE), poison enters its line in an
empty list, and the master handles the ERROR, an engine whose STC write it was with STC_ERR. A failure given where no such request waits
is kept for one still to be issued (log 123, DESIGN CHOICE), an OK answer there
does nothing. A lost link with one request waiting, of an engine, or with none, sets LINK_DOWN, freezes the port and trains again. -/
def Obligations.CxlErrors : Prop :=
  ∀ (s : State) (p : Fin 4), s.live = true → (s.cxlp p).frozen = false →
    (∀ (r : CxlReq) (rs : List CxlReq), (s.cxlp p).outst = r :: rs → (∀ x ∈ rs, x.undo = []) →
      (∀ (l : Nat) (w : State),
        w = (if r.write then (s.updCxl p fun c => { c with outst := rs }).poisonClear p r.addr r.bytes
          else s.updCxl p fun c => { c with outst := rs }) →
        exec (.cxlResponse p 0 0 l) s = .next (w.cxlAnswered r) ∧
        ((r.master < 16 ∨ r.master = 36 ∨ r.tag = none) → exec (.cxlResponse p 0 0 l) s = .next w) ∧
        (∀ (f : RowFill) (fs : List RowFill), r.master = 17 → r.tag = some (f.hdrAt, f.row) → f.hdrAt ≠ 9 →
          w.tagWaits 17 (· == (f.hdrAt, f.row)) = false → w.ref.fills = f :: fs →
          exec (.cxlResponse p 0 0 l) s = .next (w.rowArrived f))) ∧
      (∀ (k : Fin 3) (l : Nat), k ≠ 0 → ∃ w : State, s.cxlFailsTo w p k l r rs ∧
        exec (.cxlResponse p 0 k l) s = .next (w.cxlFailed p r)) ∧
      (∃ w : State, s.cxlFailsTo w p 3 0 r rs ∧ exec (.cxlRequestTimeout p) s = .next (w.cxlFailed p r)) ∧
      (∀ l : Nat, r.master < 16 → r.tag = some (1, l) →
        ∀ w : State, (w.cxlFailed p r).flag SE_STAT_STC_ERR r.master = true) ∧
      (r.master < 16 → (∀ l : Nat, r.tag ≠ some (1, l)) → ∀ w : State, w.cxlFailed p r = w) ∧
      (r.master < 16 → rs = [] → s.on CXL_P_CTL_EN p = true → ((s.cxlp p).st = .up ∨ (s.cxlp p).st = .l1) →
        ∃ w : State, s.cxlFailsTo w p 4 0 r rs ∧
          exec (.cxlLinkLoss p) s = .next ((w.cxlFailed p r).updCxl p fun c => { c with st := .training, outst := [] }))) ∧
    ((s.cxlp p).outst = [] →
      (∀ (i l : Nat), exec (.cxlResponse p i 0 l) s = .next s ∧ ∀ k : Fin 3, k ≠ 0 →
        exec (.cxlResponse p i k l) s = .next (s.updCxl p fun c => { c with early := c.early ++ [(i, k.val, l)] })) ∧
      exec (.cxlRequestTimeout p) s = .next (s.updCxl p fun c => { c with early := c.early ++ [(0, 3, 0)] }) ∧
      (s.on CXL_P_CTL_EN p = true → ((s.cxlp p).st = .up ∨ (s.cxlp p).st = .l1) →
        ∃ u : State, exec (.cxlLinkLoss p) s = .next u ∧ u.flag CXL_P_STAT_LINK_DOWN p = true ∧ (u.cxlp p).frozen = true ∧
          (u.cxlp p).st = .training ∧ (u.cxlp p).outst = [] ∧ (∀ y, y ≠ p.val → u.cxlp y = s.cxlp y) ∧
          u = { s with regs := u.regs, cxl := u.cxl, freeCtr := u.freeCtr } ∧
          s.keeps u [(.CXL_P_STAT, p.val), (.CXL_P_LD_CNT, p.val), (.CXL_P_LOG_LO, p.val), (.CXL_P_LOG_HI, p.val),
            (.CXL_P_LOG_INFO, p.val)])) ∧
    (s.on CXL_P_CTL_EN p = false → exec (.cxlLinkLoss p) s = .next s)

/-- DMA_START, DMA_PAUSE, DMA_RESUME, DMA_CLEAR and CMP_ENGINE_FREE (R279–R281, R287): START takes an IDLE channel to RUNNING at the
descriptor its registers name and clears the failure registers; PAUSE a RUNNING one to PAUSING, which reads no further; RESUME a PAUSED one to RUNNING;
CLEAR a HALTED or PAUSED one to IDLE, its CMP engine given back; each ends OK. In any other state, and on RPT's channel but for CLEAR
of a HALTED one, each ends with STATE_REFUSED; START together with PAUSE ends with RANGE. A free CMP engine goes to REF's oldest
waiting tile, else to the next waiting channel in rotation where DMAMAX allows, else it stays free. -/
def Obligations.DmaCommands : Prop :=
  ∀ (s : State) (m : Master) (k : Fin 16) (v : Word),
    (s.mayWrite m .DMA_CMD k → (∀ b < 4, v.getLsbD b = false) →
      ((s.dma k).st = .idle → s.dmaRpt k = false →
        ∃ u : State, exec (.dmaStart m k v) s = .next u ∧ u.fld DMA_RES_RESULT k = rOK ∧
          u.dma k = { st := .running, fetch := some (s.wide .DMA_DESC_LO .DMA_DESC_HI k) } ∧
          u.wide .DMA_CURDESC_LO .DMA_CURDESC_HI k = s.wide .DMA_DESC_LO .DMA_DESC_HI k ∧ u.reg .DMA_FAIL_INFO k = 0 ∧
          u.reg .DMA_FAIL_LO k = 0 ∧ u.reg .DMA_FAIL_HI k = 0 ∧ u.reg .DMA_FAIL_OFS k = 0 ∧
          (∀ y, y ≠ k.val → u.dma y = s.dma y) ∧ u = { s with regs := u.regs, dmas := u.dmas, resp := {} } ∧
          s.keeps u [(.DMA_RES, k.val), (.DMA_CURDESC_LO, k.val), (.DMA_CURDESC_HI, k.val), (.DMA_FAIL_LO, k.val),
            (.DMA_FAIL_HI, k.val), (.DMA_FAIL_INFO, k.val), (.DMA_FAIL_OFS, k.val)]) ∧
      ((s.dma k).st ≠ .idle ∨ s.dmaRpt k = true → ∃ u : State, exec (.dmaStart m k v) s = .next u ∧ u.fld DMA_RES_RESULT k = rSTATE_REFUSED ∧
        u = { s with regs := u.regs, resp := {} } ∧ s.keeps u [(.DMA_RES, k.val)]) ∧
      ((s.dma k).st = .running → s.dmaRpt k = false →
        ∃ u : State, exec (.dmaPause m k v) s = .next u ∧ u.fld DMA_RES_RESULT k = rOK ∧
          u.dma k = { s.dma k with st := .pausing, goal := min (s.dma k).goal (s.dma k).done } ∧ (∀ y, y ≠ k.val → u.dma y = s.dma y) ∧
          u = { s with regs := u.regs, dmas := u.dmas, resp := {} } ∧ s.keeps u [(.DMA_RES, k.val)]) ∧
      ((s.dma k).st ≠ .running ∨ s.dmaRpt k = true → ∃ u : State, exec (.dmaPause m k v) s = .next u ∧ u.fld DMA_RES_RESULT k = rSTATE_REFUSED ∧
        u = { s with regs := u.regs, resp := {} } ∧ s.keeps u [(.DMA_RES, k.val)]) ∧
      ((s.dma k).st = .paused → s.dmaRpt k = false →
        ∃ u : State, exec (.dmaResume m k v) s = .next u ∧ u.fld DMA_RES_RESULT k = rOK ∧
          u.dma k = { s.dma k with st := .running } ∧ (∀ y, y ≠ k.val → u.dma y = s.dma y) ∧
          u = { s with regs := u.regs, dmas := u.dmas, resp := {} } ∧ s.keeps u [(.DMA_RES, k.val)]) ∧
      ((s.dma k).st ≠ .paused ∨ s.dmaRpt k = true → ∃ u : State, exec (.dmaResume m k v) s = .next u ∧
        u.fld DMA_RES_RESULT k = rSTATE_REFUSED ∧ u = { s with regs := u.regs, resp := {} } ∧ s.keeps u [(.DMA_RES, k.val)]) ∧
      (((s.dma k).st = .halted ∨ ((s.dma k).st = .paused ∧ s.dmaRpt k = false)) → (s.dma k).eng = none →
        ∃ u : State, exec (.dmaClear m k v) s = .next u ∧ u.fld DMA_RES_RESULT k = rOK ∧ u.dma k = {} ∧
          (∀ y, y ≠ k.val → u.dma y = s.dma y) ∧ u = { s with regs := u.regs, dmas := u.dmas, resp := {} } ∧
          s.keeps u [(.DMA_RES, k.val)]) ∧
      (∀ i : Nat, ((s.dma k).st = .halted ∨ ((s.dma k).st = .paused ∧ s.dmaRpt k = false)) → (s.dma k).eng = some i →
        ∃ u : State, exec (.dmaClear m k v) s = .next u ∧ u.fld DMA_RES_RESULT k = rOK ∧ u.dma k = {} ∧ u.cmpOwner i = .idle ∧
          (∀ y, y ≠ k.val → u.dma y = s.dma y) ∧
          u = { s with regs := u.regs, dmas := u.dmas, cmp := { s.cmp with eng := u.cmp.eng }, resp := {} } ∧
          s.keeps u [(.DMA_RES, k.val)]) ∧
      (¬((s.dma k).st = .halted ∨ ((s.dma k).st = .paused ∧ s.dmaRpt k = false)) → ∃ u : State, exec (.dmaClear m k v) s = .next u ∧ u.fld DMA_RES_RESULT k = rSTATE_REFUSED ∧
        u = { s with regs := u.regs, resp := {} } ∧ s.keeps u [(.DMA_RES, k.val)])) ∧
    (s.mayWrite m .DMA_CMD k → v.getLsbD 1 = true → ∃ u : State, exec (.dmaStart m k v) s = .next u ∧
      u.fld DMA_RES_RESULT k = rRANGE ∧ u = { s with regs := u.regs, resp := {} } ∧ s.keeps u [(.DMA_RES, k.val)]) ∧
    (∀ i : Fin 8, s.live = true →
      (s.cmpOwner i ≠ .idle → exec (.cmpEngineFree i) s = .next s) ∧
      (∀ (t : RefTile) (ts : List RefTile), s.cmpOwner i = .idle → s.ref.waiting = t :: ts →
        exec (.cmpEngineFree i) s = .next { s with
          ref := { s.ref with waiting := ts }, cmp := { s.cmp with eng := put (CmpOwner.tile t) s.cmp.eng i } }) ∧
      (∀ k' : Fin 16, s.cmpOwner i = .idle → s.ref.waiting = [] → (s.dma k').waiting = true → s.cmpDmaMay = true →
        (∀ y : Fin 16, (s.dma y).waiting = true → (k'.val + 15 - s.cmp.turn) % 16 ≤ (y.val + 15 - s.cmp.turn) % 16) →
        s.cmp.turn < 16 →
        ∃ u : State, exec (.cmpEngineFree i) s = .next u ∧ u.cmpOwner i = .dma k' ∧ u.cmp.turn = k' ∧
          u.dma k' = { s.dma k' with eng := some i.val, waiting := false } ∧ (∀ y, y ≠ k'.val → u.dma y = s.dma y) ∧
          u = { s with dmas := u.dmas, cmp := { s.cmp with eng := u.cmp.eng, turn := k' } }) ∧
      (s.ref.waiting = [] → ((∀ y : Fin 16, (s.dma y).waiting = false) ∨ s.cmpDmaMay = false) → s.cmp.turn < 16 →
        exec (.cmpEngineFree i) s = .next s))

/-- DESCRIPTOR_FETCH, DESCRIPTOR_COMPLETE, PAUSE_DRAINED and CHANNEL_HALT (R272–R284) of a channel none of whose accesses waits for a
CXL device: a descriptor that passes its checks is taken up, one of OP 1 or OP 2 waiting where no CMP engine is idle; one that fails
them, or a fetch answered otherwise than OK, halts the channel with its result, ERR and an interrupt. DESCRIPTOR_COMPLETE moves the data
(log 71, DEDUCED): a copy of any number of rows, each read and written in one access, writes each row's bytes; OP 1 writes the
stream made of the source, and where it does not fit CAP the channel halts with kind 9; OP 2 writes what its stream decodes to, and
where that fails halts with its kind and place. Then the last write is read back, the status is written where WB is
set, DONE is set where IRQ is set, with its occurrence on channel 18 where its source is enabled, a CMP engine held is given back, and the
channel goes to NEXT, or after the last descriptor to IDLE; one resumed after that is IDLE with its next DESCRIPTOR_COMPLETE (log 73,
DEDUCED). A PAUSING channel with nothing in progress is PAUSED; a source read answered otherwise than OK halts the channel. -/
def Obligations.DmaDescriptors : Prop :=
  ∀ (s : State) (k : Fin 16), s.live = true →
    ((s.dma k).fetch = none → exec (.descriptorFetch k) s = .next s) ∧
    (∀ (a : Nat) (b : List Byte) (t : State), (s.dma k).fetch = some a → (s.dma k).st = .running → (s.dma k).direct = false →
      (s.dma k).got = none →
      s.anyRead (20 + k) a 64 = (rOK, b, t) → t.dmas = s.dmas → (∀ p < 4, (t.cxlp p).outst = []) →
      ((descOf b).check (t.fld CMP_CTL_DMAMAX) = rOK →
        ((descOf b).op = 0 ∨ ((s.dma k).eng = none ∧ t.cmpIdle = none)) →
        ∃ u : State, exec (.descriptorFetch k) s = .next u ∧
          u.dma k = { s.dma k with
            desc := some (descOf b), fetch := none, done := 0, out := 0, goal := 0, held := [], bad := none, buf := [], stage := 0
            waiting := if (descOf b).op = 0 then (s.dma k).waiting else true } ∧
          (∀ y, y ≠ k.val → u.dma y = s.dma y) ∧ u = { t with regs := u.regs, dmas := u.dmas } ∧
          t.keeps u [(.DMA_CUR_SRC_LO, k.val), (.DMA_CUR_SRC_HI, k.val), (.DMA_CUR_DST_LO, k.val), (.DMA_CUR_DST_HI, k.val),
            (.DMA_ROW, k.val), (.DMA_REMAIN, k.val), (.DMA_PRODUCED, k.val)]) ∧
      (∀ r : Nat, (descOf b).check (t.fld CMP_CTL_DMAMAX) = r → r ≠ rOK →
        ∃ u : State, exec (.descriptorFetch k) s = .next u ∧ (u.dma k).st = .halted ∧ u.fld DMA_RES_RESULT k = r ∧
          u.flag DMA_STAT_ERR k = true ∧ u.zsp.irqs = "DMA_HALT" :: t.zsp.irqs ∧
          (∀ y, y ≠ k.val → u.dma y = s.dma y) ∧
          u = { t with regs := u.regs, dmas := u.dmas, zsp := { t.zsp with irqs := u.zsp.irqs } } ∧
          t.keeps u [(.DMA_RES, k.val), (.DMA_FAIL_LO, k.val), (.DMA_FAIL_HI, k.val), (.DMA_FAIL_INFO, k.val),
            (.DMA_FAIL_OFS, k.val), (.DMA_STAT, k.val), (.DMA_ERR_CNT, k.val)])) ∧
    (∀ (a r : Nat) (b : List Byte) (t : State), (s.dma k).fetch = some a → (s.dma k).st = .running → (s.dma k).direct = false →
      (s.dma k).got = none → s.anyRead (20 + k) a 64 = (r, b, t) → r ≠ rOK → r < 16 → t.dmas = s.dmas →
      (∀ p < 4, (t.cxlp p).outst = []) →
      ∃ u : State, exec (.descriptorFetch k) s = .next u ∧ (u.dma k).st = .halted ∧ u.fld DMA_RES_RESULT k = r ∧
        u.wide .DMA_FAIL_LO .DMA_FAIL_HI k = a % 2 ^ 40 ∧ u.flag DMA_STAT_ERR k = true ∧
        u = { t with regs := u.regs, dmas := u.dmas, zsp := { t.zsp with irqs := "DMA_HALT" :: t.zsp.irqs } }) ∧
    (∀ (d : Desc) (st t x y : Nat → State) (b : Nat → List Byte), s.dmaFresh k d → d.op = 0 → d.wrap = none →
      0 < d.rows → 0 < d.len → d.sw ≤ 6 → d.dw ≤ 6 → st 0 = s.updDma k (fun c => { c with goal := d.rows * d.len }) →
      (∀ r < d.rows,
        (d.src + r * d.sstride) % 64 + d.len ≤ 2 ^ d.sw ∧ (d.dst + r * d.dstride) % 64 + d.len ≤ 2 ^ d.dw ∧
        (st r).anyRead (20 + k) (d.src + r * d.sstride) d.len = (rOK, b r, t r) ∧ (b r).length = d.len ∧
        (t r).dmas = (st r).dmas ∧ (t r).noCxlWait ∧
        x r = (t r).updDma k (fun c => { c with done := (r + 1) * d.len, buf := b r }) ∧
        (x r).anyWrite (20 + k) (d.dst + r * d.dstride) (b r) = (rOK, y r) ∧ (y r).dmas = (x r).dmas ∧ (y r).noCxlWait ∧
        st (r + 1) = (y r).updDma k (fun c => { c with
          out := (r + 1) * d.len, lastW := (d.dst + r * d.dstride, d.len), buf := [] })) →
      exec (.descriptorComplete k) s = .next ((((st d.rows).updDma k fun c => { c with stage := 1 }).dmaCur k).dmaFinish k)) ∧
    (∀ (d : Desc) (n : Nat) (b : List Byte) (s0 t x y w : State), s.dmaFresh k d → (d.op = 1 ∨ d.op = 2) → d.wrap = none →
      d.rows = 1 → 0 < n → n = d.srcBytes → d.src % 64 + n ≤ 2 ^ d.sw → d.sw ≤ 6 →
      s0 = s.updDma k (fun c => { c with goal := n }) → s0.anyRead (20 + k) d.src n = (rOK, b, t) →
      t.dmas = s0.dmas → t.noCxlWait → x = (t.updDma k fun c => { c with done := n, buf := b }).cmpCount b.length 0 →
      y = x.dmaPutOut k d false (d.made b) → (y.dma k).st = .running → y.noCxlWait →
      w = y.dmaPutOut k d true (if d.op = 1 then (zcmEncode b d.level).take d.cap else (zcmDecode b d.dstBytes).out) →
      (w.dma k).st = .running → w.noCxlWait →
      (d.op = 1 → (zcmEncode b d.level).length ≤ d.cap →
        exec (.descriptorComplete k) s = .next (((w.updDma k fun c => { c with buf := [], stage := 1 }).dmaCur k).dmaFinish k)) ∧
      (d.op = 1 → d.cap < (zcmEncode b d.level).length →
        exec (.descriptorComplete k) s = .next (w.drawn.dmaStreamFail k d 9 (w.free % 2 ^ 24) (d.dst + d.cap))) ∧
      (d.op = 2 → (zcmDecode b d.dstBytes).fail = none →
        exec (.descriptorComplete k) s = .next (((w.updDma k fun c => { c with buf := [], stage := 1 }).dmaCur k).dmaFinish k)) ∧
      (∀ kind ofs : Nat, d.op = 2 → (zcmDecode b d.dstBytes).fail = some (kind, ofs) →
        exec (.descriptorComplete k) s = .next (w.dmaStreamFail k d kind ofs (d.src + ofs)))) ∧
    (∀ (d : Desc) (all : Bool) (bs : List Byte) (a n o : Nat) (y : State), d.overlaps = false → (s.dma k).out = o → d.writeAt o = (a, n) →
      o < bs.length → bs.length - o ≤ n → (all = true ∨ bs.length - o = n) →
      s.anyWrite (20 + k) a (bs.drop o) = (rOK, y) → y.dmas = s.dmas → y.noCxlWait →
      s.dmaPutOut k d all bs =
        (y.updDma k fun c => { c with out := bs.length, lastW := (a, bs.length - o) }).cmpCount 0 (bs.length - o)) ∧
    (∀ (d : Desc) (kind ofs addr : Nat), (s.dma k).direct = false →
      ((s.dmaStreamFail k d kind ofs addr).dma k).st = .halted ∧
      (s.dmaStreamFail k d kind ofs addr).fld DMA_RES_RESULT k = rERROR ∧
      (s.dmaStreamFail k d kind ofs addr).flag CMP_STAT_DECODE_ERR = true ∧
      (s.dmaStreamFail k d kind ofs addr).wide .DMA_FAIL_LO .DMA_FAIL_HI k = addr % 2 ^ 40) ∧
    (∀ (d : Desc) (a n : Nat) (c : List Byte) (q r w : State), (s.dma k).desc = some d → (s.dma k).stage = 1 →
      (s.dma k).st = .running → (s.dma k).direct = false → s.noCxlWait → 0 < (s.dma k).out → (s.dma k).lastW = (a, n) →
      (s.dmaCur k).anyRead (20 + k) a n = (rOK, c, q) → q.dmas = s.dmas → q.noCxlWait →
      (if d.wb = true then
        (q.updDma k fun c => { c with stage := 2 }).anyWrite (20 + k) (q.dmaCurDesc k + 56)
          (leBytes 4 rOK ++ leBytes 4 (s.dma k).out) = (rOK, r) ∧ r.dmas = (q.updDma k fun c => { c with stage := 2 }).dmas ∧ r.noCxlWait
        else r = q.updDma k fun c => { c with stage := 2 }) →
      w = r.updDma k (fun c => { c with stage := 3 }) →
      s.dmaFinish k = (if d.irq then w.dmaDone k else w).dmaNext k d) ∧
    ((s.dmaDone k).flag DMA_STAT_DONE k = true ∧
      ((s.reg .EVT_SRCMASK 0).getLsbD (16 + k) = false → s.dmaDone k = { s with regs := (s.dmaDone k).regs } ∧
        s.keeps (s.dmaDone k) [(.DMA_STAT, k.val), (.DMA_DONE_CNT, k.val)]) ∧
      ((s.reg .EVT_SRCMASK 0).getLsbD (16 + k) = true → ∃ w : State, w.flag DMA_STAT_DONE k = true ∧ w = { s with regs := w.regs } ∧
        s.keeps w [(.DMA_STAT, k.val), (.DMA_DONE_CNT, k.val)] ∧ w.routed (s.dmaDone k))) ∧
    (∀ d : Desc, (s.dma k).st = .running → (s.dma k).direct = false →
      (∀ i : Nat, (s.dma k).eng = some i →
        s.dmaNext k d = ((s.cmpGive i .idle).updDma k fun c => { c with eng := none }).dmaNext k d) ∧
      ((s.dma k).eng = none → d.last = true → s.dmaNext k d = s.updDma k fun _ => {}) ∧
      ((s.dma k).eng = none → d.last = false →
        ∃ u : State, s.dmaNext k d = u ∧ u.wide .DMA_CURDESC_LO .DMA_CURDESC_HI k = d.next % 2 ^ 64 ∧
          u.dma k = { s.dma k with
            fetch := some d.next, desc := none, buf := [], stage := 0, done := 0, out := 0, goal := 0, waiting := false } ∧
          (∀ y, y ≠ k.val → u.dma y = s.dma y) ∧ u = { s with regs := u.regs, dmas := u.dmas } ∧
          s.keeps u [(.DMA_CURDESC_LO, k.val), (.DMA_CURDESC_HI, k.val)])) ∧
    ((s.dma k).desc = none → (s.dma k).st = .running → (s.dma k).fetch = none →
      exec (.descriptorComplete k) s = .next (s.updDma k fun _ => {})) ∧
    ((s.dma k).st ≠ .pausing → ∀ n : Nat, exec (.pauseDrained k n) s = .next s) ∧
    ((s.dma k).st = .pausing → (s.dma k).desc = none → (s.dma k).stage = 0 → (s.dma k).held = [] → s.noCxlWait →
      ∀ n : Nat, exec (.pauseDrained k n) s = .next (s.updDma k fun c => { c with st := .paused })) ∧
    ((s.dma k).desc = none → ∀ n : Nat, exec (.channelHalt k n) s = .next s) ∧
    (∀ (d : Desc) (r : Nat) (b : List Byte) (s0 t : State), s.dmaFresh k d → d.op = 0 →
      d.rows = 1 → 0 < d.len → d.wrap = none → d.src % 64 + d.len ≤ 2 ^ d.sw → d.sw ≤ 6 →
      s.dmaCurDesc k + 56 < poolBase → s0 = s.updDma k (fun c => { c with goal := d.len }) →
      s0.anyRead (20 + k) d.src d.len = (r, b, t) → r ≠ rOK → r < 16 → t.dmas = s0.dmas → t.noCxlWait →
      ∃ u : State, exec (.channelHalt k d.len) s = .next u ∧ (u.dma k).st = .halted ∧ u.fld DMA_RES_RESULT k = r ∧
        u.wide .DMA_FAIL_LO .DMA_FAIL_HI k = d.src % 2 ^ 40 ∧ u.flag DMA_STAT_ERR k = true ∧
        u = { t with
          regs := u.regs, mem := u.mem, freeCtr := u.freeCtr, dmas := u.dmas
          zsp := { t.zsp with irqs := "DMA_HALT" :: t.zsp.irqs } })

/-- MAILBOX_GO, MAILBOX_REPLY, MAILBOX_TIMEOUT, SYNC and FLUSH_BLIND (R290–R292): GO delivers the eight request words, with BUSY 1
and DONE 0, or sets MB_BUSYW; a reply is written to RSP0–RSP7 with BUSY 0, DONE 1 and an interrupt, an opcode the target does not
know (R405 of 21_profiles_boot.md, R324 of 16_signal_chain.md, R331 of 17_loupe_carriage.md, R370 of 19_flacon.md) getting RANGE with
its tag (log 88, DEDUCED), on mailbox 4 outside COUNTING INTEGRITY or AUTH_FAIL (R370), and nothing while the Flacon core is not
released; a request unanswered for 10 ms gets ERROR with its tag, and MB_TO; what the target would still answer to an earlier
request of the mailbox is discarded at both (R292). SYNC answers the write index
once the lines up to its own are past and no record of theirs is owed; FLUSH_BLIND emits the open extents and answers once no BLIND
record waits; both are answered by the command at which their condition holds (log 111, DEDUCED). -/
def Obligations.Mailboxes : Prop :=
  ∀ (s : State) (m : Master) (n : Fin 5) (v : Word) (w : Word) (ws : List Word),
    (s.mayWrite m .ETH_MB_CTL n → s.on ETH_MB_CTL_BUSY n = true →
      ∃ u : State, exec (.mailboxGo m n v) s = .next u ∧ u.flag ETH_MB_STAT_MB_BUSYW = true ∧
        u = { s with regs := u.regs, resp := {} } ∧ s.keeps u [(.ETH_MB_STAT, 0), (.ETH_MBBW_CNT, 0)]) ∧
    (s.mayWrite m .ETH_MB_CTL n → s.on ETH_MB_CTL_BUSY n = false →
      ∃ u : State, exec (.mailboxGo m n v) s = .next u ∧ u.fld ETH_MB_CTL_BUSY n = 1 ∧ u.fld ETH_MB_CTL_DONE n = 0 ∧
        u.mbox n = { req := some ((List.range 8).map fun i => s.reg .ETH_MB_REQ (n * 8 + i)) } ∧
        (∀ y, y ≠ n.val → u.mbox y = s.mbox y) ∧
        u.fl = (if n.val = 4 then { s.fl with commits := s.fl.commits.map fun c => { c with reply := none } } else s.fl) ∧
        u.boot = (if n.val = 0 then { s.boot with splice := s.boot.splice.map fun x => { x with mail := false } } else s.boot) ∧
        u = { s with regs := u.regs, mboxes := u.mboxes, fl := u.fl, boot := u.boot, resp := {} } ∧
        s.keeps u [(.ETH_MB_CTL, n.val)]) ∧
    (s.live = true → (s.mbox n).rsp = none → (s.mbox n).req = none → exec (.mailboxReply n) s = .next s ∧
      exec (.mailboxTimeout n) s = .next s) ∧
    (∀ r : List Word, s.live = true → s.zsp.asks = [] → (s.mbox n).rsp = some r →
      ∃ u : State, exec (.mailboxReply n) s = .next u ∧ (∀ i < 8, u.reg .ETH_MB_RSP (n * 8 + i) = r.getD i 0) ∧
        u.fld ETH_MB_CTL_BUSY n = 0 ∧ u.fld ETH_MB_CTL_DONE n = 1 ∧ u.mbox n = {} ∧
        u = { s with regs := u.regs, mboxes := u.mboxes, zsp := { s.zsp with irqs := "MAILBOX" :: s.zsp.irqs } } ∧
        s.keeps u ((.ETH_MB_CTL, n.val) :: (List.range 8).map fun i => (.ETH_MB_RSP, n.val * 8 + i))) ∧
    (s.live = true → s.zsp.asks = [] → (s.mbox n).rsp = none → (s.mbox n).req = some (w :: ws) →
      (bits w.toNat 7 0 ∉ mbOpcodes n → n.val = 4 → s.fl.st = .boot → exec (.mailboxReply n) s = .next s) ∧
      (bits w.toNat 7 0 ∉ mbOpcodes n → (n.val = 4 → s.fl.st ≠ .boot) →
        ∃ u : State, exec (.mailboxReply n) s = .next u ∧
          u.reg .ETH_MB_RSP (n * 8) = BitVec.ofNat 32 ((if n.val ≠ 4 ∨ s.fl.st = .counting then rRANGE
            else if s.fl.st = .noFw then rAUTH_FAIL else rINTEGRITY) + 256 * bits w.toNat 15 8) ∧ u.fld ETH_MB_CTL_DONE n = 1 ∧
          u.fld ETH_MB_CTL_BUSY n = 0 ∧
          u = { s with regs := u.regs, mboxes := u.mboxes, zsp := { s.zsp with irqs := "MAILBOX" :: s.zsp.irqs } }) ∧
      (bits w.toNat 7 0 ∈ mbOpcodes n → exec (.mailboxReply n) s = .next s) ∧
      (∃ u : State, exec (.mailboxTimeout n) s = .next u ∧
        u.reg .ETH_MB_RSP (n * 8) = BitVec.ofNat 32 (rERROR + 256 * bits w.toNat 15 8) ∧ u.fld ETH_MB_CTL_DONE n = 1 ∧
        u.fld ETH_MB_CTL_BUSY n = 0 ∧ u.flag ETH_MB_STAT_MB_TO = true ∧ u.mbox n = {} ∧
        u.fl = (if n.val = 4 then { s.fl with commits := s.fl.commits.map fun c => { c with reply := none } } else s.fl) ∧
        u.boot = (if n.val = 0 then { s.boot with splice := s.boot.splice.map fun x => { x with mail := false } } else s.boot) ∧
        u = { s with
          regs := u.regs, mboxes := u.mboxes, fl := u.fl, boot := u.boot
          zsp := { s.zsp with irqs := "MAILBOX" :: s.zsp.irqs } } ∧
        s.keeps u ([(.ETH_MB_CTL, n.val), (.ETH_MB_STAT, 0), (.ETH_MBTO_CNT, 0)]
          ++ (List.range 8).map fun i => (.ETH_MB_RSP, n.val * 8 + i)))) ∧
    (s.live = true → (s.mbox 1).req = some (w :: ws) → (s.mbox 1).work = false → (s.mbox 1).rsp = none →
      (∀ l : Int, bits w.toNat 7 0 = 1 → l = ((reqWord (w :: ws) 1 + 2 ^ 32 * (reqWord (w :: ws) 2 % 65536) : Nat) : Int) →
        (s.rptPast l = true → s.rptOwes l = false →
          ∃ u : State, exec .sync s = .next u ∧
            ((u.mbox 1).rsp.map fun r => (r.getD 0 0, r.getD 1 0))
              = some (BitVec.ofNat 32 (rOK + 256 * bits w.toNat 15 8), BitVec.ofNat 32 (s.fld RPT_QWR_SEQ)) ∧
            u = { s with mboxes := u.mboxes } ∧ ∀ y, y ≠ 1 → u.mbox y = s.mbox y) ∧
        (s.rptOwes l = true ∨ s.rptPast l = false → exec .sync s = .next s)) ∧
      (bits w.toNat 7 0 = 2 → s.rpt.open_ = [] → (∀ k < 4, (s.marker k).off = none) → s.rpt.blind = [] →
        (∀ i ∈ s.rpt.wait, i.item.order ≠ 3) → (∀ r ∈ s.rpt.built, r.blind = none) →
        (∀ b ∈ s.rpt.back, (s.recordOf b).blind = none) →
        ∃ u : State, exec .flushBlind s = .next u ∧
          ((u.mbox 1).rsp.map fun r => r.getD 0 0) = some (BitVec.ofNat 32 (rOK + 256 * bits w.toNat 15 8)) ∧
          u = { s with mboxes := u.mboxes } ∧ ∀ y, y ≠ 1 → u.mbox y = s.mbox y) ∧
      (bits w.toNat 7 0 = 2 → s.on RPT_CTL_EN = true → s.rpt.open_ ≠ [] → (∀ k < 4, (s.marker k).off = none) →
        exec .flushBlind s = .next { s with rpt := { s.rpt with
          open_ := []
          wait := s.rpt.wait ++ s.rpt.open_.map fun c => { due := max 0 (s.nowTick + 1), item := .blind {
            cause := c.cause, detail := c.detail, src := c.src, ext := c.ext } } } }))

/-- The receive buffers of a port that is enabled and has its link (R295), after software has returned the oldest frames of the queues
named in `back`: a frame for queue 0 takes one of its 64 buffers, or is dropped with Q0_DROP where none is free; a frame for queues 1–3
takes one of the 448 they share, or is dropped with QX_DROP, and never one of queue 0. -/
def Obligations.ReceiveBuffers : Prop :=
  ∀ (s t : State) (p : Fin 2) (f : List Byte) (back : List Nat) (e : EthPort), s.live = true → s.on ETH_CTL_EN p = true →
    s.on ETH_STAT_LINK p = true → t = s.framesBack p back → e = look {} t.eths p.val →
    (s.frameQueue p f = 0 → e.held 0 < 64 →
      ∃ u : State, exec (.ethFrameReceive p back f none) s = .next u ∧ (look {} u.eths p.val).rx = e.rx ++ [(0, f)] ∧
        (look {} u.eths p.val).held 0 = e.held 0 + 1 ∧ (∀ q, q ≠ 0 → (look {} u.eths p.val).held q = e.held q) ∧
        (∀ y, y ≠ p.val → look {} u.eths y = look {} s.eths y) ∧ u = { s with eths := u.eths }) ∧
    (s.frameQueue p f = 0 → 64 ≤ e.held 0 →
      ∃ u : State, exec (.ethFrameReceive p back f none) s = .next u ∧ u.flag ETH_STAT_Q0_DROP p = true ∧
        u = { t with regs := u.regs } ∧ s.keeps u [(.ETH_STAT, p.val), (.ETH_Q0D_CNT, p.val)]) ∧
    (s.frameQueue p f ≠ 0 → e.held 1 + e.held 2 + e.held 3 < 448 →
      ∃ u : State, exec (.ethFrameReceive p back f none) s = .next u ∧
        (look {} u.eths p.val).rx = e.rx ++ [(s.frameQueue p f, f)] ∧ (look {} u.eths p.val).held 0 = e.held 0 ∧
        (look {} u.eths p.val).held 1 + (look {} u.eths p.val).held 2 + (look {} u.eths p.val).held 3
          = e.held 1 + e.held 2 + e.held 3 + 1 ∧
        (∀ y, y ≠ p.val → look {} u.eths y = look {} s.eths y) ∧ u = { s with eths := u.eths }) ∧
    (s.frameQueue p f ≠ 0 → 448 ≤ e.held 1 + e.held 2 + e.held 3 →
      ∃ u : State, exec (.ethFrameReceive p back f none) s = .next u ∧ u.flag ETH_STAT_QX_DROP p = true ∧
        u = { t with regs := u.regs } ∧ s.keeps u [(.ETH_STAT, p.val), (.ETH_QXD_CNT, p.val)])

/-- ETH_FRAME_RECEIVE, ETH_FRAME_SENT, SGMII_LINK_CHANGE, TLS_CONNECT, HWACT_STOP_REPORTS, HWACT_STOP_EXPORT, HOLD_REQ and
REGISTER_WRITE of ETH_HWACT (R294–R298, R302, R314 of 15_service_cores.md): a frame for which a buffer is free is taken, a PTP event
frame with the time of both domains (which frames those are is log 127, DESIGN CHOICE); a frame taken that completes a message of a
session is acted on (that a frame command carries one message is log 86, DESIGN CHOICE); a frame sent leaves the wire, its message with
its last frame (how a message is cut into frames is log 127), and the oldest message of the highest queue that is not stopped takes it;
a link that goes down sets LINK_DOWN; a connection with a trusted chain opens a session of its role, in BLANK and RETURN none (R379 of
20_security_power.md); only core 0 and the root core set the hardware actions, of two writes in one cycle (log 124, DESIGN CHOICE)
every bit that either sets; HOLD_REQ latches L_h and starts the drain (R394 of 20_security_power.md, R33 of 02_line_tick.md). -/
def Obligations.PortsAndActions : Prop :=
  ∀ (s : State) (p : Fin 2) (f : List Byte) (m : Master) (v : Word),
    (s.live = true → s.on ETH_CTL_EN p = true → s.on ETH_STAT_LINK p = true →
      ((s.frameQueue p f = 0 ∧ (look {} s.eths p.val).held 0 < 64) ∨ (s.frameQueue p f ≠ 0 ∧
        (look {} s.eths p.val).held 1 + (look {} s.eths p.val).held 2 + (look {} s.eths p.val).held 3 < 448)) →
      ∃ u : State, exec (.ethFrameReceive p [] f none) s = .next u ∧
        look {} u.eths p.val = { look {} s.eths p.val with
          rx := (look {} s.eths p.val).rx ++ [(s.frameQueue p f, f)]
          stamps := if framePtp f then (f, s.ptpStamp) :: (look {} s.eths p.val).stamps else (look {} s.eths p.val).stamps } ∧
        u = { s with eths := u.eths } ∧
        ∀ (sid : Nat) (b : List Byte), s.serving = true → (s.session sid).any (fun c => c.port == p.val) = true →
          exec (.ethFrameReceive p [] f (some (sid, b))) s = .next (u.zspMessage sid b)) ∧
    (s.live = true → (s.on ETH_CTL_EN p = false ∨ s.on ETH_STAT_LINK p = false) → ∀ (l : List Nat) (x : Option (Nat × List Byte)),
      exec (.ethFrameReceive p l f x) s = .next (s.framesBack p l)) ∧
    (∀ (q : Nat) (x : Msg) (tx : List (Nat × Msg)) (more : Bool), s.live = true → (look {} s.eths p.val).wire = some (q, x) →
      more = decide (look 0 (look {} s.eths p.val).cut q + 1 < x.frames) →
      tx = (if more then (q, x) :: (look {} s.eths p.val).tx else (look {} s.eths p.val).tx) →
      s.on ETH_CTL_EN p = true → s.on ETH_STAT_LINK p = true →
      ∃ u : State, exec (.ethFrameSent p) s = .next u ∧
        look {} u.eths p.val = { look {} s.eths p.val with
          wire := s.ethPick tx
          sent := if more then (look {} s.eths p.val).sent else x :: (look {} s.eths p.val).sent
          cut := if more then put (look 0 (look {} s.eths p.val).cut q + 1) (look {} s.eths p.val).cut q
            else (look {} s.eths p.val).cut.filter (·.1 != q)
          tx := match s.ethPick tx with | some y => dropFirst y.1 tx | none => tx } ∧
        u = { s with eths := u.eths } ∧ ∀ y, y ≠ p.val → look {} u.eths y = look {} s.eths y) ∧
    (s.live = true → (look {} s.eths p.val).wire = none → exec (.ethFrameSent p) s = .next s) ∧
    (s.live = true → s.on ETH_STAT_LINK p = true →
      ∃ u : State, exec (.sgmiiLinkChange p false) s = .next u ∧ u.fld ETH_STAT_LINK p = 0 ∧ u.flag ETH_STAT_LINK_DOWN p = true ∧
        u = { s with regs := u.regs } ∧ s.keeps u [(.ETH_STAT, p.val), (.ETH_LD_CNT, p.val)]) ∧
    (s.live = true → (∃ u : State, exec (.sgmiiLinkChange p true) s = .next u ∧ u.fld ETH_STAT_LINK p = 1 ∧
        u = { s with regs := u.regs, eths := u.eths } ∧ s.keeps u [(.ETH_STAT, p.val)])) ∧
    (∀ (data : Bool) (ca : List Byte) (ou : ClientOu),
      (s.serving = true → s.on ETH_CTL_EN p = true → s.on ETH_STAT_LINK p = true → s.boot.cert ≠ 0 → s.lcState ≠ 0 →
        s.lcState ≠ 3 → ca ∈ s.boot.auth →
        (s.zsp.sessions.filter fun e => e.2.data == data).length < (if data then 16 else 4) →
        exec (.tlsConnect p data ca ou true) s = .next { s with zsp := { s.zsp with
          nextSid := s.zsp.nextSid + 1
          sessions := s.zsp.sessions ++ [(s.zsp.nextSid, { port := p, data := data, role := roleOf ou })] } }) ∧
      exec (.tlsConnect p data ca ou false) s = .next s ∧
      (∀ ok : Bool, s.lcState = 3 → exec (.tlsConnect p data ca ou ok) s = .next s) ∧
      (∀ ok : Bool, ca ∉ s.boot.auth → exec (.tlsConnect p data ca ou ok) s = .next s)) ∧
    (s.mayWrite m .ETH_HWACT 0 → m.val ≠ 40 → m.val ≠ 48 → exec (.hwactStopReports m v) s = .next s.answered ∧
      exec (.hwactStopExport m v) s = .next s.answered ∧ exec (.holdReq m v) s = .next s.answered) ∧
    (∀ x : WriteData, s.mayWrite m .ETH_HWACT 0 → (m.val = 40 ∨ m.val = 48) → x.meets = true →
      exec (.registerWrite m (regAddr .ETH_HWACT 0) 4 x) s
        = .next { s.answered with hwHeld := some (x.data ||| s.hwHeld.getD 0) }) ∧
    (∀ e : Word, s.mayWrite m .ETH_HWACT 0 → (m.val = 40 ∨ m.val = 48) → e = v ||| s.hwHeld.getD 0 →
      (e.getLsbD 1 = s.on ETH_HWACT_STOP_EXPORT → e.getLsbD 2 = false →
        ∃ u : State, exec (.hwactStopReports m v) s = .next u ∧ u.fld ETH_HWACT_STOP_REPORTS = 1 ∧
          u.fld ETH_HWACT_STOP_EXPORT = s.fld ETH_HWACT_STOP_EXPORT ∧
          u = { s with regs := u.regs, eths := u.eths, hwHeld := none, resp := {} } ∧ s.keeps u [(.ETH_HWACT, 0)]) ∧
      (s.fld ETH_HWACT_STOP_EXPORT = 0 → e.getLsbD 2 = false →
        ∃ u : State, exec (.hwactStopExport m v) s = .next u ∧ u.fld ETH_HWACT_STOP_EXPORT = 1 ∧
          (∀ k < 16, (u.dma k).st = (if (s.reg .ETH_EXPDMA).getLsbD k && (s.dma k).st == .running && !s.dmaRpt k then .pausing
            else (s.dma k).st)) ∧
          u = { s with regs := u.regs, eths := u.eths, dmas := u.dmas, hwHeld := none, resp := {} } ∧
          s.keeps u ((.ETH_HWACT, 0) :: (List.range 16).map fun k => (.DMA_RES, k))) ∧
      (s.inRun = true → s.pwr.drain = false → s.boot.splice = none → e.getLsbD 1 = s.on ETH_HWACT_STOP_EXPORT →
        ∃ u : State, exec (.holdReq m v) s = .next u ∧
          u.pwr = { s.pwr with drain := true, drainAt := s.tick.hw.toNat, holdLine := s.tick.hw.toNat } ∧
          u.tick = { s.tick with
            hw := max s.tickLast s.tick.line, holdAdv := (max s.tickLast s.tick.line - s.tick.hw).toNat } ∧
          u = { s with regs := u.regs, eths := u.eths, pwr := u.pwr, tick := u.tick, hwHeld := none, resp := {} } ∧
          s.keeps u [(.ETH_HWACT, 0)]))

/-- STOP_REPORTS, STOP_EXPORT, HOLD, RESUME_REPORTS, RESUME_EXPORT, RUN, STATUS and ECHO of a control session (R299–R302, R304): each
is answered with OK once core 0 has set or cleared its hardware action, HOLD in any case; RUN resumes a held job at the present
mark with the Hold advance added to the job's, with the result of a run that is refused, and with STATE_REFUSED in any other job
state (what HOLD latches and how its drain begins is R394, what RUN needs R393 of 20_security_power.md); STATUS and ECHO are answered
OK, ECHO with its payload (STATUS's payload has no layout, log 36, DESIGN CHOICE). A session that may not use the class is answered DENIED, and without
the service nothing happens. -/
def Obligations.ControlClass : Prop :=
  ∀ (s : State) (sid rid : Nat),
    (s.serving = false → exec (.stopReports sid rid) s = .next s ∧ exec (.run sid rid) s = .next s ∧
      ∀ b : List Byte, exec (.echo sid rid b) s = .next s) ∧
    (∀ c : Session, s.serving = true → s.session sid = some c → c.may 1 = false →
      exec (.hold sid rid) s = .next (s.zspReply sid 1 3 rid rDENIED) ∧
      exec (.run sid rid) s = .next (s.zspReply sid 1 6 rid rDENIED)) ∧
    (s.zspMay sid 1 → s.mayWrite 40 .ETH_HWACT 0 → s.hwHeld = none → (s.reg .ETH_HWACT).getLsbD 2 = false →
      (∃ u : State, exec (.stopReports sid rid) s = .next (u.zspReply sid 1 1 rid rOK) ∧ u.fld ETH_HWACT_STOP_REPORTS = 1 ∧
        u = { s with regs := u.regs, eths := u.eths, resp := {} } ∧ s.keeps u [(.ETH_HWACT, 0)]) ∧
      (∃ u : State, exec (.resumeReports sid rid) s = .next (u.zspReply sid 1 4 rid rOK) ∧ u.fld ETH_HWACT_STOP_REPORTS = 0 ∧
        u = { s with regs := u.regs, eths := u.eths, resp := {} } ∧ s.keeps u [(.ETH_HWACT, 0)]) ∧
      (∃ u : State, exec (.stopExport sid rid) s = .next (u.zspReply sid 1 2 rid rOK) ∧ u.fld ETH_HWACT_STOP_EXPORT = 1 ∧
        u = { s with regs := u.regs, eths := u.eths, dmas := u.dmas, resp := {} } ∧
        s.keeps u ((.ETH_HWACT, 0) :: (List.range 16).map fun k => (.DMA_RES, k))) ∧
      (∃ u : State, exec (.resumeExport sid rid) s = .next (u.zspReply sid 1 5 rid rOK) ∧ u.fld ETH_HWACT_STOP_EXPORT = 0 ∧
        u = { s with regs := u.regs, eths := u.eths, dmas := u.dmas, resp := {} } ∧
        s.keeps u ((.ETH_HWACT, 0) :: (List.range 16).map fun k => (.DMA_RES, k))) ∧
      (s.inRun = true → s.pwr.drain = false → s.boot.splice = none →
        ∃ u : State, exec (.hold sid rid) s = .next (u.zspReply sid 1 3 rid rOK) ∧ u.pwr.drain = true ∧
          u.pwr.holdLine = s.tick.hw.toNat ∧
          u = { s with regs := u.regs, eths := u.eths, pwr := u.pwr, tick := u.tick, resp := {} } ∧
          s.keeps u [(.ETH_HWACT, 0)])) ∧
    (s.zspMay sid 1 →
      (∃ u : State, exec (.hold sid rid) s = .next (u.zspReply sid 1 3 rid rOK)) ∧
      (∀ (r : Nat) (t : State), s.zsp.job = .jobHold → s.zsp.ending = none → s.inHoldIdle = true → r ≠ rOK →
        s.askRun (ofSigned 48 s.tick.hw) = (r, t) → exec (.run sid rid) s = .next (t.zspReply sid 1 6 rid r)) ∧
      (s.zsp.job ≠ .jobHold → exec (.run sid rid) s = .next (s.zspReply sid 1 6 rid rSTATE_REFUSED)) ∧
      (∀ t : State, s.zsp.job = .jobHold → s.zsp.ending = none → s.inHoldIdle = true →
        s.askRun (ofSigned 48 s.tick.hw) = (rOK, t) →
        ∃ u : State, exec (.run sid rid) s = .next ((u.zspEvent 2 0x0103
            (leBytes 8 (t.pwr.t0 % 2 ^ 48) ++ leBytes 4 (min 0xFFFFFFFF s.tick.holdAdv))).zspReply sid 1 6 rid rOK) ∧
          u = { t with zsp := { t.zsp with job := .jobRun, holdAdv := t.zsp.holdAdv + s.tick.holdAdv } }) ∧
      (∃ b : List Byte, exec (.status sid rid) s = .next (s.zspReply sid 1 0x10 rid rOK b)) ∧
      (∀ b : List Byte, exec (.echo sid rid b) s = .next (s.zspReply sid 1 0x11 rid rOK b)) ∧
      (∀ (b : List Byte) (c : Session), s.zsp.sessions = [(sid, c)] → c.data = false → c.slots = [] → b.length ≤ 1048560 →
        (look {} s.eths c.port).wire.isSome = true →
        ∃ u : State, exec (.echo sid rid b) s = .next u ∧
          (look {} u.eths c.port).tx = (look {} s.eths c.port).tx ++ [(0, ⟨sid, 1, 0x11, 1, rOK, rid, b⟩)] ∧
          u = { s with eths := u.eths })) ∧
    (∀ t : State, s.inHoldIdle = true → s.mayWrite 41 .SYS_RUNMARK_LO 0 → s.mayWrite 41 .SYS_RUNMARK_HI 0 →
      s.mayWrite 41 .SYS_PWRCMD 0 → s.on SYS_PSTAT_VALID = true → s.askRun (ofSigned 48 s.tick.hw) = (rOK, t) →
      t.pwr.st = .run ∧ t.pwr.t0 = (s.tick.hw + 1).toNat)

/-- JOB_START, JOB_END, CAL_RUN, CAL_END, STANDBY, FEED_STATUS, REF_MISSING and HOLD_ENTRY (R304–R307, R309, R394): a job starts in
Hold at standstill with its enables set and Run entered at the mark, and is announced with JOB_STARTED; where REF refuses, TICK's
enable is cleared and RPT_JOB0 is as it was, where Run is refused the enables are cleared (the model's choice, log 95); its end
requests Hold in Run, or goes on with FLUSH and SYNC in Hold; CAL runs without a job from simulated pulses with RPT disabled, and its
end requests Hold and is answered at once, and STANDBY, taken in NO_JOB, is answered before the entry (log 106, DEDUCED); FEED_STATUS gives the present page, the queue, the open bands and the tiles lost; a
band due and incomplete is reported with its missing tiles, of a page not yet declared from its expected start (log 107, DEDUCED); a Hold entry holds the job or ends CAL. -/
def Obligations.JobCommands : Prop :=
  ∀ (s : State) (sid rid : Nat) (job : Word) (name : List Byte) (steady : Bool),
    (s.serving = false → exec (.jobStart sid rid job name steady) s = .next s ∧ exec (.jobEnd sid rid) s = .next s ∧
      exec (.calRun sid rid) s = .next s ∧ exec (.calEnd sid rid) s = .next s ∧ exec (.standby sid rid) s = .next s ∧
      exec (.feedStatus sid rid) s = .next s ∧ exec .refMissing s = .next s) ∧
    (∀ c : Session, s.serving = true → s.session sid = some c → c.may 2 = false →
      exec (.jobStart sid rid job name steady) s = .next (s.zspReply sid 2 1 rid rDENIED) ∧
      exec (.jobEnd sid rid) s = .next (s.zspReply sid 2 2 rid rDENIED) ∧
      exec (.standby sid rid) s = .next (s.zspReply sid 2 5 rid rDENIED)) ∧
    (s.zspMay sid 2 →
      (s.zsp.job ≠ .noJob ∨ s.zsp.ending.isSome = true ∨ s.inHoldIdle = false ∨ steady = false ∨ 256 ≤ s.tickSpeed.natAbs →
        exec (.jobStart sid rid job name steady) s = .next (s.zspReply sid 2 1 rid rSTATE_REFUSED)) ∧
      (∀ (x y t : State) (h j : Nat), s.zsp.job = .noJob → s.zsp.ending = none → s.inHoldIdle = true → steady = true →
        s.tickSpeed.natAbs < 256 → h = ofSigned 48 s.tick.hw → j = h + 1 + s.maxOffset →
        x = (s.coreWrite 41 .RPT_JOB0_LO 0 (j % 2 ^ 32)).coreWrite 41 .RPT_JOB0_HI 0 (j / 2 ^ 32 % 65536) →
        (x.jobEnable = (false, y) →
          exec (.jobStart sid rid job name steady) s = .next (((y.coreBits 41 .TICK_CTL 4 false).job0
            (s.wide .RPT_JOB0_LO .RPT_JOB0_HI 0)).zspReply sid 2 1 rid rRANGE)) ∧
        (∀ r : Nat, x.jobEnable = (true, y) → y.askRun h = (r, t) → r ≠ rOK →
          exec (.jobStart sid rid job name steady) s = .next (((((t.coreBits 41 .TICK_CTL 4 false).coreBits 41 .REF_CTL 1 false).coreBits
            41 .RPT_CTL 1 false).coreBits 41 .SIL_CTL 1 false).zspReply sid 2 1 rid rBUSY)) ∧
        (x.jobEnable = (true, y) → y.askRun h = (rOK, t) →
          ∃ u : State, u = { t with
              zsp := { t.zsp with job := .jobRun, jobId := job.toNat, jobName := fit 32 name, holdAdv := 0, tilesLost := 0 } } ∧
            exec (.jobStart sid rid job name steady) s
              = .next ((u.zspEvent 2 0x0101 (leBytes 8 ((h + 1) % 2 ^ 48) ++ leBytes 8 (j % 2 ^ 48)
                  ++ leBytes 1 (t.fld SYS_PROFILE_NUM) ++ leBytes 3 0 ++ leBytes 4 (t.fld RPT_QWR_SEQ) ++ leBytes 4 job.toNat
                  ++ leBytes 8 s.maxOffset)).zspReply sid 2 1 rid rOK))) ∧
      (s.zsp.job = .noJob ∨ s.zsp.job = .cal ∨ s.zsp.ending.isSome = true →
        exec (.jobEnd sid rid) s = .next (s.zspReply sid 2 2 rid rSTATE_REFUSED)) ∧
      ((s.zsp.job = .jobRun ∨ s.zsp.job = .jobHold) → s.zsp.ending = none →
        (s.inHold = true →
          ∃ u t : State, exec (.jobEnd sid rid) s = .next t ∧
            u = ({ s.zspWait sid 2 2 rid with
              zsp := { (s.zspWait sid 2 2 rid).zsp with ending := some { sid := sid, rid := rid } } }).coreWrite 41 .SIL_CMD 0 1 ∧
            u.asked t 1 .endSync 1 [s.pwr.holdLine % 2 ^ 32, s.pwr.holdLine / 2 ^ 32 % 65536]) ∧
        (s.inRun = true → s.mayWrite 41 .SYS_PWRCMD 0 →
          ∃ u : State, exec (.jobEnd sid rid) s = .next u ∧ u.pwr.drain = true ∧ u.pwr.st = .run ∧
            (s.pwr.drain = false → u.pwr.holdLine = s.tick.hw.toNat) ∧
            u = { s with
              regs := u.regs, engs := u.engs, eths := u.eths, pwr := u.pwr, tick := u.tick, boot := u.boot, resp := {}
              zsp := { (s.zspWait sid 2 2 rid).zsp with ending := some { sid := sid, rid := rid } } })) ∧
      (s.zsp.job ≠ .noJob ∨ s.zsp.ending.isSome = true ∨ s.inHoldIdle = false ∨ s.fld TICK_CTL_SRC ≠ 3 ∨
          s.on RPT_CTL_EN = true →
        exec (.calRun sid rid) s = .next (s.zspReply sid 2 3 rid rSTATE_REFUSED)) ∧
      (∀ (r : Nat) (t : State), s.zsp.job = .noJob → s.zsp.ending = none → s.inHoldIdle = true → s.fld TICK_CTL_SRC = 3 →
        s.on RPT_CTL_EN = false → s.askRun (ofSigned 48 s.tick.hw) = (r, t) →
        (r = rOK → exec (.calRun sid rid) s
          = .next (({ t with zsp := { t.zsp with job := .cal } }).zspReply sid 2 3 rid rOK)) ∧
        (r ≠ rOK → exec (.calRun sid rid) s = .next (t.zspReply sid 2 3 rid r))) ∧
      (s.zsp.job ≠ .cal → exec (.calEnd sid rid) s = .next (s.zspReply sid 2 4 rid rSTATE_REFUSED)) ∧
      (s.zsp.job = .cal → s.inRun = true → s.mayWrite 41 .SYS_PWRCMD 0 →
        ∃ u : State, exec (.calEnd sid rid) s = .next (u.zspReply sid 2 4 rid rOK) ∧ u.pwr.drain = true ∧ u.zsp = s.zsp) ∧
      (s.zsp.job ≠ .noJob → exec (.standby sid rid) s = .next (s.zspReply sid 2 5 rid rSTATE_REFUSED)) ∧
      (s.zsp.job = .noJob → s.zsp.ending = none → s.mayWrite 41 .SYS_PWRCMD 0 →
        exec (.standby sid rid) s
          = .next ((s.zspReply sid 2 5 rid (if s.inHoldIdle then rOK else rSTATE_REFUSED)).coreWrite 41 .SYS_PWRCMD 0 2)) ∧
      (∃ bands : Nat, exec (.feedStatus sid rid) s = .next (s.zspReply sid 2 6 rid rOK
        (leBytes 4 (s.view .REF_PID 0).toNat ++ leBytes 1 s.ref.queue.length ++ leBytes 3 0 ++ leBytes 4 bands
          ++ leBytes 4 s.zsp.tilesLost)))) ∧
    (∃ t : State, exec .refMissing s = .next t ∧
      t = { s with eths := t.eths, ref := { s.ref with queue := t.ref.queue, pages := t.ref.pages } }) ∧
    (∀ (p : RefPage) (b : Nat), s.serving = true → s.on REF_CTL_EN = true → s.refMode = true → s.livePages = [p] →
      s.bandsDue p = [b] →
      ∃ (u : State) (ts : List Nat),
        exec .refMissing s = .next (u.zspEvent 2 0x0105
          (leBytes 4 p.id ++ leBytes 4 b ++ leBytes 2 ts.length ++ leBytes 2 0 ++ ts.flatMap (leBytes 2))) ∧
        (∀ x, x ∈ ts ↔ x < s.refTiles ∧ (b, x) ∉ p.tiles) ∧
        u = { s with ref := { s.ref with queue := u.ref.queue, pages := u.ref.pages } }) ∧
    (s.drainOver = false → exec .holdEntry s = .next s) ∧
    (s.drainOver = true → s.zsp.ending = none →
      ∃ u : State, exec .holdEntry s = .next u ∧ u.pwr.st = .hold ∧ u.pwr.drain = false ∧ u.pwr.holdLine = s.pwr.holdLine ∧
        (s.on SYS_PWRRES_BUSY = true →
          u.fld SYS_PWRRES_RESULT = rOK ∧ u.fld SYS_PWRRES_DONE = 1 ∧ u.fld SYS_PWRRES_BUSY = 0) ∧
        u.zsp.job = (if s.zsp.job = .jobRun then .jobHold else if s.zsp.job = .cal then .noJob else s.zsp.job) ∧
        u = { s with
          regs := u.regs, evt := u.evt, engs := u.engs, eths := u.eths, mot := u.mot, pwr := u.pwr, tick := u.tick
          ref := u.ref, boot := u.boot, zsp := { s.zsp with irqs := u.zsp.irqs, job := u.zsp.job } } ∧
        s.keepsRouted u [(.SYS_PWRRES, 0)])

/-- PROFILE_LIST, PROFILE_UPLOAD, PROFILE_SELECT, PROFILE_SPLICE, PROFILE_CANCEL, SUBSCRIBE, UNSUBSCRIBE, RECORDS, CROP_GET and
ROLLMAP_GET (R303, R308, R310, R311): the profiles' list, an image uploaded in parts and, once whole, answered as its verification and
storage end, a selection or splice asked of mailbox 0 under its opcodes (R405 of 21_profiles_boot.md), a subscription that begins with
the records it wants of the store, which holds 2,097,152 (log 108, DESIGN CHOICE), the records
a subscriber is sent while reports are not stopped, a crop by its handle, BUSY while it waits or is being made and NOT_FOUND where a
PENDING entry is another's, and the archived records of a range, with free numbers where there are none (log 97, DEDUCED). -/
def Obligations.ProfileRecordAndCropClasses : Prop :=
  ∀ (s : State) (sid rid : Nat) (total ofs : Word) (part : List Byte) (n : Fin 8) (line : BitVec 48),
    (s.zspMay sid 3 →
      (∃ b : List Byte, exec (.profileList sid rid) s = .next (s.zspReply sid 3 1 rid rOK b) ∧
        b.take 2 = leBytes 1 (if s.on SYS_PSTAT_VALID then s.fld SYS_PROFILE_NUM else 0xFF)
          ++ leBytes 1 (s.on SYS_PSTAT_VALID).toNat ∧ b.length = 392) ∧
      (total.toNat < ofs.toNat + part.length →
        exec (.profileUpload sid rid total ofs part) s = .next (s.zspReply sid 3 2 rid rRANGE)) ∧
      (s.zsp.upload = none → ofs.toNat + part.length ≤ total.toNat → part.length < total.toNat →
        exec (.profileUpload sid rid total ofs part) s
          = .next (({ s with zsp := { s.zsp with upload := some ⟨total.toNat, [(ofs.toNat, part)]⟩ } }).zspReply sid 3 2 rid rOK)) ∧
      (∀ (r : Nat) (t : State), s.zsp.upload = none → ofs = 0 → part.length = total.toNat →
        ({ s with zsp := { s.zsp with upload := none } } : State).profStore part = (r, t) →
        exec (.profileUpload sid rid total ofs part) s = .next (t.zspReply sid 3 2 rid r)) ∧
      (∃ t : State, exec (.profileSelect sid rid n) s = .next t ∧
        (s.zspWait sid 3 3 rid).asked t 0 (.client sid 3 3 rid) 1 [n.val]) ∧
      (∃ t : State, exec (.profileSplice sid rid n line) s = .next t ∧
        (s.zspWait sid 3 4 rid).asked t 0 (.client sid 3 4 rid) 2 [n.val, line.toNat % 2 ^ 32, line.toNat / 2 ^ 32]) ∧
      (∃ t : State, exec (.profileCancel sid rid) s = .next t ∧
        (s.zspWait sid 3 5 rid).asked t 0 (.client sid 3 5 rid) 3 [])) ∧
    (∀ (a : Ask) (q : Fin 5) (k : Nat), s.zsp.asks.find? (fun a => a.mb == q.val) = some a → a.posted = false →
      s.on ETH_MB_CTL_BUSY q = false → (∀ i < 8, s.mayWrite 41 .ETH_MB_REQ (q * 8 + i)) → s.mayWrite 41 .ETH_MB_CTL q →
      ((s.askPost q (k + 1)).mbox q).req = some ((List.range 8).map fun i => a.words.getD i 0) ∧
      (s.askPost q (k + 1)).fld ETH_MB_CTL_BUSY q = 1 ∧ (s.askPost q (k + 1)).zsp.asks = markAsk q s.zsp.asks) ∧
    (∀ (c : Session) (types classes : BitVec 16) (unsure : Bool) (chips : BitVec 4) (start : Word) (next : Bool),
      s.zspMay sid 4 → s.session sid = some c →
      (c.sub.isSome = true →
        exec (.subscribe sid rid types classes unsure chips start next) s = .next (s.zspReply sid 4 1 rid rSTATE_REFUSED) ∧
        exec (.unsubscribe sid rid) s
          = .next ((s.updSession sid fun c => { c with sub := none }).zspReply sid 4 2 rid rOK)) ∧
      (c.sub = none →
        exec (.unsubscribe sid rid) s = .next (s.zspReply sid 4 2 rid rSTATE_REFUSED) ∧
        ∃ u : Subscription, exec (.subscribe sid rid types classes unsure chips start next) s
            = .next ((s.updSession sid fun c => { c with sub := some u }).zspReply sid 4 1 rid rOK) ∧
          u.types = types.toNat ∧ u.classes = classes.toNat ∧ u.unsure = unsure ∧ u.chips = chips.toNat ∧
          u.start = (if next then s.fld RPT_QWR_SEQ else start.toNat) ∧
          (s.zsp.store.length ≤ 2097152 →
            u.backlog = s.zsp.store.filter fun e => u.wants e.2 && !seqBefore e.1 u.start))) ∧
    (s.serving = false → exec (.records sid) s = .next s) ∧
    (s.serving = true → s.session sid = none → exec (.records sid) s = .next s.takeRecords) ∧
    (s.qOcc = 0 → s.takeRecords = s) ∧
    (s.qOcc = 1 → s.zsp.store.length < 2097152 →
      s.takeRecords.zsp.store = s.zsp.store ++ [(s.fld RPT_QRD_SEQ,
        (s.anyRead 41 (poolBase + s.fld RPT_QBASE_OFS + 128 * (s.fld RPT_QRD_SEQ % s.qSize)) 128).2.1)]) ∧
    (∀ (c : Session) (u : Subscription), s.serving = true → s.qOcc = 0 → s.session sid = some c → c.sub = some u →
      (s.on ETH_HWACT_STOP_REPORTS = true → exec (.records sid) s = .next s) ∧
      (s.on ETH_HWACT_STOP_REPORTS = false →
        ∃ t : State, exec (.records sid) s = .next t ∧
          (t.session sid).bind (·.sub) = some { u with backlog := [], gap := none } ∧
          (u.gap = none → u.backlog ≠ [] → u.backlog.length ≤ 8191 → (look {} s.eths c.port).wire.isSome = true →
            (look {} t.eths c.port).tx = (look {} s.eths c.port).tx ++
              [(2, ⟨sid, 4, 0x0101, 4, 0, 0, leBytes 4 u.backlog.length ++ u.backlog.flatMap Prod.snd⟩)]) ∧
          s.spoke t)) ∧
    (∀ (h : Word) (e : List Byte) (x : State), s.zspMay sid 5 →
      s.anyRead 41 (s.wide .RPT_CIBASE_LO .RPT_CIBASE_HI + 16 * (h.toNat % 65536)) 16 = (rOK, e, x) →
      (leNat ((e.drop 12).take 1) = 1 → ((∃ c ∈ x.rpt.crops, c.handle = h.toNat) ∨ ∃ c, x.rpt.copy = some c ∧ c.handle = h.toNat) →
        exec (.cropGet sid rid h) s = .next (x.zspReply sid 5 1 rid rBUSY)) ∧
      (leNat ((e.drop 12).take 1) = 1 → (∀ c ∈ x.rpt.crops, c.handle ≠ h.toNat) → (∀ c, x.rpt.copy = some c → c.handle ≠ h.toNat) →
        exec (.cropGet sid rid h) s = .next (x.zspReply sid 5 1 rid rNOT_FOUND
          (leBytes 1 1 ++ leBytes 1 (leNat ((e.drop 13).take 1))))) ∧
      (leNat ((e.drop 12).take 1) ≠ 1 → leNat ((e.drop 12).take 1) ≠ 2 →
        exec (.cropGet sid rid h) s = .next (x.zspReply sid 5 1 rid rNOT_FOUND
          (leBytes 1 (leNat ((e.drop 12).take 1)) ++ leBytes 1 (leNat ((e.drop 13).take 1))))) ∧
      (∀ (a : Nat) (hd : List Byte) (y : State), leNat ((e.drop 12).take 1) = 2 →
        a = x.wide .RPT_CSBASE_LO .RPT_CSBASE_HI + leNat ((e.drop 0).take 8) → x.anyRead 41 a 32 = (rOK, hd, y) →
        (leNat (hd.take 4) ≠ h.toNat →
          exec (.cropGet sid rid h) s = .next (y.zspReply sid 5 1 rid rNOT_FOUND
            (leBytes 1 2 ++ leBytes 1 (leNat ((e.drop 13).take 1))))) ∧
        (∀ (d : List Byte) (z : State), leNat (hd.take 4) = h.toNat →
          y.anyRead 41 (a + 32) (leNat ((hd.drop 24).take 4)) = (rOK, d, z) →
          exec (.cropGet sid rid h) s = .next (z.zspReply sid 5 1 rid rOK (hd ++ d))))) ∧
    (∀ (first last : Word) (level : Byte), s.zspMay sid 6 →
      (9 < level.toNat → exec (.rollmapGet sid rid first last level) s = .next (s.zspReply sid 6 1 rid rRANGE)) ∧
      (∀ (l : List (Nat × List Byte)) (t : State), level.toNat ≤ 9 → s.archived first.toNat last.toNat = (l, t) →
        (∀ a b : Nat × List Byte, l.head? = some a → l.getLast? = some b →
          exec (.rollmapGet sid rid first last level) s = .next (t.zspReply sid 6 1 rid rOK
            (leBytes 4 a.1 ++ leBytes 4 b.1 ++ (if level = 0 then l.flatMap Prod.snd
              else zcmEncode (l.flatMap Prod.snd) level.toNat)))) ∧
        (l = [] → ∃ k c : Nat, exec (.rollmapGet sid rid first last level) s
          = .next (({ t with freeCtr := c }).zspReply sid 6 1 rid rOK
            (leBytes 8 k ++ (if level = 0 then [] else zcmEncode [] level.toNat))))))

/-- TOTALS, TICKET, LOT_START, LOT_END, TICKET_KEY, PARAM, INIT, RESTORE and INSTALL of the metrology class, and REG_READ, REG_WRITE,
BOOT_REPORT, QUOTE, LOG_READ and DEVICE_CERT of the diagnostics class (R312, R313): the first nine are passed to mailbox 4 under its
opcodes (R370 of 19_flacon.md) or read from its window, PARAM to INSTALL for a service client only, a whole image at a free address of
the pool (log 104, DESIGN CHOICE); the rest are accesses as master 41 of the quote registers (R380 of 20_security_power.md), the boot
report's place (R411 of 21_profiles_boot.md) and the registers a log shows, whose layout is log 36 (DESIGN CHOICE), refused with the
response to the first access that is; a quote waits while one is being signed (log 61, DESIGN CHOICE); DEVICE_CERT gives the chain
presented, in BLANK and RETURN an empty one (R379). -/
def Obligations.MetrologyAndDiagnosticsClasses : Prop :=
  ∀ (s : State) (sid rid : Nat) (id v : Word),
    (∀ c : Session, s.serving = true → s.session sid = some c → (c.may 7 = false ∨ c.role ≠ .service) →
      exec (.zspParam sid rid id v) s = .next (s.zspReply sid 7 0x10 rid rDENIED) ∧
      exec (.zspInit sid rid) s = .next (s.zspReply sid 7 0x11 rid rDENIED) ∧
      exec (.zspRestore sid rid) s = .next (s.zspReply sid 7 0x12 rid rDENIED) ∧
      ∀ (ofs : Word) (part : List Byte), exec (.zspInstall sid rid v ofs part) s = .next (s.zspReply sid 7 0x13 rid rDENIED)) ∧
    (s.zspMay sid 7 →
      (∃ t : State, exec (.zspTotals sid rid) s = .next t ∧ (s.zspWait sid 7 1 rid).asked t 4 (.client sid 7 1 rid) 1 []) ∧
      (∃ t : State, exec (.zspTicket sid rid) s = .next t ∧ (s.zspWait sid 7 2 rid).asked t 4 (.client sid 7 2 rid) 2 []) ∧
      (∃ t : State, exec (.zspLotStart sid rid) s = .next t ∧ (s.zspWait sid 7 3 rid).asked t 4 (.client sid 7 3 rid) 3 []) ∧
      (∃ t : State, exec (.zspLotEnd sid rid) s = .next t ∧ (s.zspWait sid 7 4 rid).asked t 4 (.client sid 7 4 rid) 4 []) ∧
      (∀ (k i : List Byte) (x y : State), s.regsRead 41 (regAddr .FL_TKEY 0) 15 = (rOK, k, x) →
        x.regsRead 41 (regAddr .FL_TKID_LO 0) 2 = (rOK, i, y) →
        exec (.ticketKey sid rid) s = .next (y.zspReply sid 7 5 rid rOK (k.take 57 ++ leBytes 7 0 ++ i)))) ∧
    (∀ c : Session, s.serving = true → s.session sid = some c → c.may 7 = true → c.role = .service →
      (∃ t : State, exec (.zspParam sid rid id v) s = .next t ∧
        (s.zspWait sid 7 0x10 rid).asked t 4 (.client sid 7 0x10 rid) 5 [id.toNat, v.toNat]) ∧
      (∃ t : State, exec (.zspInit sid rid) s = .next t ∧
        (s.zspWait sid 7 0x11 rid).asked t 4 (.client sid 7 0x11 rid) 6 []) ∧
      (∃ t : State, exec (.zspRestore sid rid) s = .next t ∧
        (s.zspWait sid 7 0x12 rid).asked t 4 (.client sid 7 0x12 rid) 7 []) ∧
      (∀ (ofs : Word) (part : List Byte),
        (v.toNat < ofs.toNat + part.length →
          exec (.zspInstall sid rid v ofs part) s = .next (s.zspReply sid 7 0x13 rid rRANGE)) ∧
        (s.zsp.install = none → ofs.toNat + part.length ≤ v.toNat → part.length < v.toNat →
          exec (.zspInstall sid rid v ofs part) s
            = .next (({ s with zsp := { s.zsp with install := some ⟨v.toNat, [(ofs.toNat, part)]⟩ } }).zspReply sid 7 0x13 rid rOK)) ∧
        (∀ (a : Nat) (t : State), s.zsp.install = none → ofs = 0 → part.length = v.toNat → part.length ≤ 0x1000000 →
          a = poolBase + s.free % (0x1000000 - part.length + 1) → s.drawn.anyWrite 41 a part = (rOK, t) →
          ∃ u : State, exec (.zspInstall sid rid v ofs part) s = .next u ∧
            (t.zspWait sid 7 0x13 rid).asked u 4 (.client sid 7 0x13 rid) 8 [a % 2 ^ 32, a / 2 ^ 32, part.length]))) ∧
    (∀ (a : BitVec 64) (n : Word), s.zspMay sid 8 →
      (n = 0 ∨ 256 < n.toNat → exec (.regRead sid rid a n) s = .next (s.zspReply sid 8 1 rid rRANGE)) ∧
      (∀ (r : Nat) (b : List Byte) (t : State), n ≠ 0 → n.toNat ≤ 256 → s.wordsRead a.toNat n.toNat = (r, b, t) →
        exec (.regRead sid rid a n) s = .next (t.zspReply sid 8 1 rid r b) ∧ b.length = 4 * n.toNat) ∧
      (n = 1 → exec (.regRead sid rid a n) s = .next ((s.busGet 41 a.toNat 4).zspReply sid 8 1 rid
        (s.busGet 41 a.toNat 4).resp.code
        (leBytes 4 (if (s.busGet 41 a.toNat 4).resp.code = rOK then (s.busGet 41 a.toNat 4).resp.data else 0)))) ∧
      exec (.regWrite sid rid a v) s
        = .next ((s.busPut 41 a.toNat 4 v).zspReply sid 8 2 rid (s.busPut 41 a.toNat 4 v).resp.code) ∧
      (∀ (r : Nat) (b : List Byte) (t : State), s.anyRead 41 (poolBase + 0xFFF000) 256 = (r, b, t) →
        exec (.bootReport sid rid) s = .next (t.zspReply sid 8 3 rid r (if r = rOK then b else []))) ∧
      (∀ (nonce b : List Byte) (r : Nat) (x y z : State),
        s.regsWrite 41 (regAddr .SEC_QNONCE 0) 8 (fit 32 nonce) = (rOK, x) →
        y = (x.quoteEnd.coreWrite 41 .SEC_QCMD 0 1).quoteEnd →
        y.resp.code = rOK →
        (y.fld SEC_QRES_RESULT = rOK → y.regsRead 41 (regAddr .SEC_QOUT 0) 192 = (r, b, z) →
          exec (.quote sid rid nonce) s = .next (z.zspReply sid 8 4 rid r b)) ∧
        (y.fld SEC_QRES_RESULT ≠ rOK →
          exec (.quote sid rid nonce) s = .next (y.zspReply sid 8 4 rid (y.fld SEC_QRES_RESULT)))) ∧
      (∀ (log : Byte) (ofs : Word),
        (2 < log.toNat → exec (.logRead sid rid log ofs) s = .next (s.zspReply sid 8 5 rid rRANGE)) ∧
        (log.toNat = 0 → ∃ b : List Byte, exec (.logRead sid rid log ofs) s
          = .next (s.zspReply sid 8 5 rid rOK (b.drop ofs.toNat))) ∧
        (∀ (r : Nat) (ds : List Nat) (t : State), (log.toNat = 1 ∨ log.toNat = 2) → s.coreRegs (logRegs log.toNat) = (r, ds, t) →
          (r ≠ rOK → exec (.logRead sid rid log ofs) s = .next (t.zspReply sid 8 5 rid r)) ∧
          (r = rOK → ∃ b : List Byte, exec (.logRead sid rid log ofs) s
            = .next (t.zspReply sid 8 5 rid rOK (b.drop ofs.toNat))))) ∧
      exec (.deviceCert sid rid) s
        = .next (s.zspReply sid 8 6 rid rOK (if s.lcState = 0 ∨ s.lcState = 3 then [] else s.boot.certChain))) ∧
    (∀ (q : Reg) (i : Nat) (l : List (Reg × Nat)) (c : Nat) (ds : List Nat) (t : State),
      (s.regReadAt 41 (regAddr q i) 4).resp.code = rDENIED → (s.regReadAt 41 (regAddr q i) 4).coreRegs l = (c, ds, t) →
      ∃ x : Nat, s.coreRegs ((q, i) :: l) = (rDENIED, x :: ds, t))

/-- SINC_OUTPUT, STUCK, CHANNEL_SYNC and DETECTOR_WINDOW_END (R317, R319, R323–R325): the M_k bits of a period go
through three integrators and three combs into the FIR of the active bank, in a fade of F samples also into that of its target, the
j-th sample of the fade being the former plus (j + 1)/F of their difference, rounded to the nearest; the output is kept and, once
settled, sampled by the detectors; 256 cycles without a transition set STUCK, with this output where they ended within its period (log
130, DEDUCED), which also says how the bits of a period come; a frame start resets every channel that waits for it and completes its fade and
its bank request; a full window's peak and RMS are held and compared with their limits. -/
def Obligations.SignalFilterAndDetectors : Prop :=
  (∀ (c : SigCh) (b : Bool), (c.bit b).i1 = c.i1 + (if b then 1 else -1) ∧
    (c.bit b).i2 = c.i2 + c.i1 + (if b then 1 else -1) ∧ (c.bit b).i3 = c.i3 + (c.bit b).i2 ∧
    (c.bit b).same = (if b = c.last then c.same + 1 else 0) ∧ (c.bit b).stuck = (c.stuck && b == c.last) ∧ (c.bit b).last = b) ∧
  ∀ (s : State) (k : Fin 16) (t : Int),
    (s.live = false → exec (.stuck k) s = .next s ∧ exec (.channelSync k t) s = .next s ∧
      exec (.detectorWindowEnd k) s = .next s) ∧
    (s.live = true → s.sigOn k = false → exec (.stuck k) s = .next s ∧ exec (.channelSync k t) s = .next s ∧
      ∀ bs, exec (.sincOutput k bs) s = .next s) ∧
    (∀ (bs : List Bool) (c g : SigCh), s.live = true → s.sigOn k = true → bs.length = s.sigM k →
      g = (if (s.sig k).fade.any (fun f => decide (f.2 ≤ f.1)) then (s.sig k).fadeEnd else s.sig k) →
      c = bs.foldl SigCh.bit (s.sig k) →
      ∃ (u : State) (y : Int),
        exec (.sincOutput k bs) s = .next (if u.sigSettling k then u else u.sigSample k y) ∧
        (u.sig k).i1 = c.i1 ∧ (u.sig k).i2 = c.i2 ∧ (u.sig k).i3 = c.i3 ∧
        (u.sig k).c1 = c.i3 ∧ (u.sig k).c2 = c.i3 - (s.sig k).c1 ∧ (u.sig k).c3 = c.i3 - (s.sig k).c1 - (s.sig k).c2 ∧
        (u.sig k).line = ((((c.i3 - (s.sig k).c1 - (s.sig k).c2 - (s.sig k).c3 : Int) : Rat) * 32768
          / ((s.sigM k * s.sigM k * s.sigM k : Nat) : Rat)) :: (s.sig k).line).take 64 ∧
        (u.sig k).firs = (y :: (s.sig k).firs).take 64 ∧ (u.sig k).nfir = (s.sig k).nfir + 1 ∧
        (u.sig k).bitsIn = (s.sig k).bitsIn + s.sigM k ∧ (u.sig k).active = g.active ∧ (u.sig k).queued = g.queued ∧
        (g.fade = none → (u.sig k).fade = none ∧ y = s.sigFir k g.active (u.sig k).line s.free) ∧
        (∀ j f : Nat, g.fade = some (j, f) → (u.sig k).fade = some (j + 1, f) ∧
          y = roundNear ((s.sigFir k g.active (u.sig k).line s.free : Rat) + ((s.sigFir k (!g.active) (u.sig k).line s.free
            - s.sigFir k g.active (u.sig k).line s.free : Int) : Rat) * ((j + 1 : Nat) : Rat) / ((max 1 f : Nat) : Rat))) ∧
        -32768 ≤ y ∧ y ≤ 32767 ∧ (∀ j, j ≠ k.val → u.sig j = s.sig j) ∧
        ((s.sig k).stuckRuns bs = 0 → u.regs = s.regs) ∧
        (0 < (s.sig k).stuckRuns bs → u.flag SIG_K_STAT_STUCK k = true) ∧
        u = { s with regs := u.regs, sigs := u.sigs, freeCtr := u.freeCtr } ∧
        s.keeps u [(.SIG_K_STAT, k.val), (.SIG_K_STK_CNT, k.val)]) ∧
    (∀ (a z : List Bool) (b : Bool) (c : SigCh), c = a.foldl SigCh.bit (s.sig k) → c.stuck = false → 256 ≤ c.same →
      b ≠ c.last → 0 < (s.sig k).stuckRuns (a ++ b :: z)) ∧
    (s.live = true → s.sigOn k = true →
      ((s.sig k).stuck = true ∨ (s.sig k).same < 256 → exec (.stuck k) s = .next s) ∧
      ((s.sig k).stuck = false → 256 ≤ (s.sig k).same →
        ∃ u : State, exec (.stuck k) s = .next u ∧ u.flag SIG_K_STAT_STUCK k = true ∧
          u.sig k = { s.sig k with stuck := true } ∧ (∀ j, j ≠ k.val → u.sig j = s.sig j) ∧
          u = { s with regs := u.regs, sigs := u.sigs } ∧
          s.keeps u [(.SIG_K_STAT, k.val), (.SIG_K_STK_CNT, k.val)]) ∧
      ((s.sig k).sync = false → exec (.channelSync k t) s = .next s) ∧
      ((s.sig k).sync = true →
        ∃ u : State, exec (.channelSync k t) s = .next u ∧ u = { s with sigs := u.sigs } ∧
          (∀ j, ¬(j < 16 ∧ s.sigOn j = true ∧ (s.sig j).sync = true) → u.sig j = s.sig j) ∧
          ∀ j < 16, s.sigOn j = true → (s.sig j).sync = true →
            (u.sig j).i1 = 0 ∧ (u.sig j).i2 = 0 ∧ (u.sig j).i3 = 0 ∧
            (u.sig j).line = [] ∧ (u.sig j).firs = [] ∧ (u.sig j).bitsIn = 0 ∧ (u.sig j).nfir = 0 ∧ (u.sig j).nout = 0 ∧
            (u.sig j).sync = false ∧ (u.sig j).settle = true ∧ (u.sig j).t0 = t ∧ (u.sig j).fade = none ∧
            (u.sig j).queued = none ∧
            (u.sig j).active = (match (s.sig j).queued with
              | some (b, _) => b
              | none => if (s.sig j).fade.isSome then !(s.sig j).active else (s.sig j).active) ∧
            (u.sig j).qres = (if (s.sig j).fade.isSome || (s.sig j).queued.isSome then rOK else (s.sig j).qres))) ∧
    (s.live = true → s.sigFull k = false → exec (.detectorWindowEnd k) s = .next s) ∧
    (∀ pk rms : Nat, s.live = true → s.sigFull k = true → pk = (s.sig k).wmax →
      rms = isqrt ((s.sig k).wsq / 2 ^ s.fld SIG_K_CFG_WLOG k) →
      ∃ u : State, exec (.detectorWindowEnd k) s = .next u ∧
        u.fld SIG_K_DETV_PK k = pk % 65536 ∧ u.fld SIG_K_DETV_RMS k = rms % 65536 ∧
        (u.sig k).wn = 0 ∧ (u.sig k).wmax = 0 ∧ (u.sig k).wsq = 0 ∧ (u.sig k).pk = pk ∧ (u.sig k).rms = rms ∧
        (s.fld SIG_K_PKLIM_HI k < 32768 → s.fld SIG_K_PKLIM_HI k < pk → u.flag SIG_K_STAT_PK_HI k = true) ∧
        (pk < s.fld SIG_K_PKLIM_LO k → u.flag SIG_K_STAT_PK_LO k = true) ∧
        (s.fld SIG_K_RMSLIM_HI k < 32768 → s.fld SIG_K_RMSLIM_HI k < rms → u.flag SIG_K_STAT_RMS_HI k = true) ∧
        (rms < s.fld SIG_K_RMSLIM_LO k → u.flag SIG_K_STAT_RMS_LO k = true) ∧
        ((pk ≤ s.fld SIG_K_PKLIM_HI k ∨ 32768 ≤ s.fld SIG_K_PKLIM_HI k) → s.fld SIG_K_PKLIM_LO k ≤ pk →
          (rms ≤ s.fld SIG_K_RMSLIM_HI k ∨ 32768 ≤ s.fld SIG_K_RMSLIM_HI k) → s.fld SIG_K_RMSLIM_LO k ≤ rms →
          (u.sig k).badPk = false ∧ (u.sig k).badRms = false ∧ u = { s with regs := u.regs, sigs := u.sigs } ∧
          s.keeps u [(.SIG_K_DETV, k.val)]) ∧
        (∀ j, j ≠ k.val → u.sig j = s.sig j) ∧ ({ s with regs := u.regs, sigs := u.sigs } : State).routed u ∧
        s.keepsRouted u [(.SIG_K_DETV, k.val), (.SIG_K_STAT, k.val), (.SIG_K_PKH_CNT, k.val), (.SIG_K_PKL_CNT, k.val),
          (.SIG_K_RMH_CNT, k.val), (.SIG_K_RML_CNT, k.val)])

/-- FIXED_RATE_OUTPUT, TICK_LOCKED_OUTPUT, BANK, FADE_END and FAST_PATH_OUTPUT (R49, R94, R317, R318, R321–R327): once the resampler's
later taps are there, and not before, an output is held in SIG_k_VAL with SETTLING and INVALID (which taps those are, and until which
SETTLING is set, is log 130, DEDUCED), a sine sample waits for its cosine and
the pair is an encoder sample, a lamp channel's output goes to ingest, or none where it is not valid; a bank switch fades over F
outputs, queues behind a fade and is immediate while settling, a request out of range being told so before the channel's state is looked
at (log 88, DEDUCED); a queued request that is carried out reads OK in QRES; the fast path counts the ones of 16 bits, trips FAST_OC beyond its
limit and drives the coil phase. -/
def Obligations.SignalOutputsAndBanks : Prop :=
  ∀ (s : State) (k : Fin 16), s.live = true →
    (s.on SIG_CTL_EN = false → exec (.fixedRateOutput k) s = .next s ∧ exec (.tickLockedOutput k) s = .next s ∧
      ∀ ph b, exec (.fastPathOutput ph b) s = .next s) ∧
    (s.on SIG_K_CFG_MODE k = true → exec (.fixedRateOutput k) s = .next s) ∧
    (s.on SIG_K_CFG_MODE k = false → exec (.tickLockedOutput k) s = .next s) ∧
    (∀ inv : Bool, s.on SIG_CTL_EN = true →
      inv = (!s.on SIG_K_CFG_EN k || ((s.sig k).stuck || decide (256 ≤ (s.sig k).same))
        || (s.on SIG_K_CFG_DETINV k && ((s.sig k).badPk || (s.sig k).badRms || (s.sig k).badEnv))) →
      (∀ (i : Int) (st : Bool), s.on SIG_K_CFG_MODE k = false →
        i = (((s.sig k).nout + 1) * s.fld SIG_K_OPER_PERIOD k : Nat) → st = decide ((s.sigPlace k i).1 + 4 < 75) →
        (s.sigReady k i = false → exec (.fixedRateOutput k) s = .next s) ∧
        (s.sigReady k i = true → ∃ (u v : State) (x : Int), -32768 ≤ x ∧ x ≤ 32767 ∧
          u.reg .SIG_K_VAL k = BitVec.ofNat 32 (ofSigned 16 x + 2 ^ 16 * st.toNat + 2 ^ 17 * inv.toNat) ∧
          (u.sig k).x = x ∧ (u.sig k).nout = (s.sig k).nout + 1 ∧ (∀ j, j ≠ k.val → u.sig j = s.sig j) ∧
          u = { s with regs := u.regs, sigs := u.sigs } ∧ s.keeps u [(.SIG_K_VAL, k.val)] ∧
          exec (.fixedRateOutput k) s = .next v ∧
          (k.val < 8 ∨ 12 ≤ k.val → v = u) ∧
          (k = 8 ∨ k = 10 → v = u.updEnc ((k.val - 8) / 2) fun c => { c with sinHeld := some x }) ∧
          (k = 9 ∨ k = 11 →
            ((s.enc ((k.val - 8) / 2)).sinHeld = none → v = u) ∧
            (∀ sn : Int, (s.enc ((k.val - 8) / 2)).sinHeld = some sn →
              (s.fld ENC_CTL_MODE ((k.val - 8) / 2) ≠ 2 →
                v = u.updEnc ((k.val - 8) / 2) fun c => { c with sinHeld := none }) ∧
              (s.fld ENC_CTL_MODE ((k.val - 8) / 2) = 2 →
                v = ((u.updEnc ((k.val - 8) / 2) fun c => { c with sinHeld := none }).encSinCos ((k.val - 8) / 2) sn x
                  ((s.sig (k.val - 1)).xSettle || (s.sig (k.val - 1)).xInv || st || inv) ((s.sig k).t0 + i)).camEvalAll))))) ∧
      (s.on SIG_K_CFG_MODE k = true →
        ((s.sig k).ticks = [] → exec (.tickLockedOutput k) s = .next s) ∧
        (∀ (n : Int) (t : Rat) (lref : Nat) (l : List (Int × Rat × Nat)) (st : Bool), (s.sig k).ticks = (n, t, lref) :: l →
          st = decide ((s.sigPlace k (t - ((s.sig k).t0 : Rat))).1 + 4 < 75) →
          (s.sigReady k (t - ((s.sig k).t0 : Rat)) = false → exec (.tickLockedOutput k) s = .next s) ∧
          (s.sigReady k (t - ((s.sig k).t0 : Rat)) = true → ∃ (u : State) (x : Int), -32768 ≤ x ∧ x ≤ 32767 ∧
            u.reg .SIG_K_VAL k = BitVec.ofNat 32 (ofSigned 16 x + 2 ^ 16 * st.toNat + 2 ^ 17 * inv.toNat) ∧
            (u.sig k).x = x ∧ (u.sig k).ticks = l ∧ (∀ j, j ≠ k.val → u.sig j = s.sig j) ∧
            u = { s with regs := u.regs, sigs := u.sigs } ∧ s.keeps u [(.SIG_K_VAL, k.val)] ∧
            (8 ≤ k.val → exec (.tickLockedOutput k) s = .next u) ∧
            (k.val < 8 → exec (.tickLockedOutput k) s
              = .next (u.lampEntry k n lref (if st || inv then none else some (x + 32768).toNat))))))) ∧
    (s.mbReq 2 1 = none → exec .bank s = .next s) ∧
    (∀ (ws : List Word) (c : Nat) (f : Nat) (b : Bool), s.mbReq 2 1 = some ws → c = bits (reqWord ws 1) 3 0 →
      b = (reqWord ws 1).testBit 8 → f = bits (reqWord ws 2) 12 0 →
      (f = 0 ∨ 4096 < f → exec .bank s = .next (s.mbAnswer 2 rRANGE)) ∧
      (1 ≤ f → f ≤ 4096 → s.on SIG_K_CFG_EN c = false → exec .bank s = .next (s.mbAnswer 2 rSTATE_REFUSED)) ∧
      (1 ≤ f → f ≤ 4096 → s.on SIG_K_CFG_EN c = true →
        (s.sigSettling c = true →
          ∃ u : State, exec .bank s = .next (u.mbAnswer 2 rOK [if b = (s.sig c).active then 2 else 0]) ∧
            u.sig c = { s.sig c with active := b, fade := none, queued := none } ∧ u = { s with sigs := u.sigs }) ∧
        (s.sigSettling c = false → (s.sig c).fade = none → b = (s.sig c).active →
          exec .bank s = .next (s.mbAnswer 2 rOK [2])) ∧
        (s.sigSettling c = false → (s.sig c).fade = none → b ≠ (s.sig c).active →
          ∃ u : State, exec .bank s = .next (u.mbAnswer 2 rOK [0]) ∧ u.sig c = { s.sig c with fade := some (0, f) } ∧
            (∀ j, j ≠ c → u.sig j = s.sig j) ∧ u = { s with sigs := u.sigs }) ∧
        (s.sigSettling c = false → (s.sig c).fade.isSome = true →
          ∃ u : State, exec .bank s = .next (u.mbAnswer 2 rOK [1]) ∧ (u.sig c).queued = some (b, f) ∧
            (u.sig c).fade = (s.sig c).fade ∧ (u.sig c).active = (s.sig c).active ∧
            ((s.sig c).queued.isSome = true → u.flag SIG_K_STAT_SUPERSEDED c = true ∧ (u.sig c).qres = rSUPERSEDED) ∧
            u = { s with regs := u.regs, sigs := u.sigs } ∧ s.keeps u [(.SIG_K_STAT, c), (.SIG_K_SUP_CNT, c)]))) ∧
    ((s.sig k).fade = none → exec (.fadeEnd k) s = .next s) ∧
    (∀ j f : Nat, (s.sig k).fade = some (j, f) →
      (j < f → exec (.fadeEnd k) s = .next s) ∧
      (f ≤ j →
        ∃ u : State, exec (.fadeEnd k) s = .next u ∧ (u.sig k).active = !(s.sig k).active ∧ (u.sig k).queued = none ∧
          (u.sig k).fade = (match (s.sig k).queued with
            | some (b, f') => if b = !(s.sig k).active then none else some (0, f')
            | none => none) ∧
          (u.sig k).qres = (if (s.sig k).queued.isSome then rOK else (s.sig k).qres) ∧
          (∀ i, i ≠ k.val → u.sig i = s.sig i) ∧ u = { s with sigs := u.sigs })) ∧
    (∀ (ph : Fin 2) (bit : Bool) (w : Nat) (i : Int), s.on SIG_CTL_EN = true →
      w = ((s.sig (12 + ph.val)).last16 * 2 + bit.toNat) % 65536 →
      i = min ((2 * ((List.range 16).countP fun b => w.testBit b : Nat) - 16 : Int) * 2048) 32767 →
      ∃ u : State, (u.sig (12 + ph.val)) = { s.sig (12 + ph.val) with last16 := w } ∧ u = { s with sigs := u.sigs } ∧
        (i.natAbs ≤ s.fld SIG_FAST_FLIM → exec (.fastPathOutput ph bit) s = .next (u.motPhase ph i)) ∧
        (s.fld SIG_FAST_FLIM < i.natAbs → exec (.fastPathOutput ph bit) s
          = .next (((((u.raise SIG_STAT_FAST_OC).strobe [16]).motFastOc).motPhase ph i))))

/-- MOT_ENABLE, MOT_DISABLE, LIMIT_INPUT_CHANGE, LIMIT_CHATTER, STANDSTILL_OPTION, MOVE_START_DELAY and OFFSET_ADAPT (R330, R335–R339):
enabling enters IDLE unreferenced with the standstill option applied, disabling turns every gate off, and a write that changes SSMODE
where the option is applied applies the new one; a debounced input is kept, with
no link from its channel (which carries it on): it stops a move towards its end with LIMIT_HIT, ends a homing at its switch with the
home position, reverses one that began on its switch, faults one at the other limit, and is counted only in FAULT and DISABLED (which
inputs only count there, which limits a homing passes, and that a new SSMODE acts at once, is log 131, DEDUCED); chatter faults an enabled carriage and is counted only else; the option is applied once in IDLE, and a delayed move begins at
V_START; a window of 2^OLOG cycles, at least 64, adds the mean error shifted right by OADJ to a phase's offset, clamped to ±OMAX, or
leaves it where a bridge was off; a mean that is no integer is one of the two next to it (log 5, DESIGN CHOICE). -/
def Obligations.CarriageControlAndInputs : Prop :=
  ∀ (s : State) (m : Master) (v : Word) (i : Fin 3) (level : Bool) (ph : Fin 2),
    (s.live = false → exec .limitChatter s = .next s ∧ exec .standstillOption s = .next s ∧ exec .moveStartDelay s = .next s ∧
      exec (.offsetAdapt ph) s = .next s) ∧
    (s.mayWrite m .MOT_CTL 0 →
      (s.on MOT_CTL_EN = false →
        (∃ u : State, exec (.motEnable m v) s = .next u ∧ u.on MOT_CTL_EN = true ∧ u.mot.st = .idle ∧ u.mot.homed = false ∧
          u.mot.ss = true ∧ u.mot.pos = s.mot.pos ∧ u.mot.a.ofs = 0 ∧ u.mot.b.ofs = 0 ∧
          (bits v.toNat 5 4 = 2 → u.motGates = [false, true, false, true, false, true, false, true]) ∧
          (bits v.toNat 5 4 = 1 ∨ bits v.toNat 5 4 = 3 → u.motGates = List.replicate 8 false) ∧
          u = { s with regs := u.regs, mot := u.mot, resp := u.resp } ∧
          s.keeps u [(.MOT_CTL, 0), (.MOT_STAT, 0), (.MOT_CFG_CNT, 0)]) ∧
        (∃ u : State, exec (.motDisable m v) s = .next u ∧ u.on MOT_CTL_EN = false ∧
          u = { s with regs := u.regs, resp := u.resp } ∧ s.keeps u [(.MOT_CTL, 0), (.MOT_STAT, 0), (.MOT_CFG_CNT, 0)])) ∧
      (s.on MOT_CTL_EN = true →
        (∃ u : State, exec (.motEnable m v) s = .next u ∧ u.on MOT_CTL_EN = true ∧
          (s.mot.ss = false ∨ u.ssMode = s.ssMode → u.mot = s.mot) ∧
          (s.mot.ss = true → u.ssMode ≠ s.ssMode →
            (u.ssMode = 0 → s.mot.st ≠ .fault → u.mot = s.mot) ∧
            ((u.ssMode = 1 ∨ (u.ssMode = 0 ∧ s.mot.st = .fault)) → u.motGates = List.replicate 8 false) ∧
            (u.ssMode = 2 → u.motGates = [false, true, false, true, false, true, false, true]) ∧
            u.mot.ss = true ∧ u.mot = { s.mot with a := u.mot.a, b := u.mot.b }) ∧
          u = { s with regs := u.regs, mot := u.mot, resp := u.resp } ∧
          s.keeps u [(.MOT_CTL, 0), (.MOT_STAT, 0), (.MOT_CFG_CNT, 0)]) ∧
        (∃ u : State, exec (.motDisable m v) s = .next u ∧ u.on MOT_CTL_EN = false ∧ u.mot.st = .disabled ∧ u.mot.vel = 0 ∧
          u.mot.home = none ∧ u.mot.pos = s.mot.pos ∧ u.motGates = List.replicate 8 false ∧
          u = { s with regs := u.regs, mot := u.mot, resp := u.resp } ∧
          s.keeps u [(.MOT_CTL, 0), (.MOT_STAT, 0), (.MOT_CFG_CNT, 0)]))) ∧
    (s.powered = false → exec (.limitInputChange i level) s = .next s) ∧
    (∀ (act : Bool) (n : Mot), (∀ c < 45, s.evtLinked c 15 = false) →
      act = (level != (s.fld MOT_LIM_POL).testBit i) →
      n = { s.mot with raw := setBits s.mot.raw i i level.toNat } →
      (s.powered = true → s.live = false → exec (.limitInputChange i level) s = .next { s with mot := n }) ∧
      (s.live = true →
        (s.mot.st = .idle → exec (.limitInputChange i level) s = .next { s with mot := n }) ∧
        (∀ down : Bool, s.mot.st = .moving ∨ s.mot.st = .stopping →
          down = (decide (s.mot.vel < 0) || (decide (s.mot.vel = 0) && decide (s.mot.tgt < s.mot.pos))) →
          (act = true → (i = 0 ∧ down = true) ∨ (i = 1 ∧ down = false) →
            ∃ u : State, exec (.limitInputChange i level) s = .next u ∧ u.mot.st = .idle ∧ u.mot.vel = 0 ∧
              u.mot.pos = s.mot.pos ∧ u.flag MOT_STAT_LIMIT_HIT = true ∧ u = { s with regs := u.regs, mot := u.mot } ∧
              s.keeps u [(.MOT_STAT, 0), (.MOT_LHIT_CNT, 0)]) ∧
          (act = false ∨ i = 2 ∨ (i = 0 ∧ down = false) ∨ (i = 1 ∧ down = true) →
            exec (.limitInputChange i level) s = .next { s with mot := n })) ∧
        (∀ h : Homing, s.mot.st = .homing → s.mot.home = some h →
          i.val = (if h.sw = 0 then 2 else if h.sw = 1 then 0 else 1) →
          (h.away = false → act = true →
            ∃ u : State, exec (.limitInputChange i level) s = .next u ∧ u.mot.st = .idle ∧ u.mot.homed = true ∧
              u.mot.pos = s.sfld MOT_HOMEPOS_VALUE ∧ u.mot.vel = 0 ∧ u.mot.home = none ∧ u = { s with mot := u.mot }) ∧
          (h.away = act → exec (.limitInputChange i level) s = .next { s with mot := n }) ∧
          (h.away = true → act = false → exec (.limitInputChange i level) s = .next { s with
            mot := { n with vel := 0, home := some { h with away := false } } })) ∧
        (∀ h : Homing, s.mot.st = .homing → s.mot.home = some h →
          i.val ≠ (if h.sw = 0 then 2 else if h.sw = 1 then 0 else 1) →
          (act = true → i ≠ 2 →
            ∃ u : State, exec (.limitInputChange i level) s = .next u ∧ u.mot.st = .idle ∧ u.mot.pos = s.mot.pos ∧
              u.flag MOT_STAT_HOMING_FAULT = true ∧ u = { s with regs := u.regs, mot := u.mot } ∧
              s.keeps u [(.MOT_STAT, 0), (.MOT_HF_CNT, 0)]) ∧
          (act = false ∨ i = 2 → exec (.limitInputChange i level) s = .next { s with mot := n })) ∧
        (s.mot.st = .fault ∨ s.mot.st = .disabled →
          (i ≠ 2 → act = true →
            exec (.limitInputChange i level) s = .next (({ s with mot := n } : State).count .MOT_LHIT_CNT)) ∧
          (i = 2 ∨ act = false → exec (.limitInputChange i level) s = .next { s with mot := n })))) ∧
    (s.live = true →
      (s.mot.st = .disabled ∨ s.mot.st = .fault → exec .limitChatter s = .next (s.count .MOT_CHAT_CNT)) ∧
      (s.mot.st ≠ .disabled → s.mot.st ≠ .fault →
        ∃ u : State, exec .limitChatter s = .next u ∧ u.flag MOT_STAT_LIMIT_CHATTER = true ∧ u.mot.st = .fault ∧ u.mot.vel = 0 ∧
          u.mot.pos = s.mot.pos ∧ u.zsp.irqs.contains "MOT_FAULT" = true ∧
          (s.ssMode ≠ 2 → u.motGates = List.replicate 8 false) ∧
          (s.ssMode = 2 → u.motGates = [false, true, false, true, false, true, false, true]) ∧
          ({ s with regs := u.regs, mot := u.mot } : State).routed u ∧
          s.keepsRouted u [(.MOT_STAT, 0), (.MOT_CHAT_CNT, 0)]) ∧
      (s.mot.st = .idle → s.mot.ss = false →
        ∃ u : State, exec .standstillOption s = .next u ∧ u.mot.ss = true ∧ u.mot.st = .idle ∧
          (s.ssMode = 0 → u.motGates = s.motGates) ∧ (s.ssMode = 1 → u.motGates = List.replicate 8 false) ∧
          (s.ssMode = 2 → u.motGates = [false, true, false, true, false, true, false, true]) ∧ u = { s with mot := u.mot }) ∧
      (s.mot.st ≠ .idle ∨ s.mot.ss = true → exec .standstillOption s = .next s) ∧
      (s.mot.delay = false → exec .moveStartDelay s = .next s) ∧
      (s.mot.delay = true → s.mot.st = .moving →
        exec .moveStartDelay s = .next { s with
          mot := { s.mot with delay := false, vel := if s.mot.tgt < s.mot.pos then -(s.mot.vstart : Rat) else s.mot.vstart } }) ∧
      (∀ p : Phase, p = (if ph = 0 then s.mot.a else s.mot.b) →
        (p.en < 2 ^ max 6 (s.fld MOT_ADAPT_OLOG) → exec (.offsetAdapt ph) s = .next s) ∧
        (2 ^ max 6 (s.fld MOT_ADAPT_OLOG) ≤ p.en →
          ∃ (u : State) (q : Phase), exec (.offsetAdapt ph) s = .next u ∧
            u.mot = (if ph = 0 then { s.mot with a := q } else { s.mot with b := q }) ∧ u = { s with mot := u.mot } ∧
            q.bridge = p.bridge ∧ q.blank = p.blank ∧ q.esum = 0 ∧ q.en = 0 ∧ q.dirty = (p.bridge == .off) ∧
            (p.dirty = true → q.ofs = p.ofs) ∧
            (p.dirty = false → ∃ e : Int, ((e : Rat) - (p.esum : Rat) / ((p.en : Nat) : Rat) < 1) ∧
              ((p.esum : Rat) / ((p.en : Nat) : Rat) - (e : Rat) < 1) ∧
              q.ofs = max (-(s.fld MOT_ADAPT_OMAX : Int)) (min (s.fld MOT_ADAPT_OMAX : Int)
                (p.ofs + e / ((2 ^ s.fld MOT_ADAPT_OADJ : Nat) : Int)))))))

/-- MOVE_ABS, MOVE_UM, MOVE_REL, STOP, ESTOP, HOME, SETPOS and CLEAR of mailbox 3 and PROFILE_UPDATE (R290, R329–R333, R339): the answer
carries the result and the request's tag; a move is refused outside IDLE, unreferenced, beyond the soft limits or the count's range,
with speeds against R332, or towards an active limit, arrives at once at the present position, and starts else; STOP slows a move
down, ESTOP stops at once, HOME starts from IDLE with its speeds latched, SETPOS takes the position, CLEAR leaves FAULT; an update of
a move goes on by the mean of the two speeds, in exact rationals (log 21, DEDUCED), and arrives at the target exactly; a speed within
V_MAX stays within it; a stopping carriage within V_STOP stops. A command of RPT is taken after one that waits in the mailbox (R339; log
131, DEDUCED), with RPT_EN only, its target clamped to the soft limits with CLAMPED (R341). -/
def Obligations.CarriageMoves : Prop :=
  ∀ (s : State),
    (∀ (n res : Nat) (more : List Nat) (w : Word) (l : List Word), (s.mbox n).req = some (w :: l) →
      ((s.mbAnswer n res more).mbox n).rsp
        = some ((BitVec.ofNat 32 (res + 256 * bits w.toNat 15 8) :: more.map (BitVec.ofNat 32) ++ List.replicate 8 0).take 8) ∧
      (∀ y, y ≠ n → (s.mbAnswer n res more).mbox y = s.mbox y) ∧
      s.mbAnswer n res more = { s with mboxes := (s.mbAnswer n res more).mboxes }) ∧
    (s.live = false → exec .moveAbs s = .next s ∧ exec .moveUm s = .next s ∧ exec .moveRel s = .next s ∧
      exec .stop s = .next s ∧ exec .estop s = .next s ∧ exec .home s = .next s ∧ exec .setpos s = .next s ∧
      exec .motClear s = .next s ∧ exec .profileUpdate s = .next s) ∧
    (s.live = true → (s.mbox 3).req = none → exec .moveAbs s = .next s ∧ exec .moveUm s = .next s ∧ exec .moveRel s = .next s ∧
      exec .stop s = .next s ∧ exec .estop s = .next s ∧ exec .home s = .next s ∧ exec .setpos s = .next s ∧
      exec .motClear s = .next s) ∧
    (∀ (r : Nat) (t : State) (ws : List Word), s.live = true →
      (s.mbReq 3 1 = some ws → s.motMove (toSigned 32 (reqWord ws 1)) true true = (r, t) →
        exec .moveAbs s = .next (t.mbAnswer 3 r)) ∧
      (s.mbReq 3 2 = some ws → s.motMove (s.motOfUm (toSigned 32 (reqWord ws 1))) true true = (r, t) →
        exec .moveUm s = .next (t.mbAnswer 3 r)) ∧
      (s.mbReq 3 3 = some ws → s.motMove (s.mot.pos + toSigned 32 (reqWord ws 1)) false s.mot.homed = (r, t) →
        exec .moveRel s = .next (t.mbAnswer 3 r))) ∧
    (∀ (tgt : Int) (homed soft : Bool),
      (s.mot.st ≠ .idle ∨ (homed = true ∧ s.mot.homed = false) → s.motMove tgt homed soft = (rSTATE_REFUSED, s)) ∧
      (s.mot.st = .idle → (homed = true → s.mot.homed = true) →
        (soft = true → (tgt < s.sfld MOT_SMIN_VALUE ∨ s.sfld MOT_SMAX_VALUE < tgt) →
          s.motMove tgt homed soft = (rRANGE, s)) ∧
        (tgt < -2147483648 ∨ 2147483647 < tgt → s.motMove tgt homed soft = (rRANGE, s)) ∧
        ((soft = true → s.sfld MOT_SMIN_VALUE ≤ tgt ∧ tgt ≤ s.sfld MOT_SMAX_VALUE) → -2147483648 ≤ tgt → tgt ≤ 2147483647 →
          (tgt = s.mot.pos → (∀ c < 45, s.evtLinked c 13 = false) →
            ∃ u : State, s.motMove tgt homed soft = (rOK, u) ∧ u.flag MOT_STAT_ARRIVED = true ∧
              u.mot = { s.mot with tgt := tgt } ∧ u = { s with regs := u.regs, mot := u.mot } ∧
              s.keeps u [(.MOT_STAT, 0), (.MOT_ARR_CNT, 0)]) ∧
          (tgt ≠ s.mot.pos → s.motSpeedsOk = false → s.motMove tgt homed soft = (rRANGE, s)) ∧
          (tgt < s.mot.pos → s.motSpeedsOk = true → s.motActive 0 = true →
            s.motMove tgt homed soft = (rSTATE_REFUSED, s)) ∧
          (s.mot.pos < tgt → s.motSpeedsOk = true → s.motActive 1 = true →
            s.motMove tgt homed soft = (rSTATE_REFUSED, s)) ∧
          (tgt ≠ s.mot.pos → s.motSpeedsOk = true → (tgt < s.mot.pos → s.motActive 0 = false) →
            (s.mot.pos < tgt → s.motActive 1 = false) →
            ∃ u : State, s.motMove tgt homed soft = (rOK, u) ∧ u.mot.st = .moving ∧ u.mot.tgt = tgt ∧
              u.mot.pos = s.mot.pos ∧ u.mot.ss = false ∧ u.mot.delay = (s.mot.ss && s.ssMode != 0) ∧
              u.mot.vel = (if s.mot.ss && s.ssMode != 0 then 0
                else if tgt < s.mot.pos then -((s.fld MOT_VSTART_V : Nat) : Rat) else ((s.fld MOT_VSTART_V : Nat) : Rat)) ∧
              u = { s with mot := u.mot })))) ∧
    (∀ ws : List Word, s.live = true →
      (s.mbReq 3 4 = some ws →
        (s.mot.st = .moving → exec .stop s = .next (({ s with mot := { s.mot with st := .stopping } }).mbAnswer 3 rOK)) ∧
        (s.mot.st ≠ .moving → exec .stop s = .next (s.mbAnswer 3 rOK))) ∧
      (s.mbReq 3 5 = some ws →
        (s.mot.st = .moving ∨ s.mot.st = .stopping ∨ s.mot.st = .homing →
          ∃ u : State, exec .estop s = .next (u.mbAnswer 3 rOK) ∧ u.mot.st = .idle ∧ u.mot.vel = 0 ∧ u.mot.home = none ∧
            u.mot.pos = s.mot.pos ∧
            u.mot.homed = (s.mot.homed && decide (s.mot.vel ≤ s.mot.vstart) && decide (-(s.mot.vstart : Rat) ≤ s.mot.vel)) ∧
            u = { s with mot := u.mot }) ∧
        (s.mot.st = .idle ∨ s.mot.st = .fault ∨ s.mot.st = .disabled → exec .estop s = .next (s.mbAnswer 3 rOK))) ∧
      (s.mbReq 3 6 = some ws →
        (s.mot.st ≠ .idle → exec .home s = .next (s.mbAnswer 3 rSTATE_REFUSED)) ∧
        (s.mot.st = .idle → (bits (reqWord ws 1) 1 0 = 3 ∨ s.fld MOT_VSTART_V < s.fld MOT_VHOME_V) →
          exec .home s = .next (s.mbAnswer 3 rRANGE)) ∧
        (s.mot.st = .idle → bits (reqWord ws 1) 1 0 < 3 → s.fld MOT_VHOME_V ≤ s.fld MOT_VSTART_V →
          ∃ u : State, exec .home s = .next (u.mbAnswer 3 rOK) ∧ u.mot.st = .homing ∧ u.mot.vel = 0 ∧
            u.mot.home = some ⟨bits (reqWord ws 1) 1 0, (reqWord ws 1).testBit 4,
              s.motActive (if bits (reqWord ws 1) 1 0 = 0 then 2 else if bits (reqWord ws 1) 1 0 = 1 then 0 else 1), 0,
              s.fld MOT_VHOME_V, max 1 (s.fld MOT_A1_A)⟩ ∧
            u = { s with mot := u.mot })) ∧
      (s.mbReq 3 7 = some ws →
        (s.mot.st = .idle → exec .setpos s = .next (({ s with
          mot := { s.mot with pos := toSigned 32 (reqWord ws 1), frac := 0, homed := true } }).mbAnswer 3 rOK)) ∧
        (s.mot.st ≠ .idle → exec .setpos s = .next (s.mbAnswer 3 rSTATE_REFUSED))) ∧
      (s.mbReq 3 8 = some ws →
        (s.mot.st = .fault → exec .motClear s = .next (({ s with
          mot := { s.mot with st := .idle, homed := false, ss := false } }).mbAnswer 3 rOK)) ∧
        (s.mot.st ≠ .fault → exec .motClear s = .next (s.mbAnswer 3 rSTATE_REFUSED)))) ∧
    (s.live = true → ((s.mot.delay = true ∧ s.mot.st ≠ .stopping) ∨ s.mot.st = .idle ∨ s.mot.st = .fault ∨ s.mot.st = .disabled) →
      exec .profileUpdate s = .next s) ∧
    (∀ v rem : Rat, v ≤ ((s.fld MOT_VMAX_V : Nat) : Rat) → s.motNext v rem ≤ ((s.fld MOT_VMAX_V : Nat) : Rat)) ∧
    (∀ p v v' d : Rat, s.live = true → s.mot.delay = false → s.mot.st = .moving → p = (s.mot.pos : Rat) + s.mot.frac →
      -2147483648 ≤ s.mot.pos → s.mot.pos ≤ 2147483647 → -2147483648 ≤ s.mot.tgt → s.mot.tgt ≤ 2147483647 →
      0 ≤ s.mot.frac → s.mot.frac < 1 →
      v = (if s.mot.vel < 0 then -s.mot.vel else s.mot.vel) →
      v' = s.motNext v (if p < s.mot.tgt then (s.mot.tgt : Rat) - p else p - s.mot.tgt) → d = (v + v') / 2 / 1000000 →
      ((if p < s.mot.tgt then (s.mot.tgt : Rat) - p else p - s.mot.tgt) ≤ d →
        ∃ u : State, exec .profileUpdate s = .next u ∧ u.mot.st = .idle ∧ u.mot.pos = s.mot.tgt ∧ u.mot.frac = 0 ∧
          u.mot.vel = 0 ∧ u.flag MOT_STAT_ARRIVED = true ∧ ({ s with regs := u.regs, mot := u.mot } : State).routed u ∧
          s.keepsRouted u [(.MOT_STAT, 0), (.MOT_ARR_CNT, 0)]) ∧
      (d < (if p < s.mot.tgt then (s.mot.tgt : Rat) - p else p - s.mot.tgt) →
        ∃ u : State, exec .profileUpdate s = .next u ∧ u.mot.st = .moving ∧
          (u.mot.pos : Rat) + u.mot.frac = (if p < s.mot.tgt then p + d else p - d) ∧ 0 ≤ u.mot.frac ∧ u.mot.frac < 1 ∧
          u.mot.vel = (if p < s.mot.tgt then v' else -v') ∧ u = { s with mot := u.mot })) ∧
    (∀ v : Rat, s.live = true → s.mot.delay = false → s.mot.st = .stopping →
      v = (if s.mot.vel < 0 then -s.mot.vel else s.mot.vel) → v ≤ (s.mot.vstop : Rat) →
      ∃ u : State, exec .profileUpdate s = .next u ∧ u.mot.st = .idle ∧ u.mot.vel = 0 ∧ u = { s with mot := u.mot }) ∧
    ((s.mbox 3).req = none → s.motFirst = s) ∧
    (∀ (op r : Nat) (ws : List Word) (t : State), 1 ≤ op → op ≤ 8 → s.mbReq 3 op = some ws → s.motRun op ws = (r, t) →
      s.motFirst = t.mbAnswer 3 r) ∧
    (∀ (um c : Int) (r : Nat) (t u : State), u = s.motFirst →
      (u.on MOT_CTL_RPT_EN = false → s.motRpt um = (false, u)) ∧
      (u.on MOT_CTL_RPT_EN = true → c = clampInt (u.sfld MOT_SMIN_VALUE) (u.sfld MOT_SMAX_VALUE) (u.motOfUm um) →
        u.motMove c true true = (r, t) →
        (r ≠ rOK → s.motRpt um = (false, t)) ∧
        (r = rOK → c = u.motOfUm um → s.motRpt um = (true, { t with mot := { t.mot with rptTgt := some c } })) ∧
        (r = rOK → c ≠ u.motOfUm um → ∃ w : State, s.motRpt um = (true, w) ∧ w.flag MOT_STAT_CLAMPED = true ∧
          w.mot = { t.mot with rptTgt := some c } ∧ w = { t with regs := w.regs, mot := w.mot })))

/-- FLACON_SINCOS_SAMPLE, SEAL_CHANGE, MEAS_ERR_NOW_END, FLACON_STILL, PERIODIC_COMMIT, PFAIL, PFAIL_RECOMMIT, PFAIL_N_RELEASE,
COMMIT_DONE and the Flacon's side of an AB_EDGE of ENC0 (R357–R359, R361–R366, R370, R419): in FORM 0 an edge counts one, forward where A
leads B (log 8, PRESUMED), and both inputs in one cycle or edges of a pin less than 4 cycles of 5 ns apart are a fault; in FORM 1 a
decimation period's 16 bits of SD8 and SD9 (log 142, DEDUCED) go through the two sinc3 decimators, and the sample moves p by the counts
between two angles at most a quarter turn apart, or is a fault that keeps the last angle (log 45, DEDUCED); p moves and h takes its
advance, with new complements; a failed pair ends the counting with INTEGRITY where a move or a commit uses it; a commit takes the record
of the state as the commits before it leave it (log 143, DEDUCED), with the tickets that wait for theirs, for the older slot with the
next sequence number, and when done lies there with nothing else of FRAM changed, its ticket, change or image in force; PFAIL_N low
cancels every ticket not yet done and numbers the commits behind it again (log 44, DEDUCED), answers BUSY to the request that waits for
one, and commits while counting; in Off a COMMIT_DONE writes the record alone. -/
def Obligations.MetrologyCountingAndCommits : Prop :=
  ∀ (s : State) (sn cs : BitVec 16) (low : Bool),
    (s.powered = false → exec (.flaconSincosSample sn cs) s = .next s ∧ exec (.sealChange low) s = .next s ∧
      exec .measErrNowEnd s = .next s ∧ exec .flaconStill s = .next s ∧ exec .periodicCommit s = .next s ∧
      exec .pfail s = .next s ∧ exec .pfailRecommit s = .next s ∧ exec .pfailNRelease s = .next s ∧
      (s.fl.commits = [] → exec .commitDone s = .next s) ∧
      (∀ (c : FlCommit) (l : List FlCommit), s.fl.commits = c :: l → Memory.wf s.fl.fram = true →
        ∃ m : Memory, exec .commitDone s = .next { s with fl := { s.fl with fram := m, commits := l } } ∧
          memRead m (128 * c.slot) c.record.length = c.record ∧
          (∀ a, a < 128 * c.slot ∨ 128 * c.slot + c.record.length ≤ a → memByte m a = memByte s.fl.fram a))) ∧
    (∀ d : Int,
      (s.fl.st ≠ .counting ∨ (s.fl.badPair = false ∧ d = 0) → s.flMove d = s) ∧
      (s.fl.st = .counting → s.fl.badPair = false → d ≠ 0 →
        (s.flMove d).fl = s.fl.movedBy d ∧ ({ s with fl := s.fl.movedBy d } : State).routed (s.flMove d) ∧
        (s.fl.pulse = 0 → s.flMove d = { s with fl := s.fl.movedBy d }))) ∧
    (s.fl.st = .counting → s.fl.badPair = true →
      ∃ t : State, s.flCheck = t ∧ (∀ d, s.flMove d = t) ∧ t.fl = { s.fl with st := .integrity } ∧
        t.flag SEC_STAT_INTEGRITY = true ∧ t.fld SEC_INTSRC_SRC = 7 ∧
        t = { s with regs := t.regs, fl := t.fl, pwr := { s.pwr with intSinceBoot := true } } ∧
        s.keeps t [(.SEC_STAT, 0), (.SEC_INT_CNT, 0), (.SEC_INTSRC, 0)] ∧
        (s.powered = true → exec .periodicCommit s = .next t ∧ (s.fl.pfail = true → exec .pfailRecommit s = .next t))) ∧
    (∀ (a b : Bool) (t : Int),
      (s.powered = true → exec (.abEdge 0 a b t) s = .next ((s.encEdge 0 a b t).flEdge a b t)) ∧
      (s.fl.form ≠ 0 → s.flEdge a b t = { s with fl := { s.fl with a := a, b := b } }) ∧
      (s.fl.form = 0 →
        (a = s.fl.a → b = s.fl.b → s.flEdge a b t = s) ∧
        (a ≠ s.fl.a → b ≠ s.fl.b → s.flEdge a b t = { s with
          fl := { s.fl.faulted with a := a, b := b, edgeA := some t, edgeB := some t } }) ∧
        (∀ w : State, a ≠ s.fl.a → b = s.fl.b →
          ((∃ t0, s.fl.edgeA = some t0 ∧ t - t0 < 4) → w = { s with fl := s.fl.faulted }) →
          ((∀ t0, s.fl.edgeA = some t0 → 4 ≤ t - t0) → w = s.flMove (if a ≠ b ↔ s.fl.dir ≠ 1 then 1 else -1)) →
          s.flEdge a b t = { w with fl := { w.fl with a := a, edgeA := some t } }) ∧
        (∀ w : State, a = s.fl.a → b ≠ s.fl.b →
          ((∃ t0, s.fl.edgeB = some t0 ∧ t - t0 < 4) → w = { s with fl := s.fl.faulted }) →
          ((∀ t0, s.fl.edgeB = some t0 → 4 ≤ t - t0) → w = s.flMove (if a = b ↔ s.fl.dir ≠ 1 then 1 else -1)) →
          s.flEdge a b t = { w with fl := { w.fl with b := b, edgeB := some t } }))) ∧
    (s.powered = true →
      exec (.sealChange low) s = .next { s with fl := { s.fl with sealOpen := low } } ∧
      exec .measErrNowEnd s = .next { s with fl := { s.fl with measErr := false } } ∧
      exec .flaconStill s = .next { s with fl := { s.fl with still := true } } ∧
      (s.fl.form ≠ 1 → exec (.flaconSincosSample sn cs) s = .next s) ∧
      (∀ (x y r2 : Int) (f : Flacon) (i j : Sinc3), s.fl.form = 1 → s.fl.sinDec.run sn = (x, i) → s.fl.cosDec.run cs = (y, j) →
        f = { s.fl with sinDec := i, cosDec := j } → r2 = x * x + y * y →
        (r2 < 1048576 ∨ 9437184 < r2 → exec (.flaconSincosSample sn cs) s = .next { s with fl := f.faulted }) ∧
        (1048576 ≤ r2 → r2 ≤ 9437184 →
          (s.fl.angle = none → exec (.flaconSincosSample sn cs) s = .next { s with fl := { f with angle := some (turnOf x y) } }) ∧
          (∀ (last u : Rat) (k d : Int) (w : State), s.fl.angle = some last → u = turnOf x y → k = roundNear (last - u) →
            d = (if s.fl.dir = 1 then -1 else 1)
              * ((u * s.fl.finterp).floor + k * s.fl.finterp - (last * s.fl.finterp).floor) →
            w = ({ s with fl := f } : State).flMove d →
            (1 / 4 < u + k - last ∨ u + k - last < -1 / 4 →
              exec (.flaconSincosSample sn cs) s = .next { s with fl := f.faulted }) ∧
            (-1 / 4 ≤ u + k - last → u + k - last ≤ 1 / 4 →
              exec (.flaconSincosSample sn cs) s = .next { w with fl := { w.fl with angle := some u } })))) ∧
      (s.fl.st ≠ .counting ∨ (s.fl.badPair = false ∧ s.fl.h = s.fl.hCommit) → exec .periodicCommit s = .next s) ∧
      (s.fl.st ≠ .counting ∨ s.fl.pfail = false → exec .pfailRecommit s = .next s) ∧
      (∀ (n q : Nat), n = s.fl.commits.length + 1 → q = (s.fl.seq + n) % 2 ^ 32 → s.fl.st = .counting → s.fl.badPair = false →
        (s.fl.h ≠ s.fl.hCommit → exec .periodicCommit s = .next { s with
          fl := { s.fl with
            hCommit := s.fl.h
            commits := s.fl.commits ++
              [{ record := s.fl.ahead.record q false, slot := (s.fl.slot + n) % 2, seq := q, onPfail := false }] } }) ∧
        (s.fl.pfail = true → exec .pfailRecommit s = .next { s with
          fl := { s.fl with
            hCommit := s.fl.h
            commits := s.fl.commits ++
              [{ record := s.fl.ahead.record q true, slot := (s.fl.slot + n) % 2, seq := q, onPfail := true }] } }) ∧
        ((∀ c ∈ s.fl.commits, c.ticket = none) →
          ∃ u : State, exec .pfail s = .next u ∧ u.fl.pfail = true ∧ u.fl.hCommit = s.fl.h ∧
            u.fl.commits = s.fl.commits ++
              [{ record := s.fl.ahead.record q true, slot := (s.fl.slot + n) % 2, seq := q, onPfail := true }] ∧
            19 ∈ u.evt.level ∧ ({ s with fl := u.fl } : State).routed u ∧ s.keepsRouted u [])) ∧
      (∃ u v w : State, exec .pfail s = .next (if w.fl.st = .counting then w.flCommit true else w) ∧ w = v.flCheck ∧
        v = (if (∃ c ∈ s.fl.commits, c.ticket.isSome = true ∧ c.reply.isSome = true) then u.mbAnswer 4 rBUSY else u) ∧
        u.fl = ({ s.fl with pfail := true } : Flacon).cancelTickets ∧ (∀ c ∈ u.fl.commits, c.ticket = none) ∧
        u.fl.commits.length = (s.fl.commits.filter fun c => c.ticket.isNone).length ∧
        19 ∈ u.evt.level ∧ ({ s with fl := u.fl } : State).routed u ∧ s.keepsRouted u []) ∧
      exec .pfailNRelease s = .next { s with
        fl := { s.fl with pfail := false }, evt := { s.evt with level := s.evt.level.filter (· != 19) } } ∧
      (s.fl.commits = [] → exec .commitDone s = .next s) ∧
      (∀ (c : FlCommit) (l : List FlCommit), s.fl.commits = c :: l → Memory.wf s.fl.fram = true →
        ∃ (u : State) (g : Flacon), exec .commitDone s = .next (match c.reply with
            | some ws => u.mbAnswer 4 ((ws.getD 0 0).toNat) ((ws.drop 1).map (·.toNat))
            | none => u) ∧
          memRead u.fl.fram (128 * c.slot) c.record.length = c.record ∧
          (∀ a, a < 128 * c.slot ∨ 128 * c.slot + c.record.length ≤ a → memByte u.fl.fram a = memByte s.fl.fram a) ∧
          (∀ t, c.ticket = some t →
            g = { s.fl with
              ticket := t, ticketNo := c.number, faultSince := s.fl.faults != c.faultsAt, uncleanSince := false
              lot := if c.closes then none else s.fl.lot }) ∧
          (c.ticket = none → g = s.fl) ∧
          u.fl = { g with
            fram := u.fl.fram, commits := l, seq := c.seq, slot := c.slot, chg := if c.bumps then s.fl.chg + 1 else s.fl.chg
            installed := if c.installs || c.activates then c.installs else s.fl.installed } ∧
          u = { s with fl := u.fl }))

/-- TOTALS, TICKET, LOT_START, LOT_END, PARAM, INIT, RESTORE and INSTALL of mailbox 4 (R356, R365, R366, R369–R371, R391): where no request
of the opcode waits, or in BOOT, nothing happens; without firmware every opcode ends AUTH_FAIL, in INTEGRITY every one but RESTORE ends
INTEGRITY, and with a failed or blank FRAM every one but INIT; a failed pair of totals leads to INTEGRITY first; TOTALS answers the
totals, EVCNT and state; a ticket, a lot, a parameter, an init, a restored record and an installed image begin a commit that holds the
reply OK, and each is refused where its rule says so, in the order of log 51 (DEDUCED). That a parameter holds at once and EVCNT counts
it with its commit is log 143 (DEDUCED), that an INSTALL is refused where its activation, or a change that waits, would overflow EVCNT,
and that it begins a commit, log 44 (DEDUCED); that INIT gives the parameters free values of their ranges is logs 1 and 109. -/
def Obligations.MetrologyOperations : Prop :=
  ∀ (s : State),
    (∀ (op : Nat) (i : Instr), (op, i) ∈ [(1, Instr.totals), (2, .ticket), (3, .lotStart), (4, .lotEnd), (5, .param), (6, .init),
        (7, .restore), (8, .install)] →
      (s.live = false ∨ s.mbReq 4 op = none ∨ s.fl.st = .boot → exec i s = .next s) ∧
      (∀ ws : List Word, s.live = true → s.mbReq 4 op = some ws →
        (s.fl.st = .noFw → exec i s = .next (s.mbAnswer 4 rAUTH_FAIL)) ∧
        (s.fl.st = .integrity → op ≠ 7 → exec i s = .next (s.mbAnswer 4 rINTEGRITY)) ∧
        (s.fl.st = .framFail ∨ s.fl.st = .blank → op ≠ 6 → exec i s = .next (s.mbAnswer 4 rINTEGRITY)) ∧
        (s.fl.st = .counting → s.fl.badPair = true → op ≠ 7 →
          ∃ u : State, exec i s = .next (u.mbAnswer 4 rINTEGRITY) ∧ u.fl = { s.fl with st := .integrity } ∧
            u.flag SEC_STAT_INTEGRITY = true ∧ u.fld SEC_INTSRC_SRC = 7 ∧
            u = { s with regs := u.regs, fl := u.fl, pwr := { s.pwr with intSinceBoot := true } } ∧
            s.keeps u [(.SEC_STAT, 0), (.SEC_INT_CNT, 0), (.SEC_INTSRC, 0)]))) ∧
    (∀ ws : List Word, s.live = true → s.fl.st = .integrity → s.mbReq 4 7 = some ws →
      (s.fl.sealOpen = false → exec .restore s = .next (s.mbAnswer 4 rDENIED)) ∧
      (s.fl.sealOpen = true → match s.fl.newest with
        | none => exec .restore s = .next (s.mbAnswer 4 rINTEGRITY)
        | some (slot, r) =>
          if (s.fl.load slot r).chgFull then exec .restore s = .next (s.mbAnswer 4 rRANGE)
          else ∃ (u : State) (c : FlCommit), exec .restore s = .next u ∧
            u.fl = { (s.fl.load slot r) with
              st := .counting, hCommit := (s.fl.load slot r).h, commits := s.fl.commits ++ [c] } ∧ u.fl.badPair = false ∧
            (recNat r 16 8 < 2 ^ 63 → s.fl.p ≠ recNat r 16 8 → u.fl.still = false) ∧
            c.reply = some [0] ∧ c.ticket = none ∧ c.bumps = true ∧ (u.mbox 4).work = true ∧ (u.mbox 4).req = (s.mbox 4).req ∧
            u = { s with fl := u.fl, mboxes := u.mboxes })) ∧
    (∀ ws : List Word, s.live = true → s.fl.st = .counting → s.fl.badPair = false →
      (s.mbReq 4 1 = some ws → exec .totals s = .next (s.mbAnswer 4 rOK [s.fl.len % 2 ^ 32, s.fl.len / 2 ^ 32,
        s.fl.area % 2 ^ 32, s.fl.area / 2 ^ 32, s.fl.evcnt, s.fl.stateWord])) ∧
      (s.mbReq 4 2 = some ws →
        (s.dbgLevel = 2 → exec .ticket s = .next (s.mbAnswer 4 rDENIED)) ∧
        (s.dbgLevel ≠ 2 → s.fl.pfail = true → exec .ticket s = .next (s.mbAnswer 4 rBUSY)) ∧
        (∀ n : Nat, s.dbgLevel ≠ 2 → s.fl.pfail = false → n = (s.fl.ahead.ticketNo + 1) % 2 ^ 32 →
          ∃ (u : State) (c : FlCommit), exec .ticket s = .next u ∧
            u.fl = { s.fl with hCommit := s.fl.h, commits := s.fl.commits ++ [c] } ∧
            c.ticket = some (s.flTicket 1 n) ∧ c.bumps = false ∧ c.number = n ∧ c.closes = false ∧ c.onPfail = false ∧ c.faultsAt = s.fl.faults ∧
            c.reply = some [0, BitVec.ofNat 32 n] ∧ (u.mbox 4).work = true ∧ u = { s with fl := u.fl, mboxes := u.mboxes })) ∧
      (s.mbReq 4 3 = some ws →
        (s.fl.lot.isSome = true → exec .lotStart s = .next (s.mbAnswer 4 rSTATE_REFUSED)) ∧
        (s.fl.lot = none →
          ∃ (u : State) (c : FlCommit), exec .lotStart s = .next u ∧
            u.fl = { s.fl with
              lot := some { h0 := s.fl.h, sec := ((s.dom s.pri).stamp 0).1, ns := ((s.dom s.pri).stamp 0).2 }
              hCommit := s.fl.h, commits := s.fl.commits ++ [c] } ∧ c.reply = some [0] ∧
            c.ticket = none ∧ (u.mbox 4).work = true ∧ u = { s with fl := u.fl, mboxes := u.mboxes })) ∧
      (s.mbReq 4 4 = some ws →
        (s.fl.lot = none → exec .lotEnd s = .next (s.mbAnswer 4 rSTATE_REFUSED)) ∧
        (s.fl.lot.isSome = true → s.dbgLevel = 2 → exec .lotEnd s = .next (s.mbAnswer 4 rDENIED)) ∧
        (s.fl.lot.isSome = true → s.dbgLevel ≠ 2 → s.fl.pfail = true → exec .lotEnd s = .next (s.mbAnswer 4 rBUSY)) ∧
        (∀ n : Nat, s.fl.lot.isSome = true → s.dbgLevel ≠ 2 → s.fl.pfail = false → n = (s.fl.ahead.ticketNo + 1) % 2 ^ 32 →
          ∃ (u : State) (c : FlCommit), exec .lotEnd s = .next u ∧
            u.fl = { s.fl with hCommit := s.fl.h, commits := s.fl.commits ++ [c] } ∧
            c.ticket = some (s.flTicket 2 n) ∧ c.bumps = false ∧ c.number = n ∧ c.closes = true ∧ c.faultsAt = s.fl.faults ∧
            c.reply = some [0, BitVec.ofNat 32 n] ∧
            (u.mbox 4).work = true ∧ u = { s with fl := u.fl, mboxes := u.mboxes })) ∧
      (∀ id v : Nat, s.mbReq 4 5 = some ws → id = reqWord ws 1 → v = reqWord ws 2 →
        (s.fl.sealOpen = false → exec .param s = .next (s.mbAnswer 4 rDENIED)) ∧
        (s.fl.sealOpen = true → (s.fl.lot.isSome = true ∨ s.fl.still = false) →
          exec .param s = .next (s.mbAnswer 4 rSTATE_REFUSED)) ∧
        (s.fl.sealOpen = true → s.fl.lot = none → s.fl.still = true →
          (flParamOk id v = false ∨ 2 ^ 26 ≤ s.fl.ahead.chg + 1 → exec .param s = .next (s.mbAnswer 4 rRANGE)) ∧
          (flParamOk id v = true → s.fl.ahead.chg + 1 < 2 ^ 26 →
            ∃ (u : State) (c : FlCommit), exec .param s = .next u ∧
              u.fl = { ({ s.fl with lBase := s.fl.len, aBase := s.fl.area, hBase := s.fl.h } : Flacon).setParam id v with
                hCommit := s.fl.h, commits := s.fl.commits ++ [c] } ∧
              c.reply = some [0] ∧ c.ticket = none ∧ c.bumps = true ∧ (u.mbox 4).work = true ∧
              u = { s with fl := u.fl, mboxes := u.mboxes }))) ∧
      (s.mbReq 4 6 = some ws →
        exec .init s = .next (s.mbAnswer 4 (if s.fl.sealOpen then rSTATE_REFUSED else rDENIED))) ∧
      (s.mbReq 4 7 = some ws →
        exec .restore s = .next (s.mbAnswer 4 (if s.fl.sealOpen then rSTATE_REFUSED else rDENIED))) ∧
      (∀ a n : Nat, s.mbReq 4 8 = some ws → a = reqWord ws 1 + 2 ^ 32 * (reqWord ws 2 % 256) → n = reqWord ws 3 →
        (s.fl.sealOpen = false → exec .install s = .next (s.mbAnswer 4 rDENIED)) ∧
        (s.fl.sealOpen = true → (0x30000 < n ∨ a < 0x14000000 ∨ 0x15000000 < a + n) →
          exec .install s = .next (s.mbAnswer 4 rRANGE)) ∧
        (∀ (res : Nat) (img : List Byte) (w : State), s.fl.sealOpen = true → n ≤ 0x30000 → 0x14000000 ≤ a → a + n ≤ 0x15000000 →
          s.busRead 49 a n = (res, img, w) →
          if flImageOk s.fl.romKey img = false then exec .install s = .next (w.mbAnswer 4 rAUTH_FAIL)
          else if 2 ^ 26 ≤ s.fl.ahead.chg + 1 then exec .install s = .next (w.mbAnswer 4 rRANGE)
          else ∃ (u : State) (c : FlCommit), exec .install s = .next u ∧
              u.fl = { w.fl with
                fram := memWrite w.fl.fram (if w.fl.slotB then 0x10000 else 0x40000) img
                hCommit := w.fl.h, commits := w.fl.commits ++ [c] } ∧
              c.reply = some [0] ∧ c.installs = true ∧ c.ticket = none ∧ (u.mbox 4).work = true ∧
              u = { w with fl := u.fl, mboxes := u.mboxes }))) ∧
    (∀ ws : List Word, s.live = true → (s.fl.st = .framFail ∨ s.fl.st = .blank) → s.mbReq 4 6 = some ws →
      (s.fl.sealOpen = false → exec .init s = .next (s.mbAnswer 4 rDENIED)) ∧
      (s.fl.sealOpen = true → 63 ≤ s.fl.gen → exec .init s = .next (s.mbAnswer 4 rRANGE)) ∧
      (s.fl.sealOpen = true → s.fl.gen < 63 →
        ∃ (u : State) (c : FlCommit), exec .init s = .next u ∧ u.fl.st = .counting ∧ u.fl.gen = s.fl.gen + 1 ∧
          u.fl.evcnt = (s.fl.gen + 1) * 2 ^ 26 ∧ u.fl.p = 0 ∧ u.fl.h = 0 ∧ u.fl.len = 0 ∧ u.fl.area = 0 ∧ u.fl.lot = none ∧
          u.fl.badPair = false ∧ (s.fl.p ≠ 0 → u.fl.still = false) ∧ u.fl.form ≤ 1 ∧ u.fl.dir ≤ 1 ∧ 1 ≤ u.fl.num ∧ 1 ≤ u.fl.den ∧
          4 ≤ u.fl.finterp ∧ u.fl.finterp ≤ 4096 ∧ 1 ≤ u.fl.wnom ∧ u.fl.wnom ≤ 10000000 ∧ u.fl.pulse ≤ 1000000 ∧
          u.fl.faults = s.fl.faults ∧ u.fl.ticketNo = s.fl.ticketNo ∧ u.fl.fram = s.fl.fram ∧
          u.fl.commits = s.fl.commits ++ [c] ∧ c.reply = some [0] ∧ (u.mbox 4).work = true ∧
          u = { s with fl := u.fl, mboxes := u.mboxes, freeCtr := u.freeCtr }))

/-- KEY_PROG, KEY_REVOKE, MEASUREMENT_EXTEND and QUOTE_SIGN (R377, R378, R380): an owner slot is fused once, before FIELD, and revoked
until SCRAP, with both in one write in that order; only MR6 and MR7 are extended by software, the new value being the digest of the old
value, the kind 0x84 and the buffer; a quote asked for is refused in BLANK, in RETURN and without an identity key, else BUSY reads 1
until the root core has signed it, and another GO is ignored until then. That a refused write is answered by its response is the model's
reading (log 19, DEDUCED), and so are STATE_REFUSED for a slot already programmed and no effect outside slots 1 to 4 (log 133, DEDUCED);
that the quote is signed where no command waits is its choice (log 61, DESIGN CHOICE). -/
def Obligations.KeysMeasurementsAndQuotes : Prop :=
  ∀ (s : State) (m : Master) (v : Word) (k r : Nat), k = bits v.toNat 2 0 → r = bits v.toNat 2 0 →
    (s.powered = false → exec (.keyProg m v) s = .next s ∧ exec (.keyRevoke m v) s = .next s ∧
      exec (.measurementExtend m v) s = .next s ∧ exec (.quoteSign m) s = .next s) ∧
    (s.mayWrite m .SEC_KEYCMD 0 →
      (v.getLsbD 9 = false →
        (2 ≤ s.lcState →
          ∃ u : State, exec (.keyProg m v) s = .next u ∧ u = { s with regs := u.regs, resp := { code := rSTATE_REFUSED } } ∧
            s.keeps u [(.SEC_KEYCMD, 0)]) ∧
        (s.lcState ≤ 1 → 1 ≤ k → k ≤ 4 → s.sec.keys.find? (fun e => e.1 == k) = none →
          ∃ u : State, exec (.keyProg m v) s = .next u ∧
            u.sec = { s.sec with keys := put ((s.regBytes .SEC_KBUF 0 15).take 57) s.sec.keys k } ∧
            u = { s with regs := u.regs, sec := u.sec, resp := {} } ∧ s.keeps u [(.SEC_KEYCMD, 0)]) ∧
        (s.lcState ≤ 1 → 1 ≤ k → k ≤ 4 → (s.sec.keys.find? (fun e => e.1 == k)).isSome = true →
          ∃ u : State, exec (.keyProg m v) s = .next u ∧ u = { s with regs := u.regs, resp := { code := rSTATE_REFUSED } } ∧
            s.keeps u [(.SEC_KEYCMD, 0)]) ∧
        (s.lcState ≤ 1 → (k = 0 ∨ 4 < k) →
          ∃ u : State, exec (.keyProg m v) s = .next u ∧ u = { s with regs := u.regs, resp := {} } ∧
            s.keeps u [(.SEC_KEYCMD, 0)])) ∧
      (v.getLsbD 9 = true →
        (s.lcState ≤ 1 → 1 ≤ k → k ≤ 4 → s.sec.keys.find? (fun e => e.1 == k) = none →
          ∃ u : State, exec (.keyProg m v) s = .next u ∧ u.slotKey k = none ∧
            u.sec = { s.sec with
              keys := put ((s.regBytes .SEC_KBUF 0 15).take 57) s.sec.keys k, revoked := u.sec.revoked } ∧
            (∀ j, j ∈ u.sec.revoked ↔ j = k ∨ j ∈ s.sec.revoked) ∧
            u = { s with regs := u.regs, sec := u.sec, resp := {} } ∧ s.keeps u [(.SEC_KEYCMD, 0)]) ∧
        (1 ≤ k → k ≤ 4 → s.lcState = 2 ∨ (s.lcState ≤ 1 ∧ (s.sec.keys.find? (fun e => e.1 == k)).isSome = true) →
          ∃ u : State, exec (.keyProg m v) s = .next u ∧ u.slotKey k = none ∧
            u.sec = { s.sec with revoked := u.sec.revoked } ∧ (∀ j, j ∈ u.sec.revoked ↔ j = k ∨ j ∈ s.sec.revoked) ∧
            u = { s with regs := u.regs, sec := u.sec, resp := { code := rSTATE_REFUSED } } ∧ s.keeps u [(.SEC_KEYCMD, 0)]) ∧
        (s.lcState = 3 ∨ k = 0 ∨ 4 < k →
          ∃ u : State, exec (.keyProg m v) s = .next u ∧
            u = { s with regs := u.regs, resp := { code := if 2 ≤ s.lcState then rSTATE_REFUSED else rOK } } ∧
            s.keeps u [(.SEC_KEYCMD, 0)])) ∧
      (v.getLsbD 8 = true → exec (.keyRevoke m v) s = exec (.keyProg m (v ||| 0x200)) s) ∧
      (v.getLsbD 8 = false →
        (s.lcState = 3 →
          ∃ u : State, exec (.keyRevoke m v) s = .next u ∧ u = { s with regs := u.regs, resp := { code := rSTATE_REFUSED } } ∧
            s.keeps u [(.SEC_KEYCMD, 0)]) ∧
        (s.lcState ≠ 3 → 1 ≤ k → k ≤ 4 →
          ∃ u : State, exec (.keyRevoke m v) s = .next u ∧ u.slotKey k = none ∧
            u.sec = { s.sec with revoked := u.sec.revoked } ∧ (∀ j, j ∈ u.sec.revoked ↔ j = k ∨ j ∈ s.sec.revoked) ∧
            u = { s with regs := u.regs, sec := u.sec, resp := {} } ∧ s.keeps u [(.SEC_KEYCMD, 0)]) ∧
        (s.lcState ≠ 3 → (k = 0 ∨ 4 < k) →
          ∃ u : State, exec (.keyRevoke m v) s = .next u ∧ u = { s with regs := u.regs, resp := {} } ∧
            s.keeps u [(.SEC_KEYCMD, 0)]))) ∧
    (s.mayWrite m .SEC_MRX 0 →
      (r < 6 → exec (.measurementExtend m v) s = .next { s with resp := { code := rDENIED } }) ∧
      (6 ≤ r →
        ∃ u : State, exec (.measurementExtend m v) s = .next u ∧
          u.mreg r = fit 64 (Config.shake256 (s.mreg r ++ leBytes 1 0x84 ++ fit 64 (s.regBytes .SEC_MRXBUF 0 16)) 64) ∧
          (∀ i, i ≠ r → u.mreg i = s.mreg i) ∧ u = { s with regs := u.regs, sec := { s.sec with mr := u.sec.mr }, resp := {} } ∧
          s.keeps u [(.SEC_MRX, 0)])) ∧
    (s.mayWrite m .SEC_QCMD 0 →
      (s.on SEC_QRES_BUSY = true → exec (.quoteSign m) s = .next { s with resp := {} }) ∧
      (s.on SEC_QRES_BUSY = false → s.lcState = 0 ∨ s.lcState = 3 ∨ s.sec.idPub = [] →
        ∃ u : State, exec (.quoteSign m) s = .next u ∧ u.fld SEC_QRES_RESULT = rSTATE_REFUSED ∧ u.fld SEC_QRES_DONE = 1 ∧
          u.on SEC_QRES_BUSY = false ∧ u = { s with regs := u.regs, resp := {} } ∧ s.keeps u [(.SEC_QRES, 0)]) ∧
      (s.on SEC_QRES_BUSY = false → s.lcState = 1 ∨ s.lcState = 2 → s.sec.idPub ≠ [] →
        ∃ u : State, exec (.quoteSign m) s = .next u ∧ u.on SEC_QRES_BUSY = true ∧ u.fld SEC_QRES_DONE = 0 ∧
          u.fld SEC_QRES_RESULT = s.fld SEC_QRES_RESULT ∧
          u = { s with regs := u.regs, resp := {} } ∧ s.keeps u [(.SEC_QRES, 0)])) ∧
    (s.pending = [] → s.live = true → s.on SEC_QRES_BUSY = true →
      ∃ u : State, step s = .next u.timeBase ∧ u.fld SEC_QRES_DONE = 1 ∧ u.on SEC_QRES_BUSY = false ∧
        u = { s with regs := u.regs } ∧
        (s.lcState = 0 ∨ s.lcState = 3 ∨ s.sec.idPub = [] → u.fld SEC_QRES_RESULT = rSTATE_REFUSED ∧ s.keeps u [(.SEC_QRES, 0)]) ∧
        (s.lcState = 1 ∨ s.lcState = 2 → s.sec.idPub ≠ [] →
          u.fld SEC_QRES_RESULT = rOK ∧
          (∀ i < 192, u.reg .SEC_QOUT i = BitVec.ofNat 32 (leNat ((s.quote.drop (4 * i)).take 4))) ∧
          s.keeps u ((.SEC_QRES, 0) :: (List.range 192).map fun i => (.SEC_QOUT, i)))) ∧
    (s.live = false ∨ s.on SEC_QRES_BUSY = false → s.pending = [] → step s = .next s.timeBase)

/-- CHALLENGE_NEW, LIFECYCLE_TRANSITION, DEBUG_UNLOCK and DEBUG_CLOSE (R379, R387–R391, R398): a challenge is given while fewer than 8
failures stand, DENIED as the response else (log 19, DEDUCED), and its value is a free value (log 1); a check of a response uses the
challenge up, fails and counts where none stands (log 62, DEDUCED), and counts its failure; a transition other than the listed ones, or
outside Hold, is refused, an unverified one fails, and a verified one sets the state, closes the debug session and extends MR5, and in
RETURN leaves neither the secret nor the certificates; a level not above the open one is answered OK at once, a verified one opens with
its kind in MR5, and a request outside Run and Hold, of D2 in PROVISIONED or FIELD, or with an invalid lifecycle (log 62) is refused;
closing returns to level 0, and comes first where one write closes and asks; the port grants each use from its level on, which no
command carries out (log 141, DEDUCED). Transitions and unlocks complete within their command (log 61, DESIGN CHOICE). -/
def Obligations.LifecycleAndDebug : Prop :=
  ∀ (s : State) (m : Master) (v : Word),
    (s.powered = false → exec (.challengeNew m) s = .next s ∧ exec (.lifecycleTransition m v) s = .next s ∧
      exec (.debugUnlock m v) s = .next s ∧ exec (.debugClose m v) s = .next s) ∧
    (s.mayWriteOn m .SEC_CHALCMD 0 →
      (8 ≤ s.fld SEC_DBG_FAILS → exec (.challengeNew m) s = .next { s with resp := { code := rDENIED } }) ∧
      (s.fld SEC_DBG_FAILS < 8 →
        ∃ u : State, exec (.challengeNew m) s = .next u ∧ u.sec = { s.sec with chal := true } ∧
          (∀ i < 8, u.reg .SEC_CHAL i = BitVec.ofNat 32 (leNat (((leBytes 32 s.free).drop (4 * i)).take 4))) ∧
          u = { s with regs := u.regs, sec := u.sec, freeCtr := s.freeCtr + 1, resp := {} } ∧
          s.keeps u ((List.range 8).map fun i => (.SEC_CHAL, i)))) ∧
    (∀ (bit purpose : Nat) (need : Nat → Bool) (ok : Bool) (x : State), s.verifyAuth bit purpose need = (ok, x) →
      x.sec.chal = false ∧ (s.sec.chal = false → ok = false) ∧
      x.fld SEC_DBG_FAILS = (if ok then s.fld SEC_DBG_FAILS else min 255 (s.fld SEC_DBG_FAILS + 1)) ∧
      (∀ i < 8, x.reg .SEC_CHAL i = 0) ∧ x.sec = { s.sec with chal := false, mr := x.sec.mr, raised := x.sec.raised } ∧
      x = { s with regs := x.regs, sec := x.sec, pwr := { s.pwr with intSinceBoot := x.pwr.intSinceBoot } }) ∧
    (∀ (d : Nat) (t : State), s.mayWriteOn m .SEC_LCCMD 0 → d = bits v.toNat 1 0 →
      t = ({ s with resp := {} } : State).regStore .SEC_LCCMD 0 (v ||| 0x80000000) →
      (t = { s with regs := t.regs, resp := {} } ∧ s.keeps t [(.SEC_LCCMD, 0)]) ∧
      (s.sec.lcInvalid = true →
        ∃ u : State, exec (.lifecycleTransition m v) s = .next u ∧ u.fld SEC_LCRES_RESULT = rINTEGRITY ∧
          u.fld SEC_LCRES_DONE = 1 ∧ u = { s with regs := u.regs, resp := {} } ∧ s.keeps u [(.SEC_LCCMD, 0), (.SEC_LCRES, 0)]) ∧
      (s.sec.lcInvalid = false →
        (s.inHold = false ∨ ¬((s.lcState = 0 ∧ d = 1 ∧ s.sec.keys ≠ []) ∨ (s.lcState = 1 ∧ d = 2) ∨
            ((s.lcState = 1 ∨ s.lcState = 2) ∧ d = 3)) →
          ∃ u : State, exec (.lifecycleTransition m v) s = .next u ∧ u.fld SEC_LCRES_RESULT = rSTATE_REFUSED ∧
            u.fld SEC_LCRES_DONE = 1 ∧ u = { s with regs := u.regs, resp := {} } ∧
            s.keeps u [(.SEC_LCCMD, 0), (.SEC_LCRES, 0)]) ∧
        (s.inHold = true → s.lcState = 0 → d = 1 → s.sec.keys ≠ [] →
          match t.verifyAuth 6 0x11 (· == 0) with
          | (false, x) => exec (.lifecycleTransition m v) s = .next (x.lcDone rAUTH_FAIL)
          | (true, x) => ∃ u : State, exec (.lifecycleTransition m v) s = .next u ∧ u.sec.lc = 1 ∧ u.sec.lcc = 2 ∧
            (u.sec.secret.map List.length) = some 64 ∧
            u.mreg 5 = fit 64 (Config.shake256 (x.dbgClose.mreg 5 ++ leBytes 1 6 ++ fit 64 (leBytes 1 1)) 64) ∧
            u.fld SEC_LCRES_RESULT = rOK ∧ u.dbgLevel = 0 ∧
            u = { x with regs := u.regs, sec := u.sec, freeCtr := x.freeCtr + 1 }) ∧
        (s.inHold = true → s.lcState = 1 → d = 2 →
          match t.verifyAuth 6 0x12 (fun _ => true) with
          | (false, x) => exec (.lifecycleTransition m v) s = .next (x.lcDone rAUTH_FAIL)
          | (true, x) => ∃ u : State, exec (.lifecycleTransition m v) s = .next u ∧ u.sec.lc = 2 ∧ u.sec.lcc = 1 ∧
            u.mreg 5 = fit 64 (Config.shake256 (x.dbgClose.mreg 5 ++ leBytes 1 6 ++ fit 64 (leBytes 1 2)) 64) ∧
            u.fld SEC_LCRES_RESULT = rOK ∧ u.dbgLevel = 0 ∧ u = { x with regs := u.regs, sec := u.sec }) ∧
        (s.inHold = true → (s.lcState = 1 ∨ s.lcState = 2) → d = 3 →
          match t.verifyAuth 6 0x13 (· == 0) with
          | (false, x) => exec (.lifecycleTransition m v) s = .next (x.lcDone rAUTH_FAIL)
          | (true, x) => ∃ u : State, exec (.lifecycleTransition m v) s = .next u ∧ u.sec.lc = 3 ∧ u.sec.lcc = 0 ∧ u.sec.secret = none ∧
            u.sec.idPub = [] ∧ (∀ k, 1 ≤ k → k ≤ 4 → u.slotKey k = none) ∧
            u.mreg 5 = fit 64 (Config.shake256 (x.dbgClose.mreg 5 ++ leBytes 1 6 ++ fit 64 (leBytes 1 3)) 64) ∧
            u.mem = memClear x.mem 0x10000000 0x15000000 ∧ u.fld SEC_LCRES_RESULT = rOK ∧ u.dbgLevel = 0 ∧
            u = { x with
              regs := u.regs, sec := u.sec, mem := u.mem, boot := { x.boot with cert := 0, certChain := [] } }))) ∧
    (∀ (q : Nat) (w t : State), s.mayWriteOn m .SEC_DBG 0 → q = bits v.toNat 5 4 →
      w = ({ s with resp := {} } : State).regStore .SEC_DBG 0 (v ||| 0x100) →
      t = (if v.getLsbD 9 then w.dbgClose else w) →
      (t.dbgLevel = if v.getLsbD 9 then 0 else s.dbgLevel) ∧
      (q = 0 ∨ q = 3 → exec (.debugUnlock m v) s = .next (t.dbgDone rRANGE)) ∧
      (q = 1 ∨ q = 2 →
        (s.live = false ∨ s.sec.lcInvalid = true ∨ (q = 2 ∧ (s.lcState = 1 ∨ s.lcState = 2)) →
          exec (.debugUnlock m v) s = .next (t.dbgDone rSTATE_REFUSED)) ∧
        (s.live = true → s.sec.lcInvalid = false → ¬(q = 2 ∧ (s.lcState = 1 ∨ s.lcState = 2)) →
          (q ≤ t.dbgLevel → exec (.debugUnlock m v) s = .next (t.dbgDone rOK)) ∧
          (t.dbgLevel < q →
            match t.verifyAuth (3 + q) q (fun k => decide (q = 1) || k == 0) with
            | (false, x) => exec (.debugUnlock m v) s = .next (x.dbgDone rAUTH_FAIL)
            | (true, x) => ∃ u : State, exec (.debugUnlock m v) s = .next u ∧ u.dbgLevel = q ∧ u.flag SEC_STAT_DBG_OPEN = true ∧
              u.fld SEC_DBGRES_RESULT = rOK ∧ u.fld SEC_DBGRES_DONE = 1 ∧ q ≤ u.fld SEC_DBG_HIGH ∧
              u.mreg 5 = fit 64 (Config.shake256 (x.mreg 5 ++ leBytes 1 (3 + q) ++ fit 64 (leBytes 1 q)) 64) ∧
              u = { x with regs := u.regs, sec := u.sec })))) ∧
    ((∀ d ∈ [DebugUse.bypass, .idcode, .samplePreload], s.powered = true → s.debugGrants d = true) ∧
      (∀ d ∈ [DebugUse.haltServiceCore, .stepServiceCore, .regsOfServiceCore],
        s.debugGrants d = true ↔ s.live = true ∧ 1 ≤ s.dbgLevel) ∧
      (∀ d ∈ [DebugUse.haltRootCore, .haltEngine, .engineImem], s.debugGrants d = true ↔ s.live = true ∧ 2 ≤ s.dbgLevel) ∧
      (∀ d ∈ [DebugUse.flaconCore, .flaconSram, .extest, .intest],
        s.debugGrants d = true ↔ s.powered = true ∧ 2 ≤ s.dbgLevel) ∧
      (s.powered = false → ∀ d, s.debugGrants d = false)) ∧
    (v.getLsbD 8 = true → exec (.debugClose m v) s = exec (.debugUnlock m (v ||| 0x200)) s) ∧
    (s.mayWriteOn m .SEC_DBG 0 → v.getLsbD 8 = false →
      ∃ u : State, exec (.debugClose m v) s = .next u ∧ u.dbgLevel = 0 ∧
        (s.dbgLevel = 0 → u.sec = s.sec) ∧
        (s.dbgLevel ≠ 0 → u.sec = { s.sec with mr := u.sec.mr } ∧
          u.mreg 5 = fit 64 (Config.shake256 (s.mreg 5 ++ leBytes 1 (3 + s.dbgLevel) ++ fit 64 (leBytes 1 0)) 64)) ∧
        u = { s with regs := u.regs, sec := u.sec, resp := {} } ∧ s.keeps u [(.SEC_DBG, 0)])

/-- PWRCMD_RUN, PWRCMD_HOLD and PWRCMD_STANDBY (R30, R232, R260, R271, R342, R344, R391–R395, R397, R408): Run begins in Hold at the mark
plus 1 where a profile is valid and the expected mark is the device's, else RUN is refused, as it is beside HOLD, and the fixed-rate
generator's first period begins then (log 115, DESIGN CHOICE); that a RUN with no valid profile leaves the CXL ports in L1 and that its
result replaces that of HOLD is log 89 (DEDUCED), that a RUN outside Hold raises no RUN_REFUSED log 133 (DEDUCED); HOLD latches L_h, begins
the drain in Run and ends a splice planned past L_h, joins a drain under way, and is refused in Hold, where it is not listed; STANDBY stops
the channels, the compressors and the carriage, and reaches Standby at once, with LOCKED cleared (with the lock counts, log 90, DEDUCED)
and every producer of the main domain silent, where no port must put its device into self-refresh first. That the bits of one write are
taken in the order HOLD, RUN, STANDBY is the model's reading (log 30, DEDUCED). -/
def Obligations.PowerCommands : Prop :=
  ∀ (s : State) (m : Master) (v : Word),
    (s.powered = false → exec (.pwrcmdRun m v) s = .next s ∧ exec (.pwrcmdHold m v) s = .next s ∧
      exec (.pwrcmdStandby m v) s = .next s) ∧
    (s.mayWrite m .SYS_PWRCMD 0 → v.getLsbD 1 = false → v.getLsbD 2 = false →
      (s.inHoldIdle = true → s.on SYS_PSTAT_VALID = true →
        ofSigned 48 s.tick.hw = s.wide .SYS_RUNMARK_LO .SYS_RUNMARK_HI % 2 ^ 48 →
        ∃ u : State, exec (.pwrcmdRun m v) s = .next u ∧
          u.pwr = { s.pwr with st := .run, t0 := (s.tick.hw + 1).toNat } ∧
          u.tick = { s.tick with
            ticked := [], past := s.tick.ticked.take 4, genAt := max (s.tick.instants.headD 0) (s.span.time : Rat) } ∧
          (∀ p < 4, u.cxlp p = { s.cxlp p with st := if (s.cxlp p).st = .l1 then .up else (s.cxlp p).st }) ∧
          u.rpt = { s.rpt with builtAt := s.tick.hw, wait := u.rpt.wait, built := u.rpt.built } ∧
          u.fld SYS_PWRRES_RESULT = rOK ∧ u.fld SYS_PWRRES_DONE = 1 ∧ u.fld SYS_PWRRES_BUSY = 0 ∧
          u = { s with regs := u.regs, pwr := u.pwr, tick := u.tick, rpt := u.rpt, cxl := u.cxl, resp := {} } ∧
          s.keeps u [(.SYS_PWRRES, 0)]) ∧
      (s.inHoldIdle = true → (s.on SYS_PSTAT_VALID = false ∨
          ofSigned 48 s.tick.hw ≠ s.wide .SYS_RUNMARK_LO .SYS_RUNMARK_HI % 2 ^ 48) →
        ∃ u : State, exec (.pwrcmdRun m v) s = .next u ∧ u.fld SYS_PWRRES_RESULT = rSTATE_REFUSED ∧
          u.fld SYS_PWRRES_DONE = 1 ∧ u.flag SYS_STAT_RUN_REFUSED = true ∧
          u = { s with regs := u.regs, cxl := u.cxl, resp := {} } ∧
          s.keeps u [(.SYS_PWRRES, 0), (SYS_STAT_RUN_REFUSED.reg, 0), (SYS_STAT_RUN_REFUSED.cnt, 0)]) ∧
      (s.inHoldIdle = false →
        ∃ u : State, exec (.pwrcmdRun m v) s = .next u ∧ u.fld SYS_PWRRES_RESULT = rSTATE_REFUSED ∧
          u.fld SYS_PWRRES_DONE = 1 ∧ u = { s with regs := u.regs, resp := {} } ∧ s.keeps u [(.SYS_PWRRES, 0)])) ∧
    (s.mayWrite m .SYS_PWRCMD 0 → v.getLsbD 1 = false → v.getLsbD 2 = true → s.inHoldIdle = true →
      ∃ u : State, exec (.pwrcmdRun m v) s = .next u ∧ u.fld SYS_PWRRES_RESULT = rSTATE_REFUSED ∧
        u.flag SYS_STAT_RUN_REFUSED = true ∧ u = { s with regs := u.regs, resp := {} } ∧
        s.keeps u [(.SYS_PWRRES, 0), (SYS_STAT_RUN_REFUSED.reg, 0), (SYS_STAT_RUN_REFUSED.cnt, 0)]) ∧
    (∀ u : State, s.mayWrite m .SYS_PWRCMD 0 → v.getLsbD 0 = false → v.getLsbD 1 = false → s.inHoldIdle = false →
      exec (.pwrcmdHold m v) s = .next u → exec (.pwrcmdRun m (v ||| 4)) s = .next (u.pwrRes rSTATE_REFUSED)) ∧
    (v.getLsbD 0 = true → exec (.pwrcmdHold m v) s = exec (.pwrcmdRun m (v ||| 4)) s) ∧
    (v.getLsbD 1 = true → exec (.pwrcmdHold m v) s = exec (.pwrcmdStandby m (v ||| 4)) s ∧
      exec (.pwrcmdRun m v) s = exec (.pwrcmdStandby m (v ||| 1)) s) ∧
    (∀ u : State, s.mayWrite m .SYS_PWRCMD 0 → v.getLsbD 1 = false →
      (v.getLsbD 0 = true → exec (.pwrcmdRun m v) s = .next u → exec (.pwrcmdStandby m v) s = .next u.pwrStandby) ∧
      (v.getLsbD 0 = false → v.getLsbD 2 = true → exec (.pwrcmdHold m v) s = .next u →
        exec (.pwrcmdStandby m v) s = .next u.pwrStandby)) ∧
    (s.mayWrite m .SYS_PWRCMD 0 → v.getLsbD 0 = false → v.getLsbD 1 = false →
      (s.inRun = true → s.pwr.drain = false →
        ∃ u : State, exec (.pwrcmdHold m v) s = .next u ∧
          u.pwr = { s.pwr with drain := true, drainAt := s.tick.hw.toNat, holdLine := s.tick.hw.toNat } ∧
          u.tick = { s.tick with
            hw := max s.tickLast s.tick.line, holdAdv := (max s.tickLast s.tick.line - s.tick.hw).toNat } ∧
          u.fld SYS_PWRRES_BUSY = 1 ∧ u.fld SYS_PWRRES_DONE = 0 ∧
          ((∀ sp line, s.boot.splice = some sp → sp.s = some line → sp.applied = true ∨ line ≤ s.tick.hw.toNat) →
            u = { s with regs := u.regs, pwr := u.pwr, tick := u.tick, resp := {} } ∧ s.keeps u [(.SYS_PWRRES, 0)]) ∧
          (∀ sp line, s.boot.splice = some sp → sp.s = some line → sp.applied = false → (s.tick.hw.toNat : Int) < line →
            u.boot = { s.boot with splice := none } ∧ u.fld SYS_PSTAT_RESULT = rSTATE_REFUSED ∧ u.fld SYS_PSTAT_BUSY = 0 ∧
            u.fld SYS_PSTAT_PEND = 0 ∧ (∀ e, (u.eng e).staged = none) ∧
            u = { s with
              regs := u.regs, pwr := u.pwr, tick := u.tick, engs := u.engs, eths := u.eths, boot := u.boot, resp := {} } ∧
            s.keeps u [(.SYS_PWRRES, 0), (.SYS_PSTAT, 0)])) ∧
      (s.inRun = true → s.pwr.drain = true →
        ∃ u : State, exec (.pwrcmdHold m v) s = .next u ∧ u.fld SYS_PWRRES_BUSY = 1 ∧
          u = { s with regs := u.regs, resp := {} } ∧ s.keeps u [(.SYS_PWRRES, 0)]) ∧
      (s.inHold = true →
        ∃ u : State, exec (.pwrcmdHold m v) s = .next u ∧
          u.fld SYS_PWRRES_RESULT = rSTATE_REFUSED ∧ u.fld SYS_PWRRES_DONE = 1 ∧ u.fld SYS_PWRRES_BUSY = 0 ∧
          u = { s with regs := u.regs, resp := {} } ∧ s.keeps u [(.SYS_PWRRES, 0)])) ∧
    (s.mayWrite m .SYS_PWRCMD 0 → v.getLsbD 0 = false → v.getLsbD 2 = false →
      (s.inHoldIdle = false →
        ∃ u : State, exec (.pwrcmdStandby m v) s = .next u ∧ u.fld SYS_PWRRES_RESULT = rSTATE_REFUSED ∧
          u = { s with regs := u.regs, resp := {} } ∧ s.keeps u [(.SYS_PWRRES, 0)]) ∧
      (s.inHoldIdle = true →
        ∃ u : State, exec (.pwrcmdStandby m v) s = .next u ∧ u.fld SYS_PWRRES_RESULT = rOK ∧ u.fld SYS_PWRRES_DONE = 1 ∧
          u.dmas = [] ∧ u.cmp = {} ∧ u.mot.st = .disabled ∧ u.mot.homed = false ∧ u.on MOT_CTL_EN = false ∧
          u.motGates = List.replicate 8 false ∧ u.blt = none ∧ (∀ k < 4, (u.marker k).fires = []) ∧
          (s.dbgLevel = 1 → u.dbgLevel = 0) ∧ (s.dbgLevel ≠ 1 → u.sec = s.sec) ∧
          ((∀ p < 4, ((s.cxlp p).st = .up ∨ (s.cxlp p).st = .l1 → (s.cxlp p).frozen = true) ∧ (s.cxlp p).pme = false) →
            u.pwr.st = .standby ∧ u.pwr.entering = false ∧ (∀ x < 2, u.fld TIME_STAT_X_LOCKED x = 0) ∧
            u.evt = { s.evt with level := s.evt.level.filter evtStandby }) ∧
          (∀ p < 4, (s.cxlp p).st = .up ∨ (s.cxlp p).st = .l1 → (s.cxlp p).frozen = false →
            (u.cxlp p).pme = true ∧ (u.cxlp p).st = .up ∧ u.pwr.st = .hold ∧ u.pwr.entering = true) ∧
          (∀ p < 4, (s.cxlp p).st = .up ∨ (s.cxlp p).st = .l1 → (s.cxlp p).frozen = true →
            (u.cxlp p).st = .down ∧ (u.cxlp p).srLost = true) ∧
          u = { s with
            regs := u.regs, dmas := [], cmp := {}, mot := u.mot, blt := none, sec := u.sec, rpt := u.rpt, cxl := u.cxl
            times := u.times, evt := { s.evt with level := u.evt.level }
            pwr := { s.pwr with st := u.pwr.st, entering := u.pwr.entering, wake := none }, resp := {} } ∧
          ∀ r i, r ∉ [Reg.SYS_PWRRES, .RPT_MK_STAT, .RPT_MK_OVF_CNT, .MOT_CTL, .MEM_BLT_RES, .MEM_STAT, .MEM_ABORT_CNT,
            .TIME_STAT_X, .SEC_DBG] → u.reg r i = s.reg r i))

/-- OFF_ENTRY, RAIL_FAULT, THERMAL_TRIP, PORST_RELEASE and WAKE (R261, R271, R344, R363, R392, R396, R399, R405, R409, R411, R418, R419,
R422): Off is entered at once from any state and keeps the fuses, FRAM, flash, the levels of the pins and CXL memory (log 43, DESIGN
CHOICE); the commits up to the last that PFAIL_N started are kept for the partition to write, and those lost that a failing rail of its
own cuts off, in Off too (log 143, DEDUCED); the release of PORST_N, which comes after them, and a wake run the boot to its end or to a
halt, and the first stage that fails halts it with its result; without a flash directory the boot halts at stage 4, with the banks
cleared, the sampled profile number taken, at a wake again (log 100, DEDUCED), and a report (log 126, DEDUCED); THERMTRIP_N stays low
while a sensor is warm (log 90, DEDUCED); a wake keeps the retained banks, the times, the counts and the flash, counts itself, names its
channel, and enters Hold with an occurrence on HOLD_ENTRY. -/
def Obligations.OffBootAndWake : Prop :=
  ∀ (s : State) (env : BootEnv) (flacon : Bool),
    (s.pwr.st = .off → exec .offEntry s = .next s ∧ exec (.railFault false) s = .next s ∧
      exec (.railFault true) s = .next { s with fl := { s.fl with commits := [] } } ∧
      exec .thermalTrip s = .next { s with pwr := { s.pwr with thermTrip := true } }) ∧
    (∀ (c : Instr) (trip : Bool), s.pwr.st ≠ .off →
      (c = .offEntry ∧ trip = false) ∨ (c = .railFault flacon ∧ trip = false) ∨ (c = .thermalTrip ∧ trip = true) →
      ∃ u : State, exec c s = .next u ∧ u.pwr.st = .off ∧ u.pwr.thermTrip = (s.pwr.thermTrip || trip) ∧
        u.pending = s.pending ∧ (∀ r i, r ≠ .SEC_KPOL → r ≠ .SEC_KPOLC → u.reg r i = State.reset.reg r i) ∧
        (∀ i, u.reg .SEC_KPOL i = s.reg .SEC_KPOL i ∧ u.reg .SEC_KPOLC i = s.reg .SEC_KPOLC i) ∧
        u.sec.keys = s.sec.keys ∧ u.sec.revoked = s.sec.revoked ∧ u.sec.secret = s.sec.secret ∧ u.sec.lc = s.sec.lc ∧
        u.sec.devId = s.sec.devId ∧ u.boot.flash = s.boot.flash ∧ u.engs = [] ∧ u.zsp = {} ∧ u.tick = {} ∧
        (∀ a, Memory.wf s.mem = true → memByte u.mem a = if 0x1000000000 ≤ a then memByte s.mem a else 0) ∧
        u.fl.gen = s.fl.gen ∧ u.fl.secret = s.fl.secret ∧ u.fl.st = .boot ∧ u.fl.fram = s.fl.fram ∧
        u.fl.sealOpen = s.fl.sealOpen ∧ u.fl.pfail = s.fl.pfail ∧
        ((∀ k ∈ s.fl.commits, k.onPfail = false) ∨ c = .railFault true → u.fl.commits = []) ∧
        (∀ (a b : List FlCommit) (k : FlCommit), c ≠ .railFault true → s.fl.commits = a ++ k :: b → k.onPfail = true →
          (∀ x ∈ b, x.onPfail = false) →
          u.fl.commits = (a ++ [k]).map fun x => { record := x.record, slot := x.slot, seq := x.seq, onPfail := x.onPfail })) ∧
    (s.atReset = false → exec (.porstRelease env) s = .next s) ∧
    (s.pwr.st ≠ .standby ∨ s.pwr.wake = none → exec (.wake env) s = .next s) ∧
    (∀ (n : Nat) (f : State → Nat × State) (l : List (Nat × (State → Nat × State))) (r : Nat) (t : State),
      f (s.setFld SYS_BOOT_STAGE 0 n) = (r, t) →
      (r = rOK → s.bootStages env ((n, f) :: l) = t.bootStages env l) ∧
      (r ≠ rOK → r < 256 →
        (s.bootStages env ((n, f) :: l)).on SYS_BOOT_HALTED = true ∧
        (s.bootStages env ((n, f) :: l)).fld SYS_BOOT_RESULT = r ∧
        (s.bootStages env ((n, f) :: l)).fld SYS_BOOT_STAGE = t.fld SYS_BOOT_STAGE ∧
        (s.bootStages env ((n, f) :: l)).pwr = t.pwr)) ∧
    (s.bootStages env []).on SYS_BOOT_DONE = true ∧
    (s.atReset = true →
      ∃ u : State, exec (.porstRelease env) s = .next u ∧ u.resp = {} ∧
        (u.on SYS_BOOT_DONE = true ∨ u.on SYS_BOOT_HALTED = true)) ∧
    (∀ ch : Nat, s.pwr.st = .standby → s.pwr.wake = some ch → ch < 64 →
      ∃ u v : State, exec (.wake env) s = .next u ∧ u = v.strobe [23] ∧ v.pwr.st = .hold ∧ u.resp = {} ∧ u.pwr.wake = none ∧
        u.fld SYS_WAKESRC_CH = ch ∧ (u.on SYS_BOOT_DONE = true ∨ u.on SYS_BOOT_HALTED = true)) ∧
    (∀ a b c : Bool, s.atReset = true → memRead s.boot.flash 0 4 ≠ [0x5A, 0x46, 0x44, 0x31] → env.fails = [] →
      env.chip.length ≤ 2 → env.sel = [some a, some b, some c] → (∀ k < 48, s.on MEM_RPR_FAILED k = false) →
      Memory.wf s.mem = true →
      ∃ u : State, exec (.porstRelease env) s = .next u ∧ u.pwr.st = .hold ∧ u.pwr.booted = false ∧
        u.pwr.thermTrip = (s.pwr.thermTrip && !env.cool) ∧ u.on SYS_BOOT_HALTED = true ∧ u.fld SYS_BOOT_STAGE = 4 ∧
        u.fld SYS_BOOT_RESULT = rNOT_FOUND ∧ u.fld SYS_PROFILE_NUM = a.toNat + 2 * (b.toNat + 2 * c.toNat) ∧
        u.pairOk .SYS_PROFILE = true ∧ u.pending = s.pending ∧ u.boot.flash = s.boot.flash ∧
        (s.fl.commits = [] → u.fl = s.fl) ∧
        (∀ k : FlCommit, s.fl.commits = [k] →
          u.fl = { s.fl with commits := [], fram := memWrite s.fl.fram (128 * k.slot) k.record }) ∧
        (∀ x, 0x10000000 ≤ x → x < 0x13000000 → memByte u.mem x = 0) ∧
        (∀ x, 0x14000000 ≤ x → x < 0x14FFF000 → memByte u.mem x = 0) ∧
        memRead u.mem 0x14FFF000 4 = [0x5A, 0x42, 0x52, 0x31]) ∧
    (∀ (ch : Nat) (a b c : Bool), s.pwr.st = .standby → s.pwr.wake = some ch → ch < 64 →
      memRead s.boot.flash 0 4 ≠ [0x5A, 0x46, 0x44, 0x31] → env.fails = [] → env.chip.length ≤ 2 →
      env.sel = [some a, some b, some c] → (∀ k < 48, s.on MEM_RPR_FAILED k = false) → Memory.wf s.mem = true →
      ∃ u : State, exec (.wake env) s = .next u ∧ u.pwr.st = .hold ∧ u.pwr.wake = none ∧ u.pwr.warm = true ∧
        u.on SYS_BOOT_HALTED = true ∧ u.fld SYS_BOOT_STAGE = 4 ∧ u.fld SYS_WAKESRC_CH = ch ∧
        (u.reg .SYS_WAKECNT).toNat = min 0xFFFFFFFF ((s.reg .SYS_WAKECNT).toNat + 1) ∧
        u.times = s.times ∧ u.fl = s.fl ∧ (∀ e, (u.enc e).count = (s.enc e).count) ∧ u.boot.flash = s.boot.flash ∧
        u.fld MEM_WAKE_SB_SB = (((List.range 16).filter fun k => !s.retained k).map fun k => 2 ^ k).sum ∧
        (∀ x, 0x10000000 ≤ x → x < 0x13000000 →
          memByte u.mem x = if s.retained ((x - 0x10000000) / 0x300000) then memByte s.mem x else 0) ∧
        (∀ x, 0x14000000 ≤ x → x < 0x14FFF000 →
          memByte u.mem x = if s.retained (16 + (x - 0x14000000) / 32 % 32) then memByte s.mem x else 0))

/-- SELECT, SPLICE, CANCEL, PROFILE_STROBE, SPLICE_STAGED and SPLICE_SEQUENCER (R386, R392, R403–R409): a selection is taken in Hold,
checked, applied item by item up to the first failure within its command (logs 91 and 134, DEDUCED), and makes the profile valid; the
reply holds the failing check and engine, of check 5 too (log 91); a profile that is not there fails check 1; a splice is taken in Run
outside a drain (log 94, DEDUCED), staged, fixed to a line past the mark, in force with its number in SYS_PROFILE at tick S + D, and
complete at tick S + D + 2 (log 94); before tick S + D it can be cancelled and ends SUPERSEDED, and from then until its end no splice or
cancellation is taken; a failed pair of SYS_PROFILE ends it INTEGRITY; a strobe with the pins' number selects in Hold, splices in Run, is
counted where a request waits, and does nothing after a boot that halted (log 134). -/
def Obligations.ProfilesAndSplices : Prop :=
  ∀ (s : State) (sel : Fin 8),
    (s.live = false → exec .select s = .next s ∧ exec .splice s = .next s ∧ exec .cancel s = .next s ∧
      exec .spliceStaged s = .next s ∧ exec .spliceSequencer s = .next s ∧
      exec (.profileStrobe sel) s = .next { s with boot := { s.boot with sel := sel } }) ∧
    (s.live = true → (s.mbReq 0 1 = none → exec .select s = .next s) ∧ (s.mbReq 0 2 = none → exec .splice s = .next s) ∧
      (s.mbReq 0 3 = none → exec .cancel s = .next s)) ∧
    (∀ (ws : List Word) (r k e : Nat) (t : State), s.live = true →
      (s.mbReq 0 1 = some ws → s.profSelect (reqWord ws 1 % 8) = (r, k, e, t) →
        exec .select s = .next (t.mbAnswer 0 r [k, e, 0, 0])) ∧
      (s.mbReq 0 2 = some ws →
        s.profSplice (reqWord ws 1 % 8) (reqWord ws 2 + 2 ^ 32 * (reqWord ws 3 % 65536)) true = (r, k, e, t) →
        exec .splice s = .next (t.mbAnswer 0 r [k, e, 0, 0])) ∧
      (s.mbReq 0 3 = some ws → s.profCancel = (r, t) → exec .cancel s = .next (t.mbAnswer 0 r))) ∧
    (∀ n : Nat, n < 8 →
      (s.inHoldIdle = false → s.profSelect n = (rSTATE_REFUSED, 0, 0, s)) ∧
      (s.inHoldIdle = true → s.on SYS_PSTAT_BUSY = true → s.boot.splice = none → s.profSelect n = (rBUSY, 0, 0, s)) ∧
      (∀ r k : Nat, s.inHoldIdle = true → s.on SYS_PSTAT_BUSY = false → s.profCheck n false = (r, k, none) →
        ∃ u : State, s.profSelect n = (r, k, 0, u) ∧ (r < 256 → u.fld SYS_PSTAT_RESULT = r) ∧ u.fld SYS_PSTAT_PROF = n ∧
          u = { s with regs := u.regs, eths := u.eths } ∧ s.keeps u [(.SYS_PSTAT, 0)]) ∧
      (∀ (r k : Nat) (h : ProfHdr) (items : List ProfItem) (t : State), s.inHoldIdle = true → s.on SYS_PSTAT_BUSY = false →
        s.profCheck n false = (r, k, some (h, items)) → t = s.profApply n h items →
        s.profSelect n = (rOK, t.fld SYS_PSTAT_CHK, t.fld SYS_PSTAT_ENG, t)) ∧
      (s.pairOk .SYS_PROFILE = true → ∀ (h : ProfHdr) (items : List ProfItem) (x t : State) (r k e : Nat),
        x = (((s.pstat n rOK 0 0).setFld SYS_PSTAT_VALID 0 0).setFld SYS_PSTAT_SKIP 0 0) →
        (({ x with boot := { x.boot with prof := some h } } : State).budgets h false).itemsApply h false items = (r, k, e, t) →
        (r = rOK → (s.profApply n h items).on SYS_PSTAT_VALID = true ∧ (s.profApply n h items).fld SYS_PROFILE_NUM = n ∧
          (s.profApply n h items).pairOk .SYS_PROFILE = true ∧ (s.profApply n h items).fld SYS_PSTAT_RESULT = rOK) ∧
        (r ≠ rOK → r < 256 → k < 8 → e < 32 → (s.profApply n h items).fld SYS_PSTAT_RESULT = r ∧
          (s.profApply n h items).fld SYS_PSTAT_CHK = k ∧ (s.profApply n h items).fld SYS_PSTAT_ENG = e))) ∧
    (∀ (n : Nat) (splice : Bool), (profBytes s.boot.cfg n = none → s.profCheck n splice = (rNOT_FOUND, 1, none)) ∧
      (∀ b : List Byte, profBytes s.boot.cfg n = some b → (b.take 4 ≠ [0x5A, 0x50, 0x46, 0x31] ∨ (profHdr b).number ≠ n) →
        s.profCheck n splice = (rNOT_FOUND, 1, none))) ∧
    (∀ (h : ProfHdr) (sp : Bool) (i : ProfItem) (l : List ProfItem) (r k e : Nat) (t : State),
      s.itemApply h sp i = (r, k, e, t) →
      (r = rOK → s.itemsApply h sp (i :: l) = t.itemsApply h sp l) ∧
      (r ≠ rOK → s.itemsApply h sp (i :: l) = (r, k, e, t))) ∧
    (s.boot.splice = none →
      s.profCancel = (rSTATE_REFUSED, s) ∧ (s.live = true → exec .spliceStaged s = .next s ∧ exec .spliceSequencer s = .next s) ∧
      (∀ (n line : Nat) (mail : Bool),
        (s.inRun = false ∨ s.pwr.drain = true → s.profSplice n line mail = (rSTATE_REFUSED, 0, 0, s)) ∧
        (∀ (r k : Nat) (h : ProfHdr) (items : List ProfItem) (t : State), s.inRun = true → s.pwr.drain = false →
          s.profCheck n true = (r, k, some (h, items)) → t = s.profStage n line mail h items →
          s.profSplice n line mail = (rOK, t.fld SYS_PSTAT_CHK, t.fld SYS_PSTAT_ENG, t)) ∧
        (∀ r k : Nat, s.inRun = true → s.pwr.drain = false → n < 8 → s.profCheck n true = (r, k, none) →
          ∃ u : State, s.profSplice n line mail = (r, k, 0, u) ∧ (r < 256 → u.fld SYS_PSTAT_RESULT = r) ∧ u.fld SYS_PSTAT_PROF = n ∧
            u = { s with regs := u.regs, eths := u.eths } ∧ s.keeps u [(.SYS_PSTAT, 0)]) ∧
        (∀ (h : ProfHdr) (u : State), h.engines = 0 → n < 8 → u = s.profStage n line mail h [] →
          u.boot.splice = some { prof := h, items := [], line := line, old := s.fld SYS_PROFILE_NUM, mail := mail } ∧
          u.fld SYS_PSTAT_BUSY = 1 ∧ u.fld SYS_PSTAT_PROF = n ∧ u = { s with regs := u.regs, boot := u.boot } ∧
          s.keeps u [(.SYS_PSTAT, 0)]))) ∧
    (∀ sp : Splice, s.boot.splice = some sp →
      (sp.applied = false → s.inRun = true → (∀ line : Int, sp.s = some line → s.nowTick < line + s.depth) →
        ∃ u : State, s.profCancel = (rOK, u) ∧ u.fld SYS_PSTAT_PROF = sp.prof.number % 8 ∧ u.boot.splice = none ∧ u.fld SYS_PSTAT_RESULT = rSUPERSEDED ∧
          u.fld SYS_PSTAT_BUSY = 0 ∧ u.fld SYS_PSTAT_PEND = 0 ∧
          u = { s with regs := u.regs, engs := u.engs, eths := u.eths, boot := { s.boot with splice := none } } ∧
          s.keeps u [(.SYS_PSTAT, 0)]) ∧
      (sp.applied = false → s.inRun = false → s.profCancel = (rSTATE_REFUSED, s)) ∧
      (∀ (line : Int) (n k : Nat) (mail : Bool), sp.s = some line →
        (sp.applied = true ∨ line + s.depth ≤ s.nowTick → sp.applied = false ∨ s.nowTick < line + s.depth + 2 →
          s.profCancel = (rSTATE_REFUSED, s) ∧ s.profSplice n k mail = (rSTATE_REFUSED, 0, 0, s)) ∧
        (s.live = true → sp.applied = true → line + s.depth + 2 ≤ s.nowTick →
          ∃ u : State, exec .spliceSequencer s = .next u ∧ s.profCancel = (rSTATE_REFUSED, u))) ∧
      (s.live = true → sp.s = none → exec .spliceSequencer s = .next s) ∧
      (∀ line : Int, s.live = true → sp.s = none → line = (if sp.line = 0 then s.tick.hw + 16 else sp.line) →
        (s.inRun = false ∨ s.pwr.drain = true ∨ line ≤ s.tick.hw →
          ∃ u : State, exec .spliceStaged s = .next u ∧ u.boot.splice = none ∧ u.fld SYS_PSTAT_RESULT = rSTATE_REFUSED ∧
            u = { s with regs := u.regs, engs := u.engs, eths := u.eths, boot := { s.boot with splice := none } } ∧
            s.keeps u [(.SYS_PSTAT, 0)]) ∧
        (s.inRun = true → s.pwr.drain = false → s.tick.hw < line →
          ∃ u : State, exec .spliceStaged s = .next u ∧
            u.boot = { s.boot with splice := some { sp with s := some line }, lastS := ofSigned 48 line } ∧
            u.fld SYS_PSTAT_PEND = 1 ∧
            (∀ e, u.eng e = { s.eng e with
              spliceAt := if (s.eng e).staged.isSome then some line else (s.eng e).spliceAt }) ∧
            u = { s with regs := u.regs, engs := u.engs, boot := u.boot, mboxes := u.mboxes } ∧
            s.keeps u [(.SYS_PSTAT, 0), (.ETH_MB_RSP, 3), (.ETH_MB_RSP, 4)] ∧
            (sp.mail = false ∨ ((s.mbox 0).rsp = none ∧ s.on ETH_MB_CTL_DONE 0 = false) →
              u.mboxes = s.mboxes ∧ s.keeps u [(.SYS_PSTAT, 0)]))) ∧
      (∀ line : Int, s.live = true → sp.s = some line →
        exec .spliceStaged s = .next s ∧
        (sp.applied = false → s.nowTick < line + s.depth → exec .spliceSequencer s = .next s) ∧
        (sp.applied = false → line + s.depth ≤ s.nowTick → s.pairOk .SYS_PROFILE = false →
          ∃ u : State, exec .spliceSequencer s = .next u ∧ u.boot.splice = none ∧ u.fld SYS_PSTAT_RESULT = rINTEGRITY ∧
            u.fld SYS_PSTAT_BUSY = 0 ∧ u.fld SYS_PSTAT_PEND = 0) ∧
        (sp.applied = false → line + s.depth ≤ s.nowTick → s.pairOk .SYS_PROFILE = true → sp.prof.number < 8 →
          ∃ u : State, exec .spliceSequencer s = .next u ∧ u.fld SYS_PROFILE_NUM = sp.prof.number ∧
            u.pairOk .SYS_PROFILE = true ∧ u.fld SYS_PSTAT_PEND = 0 ∧ u.boot.prof = some sp.prof ∧
            u.boot.splice = some { sp with applied := true }) ∧
        (sp.applied = true → s.nowTick < line + s.depth + 2 → exec .spliceSequencer s = .next s) ∧
        (sp.applied = true → line + s.depth + 2 ≤ s.nowTick → sp.prof.number < 256 →
          ∃ u : State, exec .spliceSequencer s = .next u ∧ u.boot.splice = none ∧ u.fld SYS_PSTAT_RESULT = rOK ∧
            u.fld SYS_PSTAT_BUSY = 0 ∧ u.on SYS_PSTAT_VALID = true ∧
            u = { s with regs := u.regs, eths := u.eths, boot := { s.boot with splice := none } } ∧
            s.keeps u [(.SYS_PSTAT, 0)]))) ∧
    (∀ t : State, s.live = true → t = { s with boot := { s.boot with sel := sel } } →
      (s.on SYS_PCFG_STB_EN = false ∨ s.on SYS_BOOT_HALTED = true → exec (.profileStrobe sel) s = .next t) ∧
      (s.on SYS_PCFG_STB_EN = true → s.on SYS_BOOT_HALTED = false →
        ((s.mbox 0).req.isSome = true → (s.mbox 0).rsp = none →
          ∃ u : State, exec (.profileStrobe sel) s = .next u ∧
            (u.reg .SYS_PSTB_CNT).toNat = min 0xFFFF ((s.reg .SYS_PSTB_CNT).toNat + 1) ∧
            u = { s with regs := u.regs, boot := t.boot } ∧ s.keeps u [(.SYS_PSTB_CNT, 0)]) ∧
        ((s.mbox 0).req = none ∨ (s.mbox 0).rsp.isSome = true →
          (s.inRun = true → exec (.profileStrobe sel) s = .next (t.profSplice sel 0 false).2.2.2) ∧
          (s.inRun = false → exec (.profileStrobe sel) s = .next (t.profSelect sel).2.2.2))))

/-- The device right after reset (R7, R214, R232, R261, R330, R384, R392, R424, R426 and the registers' own headers): Hold with no command waiting,
no profile valid and memory empty; registers at the values of their headers; every access-table entry but the first of each table
0, the first one granting every access to the root core alone; no key, no secret, BLANK; the carriage disabled; the Flacon in BOOT; what no
rule gives a reset value, such as queues and run states, is empty or idle (log 38, DESIGN CHOICE). PORST_N leads from there into Off, and
what OffIsKept says every step keeps in Off holds then. -/
def Obligations.ResetState : Prop :=
  State.reset.pending = [] ∧ State.reset.mem = [] ∧ State.reset.pwr.st = .hold ∧ State.reset.view .SYS_PWRSTATE 0 = 1 ∧
  State.reset.on SYS_PSTAT_VALID = false ∧ State.reset.fld SYS_BOOT_STAGE = 1 ∧
  State.reset.reg .TICK_DEPTH 0 = 40 ∧ State.reset.reg .TICK_FIXPER 0 = 0x1388 ∧
  (∀ x < 2, State.reset.reg .TIME_GAIN x = 0x08000080) ∧ (∀ e < 2, State.reset.reg .ENC_OBS e = 0x002807D0) ∧
  (∀ l < 36, State.reset.reg .LANE_CTL l = 0x1042) ∧ (∀ c < 12, State.reset.reg .CAM_CTL c = 0x18E) ∧
  State.reset.reg .IU_LLIM 0 = 0x7FFF2000 ∧ State.reset.reg .REF_TILE 0 = 0x10001000 ∧
  State.reset.reg .SIL_LSTEP 0 = 47244 ∧ (∀ i < 128, State.reset.reg .SIL_W i = 0) ∧
  (∀ k < 4, State.reset.reg .RPT_MK_CTL k = 0x00FFFF90) ∧ State.reset.reg .SPAN_CTL 0 = 0 ∧
  (∀ p < 2, State.reset.reg .ETH_CTL p = 2) ∧ State.reset.reg .SIG_CTL 0 = 0x00200A00 ∧
  (∀ k < 16, State.reset.reg .SIG_K_CFG k = 0x00080100) ∧ State.reset.reg .MOT_CTL 0 = 0x40 ∧
  (∀ t < 45, State.reset.tableOk t) ∧
  (∀ t < 43, ∀ m < 48, ∀ p k, State.reset.permitted m t p p k = false) ∧
  (∀ t < 43, ∀ p < 2 ^ 31, ∀ k, State.reset.permitted 48 t p p k = true) ∧
  State.reset.lcState = 0 ∧ State.reset.sec.keys = [] ∧ State.reset.sec.secret = none ∧ State.reset.dbgLevel = 0 ∧
  (∀ k, 1 ≤ k → k ≤ 4 → State.reset.slotKey k = none) ∧
  State.reset.mot.st = .disabled ∧ State.reset.fl.st = .boot ∧ (∀ e, (State.reset.eng e).st = .empty) ∧
  (∀ k, (State.reset.dma k).st = .idle) ∧ State.reset.zsp.job = .noJob ∧ State.reset.zsp.sessions = [] ∧
  ∃ u : State, exec .offEntry State.reset = .next u ∧ u.pwr.st = .off ∧ u.pwr.drain = false ∧
    (∀ env, .porstRelease env ∉ u.pending) ∧ u.regs = [] ∧ u.mem = []

/-- Only the release of PORST_N leaves Off (R392): in Off, with no drain running and no release of PORST_N waiting, every step, whatever
command it takes, leaves the device in Off with neither, and changes nothing but the queue, the latch of THERMTRIP_N (R422), the
levels at the profile pins, and the commits that the Flacon still writes or loses there with the FRAM they are written to (R419; log 143,
DEDUCED). The premise on the drain holds in every state that entered Off through its own commands. -/
def Obligations.OffIsKept : Prop :=
  ∀ s t : State, s.pwr.st = .off → s.pwr.drain = false → (∀ env, .porstRelease env ∉ s.pending) → step s = .next t →
    t.pwr.st = .off ∧ t.pwr.drain = false ∧ (∀ env, .porstRelease env ∉ t.pending) ∧ t.pending = s.pending.tail ∧
    t = { s with
      pending := s.pending.tail, pwr := { s.pwr with thermTrip := t.pwr.thermTrip }
      boot := { s.boot with sel := t.boot.sel }
      fl := { s.fl with commits := t.fl.commits, fram := t.fl.fram } } ∧
    (t.fl = s.fl ∨ t.fl = { s.fl with commits := [] } ∨
      ∃ (c : FlCommit) (l : List FlCommit), s.fl.commits = c :: l ∧
        t.fl = { s.fl with commits := l, fram := memWrite s.fl.fram (128 * c.slot) c.record })
end

