-- ==== Sys2Proof/Laws/Store.lean ====
section
/-!
SUPPORT. Sys2Proof/Laws/Store.lean: reading after writing a table, reading after writing byte memory, and the canonical form
of byte memory, which every memory operation keeps.
-/
namespace Sys2Proof.Machine

/-! ### Tables -/

@[simp] theorem look_put_self {κ α : Type} [DecidableEq κ] (d v : α) (t : Tab κ α) (k : κ) :
    look d (put v t k) k = v := by
  induction t with
  | nil => simp [put, look]
  | cons e t ih => obtain ⟨k', v'⟩ := e; by_cases h : k' = k <;> simp [put, look, h, ih]

theorem look_put_ne {κ α : Type} [DecidableEq κ] (d v : α) (t : Tab κ α) {k k' : κ} (h : k' ≠ k) :
    look d (put v t k) k' = look d t k' := by
  induction t with
  | nil => simp [put, look, Ne.symm h]
  | cons e t ih =>
    obtain ⟨k'', v''⟩ := e
    by_cases h1 : k'' = k
    · subst h1; simp [put, look, Ne.symm h]
    · by_cases h2 : k'' = k'
      · subst h2; simp [put, look, h]
      · simp [put, look, h1, h2, ih]

theorem look_put {κ α : Type} [DecidableEq κ] (d v : α) (t : Tab κ α) (k k' : κ) :
    look d (put v t k) k' = if k' = k then v else look d t k' := by
  by_cases h : k' = k
  · subst h; simp
  · simp [h, look_put_ne d v t h]

@[simp] theorem look_upd_self {κ α : Type} [DecidableEq κ] (d : α) (f : α → α) (t : Tab κ α) (k : κ) :
    look d (upd d f t k) k = f (look d t k) := look_put_self ..

theorem look_upd_ne {κ α : Type} [DecidableEq κ] (d : α) (f : α → α) (t : Tab κ α) {k k' : κ} (h : k' ≠ k) :
    look d (upd d f t k) k' = look d t k' := look_put_ne _ _ _ h

theorem look_upd {κ α : Type} [DecidableEq κ] (d : α) (f : α → α) (t : Tab κ α) (k k' : κ) :
    look d (upd d f t k) k' = if k' = k then f (look d t k) else look d t k' := look_put ..

/-! ### Byte memory -/

/-- Every listed address lies above `a`, addresses rise strictly, and no listed byte is 0x00. -/
theorem Memory.wf_cons (a : Nat) (b : Byte) (t : Memory) :
    Memory.wf ((a, b) :: t) = true ↔ b ≠ 0 ∧ (∀ c ∈ t.head?, a < c.1) ∧ Memory.wf t = true := by
  cases t with
  | nil => simp [Memory.wf]
  | cons c t => obtain ⟨a', b'⟩ := c; simp [Memory.wf, and_assoc]

/-- Entries of a canonical memory lie above its first address. -/
theorem Memory.wf_rising {a : Nat} {b : Byte} {t : Memory} (h : Memory.wf ((a, b) :: t) = true) :
    ∀ c ∈ t, a < c.1 := by
  induction t generalizing a b with
  | nil => simp
  | cons c t ih =>
    obtain ⟨a', b'⟩ := c
    obtain ⟨_, h1, h2⟩ := (Memory.wf_cons ..).1 h
    have h3 : a < a' := by simpa using h1
    intro c hc
    rcases List.mem_cons.1 hc with rfl | hc
    · exact h3
    · exact Nat.lt_trans h3 (ih h2 c hc)

theorem Memory.wf_iff (m : Memory) :
    Memory.wf m = true ↔ m.Pairwise (fun c d => c.1 < d.1) ∧ ∀ c ∈ m, c.2 ≠ 0 := by
  induction m with
  | nil => simp [Memory.wf]
  | cons c t ih =>
    obtain ⟨a, b⟩ := c
    constructor
    · intro h
      obtain ⟨h0, _, h2⟩ := (Memory.wf_cons ..).1 h
      obtain ⟨h3, h4⟩ := ih.1 h2
      refine ⟨List.pairwise_cons.2 ⟨Memory.wf_rising h, h3⟩, ?_⟩
      intro c hc
      rcases List.mem_cons.1 hc with rfl | hc
      · exact h0
      · exact h4 c hc
    · rintro ⟨h1, h2⟩
      obtain ⟨h3, h4⟩ := List.pairwise_cons.1 h1
      refine (Memory.wf_cons ..).2 ⟨h2 (a, b) List.mem_cons_self, ?_, ih.2 ⟨h4, fun c hc => h2 c (List.mem_cons_of_mem _ hc)⟩⟩
      intro c hc
      exact h3 c (List.mem_of_mem_head? hc)

@[simp] theorem memByte_memPut_self (m : Memory) (a : Nat) (b : Byte) (h : Memory.wf m = true) :
    memByte (memPut m a b) a = b := by
  induction m with
  | nil =>
    unfold memPut
    split
    · next hb => subst hb; rfl
    · simp [memByte]
  | cons c t ih =>
    obtain ⟨a', b'⟩ := c
    have hr := Memory.wf_rising h
    have ht := ((Memory.wf_cons ..).1 h).2.2
    unfold memPut
    split
    · next h1 =>
      split
      · next hb => subst hb; simp [memByte, Nat.ne_of_gt h1, h1]
      · simp [memByte]
    · next h1 =>
      split
      · next h2 =>
        subst h2
        split
        · next hb =>
          subst hb
          cases t with
          | nil => rfl
          | cons c t =>
            obtain ⟨x, y⟩ := c
            have : a < x := hr (x, y) List.mem_cons_self
            simp [memByte, Nat.ne_of_gt this, this]
        · simp [memByte]
      · next h2 =>
        have h3 : a' < a := by omega
        simp [memByte, Nat.ne_of_lt h3, Nat.not_lt.2 (Nat.le_of_lt h3), ih ht]

theorem memByte_below {m : Memory} {a : Nat} (h : ∀ c ∈ m, a < c.1) : memByte m a = 0 := by
  cases m with
  | nil => rfl
  | cons c t =>
    obtain ⟨x, y⟩ := c
    have : a < x := h (x, y) List.mem_cons_self
    simp [memByte, Nat.ne_of_gt this, this]

theorem memByte_memPut_ne (m : Memory) {a a' : Nat} (b : Byte) (h : Memory.wf m = true) (ha : a' ≠ a) :
    memByte (memPut m a b) a' = memByte m a' := by
  induction m with
  | nil =>
    unfold memPut
    split
    · rfl
    · simp [memByte, Ne.symm ha]
  | cons c t ih =>
    obtain ⟨x, y⟩ := c
    have hr := Memory.wf_rising h
    have ht := ((Memory.wf_cons ..).1 h).2.2
    unfold memPut
    split
    · next h1 =>
      split
      · rfl
      · by_cases h2 : a' < a
        · have h3 : a' < x := Nat.lt_trans h2 h1
          simp [memByte, Ne.symm ha, h2, Nat.ne_of_gt h3, h3]
        · simp [memByte, Ne.symm ha, h2]
    · next h1 =>
      split
      · next h2 =>
        subst h2
        split
        · by_cases h3 : a' < a
          · rw [memByte_below (fun c hc => Nat.lt_trans h3 (hr c hc))]; simp [memByte, Ne.symm ha, h3]
          · simp [memByte, Ne.symm ha, h3]
        · simp [memByte, Ne.symm ha]
      · next h2 => simp [memByte, ih ht]

theorem memPut_wf {m : Memory} (h : Memory.wf m = true) (a : Nat) (b : Byte) : Memory.wf (memPut m a b) = true := by
  have key : ∀ m : Memory, Memory.wf m = true → Memory.wf (memPut m a b) = true ∧
      ∀ x, x < a → (∀ c ∈ m, x < c.1) → ∀ c ∈ memPut m a b, x < c.1 := by
    intro m
    induction m with
    | nil =>
      intro _
      unfold memPut
      split
      · simp [Memory.wf]
      · next hb =>
        refine ⟨(Memory.wf_cons ..).2 ⟨hb, by simp, rfl⟩, ?_⟩
        intro x hx _ c hc
        rcases List.mem_cons.1 hc with rfl | hc
        · exact hx
        · cases hc
    | cons c t ih =>
      intro h
      obtain ⟨x, y⟩ := c
      have hr := Memory.wf_rising h
      obtain ⟨hy, _, ht⟩ := (Memory.wf_cons ..).1 h
      unfold memPut
      split
      · next h1 =>
        split
        · exact ⟨h, fun _ _ hm => hm⟩
        · next hb =>
          refine ⟨(Memory.wf_cons ..).2 ⟨hb, by simpa using h1, h⟩, ?_⟩
          intro z hz hm c hc
          rcases List.mem_cons.1 hc with rfl | hc
          · exact hz
          · exact hm c hc
      · next h1 =>
        split
        · next h2 =>
          subst h2
          split
          · exact ⟨ht, fun z _ hm c hc => hm c (List.mem_cons_of_mem _ hc)⟩
          · next hb =>
            refine ⟨(Memory.wf_cons ..).2 ⟨hb, fun c hc => hr c (List.mem_of_mem_head? hc), ht⟩, ?_⟩
            intro z hz hm c hc
            rcases List.mem_cons.1 hc with rfl | hc
            · exact hz
            · exact hm c (List.mem_cons_of_mem _ hc)
        · next h2 =>
          obtain ⟨h3, h4⟩ := ih ht
          refine ⟨(Memory.wf_cons ..).2 ⟨hy, fun c hc => h4 x (by omega) hr c (List.mem_of_mem_head? hc), h3⟩, ?_⟩
          intro z hz hm c hc
          rcases List.mem_cons.1 hc with rfl | hc
          · exact hm _ List.mem_cons_self
          · exact h4 z hz (fun c hc => hm c (List.mem_cons_of_mem _ hc)) c hc
  exact (key m h).1

theorem memWrite_wf {m : Memory} (h : Memory.wf m = true) (a : Nat) (l : List Byte) :
    Memory.wf (memWrite m a l) = true := by
  induction l generalizing m a with
  | nil => exact h
  | cons b l ih => exact ih (memPut_wf h a b) (a + 1)

theorem filter_wf {m : Memory} (h : Memory.wf m = true) (p : Host.Cell → Bool) : Memory.wf (m.filter p) = true := by
  rw [Memory.wf_iff] at *
  exact ⟨h.1.filter p, fun c hc => h.2 c ((List.mem_filter.1 hc).1)⟩

theorem memClear_wf {m : Memory} (h : Memory.wf m = true) (lo hi : Nat) : Memory.wf (memClear m lo hi) = true :=
  filter_wf h _

theorem memPutNat_wf {m : Memory} (h : Memory.wf m = true) (a n v : Nat) : Memory.wf (memPutNat m a n v) = true :=
  memWrite_wf h _ _

/-- A write of consecutive bytes: inside, the byte written; outside, the byte that stood there. -/
theorem memByte_memWrite {m : Memory} (h : Memory.wf m = true) (a : Nat) (l : List Byte) (x : Nat) :
    memByte (memWrite m a l) x = if a ≤ x ∧ x < a + l.length then l.getD (x - a) 0 else memByte m x := by
  induction l generalizing m a with
  | nil => rw [if_neg (by simp only [List.length_nil]; omega)]; rfl
  | cons b l ih =>
    have e : memWrite m a (b :: l) = memWrite (memPut m a b) (a + 1) l := rfl
    rw [e, ih (memPut_wf h a b)]
    by_cases h1 : x = a
    · subst h1; rw [if_neg (by omega), memByte_memPut_self m x b h, if_pos (by simp)]; simp
    · rw [memByte_memPut_ne m b h h1]
      by_cases h2 : a + 1 ≤ x ∧ x < a + 1 + l.length
      · have h3 : a ≤ x ∧ x < a + (b :: l).length := by simp; omega
        obtain ⟨k, rfl⟩ : ∃ k, x = a + 1 + k := ⟨x - (a + 1), by omega⟩
        have e1 : a + 1 + k - (a + 1) = k := by omega
        have e2 : a + 1 + k - a = k + 1 := by omega
        rw [if_pos h2, if_pos h3, e1, e2]; rfl
      · have h3 : ¬(a ≤ x ∧ x < a + (b :: l).length) := by simp; omega
        rw [if_neg h2, if_neg h3]

/-! ### Square root -/

theorem isqrtFrom_spec (x : Nat) : ∀ k r, r * r ≤ x → x < (r + 2 ^ k) * (r + 2 ^ k) →
    isqrtFrom x k r * isqrtFrom x k r ≤ x ∧ x < (isqrtFrom x k r + 1) * (isqrtFrom x k r + 1)
  | 0, r, h, h' => ⟨h, h'⟩
  | k + 1, r, h, h' => by
    unfold isqrtFrom
    split
    · next hc =>
      refine isqrtFrom_spec x k _ hc ?_
      have : r + 2 ^ k + 2 ^ k = r + 2 ^ (k + 1) := by rw [Nat.pow_succ]; omega
      rwa [this]
    · next hc => exact isqrtFrom_spec x k r h (Nat.lt_of_not_le hc)

/-- The square of the root is at most x, and the square of the next number is greater. -/
theorem isqrt_spec (x : Nat) : isqrt x * isqrt x ≤ x ∧ x < (isqrt x + 1) * (isqrt x + 1) := by
  refine isqrtFrom_spec x _ 0 (Nat.zero_le x) ?_
  rw [Nat.zero_add, ← Nat.pow_add]
  have h : x < 2 ^ (x.log2 + 1) := Nat.lt_log2_self
  exact Nat.lt_of_lt_of_le h (Nat.pow_le_pow_right (by decide) (by omega))
end Sys2Proof.Machine
end

