-- ==== Sys2Proof/Laws/State.lean ====
section
/-!
SUPPORT. Sys2Proof/Laws/State.lean: what each shared update of the state leaves alone, field by field, and what it makes of
the field it changes.
-/
namespace Sys2Proof.Machine

@[simp] theorem State.setReg_pending (s : State) (r : Reg) (i : Nat) (v : Word) : (s.setReg r i v).pending = s.pending := rfl
@[simp] theorem State.setReg_resp (s : State) (r : Reg) (i : Nat) (v : Word) : (s.setReg r i v).resp = s.resp := rfl
@[simp] theorem State.setReg_pwr (s : State) (r : Reg) (i : Nat) (v : Word) : (s.setReg r i v).pwr = s.pwr := rfl
@[simp] theorem State.setReg_sec (s : State) (r : Reg) (i : Nat) (v : Word) : (s.setReg r i v).sec = s.sec := rfl
@[simp] theorem State.setReg_tick (s : State) (r : Reg) (i : Nat) (v : Word) : (s.setReg r i v).tick = s.tick := rfl
@[simp] theorem State.setReg_times (s : State) (r : Reg) (i : Nat) (v : Word) : (s.setReg r i v).times = s.times := rfl
@[simp] theorem State.setReg_encs (s : State) (r : Reg) (i : Nat) (v : Word) : (s.setReg r i v).encs = s.encs := rfl
@[simp] theorem State.setReg_pt (s : State) (r : Reg) (i : Nat) (v : Word) : (s.setReg r i v).pt = s.pt := rfl
@[simp] theorem State.setReg_evt (s : State) (r : Reg) (i : Nat) (v : Word) : (s.setReg r i v).evt = s.evt := rfl
@[simp] theorem State.setReg_lanes (s : State) (r : Reg) (i : Nat) (v : Word) : (s.setReg r i v).lanes = s.lanes := rfl
@[simp] theorem State.setReg_cams (s : State) (r : Reg) (i : Nat) (v : Word) : (s.setReg r i v).cams = s.cams := rfl
@[simp] theorem State.setReg_ius (s : State) (r : Reg) (i : Nat) (v : Word) : (s.setReg r i v).ius = s.ius := rfl
@[simp] theorem State.setReg_lamp (s : State) (r : Reg) (i : Nat) (v : Word) : (s.setReg r i v).lamp = s.lamp := rfl
@[simp] theorem State.setReg_engs (s : State) (r : Reg) (i : Nat) (v : Word) : (s.setReg r i v).engs = s.engs := rfl
@[simp] theorem State.setReg_accord (s : State) (r : Reg) (i : Nat) (v : Word) : (s.setReg r i v).accord = s.accord := rfl
@[simp] theorem State.setReg_ref (s : State) (r : Reg) (i : Nat) (v : Word) : (s.setReg r i v).ref = s.ref := rfl
@[simp] theorem State.setReg_sil (s : State) (r : Reg) (i : Nat) (v : Word) : (s.setReg r i v).sil = s.sil := rfl
@[simp] theorem State.setReg_rpt (s : State) (r : Reg) (i : Nat) (v : Word) : (s.setReg r i v).rpt = s.rpt := rfl
@[simp] theorem State.setReg_span (s : State) (r : Reg) (i : Nat) (v : Word) : (s.setReg r i v).span = s.span := rfl
@[simp] theorem State.setReg_spanPorts (s : State) (r : Reg) (i : Nat) (v : Word) : (s.setReg r i v).spanPorts = s.spanPorts := rfl
@[simp] theorem State.setReg_mem (s : State) (r : Reg) (i : Nat) (v : Word) : (s.setReg r i v).mem = s.mem := rfl
@[simp] theorem State.setReg_blt (s : State) (r : Reg) (i : Nat) (v : Word) : (s.setReg r i v).blt = s.blt := rfl
@[simp] theorem State.setReg_meet (s : State) (r : Reg) (i : Nat) (v : Word) : (s.setReg r i v).meet = s.meet := rfl
@[simp] theorem State.setReg_l2 (s : State) (r : Reg) (i : Nat) (v : Word) : (s.setReg r i v).l2 = s.l2 := rfl
@[simp] theorem State.setReg_hwHeld (s : State) (r : Reg) (i : Nat) (v : Word) : (s.setReg r i v).hwHeld = s.hwHeld := rfl
@[simp] theorem State.setReg_cxl (s : State) (r : Reg) (i : Nat) (v : Word) : (s.setReg r i v).cxl = s.cxl := rfl
@[simp] theorem State.setReg_dmas (s : State) (r : Reg) (i : Nat) (v : Word) : (s.setReg r i v).dmas = s.dmas := rfl
@[simp] theorem State.setReg_cmp (s : State) (r : Reg) (i : Nat) (v : Word) : (s.setReg r i v).cmp = s.cmp := rfl
@[simp] theorem State.setReg_eths (s : State) (r : Reg) (i : Nat) (v : Word) : (s.setReg r i v).eths = s.eths := rfl
@[simp] theorem State.setReg_mboxes (s : State) (r : Reg) (i : Nat) (v : Word) : (s.setReg r i v).mboxes = s.mboxes := rfl
@[simp] theorem State.setReg_zsp (s : State) (r : Reg) (i : Nat) (v : Word) : (s.setReg r i v).zsp = s.zsp := rfl
@[simp] theorem State.setReg_sigs (s : State) (r : Reg) (i : Nat) (v : Word) : (s.setReg r i v).sigs = s.sigs := rfl
@[simp] theorem State.setReg_mot (s : State) (r : Reg) (i : Nat) (v : Word) : (s.setReg r i v).mot = s.mot := rfl
@[simp] theorem State.setReg_fl (s : State) (r : Reg) (i : Nat) (v : Word) : (s.setReg r i v).fl = s.fl := rfl
@[simp] theorem State.setReg_boot (s : State) (r : Reg) (i : Nat) (v : Word) : (s.setReg r i v).boot = s.boot := rfl
@[simp] theorem State.setReg_freeCtr (s : State) (r : Reg) (i : Nat) (v : Word) : (s.setReg r i v).freeCtr = s.freeCtr := rfl

@[simp] theorem State.setFld_pending (s : State) (f : Fld) (i v : Nat) : (s.setFld f i v).pending = s.pending := rfl
@[simp] theorem State.setFld_resp (s : State) (f : Fld) (i v : Nat) : (s.setFld f i v).resp = s.resp := rfl
@[simp] theorem State.setFld_pwr (s : State) (f : Fld) (i v : Nat) : (s.setFld f i v).pwr = s.pwr := rfl
@[simp] theorem State.setFld_sec (s : State) (f : Fld) (i v : Nat) : (s.setFld f i v).sec = s.sec := rfl
@[simp] theorem State.setFld_tick (s : State) (f : Fld) (i v : Nat) : (s.setFld f i v).tick = s.tick := rfl
@[simp] theorem State.setFld_times (s : State) (f : Fld) (i v : Nat) : (s.setFld f i v).times = s.times := rfl
@[simp] theorem State.setFld_encs (s : State) (f : Fld) (i v : Nat) : (s.setFld f i v).encs = s.encs := rfl
@[simp] theorem State.setFld_pt (s : State) (f : Fld) (i v : Nat) : (s.setFld f i v).pt = s.pt := rfl
@[simp] theorem State.setFld_evt (s : State) (f : Fld) (i v : Nat) : (s.setFld f i v).evt = s.evt := rfl
@[simp] theorem State.setFld_lanes (s : State) (f : Fld) (i v : Nat) : (s.setFld f i v).lanes = s.lanes := rfl
@[simp] theorem State.setFld_cams (s : State) (f : Fld) (i v : Nat) : (s.setFld f i v).cams = s.cams := rfl
@[simp] theorem State.setFld_ius (s : State) (f : Fld) (i v : Nat) : (s.setFld f i v).ius = s.ius := rfl
@[simp] theorem State.setFld_lamp (s : State) (f : Fld) (i v : Nat) : (s.setFld f i v).lamp = s.lamp := rfl
@[simp] theorem State.setFld_engs (s : State) (f : Fld) (i v : Nat) : (s.setFld f i v).engs = s.engs := rfl
@[simp] theorem State.setFld_accord (s : State) (f : Fld) (i v : Nat) : (s.setFld f i v).accord = s.accord := rfl
@[simp] theorem State.setFld_ref (s : State) (f : Fld) (i v : Nat) : (s.setFld f i v).ref = s.ref := rfl
@[simp] theorem State.setFld_sil (s : State) (f : Fld) (i v : Nat) : (s.setFld f i v).sil = s.sil := rfl
@[simp] theorem State.setFld_rpt (s : State) (f : Fld) (i v : Nat) : (s.setFld f i v).rpt = s.rpt := rfl
@[simp] theorem State.setFld_span (s : State) (f : Fld) (i v : Nat) : (s.setFld f i v).span = s.span := rfl
@[simp] theorem State.setFld_spanPorts (s : State) (f : Fld) (i v : Nat) : (s.setFld f i v).spanPorts = s.spanPorts := rfl
@[simp] theorem State.setFld_mem (s : State) (f : Fld) (i v : Nat) : (s.setFld f i v).mem = s.mem := rfl
@[simp] theorem State.setFld_blt (s : State) (f : Fld) (i v : Nat) : (s.setFld f i v).blt = s.blt := rfl
@[simp] theorem State.setFld_meet (s : State) (f : Fld) (i v : Nat) : (s.setFld f i v).meet = s.meet := rfl
@[simp] theorem State.setFld_l2 (s : State) (f : Fld) (i v : Nat) : (s.setFld f i v).l2 = s.l2 := rfl
@[simp] theorem State.setFld_hwHeld (s : State) (f : Fld) (i v : Nat) : (s.setFld f i v).hwHeld = s.hwHeld := rfl
@[simp] theorem State.setFld_cxl (s : State) (f : Fld) (i v : Nat) : (s.setFld f i v).cxl = s.cxl := rfl
@[simp] theorem State.setFld_dmas (s : State) (f : Fld) (i v : Nat) : (s.setFld f i v).dmas = s.dmas := rfl
@[simp] theorem State.setFld_cmp (s : State) (f : Fld) (i v : Nat) : (s.setFld f i v).cmp = s.cmp := rfl
@[simp] theorem State.setFld_eths (s : State) (f : Fld) (i v : Nat) : (s.setFld f i v).eths = s.eths := rfl
@[simp] theorem State.setFld_mboxes (s : State) (f : Fld) (i v : Nat) : (s.setFld f i v).mboxes = s.mboxes := rfl
@[simp] theorem State.setFld_zsp (s : State) (f : Fld) (i v : Nat) : (s.setFld f i v).zsp = s.zsp := rfl
@[simp] theorem State.setFld_sigs (s : State) (f : Fld) (i v : Nat) : (s.setFld f i v).sigs = s.sigs := rfl
@[simp] theorem State.setFld_mot (s : State) (f : Fld) (i v : Nat) : (s.setFld f i v).mot = s.mot := rfl
@[simp] theorem State.setFld_fl (s : State) (f : Fld) (i v : Nat) : (s.setFld f i v).fl = s.fl := rfl
@[simp] theorem State.setFld_boot (s : State) (f : Fld) (i v : Nat) : (s.setFld f i v).boot = s.boot := rfl
@[simp] theorem State.setFld_freeCtr (s : State) (f : Fld) (i v : Nat) : (s.setFld f i v).freeCtr = s.freeCtr := rfl

@[simp] theorem State.setWide_pending (s : State) (lo hi : Reg) (i v : Nat) : (s.setWide lo hi i v).pending = s.pending := rfl
@[simp] theorem State.setWide_resp (s : State) (lo hi : Reg) (i v : Nat) : (s.setWide lo hi i v).resp = s.resp := rfl
@[simp] theorem State.setWide_pwr (s : State) (lo hi : Reg) (i v : Nat) : (s.setWide lo hi i v).pwr = s.pwr := rfl
@[simp] theorem State.setWide_sec (s : State) (lo hi : Reg) (i v : Nat) : (s.setWide lo hi i v).sec = s.sec := rfl
@[simp] theorem State.setWide_tick (s : State) (lo hi : Reg) (i v : Nat) : (s.setWide lo hi i v).tick = s.tick := rfl
@[simp] theorem State.setWide_times (s : State) (lo hi : Reg) (i v : Nat) : (s.setWide lo hi i v).times = s.times := rfl
@[simp] theorem State.setWide_encs (s : State) (lo hi : Reg) (i v : Nat) : (s.setWide lo hi i v).encs = s.encs := rfl
@[simp] theorem State.setWide_pt (s : State) (lo hi : Reg) (i v : Nat) : (s.setWide lo hi i v).pt = s.pt := rfl
@[simp] theorem State.setWide_evt (s : State) (lo hi : Reg) (i v : Nat) : (s.setWide lo hi i v).evt = s.evt := rfl
@[simp] theorem State.setWide_lanes (s : State) (lo hi : Reg) (i v : Nat) : (s.setWide lo hi i v).lanes = s.lanes := rfl
@[simp] theorem State.setWide_cams (s : State) (lo hi : Reg) (i v : Nat) : (s.setWide lo hi i v).cams = s.cams := rfl
@[simp] theorem State.setWide_ius (s : State) (lo hi : Reg) (i v : Nat) : (s.setWide lo hi i v).ius = s.ius := rfl
@[simp] theorem State.setWide_lamp (s : State) (lo hi : Reg) (i v : Nat) : (s.setWide lo hi i v).lamp = s.lamp := rfl
@[simp] theorem State.setWide_engs (s : State) (lo hi : Reg) (i v : Nat) : (s.setWide lo hi i v).engs = s.engs := rfl
@[simp] theorem State.setWide_accord (s : State) (lo hi : Reg) (i v : Nat) : (s.setWide lo hi i v).accord = s.accord := rfl
@[simp] theorem State.setWide_ref (s : State) (lo hi : Reg) (i v : Nat) : (s.setWide lo hi i v).ref = s.ref := rfl
@[simp] theorem State.setWide_sil (s : State) (lo hi : Reg) (i v : Nat) : (s.setWide lo hi i v).sil = s.sil := rfl
@[simp] theorem State.setWide_rpt (s : State) (lo hi : Reg) (i v : Nat) : (s.setWide lo hi i v).rpt = s.rpt := rfl
@[simp] theorem State.setWide_span (s : State) (lo hi : Reg) (i v : Nat) : (s.setWide lo hi i v).span = s.span := rfl
@[simp] theorem State.setWide_spanPorts (s : State) (lo hi : Reg) (i v : Nat) : (s.setWide lo hi i v).spanPorts = s.spanPorts := rfl
@[simp] theorem State.setWide_mem (s : State) (lo hi : Reg) (i v : Nat) : (s.setWide lo hi i v).mem = s.mem := rfl
@[simp] theorem State.setWide_blt (s : State) (lo hi : Reg) (i v : Nat) : (s.setWide lo hi i v).blt = s.blt := rfl
@[simp] theorem State.setWide_meet (s : State) (lo hi : Reg) (i v : Nat) : (s.setWide lo hi i v).meet = s.meet := rfl
@[simp] theorem State.setWide_l2 (s : State) (lo hi : Reg) (i v : Nat) : (s.setWide lo hi i v).l2 = s.l2 := rfl
@[simp] theorem State.setWide_hwHeld (s : State) (lo hi : Reg) (i v : Nat) : (s.setWide lo hi i v).hwHeld = s.hwHeld := rfl
@[simp] theorem State.setWide_cxl (s : State) (lo hi : Reg) (i v : Nat) : (s.setWide lo hi i v).cxl = s.cxl := rfl
@[simp] theorem State.setWide_dmas (s : State) (lo hi : Reg) (i v : Nat) : (s.setWide lo hi i v).dmas = s.dmas := rfl
@[simp] theorem State.setWide_cmp (s : State) (lo hi : Reg) (i v : Nat) : (s.setWide lo hi i v).cmp = s.cmp := rfl
@[simp] theorem State.setWide_eths (s : State) (lo hi : Reg) (i v : Nat) : (s.setWide lo hi i v).eths = s.eths := rfl
@[simp] theorem State.setWide_mboxes (s : State) (lo hi : Reg) (i v : Nat) : (s.setWide lo hi i v).mboxes = s.mboxes := rfl
@[simp] theorem State.setWide_zsp (s : State) (lo hi : Reg) (i v : Nat) : (s.setWide lo hi i v).zsp = s.zsp := rfl
@[simp] theorem State.setWide_sigs (s : State) (lo hi : Reg) (i v : Nat) : (s.setWide lo hi i v).sigs = s.sigs := rfl
@[simp] theorem State.setWide_mot (s : State) (lo hi : Reg) (i v : Nat) : (s.setWide lo hi i v).mot = s.mot := rfl
@[simp] theorem State.setWide_fl (s : State) (lo hi : Reg) (i v : Nat) : (s.setWide lo hi i v).fl = s.fl := rfl
@[simp] theorem State.setWide_boot (s : State) (lo hi : Reg) (i v : Nat) : (s.setWide lo hi i v).boot = s.boot := rfl
@[simp] theorem State.setWide_freeCtr (s : State) (lo hi : Reg) (i v : Nat) : (s.setWide lo hi i v).freeCtr = s.freeCtr := rfl

@[simp] theorem State.count_pending (s : State) (r : Reg) (i n top : Nat) : (s.count r i n top).pending = s.pending := rfl
@[simp] theorem State.count_resp (s : State) (r : Reg) (i n top : Nat) : (s.count r i n top).resp = s.resp := rfl
@[simp] theorem State.count_pwr (s : State) (r : Reg) (i n top : Nat) : (s.count r i n top).pwr = s.pwr := rfl
@[simp] theorem State.count_sec (s : State) (r : Reg) (i n top : Nat) : (s.count r i n top).sec = s.sec := rfl
@[simp] theorem State.count_tick (s : State) (r : Reg) (i n top : Nat) : (s.count r i n top).tick = s.tick := rfl
@[simp] theorem State.count_times (s : State) (r : Reg) (i n top : Nat) : (s.count r i n top).times = s.times := rfl
@[simp] theorem State.count_encs (s : State) (r : Reg) (i n top : Nat) : (s.count r i n top).encs = s.encs := rfl
@[simp] theorem State.count_pt (s : State) (r : Reg) (i n top : Nat) : (s.count r i n top).pt = s.pt := rfl
@[simp] theorem State.count_evt (s : State) (r : Reg) (i n top : Nat) : (s.count r i n top).evt = s.evt := rfl
@[simp] theorem State.count_lanes (s : State) (r : Reg) (i n top : Nat) : (s.count r i n top).lanes = s.lanes := rfl
@[simp] theorem State.count_cams (s : State) (r : Reg) (i n top : Nat) : (s.count r i n top).cams = s.cams := rfl
@[simp] theorem State.count_ius (s : State) (r : Reg) (i n top : Nat) : (s.count r i n top).ius = s.ius := rfl
@[simp] theorem State.count_lamp (s : State) (r : Reg) (i n top : Nat) : (s.count r i n top).lamp = s.lamp := rfl
@[simp] theorem State.count_engs (s : State) (r : Reg) (i n top : Nat) : (s.count r i n top).engs = s.engs := rfl
@[simp] theorem State.count_accord (s : State) (r : Reg) (i n top : Nat) : (s.count r i n top).accord = s.accord := rfl
@[simp] theorem State.count_ref (s : State) (r : Reg) (i n top : Nat) : (s.count r i n top).ref = s.ref := rfl
@[simp] theorem State.count_sil (s : State) (r : Reg) (i n top : Nat) : (s.count r i n top).sil = s.sil := rfl
@[simp] theorem State.count_rpt (s : State) (r : Reg) (i n top : Nat) : (s.count r i n top).rpt = s.rpt := rfl
@[simp] theorem State.count_span (s : State) (r : Reg) (i n top : Nat) : (s.count r i n top).span = s.span := rfl
@[simp] theorem State.count_spanPorts (s : State) (r : Reg) (i n top : Nat) : (s.count r i n top).spanPorts = s.spanPorts := rfl
@[simp] theorem State.count_mem (s : State) (r : Reg) (i n top : Nat) : (s.count r i n top).mem = s.mem := rfl
@[simp] theorem State.count_blt (s : State) (r : Reg) (i n top : Nat) : (s.count r i n top).blt = s.blt := rfl
@[simp] theorem State.count_meet (s : State) (r : Reg) (i n top : Nat) : (s.count r i n top).meet = s.meet := rfl
@[simp] theorem State.count_l2 (s : State) (r : Reg) (i n top : Nat) : (s.count r i n top).l2 = s.l2 := rfl
@[simp] theorem State.count_hwHeld (s : State) (r : Reg) (i n top : Nat) : (s.count r i n top).hwHeld = s.hwHeld := rfl
@[simp] theorem State.count_cxl (s : State) (r : Reg) (i n top : Nat) : (s.count r i n top).cxl = s.cxl := rfl
@[simp] theorem State.count_dmas (s : State) (r : Reg) (i n top : Nat) : (s.count r i n top).dmas = s.dmas := rfl
@[simp] theorem State.count_cmp (s : State) (r : Reg) (i n top : Nat) : (s.count r i n top).cmp = s.cmp := rfl
@[simp] theorem State.count_eths (s : State) (r : Reg) (i n top : Nat) : (s.count r i n top).eths = s.eths := rfl
@[simp] theorem State.count_mboxes (s : State) (r : Reg) (i n top : Nat) : (s.count r i n top).mboxes = s.mboxes := rfl
@[simp] theorem State.count_zsp (s : State) (r : Reg) (i n top : Nat) : (s.count r i n top).zsp = s.zsp := rfl
@[simp] theorem State.count_sigs (s : State) (r : Reg) (i n top : Nat) : (s.count r i n top).sigs = s.sigs := rfl
@[simp] theorem State.count_mot (s : State) (r : Reg) (i n top : Nat) : (s.count r i n top).mot = s.mot := rfl
@[simp] theorem State.count_fl (s : State) (r : Reg) (i n top : Nat) : (s.count r i n top).fl = s.fl := rfl
@[simp] theorem State.count_boot (s : State) (r : Reg) (i n top : Nat) : (s.count r i n top).boot = s.boot := rfl
@[simp] theorem State.count_freeCtr (s : State) (r : Reg) (i n top : Nat) : (s.count r i n top).freeCtr = s.freeCtr := rfl

@[simp] theorem State.raise_pending (s : State) (f : Flag) (i : Nat) : (s.raise f i).pending = s.pending := rfl
@[simp] theorem State.raise_resp (s : State) (f : Flag) (i : Nat) : (s.raise f i).resp = s.resp := rfl
@[simp] theorem State.raise_pwr (s : State) (f : Flag) (i : Nat) : (s.raise f i).pwr = s.pwr := rfl
@[simp] theorem State.raise_sec (s : State) (f : Flag) (i : Nat) : (s.raise f i).sec = s.sec := rfl
@[simp] theorem State.raise_tick (s : State) (f : Flag) (i : Nat) : (s.raise f i).tick = s.tick := rfl
@[simp] theorem State.raise_times (s : State) (f : Flag) (i : Nat) : (s.raise f i).times = s.times := rfl
@[simp] theorem State.raise_encs (s : State) (f : Flag) (i : Nat) : (s.raise f i).encs = s.encs := rfl
@[simp] theorem State.raise_pt (s : State) (f : Flag) (i : Nat) : (s.raise f i).pt = s.pt := rfl
@[simp] theorem State.raise_evt (s : State) (f : Flag) (i : Nat) : (s.raise f i).evt = s.evt := rfl
@[simp] theorem State.raise_lanes (s : State) (f : Flag) (i : Nat) : (s.raise f i).lanes = s.lanes := rfl
@[simp] theorem State.raise_cams (s : State) (f : Flag) (i : Nat) : (s.raise f i).cams = s.cams := rfl
@[simp] theorem State.raise_ius (s : State) (f : Flag) (i : Nat) : (s.raise f i).ius = s.ius := rfl
@[simp] theorem State.raise_lamp (s : State) (f : Flag) (i : Nat) : (s.raise f i).lamp = s.lamp := rfl
@[simp] theorem State.raise_engs (s : State) (f : Flag) (i : Nat) : (s.raise f i).engs = s.engs := rfl
@[simp] theorem State.raise_accord (s : State) (f : Flag) (i : Nat) : (s.raise f i).accord = s.accord := rfl
@[simp] theorem State.raise_ref (s : State) (f : Flag) (i : Nat) : (s.raise f i).ref = s.ref := rfl
@[simp] theorem State.raise_sil (s : State) (f : Flag) (i : Nat) : (s.raise f i).sil = s.sil := rfl
@[simp] theorem State.raise_rpt (s : State) (f : Flag) (i : Nat) : (s.raise f i).rpt = s.rpt := rfl
@[simp] theorem State.raise_span (s : State) (f : Flag) (i : Nat) : (s.raise f i).span = s.span := rfl
@[simp] theorem State.raise_spanPorts (s : State) (f : Flag) (i : Nat) : (s.raise f i).spanPorts = s.spanPorts := rfl
@[simp] theorem State.raise_mem (s : State) (f : Flag) (i : Nat) : (s.raise f i).mem = s.mem := rfl
@[simp] theorem State.raise_blt (s : State) (f : Flag) (i : Nat) : (s.raise f i).blt = s.blt := rfl
@[simp] theorem State.raise_meet (s : State) (f : Flag) (i : Nat) : (s.raise f i).meet = s.meet := rfl
@[simp] theorem State.raise_l2 (s : State) (f : Flag) (i : Nat) : (s.raise f i).l2 = s.l2 := rfl
@[simp] theorem State.raise_hwHeld (s : State) (f : Flag) (i : Nat) : (s.raise f i).hwHeld = s.hwHeld := rfl
@[simp] theorem State.raise_cxl (s : State) (f : Flag) (i : Nat) : (s.raise f i).cxl = s.cxl := rfl
@[simp] theorem State.raise_dmas (s : State) (f : Flag) (i : Nat) : (s.raise f i).dmas = s.dmas := rfl
@[simp] theorem State.raise_cmp (s : State) (f : Flag) (i : Nat) : (s.raise f i).cmp = s.cmp := rfl
@[simp] theorem State.raise_eths (s : State) (f : Flag) (i : Nat) : (s.raise f i).eths = s.eths := rfl
@[simp] theorem State.raise_mboxes (s : State) (f : Flag) (i : Nat) : (s.raise f i).mboxes = s.mboxes := rfl
@[simp] theorem State.raise_zsp (s : State) (f : Flag) (i : Nat) : (s.raise f i).zsp = s.zsp := rfl
@[simp] theorem State.raise_sigs (s : State) (f : Flag) (i : Nat) : (s.raise f i).sigs = s.sigs := rfl
@[simp] theorem State.raise_mot (s : State) (f : Flag) (i : Nat) : (s.raise f i).mot = s.mot := rfl
@[simp] theorem State.raise_fl (s : State) (f : Flag) (i : Nat) : (s.raise f i).fl = s.fl := rfl
@[simp] theorem State.raise_boot (s : State) (f : Flag) (i : Nat) : (s.raise f i).boot = s.boot := rfl
@[simp] theorem State.raise_freeCtr (s : State) (f : Flag) (i : Nat) : (s.raise f i).freeCtr = s.freeCtr := rfl

@[simp] theorem State.answered_pending (s : State) : (s.answered).pending = s.pending := rfl
@[simp] theorem State.answered_regs (s : State) : (s.answered).regs = s.regs := rfl
@[simp] theorem State.answered_pwr (s : State) : (s.answered).pwr = s.pwr := rfl
@[simp] theorem State.answered_sec (s : State) : (s.answered).sec = s.sec := rfl
@[simp] theorem State.answered_tick (s : State) : (s.answered).tick = s.tick := rfl
@[simp] theorem State.answered_times (s : State) : (s.answered).times = s.times := rfl
@[simp] theorem State.answered_encs (s : State) : (s.answered).encs = s.encs := rfl
@[simp] theorem State.answered_pt (s : State) : (s.answered).pt = s.pt := rfl
@[simp] theorem State.answered_evt (s : State) : (s.answered).evt = s.evt := rfl
@[simp] theorem State.answered_lanes (s : State) : (s.answered).lanes = s.lanes := rfl
@[simp] theorem State.answered_cams (s : State) : (s.answered).cams = s.cams := rfl
@[simp] theorem State.answered_ius (s : State) : (s.answered).ius = s.ius := rfl
@[simp] theorem State.answered_lamp (s : State) : (s.answered).lamp = s.lamp := rfl
@[simp] theorem State.answered_engs (s : State) : (s.answered).engs = s.engs := rfl
@[simp] theorem State.answered_accord (s : State) : (s.answered).accord = s.accord := rfl
@[simp] theorem State.answered_ref (s : State) : (s.answered).ref = s.ref := rfl
@[simp] theorem State.answered_sil (s : State) : (s.answered).sil = s.sil := rfl
@[simp] theorem State.answered_rpt (s : State) : (s.answered).rpt = s.rpt := rfl
@[simp] theorem State.answered_span (s : State) : (s.answered).span = s.span := rfl
@[simp] theorem State.answered_spanPorts (s : State) : (s.answered).spanPorts = s.spanPorts := rfl
@[simp] theorem State.answered_mem (s : State) : (s.answered).mem = s.mem := rfl
@[simp] theorem State.answered_blt (s : State) : (s.answered).blt = s.blt := rfl
@[simp] theorem State.answered_meet (s : State) : (s.answered).meet = s.meet := rfl
@[simp] theorem State.answered_l2 (s : State) : (s.answered).l2 = s.l2 := rfl
@[simp] theorem State.answered_hwHeld (s : State) : (s.answered).hwHeld = s.hwHeld := rfl
@[simp] theorem State.answered_cxl (s : State) : (s.answered).cxl = s.cxl := rfl
@[simp] theorem State.answered_dmas (s : State) : (s.answered).dmas = s.dmas := rfl
@[simp] theorem State.answered_cmp (s : State) : (s.answered).cmp = s.cmp := rfl
@[simp] theorem State.answered_eths (s : State) : (s.answered).eths = s.eths := rfl
@[simp] theorem State.answered_mboxes (s : State) : (s.answered).mboxes = s.mboxes := rfl
@[simp] theorem State.answered_zsp (s : State) : (s.answered).zsp = s.zsp := rfl
@[simp] theorem State.answered_sigs (s : State) : (s.answered).sigs = s.sigs := rfl
@[simp] theorem State.answered_mot (s : State) : (s.answered).mot = s.mot := rfl
@[simp] theorem State.answered_fl (s : State) : (s.answered).fl = s.fl := rfl
@[simp] theorem State.answered_boot (s : State) : (s.answered).boot = s.boot := rfl
@[simp] theorem State.answered_freeCtr (s : State) : (s.answered).freeCtr = s.freeCtr := rfl

@[simp] theorem State.drawn_pending (s : State) : (s.drawn).pending = s.pending := rfl
@[simp] theorem State.drawn_regs (s : State) : (s.drawn).regs = s.regs := rfl
@[simp] theorem State.drawn_resp (s : State) : (s.drawn).resp = s.resp := rfl
@[simp] theorem State.drawn_pwr (s : State) : (s.drawn).pwr = s.pwr := rfl
@[simp] theorem State.drawn_sec (s : State) : (s.drawn).sec = s.sec := rfl
@[simp] theorem State.drawn_tick (s : State) : (s.drawn).tick = s.tick := rfl
@[simp] theorem State.drawn_times (s : State) : (s.drawn).times = s.times := rfl
@[simp] theorem State.drawn_encs (s : State) : (s.drawn).encs = s.encs := rfl
@[simp] theorem State.drawn_pt (s : State) : (s.drawn).pt = s.pt := rfl
@[simp] theorem State.drawn_evt (s : State) : (s.drawn).evt = s.evt := rfl
@[simp] theorem State.drawn_lanes (s : State) : (s.drawn).lanes = s.lanes := rfl
@[simp] theorem State.drawn_cams (s : State) : (s.drawn).cams = s.cams := rfl
@[simp] theorem State.drawn_ius (s : State) : (s.drawn).ius = s.ius := rfl
@[simp] theorem State.drawn_lamp (s : State) : (s.drawn).lamp = s.lamp := rfl
@[simp] theorem State.drawn_engs (s : State) : (s.drawn).engs = s.engs := rfl
@[simp] theorem State.drawn_accord (s : State) : (s.drawn).accord = s.accord := rfl
@[simp] theorem State.drawn_ref (s : State) : (s.drawn).ref = s.ref := rfl
@[simp] theorem State.drawn_sil (s : State) : (s.drawn).sil = s.sil := rfl
@[simp] theorem State.drawn_rpt (s : State) : (s.drawn).rpt = s.rpt := rfl
@[simp] theorem State.drawn_span (s : State) : (s.drawn).span = s.span := rfl
@[simp] theorem State.drawn_spanPorts (s : State) : (s.drawn).spanPorts = s.spanPorts := rfl
@[simp] theorem State.drawn_mem (s : State) : (s.drawn).mem = s.mem := rfl
@[simp] theorem State.drawn_blt (s : State) : (s.drawn).blt = s.blt := rfl
@[simp] theorem State.drawn_meet (s : State) : (s.drawn).meet = s.meet := rfl
@[simp] theorem State.drawn_l2 (s : State) : (s.drawn).l2 = s.l2 := rfl
@[simp] theorem State.drawn_hwHeld (s : State) : (s.drawn).hwHeld = s.hwHeld := rfl
@[simp] theorem State.drawn_cxl (s : State) : (s.drawn).cxl = s.cxl := rfl
@[simp] theorem State.drawn_dmas (s : State) : (s.drawn).dmas = s.dmas := rfl
@[simp] theorem State.drawn_cmp (s : State) : (s.drawn).cmp = s.cmp := rfl
@[simp] theorem State.drawn_eths (s : State) : (s.drawn).eths = s.eths := rfl
@[simp] theorem State.drawn_mboxes (s : State) : (s.drawn).mboxes = s.mboxes := rfl
@[simp] theorem State.drawn_zsp (s : State) : (s.drawn).zsp = s.zsp := rfl
@[simp] theorem State.drawn_sigs (s : State) : (s.drawn).sigs = s.sigs := rfl
@[simp] theorem State.drawn_mot (s : State) : (s.drawn).mot = s.mot := rfl
@[simp] theorem State.drawn_fl (s : State) : (s.drawn).fl = s.fl := rfl
@[simp] theorem State.drawn_boot (s : State) : (s.drawn).boot = s.boot := rfl

@[simp] theorem State.irq_pending (s : State) (c : String) : (s.irq c).pending = s.pending := rfl
@[simp] theorem State.irq_regs (s : State) (c : String) : (s.irq c).regs = s.regs := rfl
@[simp] theorem State.irq_resp (s : State) (c : String) : (s.irq c).resp = s.resp := rfl
@[simp] theorem State.irq_pwr (s : State) (c : String) : (s.irq c).pwr = s.pwr := rfl
@[simp] theorem State.irq_sec (s : State) (c : String) : (s.irq c).sec = s.sec := rfl
@[simp] theorem State.irq_tick (s : State) (c : String) : (s.irq c).tick = s.tick := rfl
@[simp] theorem State.irq_times (s : State) (c : String) : (s.irq c).times = s.times := rfl
@[simp] theorem State.irq_encs (s : State) (c : String) : (s.irq c).encs = s.encs := rfl
@[simp] theorem State.irq_pt (s : State) (c : String) : (s.irq c).pt = s.pt := rfl
@[simp] theorem State.irq_evt (s : State) (c : String) : (s.irq c).evt = s.evt := rfl
@[simp] theorem State.irq_lanes (s : State) (c : String) : (s.irq c).lanes = s.lanes := rfl
@[simp] theorem State.irq_cams (s : State) (c : String) : (s.irq c).cams = s.cams := rfl
@[simp] theorem State.irq_ius (s : State) (c : String) : (s.irq c).ius = s.ius := rfl
@[simp] theorem State.irq_lamp (s : State) (c : String) : (s.irq c).lamp = s.lamp := rfl
@[simp] theorem State.irq_engs (s : State) (c : String) : (s.irq c).engs = s.engs := rfl
@[simp] theorem State.irq_accord (s : State) (c : String) : (s.irq c).accord = s.accord := rfl
@[simp] theorem State.irq_ref (s : State) (c : String) : (s.irq c).ref = s.ref := rfl
@[simp] theorem State.irq_sil (s : State) (c : String) : (s.irq c).sil = s.sil := rfl
@[simp] theorem State.irq_rpt (s : State) (c : String) : (s.irq c).rpt = s.rpt := rfl
@[simp] theorem State.irq_span (s : State) (c : String) : (s.irq c).span = s.span := rfl
@[simp] theorem State.irq_spanPorts (s : State) (c : String) : (s.irq c).spanPorts = s.spanPorts := rfl
@[simp] theorem State.irq_mem (s : State) (c : String) : (s.irq c).mem = s.mem := rfl
@[simp] theorem State.irq_blt (s : State) (c : String) : (s.irq c).blt = s.blt := rfl
@[simp] theorem State.irq_meet (s : State) (c : String) : (s.irq c).meet = s.meet := rfl
@[simp] theorem State.irq_l2 (s : State) (c : String) : (s.irq c).l2 = s.l2 := rfl
@[simp] theorem State.irq_hwHeld (s : State) (c : String) : (s.irq c).hwHeld = s.hwHeld := rfl
@[simp] theorem State.irq_cxl (s : State) (c : String) : (s.irq c).cxl = s.cxl := rfl
@[simp] theorem State.irq_dmas (s : State) (c : String) : (s.irq c).dmas = s.dmas := rfl
@[simp] theorem State.irq_cmp (s : State) (c : String) : (s.irq c).cmp = s.cmp := rfl
@[simp] theorem State.irq_eths (s : State) (c : String) : (s.irq c).eths = s.eths := rfl
@[simp] theorem State.irq_mboxes (s : State) (c : String) : (s.irq c).mboxes = s.mboxes := rfl
@[simp] theorem State.irq_sigs (s : State) (c : String) : (s.irq c).sigs = s.sigs := rfl
@[simp] theorem State.irq_mot (s : State) (c : String) : (s.irq c).mot = s.mot := rfl
@[simp] theorem State.irq_fl (s : State) (c : String) : (s.irq c).fl = s.fl := rfl
@[simp] theorem State.irq_boot (s : State) (c : String) : (s.irq c).boot = s.boot := rfl
@[simp] theorem State.irq_freeCtr (s : State) (c : String) : (s.irq c).freeCtr = s.freeCtr := rfl

@[simp] theorem State.updDom_pending (s : State) (x : Nat) (f : TimeDom → TimeDom) : (s.updDom x f).pending = s.pending := rfl
@[simp] theorem State.updDom_regs (s : State) (x : Nat) (f : TimeDom → TimeDom) : (s.updDom x f).regs = s.regs := rfl
@[simp] theorem State.updDom_resp (s : State) (x : Nat) (f : TimeDom → TimeDom) : (s.updDom x f).resp = s.resp := rfl
@[simp] theorem State.updDom_pwr (s : State) (x : Nat) (f : TimeDom → TimeDom) : (s.updDom x f).pwr = s.pwr := rfl
@[simp] theorem State.updDom_sec (s : State) (x : Nat) (f : TimeDom → TimeDom) : (s.updDom x f).sec = s.sec := rfl
@[simp] theorem State.updDom_tick (s : State) (x : Nat) (f : TimeDom → TimeDom) : (s.updDom x f).tick = s.tick := rfl
@[simp] theorem State.updDom_encs (s : State) (x : Nat) (f : TimeDom → TimeDom) : (s.updDom x f).encs = s.encs := rfl
@[simp] theorem State.updDom_pt (s : State) (x : Nat) (f : TimeDom → TimeDom) : (s.updDom x f).pt = s.pt := rfl
@[simp] theorem State.updDom_evt (s : State) (x : Nat) (f : TimeDom → TimeDom) : (s.updDom x f).evt = s.evt := rfl
@[simp] theorem State.updDom_lanes (s : State) (x : Nat) (f : TimeDom → TimeDom) : (s.updDom x f).lanes = s.lanes := rfl
@[simp] theorem State.updDom_cams (s : State) (x : Nat) (f : TimeDom → TimeDom) : (s.updDom x f).cams = s.cams := rfl
@[simp] theorem State.updDom_ius (s : State) (x : Nat) (f : TimeDom → TimeDom) : (s.updDom x f).ius = s.ius := rfl
@[simp] theorem State.updDom_lamp (s : State) (x : Nat) (f : TimeDom → TimeDom) : (s.updDom x f).lamp = s.lamp := rfl
@[simp] theorem State.updDom_engs (s : State) (x : Nat) (f : TimeDom → TimeDom) : (s.updDom x f).engs = s.engs := rfl
@[simp] theorem State.updDom_accord (s : State) (x : Nat) (f : TimeDom → TimeDom) : (s.updDom x f).accord = s.accord := rfl
@[simp] theorem State.updDom_ref (s : State) (x : Nat) (f : TimeDom → TimeDom) : (s.updDom x f).ref = s.ref := rfl
@[simp] theorem State.updDom_sil (s : State) (x : Nat) (f : TimeDom → TimeDom) : (s.updDom x f).sil = s.sil := rfl
@[simp] theorem State.updDom_rpt (s : State) (x : Nat) (f : TimeDom → TimeDom) : (s.updDom x f).rpt = s.rpt := rfl
@[simp] theorem State.updDom_span (s : State) (x : Nat) (f : TimeDom → TimeDom) : (s.updDom x f).span = s.span := rfl
@[simp] theorem State.updDom_spanPorts (s : State) (x : Nat) (f : TimeDom → TimeDom) : (s.updDom x f).spanPorts = s.spanPorts := rfl
@[simp] theorem State.updDom_mem (s : State) (x : Nat) (f : TimeDom → TimeDom) : (s.updDom x f).mem = s.mem := rfl
@[simp] theorem State.updDom_blt (s : State) (x : Nat) (f : TimeDom → TimeDom) : (s.updDom x f).blt = s.blt := rfl
@[simp] theorem State.updDom_meet (s : State) (x : Nat) (f : TimeDom → TimeDom) : (s.updDom x f).meet = s.meet := rfl
@[simp] theorem State.updDom_l2 (s : State) (x : Nat) (f : TimeDom → TimeDom) : (s.updDom x f).l2 = s.l2 := rfl
@[simp] theorem State.updDom_hwHeld (s : State) (x : Nat) (f : TimeDom → TimeDom) : (s.updDom x f).hwHeld = s.hwHeld := rfl
@[simp] theorem State.updDom_cxl (s : State) (x : Nat) (f : TimeDom → TimeDom) : (s.updDom x f).cxl = s.cxl := rfl
@[simp] theorem State.updDom_dmas (s : State) (x : Nat) (f : TimeDom → TimeDom) : (s.updDom x f).dmas = s.dmas := rfl
@[simp] theorem State.updDom_cmp (s : State) (x : Nat) (f : TimeDom → TimeDom) : (s.updDom x f).cmp = s.cmp := rfl
@[simp] theorem State.updDom_eths (s : State) (x : Nat) (f : TimeDom → TimeDom) : (s.updDom x f).eths = s.eths := rfl
@[simp] theorem State.updDom_mboxes (s : State) (x : Nat) (f : TimeDom → TimeDom) : (s.updDom x f).mboxes = s.mboxes := rfl
@[simp] theorem State.updDom_zsp (s : State) (x : Nat) (f : TimeDom → TimeDom) : (s.updDom x f).zsp = s.zsp := rfl
@[simp] theorem State.updDom_sigs (s : State) (x : Nat) (f : TimeDom → TimeDom) : (s.updDom x f).sigs = s.sigs := rfl
@[simp] theorem State.updDom_mot (s : State) (x : Nat) (f : TimeDom → TimeDom) : (s.updDom x f).mot = s.mot := rfl
@[simp] theorem State.updDom_fl (s : State) (x : Nat) (f : TimeDom → TimeDom) : (s.updDom x f).fl = s.fl := rfl
@[simp] theorem State.updDom_boot (s : State) (x : Nat) (f : TimeDom → TimeDom) : (s.updDom x f).boot = s.boot := rfl
@[simp] theorem State.updDom_freeCtr (s : State) (x : Nat) (f : TimeDom → TimeDom) : (s.updDom x f).freeCtr = s.freeCtr := rfl

@[simp] theorem State.updEnc_pending (s : State) (e : Nat) (f : Enc → Enc) : (s.updEnc e f).pending = s.pending := rfl
@[simp] theorem State.updEnc_regs (s : State) (e : Nat) (f : Enc → Enc) : (s.updEnc e f).regs = s.regs := rfl
@[simp] theorem State.updEnc_resp (s : State) (e : Nat) (f : Enc → Enc) : (s.updEnc e f).resp = s.resp := rfl
@[simp] theorem State.updEnc_pwr (s : State) (e : Nat) (f : Enc → Enc) : (s.updEnc e f).pwr = s.pwr := rfl
@[simp] theorem State.updEnc_sec (s : State) (e : Nat) (f : Enc → Enc) : (s.updEnc e f).sec = s.sec := rfl
@[simp] theorem State.updEnc_tick (s : State) (e : Nat) (f : Enc → Enc) : (s.updEnc e f).tick = s.tick := rfl
@[simp] theorem State.updEnc_times (s : State) (e : Nat) (f : Enc → Enc) : (s.updEnc e f).times = s.times := rfl
@[simp] theorem State.updEnc_pt (s : State) (e : Nat) (f : Enc → Enc) : (s.updEnc e f).pt = s.pt := rfl
@[simp] theorem State.updEnc_evt (s : State) (e : Nat) (f : Enc → Enc) : (s.updEnc e f).evt = s.evt := rfl
@[simp] theorem State.updEnc_lanes (s : State) (e : Nat) (f : Enc → Enc) : (s.updEnc e f).lanes = s.lanes := rfl
@[simp] theorem State.updEnc_cams (s : State) (e : Nat) (f : Enc → Enc) : (s.updEnc e f).cams = s.cams := rfl
@[simp] theorem State.updEnc_ius (s : State) (e : Nat) (f : Enc → Enc) : (s.updEnc e f).ius = s.ius := rfl
@[simp] theorem State.updEnc_lamp (s : State) (e : Nat) (f : Enc → Enc) : (s.updEnc e f).lamp = s.lamp := rfl
@[simp] theorem State.updEnc_engs (s : State) (e : Nat) (f : Enc → Enc) : (s.updEnc e f).engs = s.engs := rfl
@[simp] theorem State.updEnc_accord (s : State) (e : Nat) (f : Enc → Enc) : (s.updEnc e f).accord = s.accord := rfl
@[simp] theorem State.updEnc_ref (s : State) (e : Nat) (f : Enc → Enc) : (s.updEnc e f).ref = s.ref := rfl
@[simp] theorem State.updEnc_sil (s : State) (e : Nat) (f : Enc → Enc) : (s.updEnc e f).sil = s.sil := rfl
@[simp] theorem State.updEnc_rpt (s : State) (e : Nat) (f : Enc → Enc) : (s.updEnc e f).rpt = s.rpt := rfl
@[simp] theorem State.updEnc_span (s : State) (e : Nat) (f : Enc → Enc) : (s.updEnc e f).span = s.span := rfl
@[simp] theorem State.updEnc_spanPorts (s : State) (e : Nat) (f : Enc → Enc) : (s.updEnc e f).spanPorts = s.spanPorts := rfl
@[simp] theorem State.updEnc_mem (s : State) (e : Nat) (f : Enc → Enc) : (s.updEnc e f).mem = s.mem := rfl
@[simp] theorem State.updEnc_blt (s : State) (e : Nat) (f : Enc → Enc) : (s.updEnc e f).blt = s.blt := rfl
@[simp] theorem State.updEnc_meet (s : State) (e : Nat) (f : Enc → Enc) : (s.updEnc e f).meet = s.meet := rfl
@[simp] theorem State.updEnc_l2 (s : State) (e : Nat) (f : Enc → Enc) : (s.updEnc e f).l2 = s.l2 := rfl
@[simp] theorem State.updEnc_hwHeld (s : State) (e : Nat) (f : Enc → Enc) : (s.updEnc e f).hwHeld = s.hwHeld := rfl
@[simp] theorem State.updEnc_cxl (s : State) (e : Nat) (f : Enc → Enc) : (s.updEnc e f).cxl = s.cxl := rfl
@[simp] theorem State.updEnc_dmas (s : State) (e : Nat) (f : Enc → Enc) : (s.updEnc e f).dmas = s.dmas := rfl
@[simp] theorem State.updEnc_cmp (s : State) (e : Nat) (f : Enc → Enc) : (s.updEnc e f).cmp = s.cmp := rfl
@[simp] theorem State.updEnc_eths (s : State) (e : Nat) (f : Enc → Enc) : (s.updEnc e f).eths = s.eths := rfl
@[simp] theorem State.updEnc_mboxes (s : State) (e : Nat) (f : Enc → Enc) : (s.updEnc e f).mboxes = s.mboxes := rfl
@[simp] theorem State.updEnc_zsp (s : State) (e : Nat) (f : Enc → Enc) : (s.updEnc e f).zsp = s.zsp := rfl
@[simp] theorem State.updEnc_sigs (s : State) (e : Nat) (f : Enc → Enc) : (s.updEnc e f).sigs = s.sigs := rfl
@[simp] theorem State.updEnc_mot (s : State) (e : Nat) (f : Enc → Enc) : (s.updEnc e f).mot = s.mot := rfl
@[simp] theorem State.updEnc_fl (s : State) (e : Nat) (f : Enc → Enc) : (s.updEnc e f).fl = s.fl := rfl
@[simp] theorem State.updEnc_boot (s : State) (e : Nat) (f : Enc → Enc) : (s.updEnc e f).boot = s.boot := rfl
@[simp] theorem State.updEnc_freeCtr (s : State) (e : Nat) (f : Enc → Enc) : (s.updEnc e f).freeCtr = s.freeCtr := rfl

@[simp] theorem State.updLane_pending (s : State) (j : Nat) (f : Lane → Lane) : (s.updLane j f).pending = s.pending := rfl
@[simp] theorem State.updLane_regs (s : State) (j : Nat) (f : Lane → Lane) : (s.updLane j f).regs = s.regs := rfl
@[simp] theorem State.updLane_resp (s : State) (j : Nat) (f : Lane → Lane) : (s.updLane j f).resp = s.resp := rfl
@[simp] theorem State.updLane_pwr (s : State) (j : Nat) (f : Lane → Lane) : (s.updLane j f).pwr = s.pwr := rfl
@[simp] theorem State.updLane_sec (s : State) (j : Nat) (f : Lane → Lane) : (s.updLane j f).sec = s.sec := rfl
@[simp] theorem State.updLane_tick (s : State) (j : Nat) (f : Lane → Lane) : (s.updLane j f).tick = s.tick := rfl
@[simp] theorem State.updLane_times (s : State) (j : Nat) (f : Lane → Lane) : (s.updLane j f).times = s.times := rfl
@[simp] theorem State.updLane_encs (s : State) (j : Nat) (f : Lane → Lane) : (s.updLane j f).encs = s.encs := rfl
@[simp] theorem State.updLane_pt (s : State) (j : Nat) (f : Lane → Lane) : (s.updLane j f).pt = s.pt := rfl
@[simp] theorem State.updLane_evt (s : State) (j : Nat) (f : Lane → Lane) : (s.updLane j f).evt = s.evt := rfl
@[simp] theorem State.updLane_cams (s : State) (j : Nat) (f : Lane → Lane) : (s.updLane j f).cams = s.cams := rfl
@[simp] theorem State.updLane_ius (s : State) (j : Nat) (f : Lane → Lane) : (s.updLane j f).ius = s.ius := rfl
@[simp] theorem State.updLane_lamp (s : State) (j : Nat) (f : Lane → Lane) : (s.updLane j f).lamp = s.lamp := rfl
@[simp] theorem State.updLane_engs (s : State) (j : Nat) (f : Lane → Lane) : (s.updLane j f).engs = s.engs := rfl
@[simp] theorem State.updLane_accord (s : State) (j : Nat) (f : Lane → Lane) : (s.updLane j f).accord = s.accord := rfl
@[simp] theorem State.updLane_ref (s : State) (j : Nat) (f : Lane → Lane) : (s.updLane j f).ref = s.ref := rfl
@[simp] theorem State.updLane_sil (s : State) (j : Nat) (f : Lane → Lane) : (s.updLane j f).sil = s.sil := rfl
@[simp] theorem State.updLane_rpt (s : State) (j : Nat) (f : Lane → Lane) : (s.updLane j f).rpt = s.rpt := rfl
@[simp] theorem State.updLane_span (s : State) (j : Nat) (f : Lane → Lane) : (s.updLane j f).span = s.span := rfl
@[simp] theorem State.updLane_spanPorts (s : State) (j : Nat) (f : Lane → Lane) : (s.updLane j f).spanPorts = s.spanPorts := rfl
@[simp] theorem State.updLane_mem (s : State) (j : Nat) (f : Lane → Lane) : (s.updLane j f).mem = s.mem := rfl
@[simp] theorem State.updLane_blt (s : State) (j : Nat) (f : Lane → Lane) : (s.updLane j f).blt = s.blt := rfl
@[simp] theorem State.updLane_meet (s : State) (j : Nat) (f : Lane → Lane) : (s.updLane j f).meet = s.meet := rfl
@[simp] theorem State.updLane_l2 (s : State) (j : Nat) (f : Lane → Lane) : (s.updLane j f).l2 = s.l2 := rfl
@[simp] theorem State.updLane_hwHeld (s : State) (j : Nat) (f : Lane → Lane) : (s.updLane j f).hwHeld = s.hwHeld := rfl
@[simp] theorem State.updLane_cxl (s : State) (j : Nat) (f : Lane → Lane) : (s.updLane j f).cxl = s.cxl := rfl
@[simp] theorem State.updLane_dmas (s : State) (j : Nat) (f : Lane → Lane) : (s.updLane j f).dmas = s.dmas := rfl
@[simp] theorem State.updLane_cmp (s : State) (j : Nat) (f : Lane → Lane) : (s.updLane j f).cmp = s.cmp := rfl
@[simp] theorem State.updLane_eths (s : State) (j : Nat) (f : Lane → Lane) : (s.updLane j f).eths = s.eths := rfl
@[simp] theorem State.updLane_mboxes (s : State) (j : Nat) (f : Lane → Lane) : (s.updLane j f).mboxes = s.mboxes := rfl
@[simp] theorem State.updLane_zsp (s : State) (j : Nat) (f : Lane → Lane) : (s.updLane j f).zsp = s.zsp := rfl
@[simp] theorem State.updLane_sigs (s : State) (j : Nat) (f : Lane → Lane) : (s.updLane j f).sigs = s.sigs := rfl
@[simp] theorem State.updLane_mot (s : State) (j : Nat) (f : Lane → Lane) : (s.updLane j f).mot = s.mot := rfl
@[simp] theorem State.updLane_fl (s : State) (j : Nat) (f : Lane → Lane) : (s.updLane j f).fl = s.fl := rfl
@[simp] theorem State.updLane_boot (s : State) (j : Nat) (f : Lane → Lane) : (s.updLane j f).boot = s.boot := rfl
@[simp] theorem State.updLane_freeCtr (s : State) (j : Nat) (f : Lane → Lane) : (s.updLane j f).freeCtr = s.freeCtr := rfl

@[simp] theorem State.updCam_pending (s : State) (p : Nat) (f : Cam → Cam) : (s.updCam p f).pending = s.pending := rfl
@[simp] theorem State.updCam_regs (s : State) (p : Nat) (f : Cam → Cam) : (s.updCam p f).regs = s.regs := rfl
@[simp] theorem State.updCam_resp (s : State) (p : Nat) (f : Cam → Cam) : (s.updCam p f).resp = s.resp := rfl
@[simp] theorem State.updCam_pwr (s : State) (p : Nat) (f : Cam → Cam) : (s.updCam p f).pwr = s.pwr := rfl
@[simp] theorem State.updCam_sec (s : State) (p : Nat) (f : Cam → Cam) : (s.updCam p f).sec = s.sec := rfl
@[simp] theorem State.updCam_tick (s : State) (p : Nat) (f : Cam → Cam) : (s.updCam p f).tick = s.tick := rfl
@[simp] theorem State.updCam_times (s : State) (p : Nat) (f : Cam → Cam) : (s.updCam p f).times = s.times := rfl
@[simp] theorem State.updCam_encs (s : State) (p : Nat) (f : Cam → Cam) : (s.updCam p f).encs = s.encs := rfl
@[simp] theorem State.updCam_pt (s : State) (p : Nat) (f : Cam → Cam) : (s.updCam p f).pt = s.pt := rfl
@[simp] theorem State.updCam_evt (s : State) (p : Nat) (f : Cam → Cam) : (s.updCam p f).evt = s.evt := rfl
@[simp] theorem State.updCam_lanes (s : State) (p : Nat) (f : Cam → Cam) : (s.updCam p f).lanes = s.lanes := rfl
@[simp] theorem State.updCam_ius (s : State) (p : Nat) (f : Cam → Cam) : (s.updCam p f).ius = s.ius := rfl
@[simp] theorem State.updCam_lamp (s : State) (p : Nat) (f : Cam → Cam) : (s.updCam p f).lamp = s.lamp := rfl
@[simp] theorem State.updCam_engs (s : State) (p : Nat) (f : Cam → Cam) : (s.updCam p f).engs = s.engs := rfl
@[simp] theorem State.updCam_accord (s : State) (p : Nat) (f : Cam → Cam) : (s.updCam p f).accord = s.accord := rfl
@[simp] theorem State.updCam_ref (s : State) (p : Nat) (f : Cam → Cam) : (s.updCam p f).ref = s.ref := rfl
@[simp] theorem State.updCam_sil (s : State) (p : Nat) (f : Cam → Cam) : (s.updCam p f).sil = s.sil := rfl
@[simp] theorem State.updCam_rpt (s : State) (p : Nat) (f : Cam → Cam) : (s.updCam p f).rpt = s.rpt := rfl
@[simp] theorem State.updCam_span (s : State) (p : Nat) (f : Cam → Cam) : (s.updCam p f).span = s.span := rfl
@[simp] theorem State.updCam_spanPorts (s : State) (p : Nat) (f : Cam → Cam) : (s.updCam p f).spanPorts = s.spanPorts := rfl
@[simp] theorem State.updCam_mem (s : State) (p : Nat) (f : Cam → Cam) : (s.updCam p f).mem = s.mem := rfl
@[simp] theorem State.updCam_blt (s : State) (p : Nat) (f : Cam → Cam) : (s.updCam p f).blt = s.blt := rfl
@[simp] theorem State.updCam_meet (s : State) (p : Nat) (f : Cam → Cam) : (s.updCam p f).meet = s.meet := rfl
@[simp] theorem State.updCam_l2 (s : State) (p : Nat) (f : Cam → Cam) : (s.updCam p f).l2 = s.l2 := rfl
@[simp] theorem State.updCam_hwHeld (s : State) (p : Nat) (f : Cam → Cam) : (s.updCam p f).hwHeld = s.hwHeld := rfl
@[simp] theorem State.updCam_cxl (s : State) (p : Nat) (f : Cam → Cam) : (s.updCam p f).cxl = s.cxl := rfl
@[simp] theorem State.updCam_dmas (s : State) (p : Nat) (f : Cam → Cam) : (s.updCam p f).dmas = s.dmas := rfl
@[simp] theorem State.updCam_cmp (s : State) (p : Nat) (f : Cam → Cam) : (s.updCam p f).cmp = s.cmp := rfl
@[simp] theorem State.updCam_eths (s : State) (p : Nat) (f : Cam → Cam) : (s.updCam p f).eths = s.eths := rfl
@[simp] theorem State.updCam_mboxes (s : State) (p : Nat) (f : Cam → Cam) : (s.updCam p f).mboxes = s.mboxes := rfl
@[simp] theorem State.updCam_zsp (s : State) (p : Nat) (f : Cam → Cam) : (s.updCam p f).zsp = s.zsp := rfl
@[simp] theorem State.updCam_sigs (s : State) (p : Nat) (f : Cam → Cam) : (s.updCam p f).sigs = s.sigs := rfl
@[simp] theorem State.updCam_mot (s : State) (p : Nat) (f : Cam → Cam) : (s.updCam p f).mot = s.mot := rfl
@[simp] theorem State.updCam_fl (s : State) (p : Nat) (f : Cam → Cam) : (s.updCam p f).fl = s.fl := rfl
@[simp] theorem State.updCam_boot (s : State) (p : Nat) (f : Cam → Cam) : (s.updCam p f).boot = s.boot := rfl
@[simp] theorem State.updCam_freeCtr (s : State) (p : Nat) (f : Cam → Cam) : (s.updCam p f).freeCtr = s.freeCtr := rfl

@[simp] theorem State.updIu_pending (s : State) (c : Nat) (f : Iu → Iu) : (s.updIu c f).pending = s.pending := rfl
@[simp] theorem State.updIu_regs (s : State) (c : Nat) (f : Iu → Iu) : (s.updIu c f).regs = s.regs := rfl
@[simp] theorem State.updIu_resp (s : State) (c : Nat) (f : Iu → Iu) : (s.updIu c f).resp = s.resp := rfl
@[simp] theorem State.updIu_pwr (s : State) (c : Nat) (f : Iu → Iu) : (s.updIu c f).pwr = s.pwr := rfl
@[simp] theorem State.updIu_sec (s : State) (c : Nat) (f : Iu → Iu) : (s.updIu c f).sec = s.sec := rfl
@[simp] theorem State.updIu_tick (s : State) (c : Nat) (f : Iu → Iu) : (s.updIu c f).tick = s.tick := rfl
@[simp] theorem State.updIu_times (s : State) (c : Nat) (f : Iu → Iu) : (s.updIu c f).times = s.times := rfl
@[simp] theorem State.updIu_encs (s : State) (c : Nat) (f : Iu → Iu) : (s.updIu c f).encs = s.encs := rfl
@[simp] theorem State.updIu_pt (s : State) (c : Nat) (f : Iu → Iu) : (s.updIu c f).pt = s.pt := rfl
@[simp] theorem State.updIu_evt (s : State) (c : Nat) (f : Iu → Iu) : (s.updIu c f).evt = s.evt := rfl
@[simp] theorem State.updIu_lanes (s : State) (c : Nat) (f : Iu → Iu) : (s.updIu c f).lanes = s.lanes := rfl
@[simp] theorem State.updIu_cams (s : State) (c : Nat) (f : Iu → Iu) : (s.updIu c f).cams = s.cams := rfl
@[simp] theorem State.updIu_lamp (s : State) (c : Nat) (f : Iu → Iu) : (s.updIu c f).lamp = s.lamp := rfl
@[simp] theorem State.updIu_engs (s : State) (c : Nat) (f : Iu → Iu) : (s.updIu c f).engs = s.engs := rfl
@[simp] theorem State.updIu_accord (s : State) (c : Nat) (f : Iu → Iu) : (s.updIu c f).accord = s.accord := rfl
@[simp] theorem State.updIu_ref (s : State) (c : Nat) (f : Iu → Iu) : (s.updIu c f).ref = s.ref := rfl
@[simp] theorem State.updIu_sil (s : State) (c : Nat) (f : Iu → Iu) : (s.updIu c f).sil = s.sil := rfl
@[simp] theorem State.updIu_rpt (s : State) (c : Nat) (f : Iu → Iu) : (s.updIu c f).rpt = s.rpt := rfl
@[simp] theorem State.updIu_span (s : State) (c : Nat) (f : Iu → Iu) : (s.updIu c f).span = s.span := rfl
@[simp] theorem State.updIu_spanPorts (s : State) (c : Nat) (f : Iu → Iu) : (s.updIu c f).spanPorts = s.spanPorts := rfl
@[simp] theorem State.updIu_mem (s : State) (c : Nat) (f : Iu → Iu) : (s.updIu c f).mem = s.mem := rfl
@[simp] theorem State.updIu_blt (s : State) (c : Nat) (f : Iu → Iu) : (s.updIu c f).blt = s.blt := rfl
@[simp] theorem State.updIu_meet (s : State) (c : Nat) (f : Iu → Iu) : (s.updIu c f).meet = s.meet := rfl
@[simp] theorem State.updIu_l2 (s : State) (c : Nat) (f : Iu → Iu) : (s.updIu c f).l2 = s.l2 := rfl
@[simp] theorem State.updIu_hwHeld (s : State) (c : Nat) (f : Iu → Iu) : (s.updIu c f).hwHeld = s.hwHeld := rfl
@[simp] theorem State.updIu_cxl (s : State) (c : Nat) (f : Iu → Iu) : (s.updIu c f).cxl = s.cxl := rfl
@[simp] theorem State.updIu_dmas (s : State) (c : Nat) (f : Iu → Iu) : (s.updIu c f).dmas = s.dmas := rfl
@[simp] theorem State.updIu_cmp (s : State) (c : Nat) (f : Iu → Iu) : (s.updIu c f).cmp = s.cmp := rfl
@[simp] theorem State.updIu_eths (s : State) (c : Nat) (f : Iu → Iu) : (s.updIu c f).eths = s.eths := rfl
@[simp] theorem State.updIu_mboxes (s : State) (c : Nat) (f : Iu → Iu) : (s.updIu c f).mboxes = s.mboxes := rfl
@[simp] theorem State.updIu_zsp (s : State) (c : Nat) (f : Iu → Iu) : (s.updIu c f).zsp = s.zsp := rfl
@[simp] theorem State.updIu_sigs (s : State) (c : Nat) (f : Iu → Iu) : (s.updIu c f).sigs = s.sigs := rfl
@[simp] theorem State.updIu_mot (s : State) (c : Nat) (f : Iu → Iu) : (s.updIu c f).mot = s.mot := rfl
@[simp] theorem State.updIu_fl (s : State) (c : Nat) (f : Iu → Iu) : (s.updIu c f).fl = s.fl := rfl
@[simp] theorem State.updIu_boot (s : State) (c : Nat) (f : Iu → Iu) : (s.updIu c f).boot = s.boot := rfl
@[simp] theorem State.updIu_freeCtr (s : State) (c : Nat) (f : Iu → Iu) : (s.updIu c f).freeCtr = s.freeCtr := rfl

@[simp] theorem State.updEng_pending (s : State) (e : Nat) (f : Eng → Eng) : (s.updEng e f).pending = s.pending := rfl
@[simp] theorem State.updEng_regs (s : State) (e : Nat) (f : Eng → Eng) : (s.updEng e f).regs = s.regs := rfl
@[simp] theorem State.updEng_resp (s : State) (e : Nat) (f : Eng → Eng) : (s.updEng e f).resp = s.resp := rfl
@[simp] theorem State.updEng_pwr (s : State) (e : Nat) (f : Eng → Eng) : (s.updEng e f).pwr = s.pwr := rfl
@[simp] theorem State.updEng_sec (s : State) (e : Nat) (f : Eng → Eng) : (s.updEng e f).sec = s.sec := rfl
@[simp] theorem State.updEng_tick (s : State) (e : Nat) (f : Eng → Eng) : (s.updEng e f).tick = s.tick := rfl
@[simp] theorem State.updEng_times (s : State) (e : Nat) (f : Eng → Eng) : (s.updEng e f).times = s.times := rfl
@[simp] theorem State.updEng_encs (s : State) (e : Nat) (f : Eng → Eng) : (s.updEng e f).encs = s.encs := rfl
@[simp] theorem State.updEng_pt (s : State) (e : Nat) (f : Eng → Eng) : (s.updEng e f).pt = s.pt := rfl
@[simp] theorem State.updEng_evt (s : State) (e : Nat) (f : Eng → Eng) : (s.updEng e f).evt = s.evt := rfl
@[simp] theorem State.updEng_lanes (s : State) (e : Nat) (f : Eng → Eng) : (s.updEng e f).lanes = s.lanes := rfl
@[simp] theorem State.updEng_cams (s : State) (e : Nat) (f : Eng → Eng) : (s.updEng e f).cams = s.cams := rfl
@[simp] theorem State.updEng_ius (s : State) (e : Nat) (f : Eng → Eng) : (s.updEng e f).ius = s.ius := rfl
@[simp] theorem State.updEng_lamp (s : State) (e : Nat) (f : Eng → Eng) : (s.updEng e f).lamp = s.lamp := rfl
@[simp] theorem State.updEng_accord (s : State) (e : Nat) (f : Eng → Eng) : (s.updEng e f).accord = s.accord := rfl
@[simp] theorem State.updEng_ref (s : State) (e : Nat) (f : Eng → Eng) : (s.updEng e f).ref = s.ref := rfl
@[simp] theorem State.updEng_sil (s : State) (e : Nat) (f : Eng → Eng) : (s.updEng e f).sil = s.sil := rfl
@[simp] theorem State.updEng_rpt (s : State) (e : Nat) (f : Eng → Eng) : (s.updEng e f).rpt = s.rpt := rfl
@[simp] theorem State.updEng_span (s : State) (e : Nat) (f : Eng → Eng) : (s.updEng e f).span = s.span := rfl
@[simp] theorem State.updEng_spanPorts (s : State) (e : Nat) (f : Eng → Eng) : (s.updEng e f).spanPorts = s.spanPorts := rfl
@[simp] theorem State.updEng_mem (s : State) (e : Nat) (f : Eng → Eng) : (s.updEng e f).mem = s.mem := rfl
@[simp] theorem State.updEng_blt (s : State) (e : Nat) (f : Eng → Eng) : (s.updEng e f).blt = s.blt := rfl
@[simp] theorem State.updEng_meet (s : State) (e : Nat) (f : Eng → Eng) : (s.updEng e f).meet = s.meet := rfl
@[simp] theorem State.updEng_l2 (s : State) (e : Nat) (f : Eng → Eng) : (s.updEng e f).l2 = s.l2 := rfl
@[simp] theorem State.updEng_hwHeld (s : State) (e : Nat) (f : Eng → Eng) : (s.updEng e f).hwHeld = s.hwHeld := rfl
@[simp] theorem State.updEng_cxl (s : State) (e : Nat) (f : Eng → Eng) : (s.updEng e f).cxl = s.cxl := rfl
@[simp] theorem State.updEng_dmas (s : State) (e : Nat) (f : Eng → Eng) : (s.updEng e f).dmas = s.dmas := rfl
@[simp] theorem State.updEng_cmp (s : State) (e : Nat) (f : Eng → Eng) : (s.updEng e f).cmp = s.cmp := rfl
@[simp] theorem State.updEng_eths (s : State) (e : Nat) (f : Eng → Eng) : (s.updEng e f).eths = s.eths := rfl
@[simp] theorem State.updEng_mboxes (s : State) (e : Nat) (f : Eng → Eng) : (s.updEng e f).mboxes = s.mboxes := rfl
@[simp] theorem State.updEng_zsp (s : State) (e : Nat) (f : Eng → Eng) : (s.updEng e f).zsp = s.zsp := rfl
@[simp] theorem State.updEng_sigs (s : State) (e : Nat) (f : Eng → Eng) : (s.updEng e f).sigs = s.sigs := rfl
@[simp] theorem State.updEng_mot (s : State) (e : Nat) (f : Eng → Eng) : (s.updEng e f).mot = s.mot := rfl
@[simp] theorem State.updEng_fl (s : State) (e : Nat) (f : Eng → Eng) : (s.updEng e f).fl = s.fl := rfl
@[simp] theorem State.updEng_boot (s : State) (e : Nat) (f : Eng → Eng) : (s.updEng e f).boot = s.boot := rfl
@[simp] theorem State.updEng_freeCtr (s : State) (e : Nat) (f : Eng → Eng) : (s.updEng e f).freeCtr = s.freeCtr := rfl

@[simp] theorem State.updDma_pending (s : State) (k : Nat) (f : Dma → Dma) : (s.updDma k f).pending = s.pending := rfl
@[simp] theorem State.updDma_regs (s : State) (k : Nat) (f : Dma → Dma) : (s.updDma k f).regs = s.regs := rfl
@[simp] theorem State.updDma_resp (s : State) (k : Nat) (f : Dma → Dma) : (s.updDma k f).resp = s.resp := rfl
@[simp] theorem State.updDma_pwr (s : State) (k : Nat) (f : Dma → Dma) : (s.updDma k f).pwr = s.pwr := rfl
@[simp] theorem State.updDma_sec (s : State) (k : Nat) (f : Dma → Dma) : (s.updDma k f).sec = s.sec := rfl
@[simp] theorem State.updDma_tick (s : State) (k : Nat) (f : Dma → Dma) : (s.updDma k f).tick = s.tick := rfl
@[simp] theorem State.updDma_times (s : State) (k : Nat) (f : Dma → Dma) : (s.updDma k f).times = s.times := rfl
@[simp] theorem State.updDma_encs (s : State) (k : Nat) (f : Dma → Dma) : (s.updDma k f).encs = s.encs := rfl
@[simp] theorem State.updDma_pt (s : State) (k : Nat) (f : Dma → Dma) : (s.updDma k f).pt = s.pt := rfl
@[simp] theorem State.updDma_evt (s : State) (k : Nat) (f : Dma → Dma) : (s.updDma k f).evt = s.evt := rfl
@[simp] theorem State.updDma_lanes (s : State) (k : Nat) (f : Dma → Dma) : (s.updDma k f).lanes = s.lanes := rfl
@[simp] theorem State.updDma_cams (s : State) (k : Nat) (f : Dma → Dma) : (s.updDma k f).cams = s.cams := rfl
@[simp] theorem State.updDma_ius (s : State) (k : Nat) (f : Dma → Dma) : (s.updDma k f).ius = s.ius := rfl
@[simp] theorem State.updDma_lamp (s : State) (k : Nat) (f : Dma → Dma) : (s.updDma k f).lamp = s.lamp := rfl
@[simp] theorem State.updDma_engs (s : State) (k : Nat) (f : Dma → Dma) : (s.updDma k f).engs = s.engs := rfl
@[simp] theorem State.updDma_accord (s : State) (k : Nat) (f : Dma → Dma) : (s.updDma k f).accord = s.accord := rfl
@[simp] theorem State.updDma_ref (s : State) (k : Nat) (f : Dma → Dma) : (s.updDma k f).ref = s.ref := rfl
@[simp] theorem State.updDma_sil (s : State) (k : Nat) (f : Dma → Dma) : (s.updDma k f).sil = s.sil := rfl
@[simp] theorem State.updDma_rpt (s : State) (k : Nat) (f : Dma → Dma) : (s.updDma k f).rpt = s.rpt := rfl
@[simp] theorem State.updDma_span (s : State) (k : Nat) (f : Dma → Dma) : (s.updDma k f).span = s.span := rfl
@[simp] theorem State.updDma_spanPorts (s : State) (k : Nat) (f : Dma → Dma) : (s.updDma k f).spanPorts = s.spanPorts := rfl
@[simp] theorem State.updDma_mem (s : State) (k : Nat) (f : Dma → Dma) : (s.updDma k f).mem = s.mem := rfl
@[simp] theorem State.updDma_blt (s : State) (k : Nat) (f : Dma → Dma) : (s.updDma k f).blt = s.blt := rfl
@[simp] theorem State.updDma_meet (s : State) (k : Nat) (f : Dma → Dma) : (s.updDma k f).meet = s.meet := rfl
@[simp] theorem State.updDma_l2 (s : State) (k : Nat) (f : Dma → Dma) : (s.updDma k f).l2 = s.l2 := rfl
@[simp] theorem State.updDma_hwHeld (s : State) (k : Nat) (f : Dma → Dma) : (s.updDma k f).hwHeld = s.hwHeld := rfl
@[simp] theorem State.updDma_cxl (s : State) (k : Nat) (f : Dma → Dma) : (s.updDma k f).cxl = s.cxl := rfl
@[simp] theorem State.updDma_cmp (s : State) (k : Nat) (f : Dma → Dma) : (s.updDma k f).cmp = s.cmp := rfl
@[simp] theorem State.updDma_eths (s : State) (k : Nat) (f : Dma → Dma) : (s.updDma k f).eths = s.eths := rfl
@[simp] theorem State.updDma_mboxes (s : State) (k : Nat) (f : Dma → Dma) : (s.updDma k f).mboxes = s.mboxes := rfl
@[simp] theorem State.updDma_zsp (s : State) (k : Nat) (f : Dma → Dma) : (s.updDma k f).zsp = s.zsp := rfl
@[simp] theorem State.updDma_sigs (s : State) (k : Nat) (f : Dma → Dma) : (s.updDma k f).sigs = s.sigs := rfl
@[simp] theorem State.updDma_mot (s : State) (k : Nat) (f : Dma → Dma) : (s.updDma k f).mot = s.mot := rfl
@[simp] theorem State.updDma_fl (s : State) (k : Nat) (f : Dma → Dma) : (s.updDma k f).fl = s.fl := rfl
@[simp] theorem State.updDma_boot (s : State) (k : Nat) (f : Dma → Dma) : (s.updDma k f).boot = s.boot := rfl
@[simp] theorem State.updDma_freeCtr (s : State) (k : Nat) (f : Dma → Dma) : (s.updDma k f).freeCtr = s.freeCtr := rfl

@[simp] theorem State.updCxl_pending (s : State) (p : Nat) (f : CxlPort → CxlPort) : (s.updCxl p f).pending = s.pending := rfl
@[simp] theorem State.updCxl_regs (s : State) (p : Nat) (f : CxlPort → CxlPort) : (s.updCxl p f).regs = s.regs := rfl
@[simp] theorem State.updCxl_resp (s : State) (p : Nat) (f : CxlPort → CxlPort) : (s.updCxl p f).resp = s.resp := rfl
@[simp] theorem State.updCxl_pwr (s : State) (p : Nat) (f : CxlPort → CxlPort) : (s.updCxl p f).pwr = s.pwr := rfl
@[simp] theorem State.updCxl_sec (s : State) (p : Nat) (f : CxlPort → CxlPort) : (s.updCxl p f).sec = s.sec := rfl
@[simp] theorem State.updCxl_tick (s : State) (p : Nat) (f : CxlPort → CxlPort) : (s.updCxl p f).tick = s.tick := rfl
@[simp] theorem State.updCxl_times (s : State) (p : Nat) (f : CxlPort → CxlPort) : (s.updCxl p f).times = s.times := rfl
@[simp] theorem State.updCxl_encs (s : State) (p : Nat) (f : CxlPort → CxlPort) : (s.updCxl p f).encs = s.encs := rfl
@[simp] theorem State.updCxl_pt (s : State) (p : Nat) (f : CxlPort → CxlPort) : (s.updCxl p f).pt = s.pt := rfl
@[simp] theorem State.updCxl_evt (s : State) (p : Nat) (f : CxlPort → CxlPort) : (s.updCxl p f).evt = s.evt := rfl
@[simp] theorem State.updCxl_lanes (s : State) (p : Nat) (f : CxlPort → CxlPort) : (s.updCxl p f).lanes = s.lanes := rfl
@[simp] theorem State.updCxl_cams (s : State) (p : Nat) (f : CxlPort → CxlPort) : (s.updCxl p f).cams = s.cams := rfl
@[simp] theorem State.updCxl_ius (s : State) (p : Nat) (f : CxlPort → CxlPort) : (s.updCxl p f).ius = s.ius := rfl
@[simp] theorem State.updCxl_lamp (s : State) (p : Nat) (f : CxlPort → CxlPort) : (s.updCxl p f).lamp = s.lamp := rfl
@[simp] theorem State.updCxl_engs (s : State) (p : Nat) (f : CxlPort → CxlPort) : (s.updCxl p f).engs = s.engs := rfl
@[simp] theorem State.updCxl_accord (s : State) (p : Nat) (f : CxlPort → CxlPort) : (s.updCxl p f).accord = s.accord := rfl
@[simp] theorem State.updCxl_ref (s : State) (p : Nat) (f : CxlPort → CxlPort) : (s.updCxl p f).ref = s.ref := rfl
@[simp] theorem State.updCxl_sil (s : State) (p : Nat) (f : CxlPort → CxlPort) : (s.updCxl p f).sil = s.sil := rfl
@[simp] theorem State.updCxl_rpt (s : State) (p : Nat) (f : CxlPort → CxlPort) : (s.updCxl p f).rpt = s.rpt := rfl
@[simp] theorem State.updCxl_span (s : State) (p : Nat) (f : CxlPort → CxlPort) : (s.updCxl p f).span = s.span := rfl
@[simp] theorem State.updCxl_spanPorts (s : State) (p : Nat) (f : CxlPort → CxlPort) : (s.updCxl p f).spanPorts = s.spanPorts := rfl
@[simp] theorem State.updCxl_mem (s : State) (p : Nat) (f : CxlPort → CxlPort) : (s.updCxl p f).mem = s.mem := rfl
@[simp] theorem State.updCxl_blt (s : State) (p : Nat) (f : CxlPort → CxlPort) : (s.updCxl p f).blt = s.blt := rfl
@[simp] theorem State.updCxl_meet (s : State) (p : Nat) (f : CxlPort → CxlPort) : (s.updCxl p f).meet = s.meet := rfl
@[simp] theorem State.updCxl_l2 (s : State) (p : Nat) (f : CxlPort → CxlPort) : (s.updCxl p f).l2 = s.l2 := rfl
@[simp] theorem State.updCxl_hwHeld (s : State) (p : Nat) (f : CxlPort → CxlPort) : (s.updCxl p f).hwHeld = s.hwHeld := rfl
@[simp] theorem State.updCxl_dmas (s : State) (p : Nat) (f : CxlPort → CxlPort) : (s.updCxl p f).dmas = s.dmas := rfl
@[simp] theorem State.updCxl_cmp (s : State) (p : Nat) (f : CxlPort → CxlPort) : (s.updCxl p f).cmp = s.cmp := rfl
@[simp] theorem State.updCxl_eths (s : State) (p : Nat) (f : CxlPort → CxlPort) : (s.updCxl p f).eths = s.eths := rfl
@[simp] theorem State.updCxl_mboxes (s : State) (p : Nat) (f : CxlPort → CxlPort) : (s.updCxl p f).mboxes = s.mboxes := rfl
@[simp] theorem State.updCxl_zsp (s : State) (p : Nat) (f : CxlPort → CxlPort) : (s.updCxl p f).zsp = s.zsp := rfl
@[simp] theorem State.updCxl_sigs (s : State) (p : Nat) (f : CxlPort → CxlPort) : (s.updCxl p f).sigs = s.sigs := rfl
@[simp] theorem State.updCxl_mot (s : State) (p : Nat) (f : CxlPort → CxlPort) : (s.updCxl p f).mot = s.mot := rfl
@[simp] theorem State.updCxl_fl (s : State) (p : Nat) (f : CxlPort → CxlPort) : (s.updCxl p f).fl = s.fl := rfl
@[simp] theorem State.updCxl_boot (s : State) (p : Nat) (f : CxlPort → CxlPort) : (s.updCxl p f).boot = s.boot := rfl
@[simp] theorem State.updCxl_freeCtr (s : State) (p : Nat) (f : CxlPort → CxlPort) : (s.updCxl p f).freeCtr = s.freeCtr := rfl

@[simp] theorem State.updSig_pending (s : State) (k : Nat) (f : SigCh → SigCh) : (s.updSig k f).pending = s.pending := rfl
@[simp] theorem State.updSig_regs (s : State) (k : Nat) (f : SigCh → SigCh) : (s.updSig k f).regs = s.regs := rfl
@[simp] theorem State.updSig_resp (s : State) (k : Nat) (f : SigCh → SigCh) : (s.updSig k f).resp = s.resp := rfl
@[simp] theorem State.updSig_pwr (s : State) (k : Nat) (f : SigCh → SigCh) : (s.updSig k f).pwr = s.pwr := rfl
@[simp] theorem State.updSig_sec (s : State) (k : Nat) (f : SigCh → SigCh) : (s.updSig k f).sec = s.sec := rfl
@[simp] theorem State.updSig_tick (s : State) (k : Nat) (f : SigCh → SigCh) : (s.updSig k f).tick = s.tick := rfl
@[simp] theorem State.updSig_times (s : State) (k : Nat) (f : SigCh → SigCh) : (s.updSig k f).times = s.times := rfl
@[simp] theorem State.updSig_encs (s : State) (k : Nat) (f : SigCh → SigCh) : (s.updSig k f).encs = s.encs := rfl
@[simp] theorem State.updSig_pt (s : State) (k : Nat) (f : SigCh → SigCh) : (s.updSig k f).pt = s.pt := rfl
@[simp] theorem State.updSig_evt (s : State) (k : Nat) (f : SigCh → SigCh) : (s.updSig k f).evt = s.evt := rfl
@[simp] theorem State.updSig_lanes (s : State) (k : Nat) (f : SigCh → SigCh) : (s.updSig k f).lanes = s.lanes := rfl
@[simp] theorem State.updSig_cams (s : State) (k : Nat) (f : SigCh → SigCh) : (s.updSig k f).cams = s.cams := rfl
@[simp] theorem State.updSig_ius (s : State) (k : Nat) (f : SigCh → SigCh) : (s.updSig k f).ius = s.ius := rfl
@[simp] theorem State.updSig_lamp (s : State) (k : Nat) (f : SigCh → SigCh) : (s.updSig k f).lamp = s.lamp := rfl
@[simp] theorem State.updSig_engs (s : State) (k : Nat) (f : SigCh → SigCh) : (s.updSig k f).engs = s.engs := rfl
@[simp] theorem State.updSig_accord (s : State) (k : Nat) (f : SigCh → SigCh) : (s.updSig k f).accord = s.accord := rfl
@[simp] theorem State.updSig_ref (s : State) (k : Nat) (f : SigCh → SigCh) : (s.updSig k f).ref = s.ref := rfl
@[simp] theorem State.updSig_sil (s : State) (k : Nat) (f : SigCh → SigCh) : (s.updSig k f).sil = s.sil := rfl
@[simp] theorem State.updSig_rpt (s : State) (k : Nat) (f : SigCh → SigCh) : (s.updSig k f).rpt = s.rpt := rfl
@[simp] theorem State.updSig_span (s : State) (k : Nat) (f : SigCh → SigCh) : (s.updSig k f).span = s.span := rfl
@[simp] theorem State.updSig_spanPorts (s : State) (k : Nat) (f : SigCh → SigCh) : (s.updSig k f).spanPorts = s.spanPorts := rfl
@[simp] theorem State.updSig_mem (s : State) (k : Nat) (f : SigCh → SigCh) : (s.updSig k f).mem = s.mem := rfl
@[simp] theorem State.updSig_blt (s : State) (k : Nat) (f : SigCh → SigCh) : (s.updSig k f).blt = s.blt := rfl
@[simp] theorem State.updSig_meet (s : State) (k : Nat) (f : SigCh → SigCh) : (s.updSig k f).meet = s.meet := rfl
@[simp] theorem State.updSig_l2 (s : State) (k : Nat) (f : SigCh → SigCh) : (s.updSig k f).l2 = s.l2 := rfl
@[simp] theorem State.updSig_hwHeld (s : State) (k : Nat) (f : SigCh → SigCh) : (s.updSig k f).hwHeld = s.hwHeld := rfl
@[simp] theorem State.updSig_cxl (s : State) (k : Nat) (f : SigCh → SigCh) : (s.updSig k f).cxl = s.cxl := rfl
@[simp] theorem State.updSig_dmas (s : State) (k : Nat) (f : SigCh → SigCh) : (s.updSig k f).dmas = s.dmas := rfl
@[simp] theorem State.updSig_cmp (s : State) (k : Nat) (f : SigCh → SigCh) : (s.updSig k f).cmp = s.cmp := rfl
@[simp] theorem State.updSig_eths (s : State) (k : Nat) (f : SigCh → SigCh) : (s.updSig k f).eths = s.eths := rfl
@[simp] theorem State.updSig_mboxes (s : State) (k : Nat) (f : SigCh → SigCh) : (s.updSig k f).mboxes = s.mboxes := rfl
@[simp] theorem State.updSig_zsp (s : State) (k : Nat) (f : SigCh → SigCh) : (s.updSig k f).zsp = s.zsp := rfl
@[simp] theorem State.updSig_mot (s : State) (k : Nat) (f : SigCh → SigCh) : (s.updSig k f).mot = s.mot := rfl
@[simp] theorem State.updSig_fl (s : State) (k : Nat) (f : SigCh → SigCh) : (s.updSig k f).fl = s.fl := rfl
@[simp] theorem State.updSig_boot (s : State) (k : Nat) (f : SigCh → SigCh) : (s.updSig k f).boot = s.boot := rfl
@[simp] theorem State.updSig_freeCtr (s : State) (k : Nat) (f : SigCh → SigCh) : (s.updSig k f).freeCtr = s.freeCtr := rfl

@[simp] theorem State.updSpan_pending (s : State) (p : Nat) (f : SpanPort → SpanPort) : (s.updSpan p f).pending = s.pending := rfl
@[simp] theorem State.updSpan_regs (s : State) (p : Nat) (f : SpanPort → SpanPort) : (s.updSpan p f).regs = s.regs := rfl
@[simp] theorem State.updSpan_resp (s : State) (p : Nat) (f : SpanPort → SpanPort) : (s.updSpan p f).resp = s.resp := rfl
@[simp] theorem State.updSpan_pwr (s : State) (p : Nat) (f : SpanPort → SpanPort) : (s.updSpan p f).pwr = s.pwr := rfl
@[simp] theorem State.updSpan_sec (s : State) (p : Nat) (f : SpanPort → SpanPort) : (s.updSpan p f).sec = s.sec := rfl
@[simp] theorem State.updSpan_tick (s : State) (p : Nat) (f : SpanPort → SpanPort) : (s.updSpan p f).tick = s.tick := rfl
@[simp] theorem State.updSpan_times (s : State) (p : Nat) (f : SpanPort → SpanPort) : (s.updSpan p f).times = s.times := rfl
@[simp] theorem State.updSpan_encs (s : State) (p : Nat) (f : SpanPort → SpanPort) : (s.updSpan p f).encs = s.encs := rfl
@[simp] theorem State.updSpan_pt (s : State) (p : Nat) (f : SpanPort → SpanPort) : (s.updSpan p f).pt = s.pt := rfl
@[simp] theorem State.updSpan_evt (s : State) (p : Nat) (f : SpanPort → SpanPort) : (s.updSpan p f).evt = s.evt := rfl
@[simp] theorem State.updSpan_lanes (s : State) (p : Nat) (f : SpanPort → SpanPort) : (s.updSpan p f).lanes = s.lanes := rfl
@[simp] theorem State.updSpan_cams (s : State) (p : Nat) (f : SpanPort → SpanPort) : (s.updSpan p f).cams = s.cams := rfl
@[simp] theorem State.updSpan_ius (s : State) (p : Nat) (f : SpanPort → SpanPort) : (s.updSpan p f).ius = s.ius := rfl
@[simp] theorem State.updSpan_lamp (s : State) (p : Nat) (f : SpanPort → SpanPort) : (s.updSpan p f).lamp = s.lamp := rfl
@[simp] theorem State.updSpan_engs (s : State) (p : Nat) (f : SpanPort → SpanPort) : (s.updSpan p f).engs = s.engs := rfl
@[simp] theorem State.updSpan_accord (s : State) (p : Nat) (f : SpanPort → SpanPort) : (s.updSpan p f).accord = s.accord := rfl
@[simp] theorem State.updSpan_ref (s : State) (p : Nat) (f : SpanPort → SpanPort) : (s.updSpan p f).ref = s.ref := rfl
@[simp] theorem State.updSpan_sil (s : State) (p : Nat) (f : SpanPort → SpanPort) : (s.updSpan p f).sil = s.sil := rfl
@[simp] theorem State.updSpan_rpt (s : State) (p : Nat) (f : SpanPort → SpanPort) : (s.updSpan p f).rpt = s.rpt := rfl
@[simp] theorem State.updSpan_span (s : State) (p : Nat) (f : SpanPort → SpanPort) : (s.updSpan p f).span = s.span := rfl
@[simp] theorem State.updSpan_mem (s : State) (p : Nat) (f : SpanPort → SpanPort) : (s.updSpan p f).mem = s.mem := rfl
@[simp] theorem State.updSpan_blt (s : State) (p : Nat) (f : SpanPort → SpanPort) : (s.updSpan p f).blt = s.blt := rfl
@[simp] theorem State.updSpan_meet (s : State) (p : Nat) (f : SpanPort → SpanPort) : (s.updSpan p f).meet = s.meet := rfl
@[simp] theorem State.updSpan_l2 (s : State) (p : Nat) (f : SpanPort → SpanPort) : (s.updSpan p f).l2 = s.l2 := rfl
@[simp] theorem State.updSpan_hwHeld (s : State) (p : Nat) (f : SpanPort → SpanPort) : (s.updSpan p f).hwHeld = s.hwHeld := rfl
@[simp] theorem State.updSpan_cxl (s : State) (p : Nat) (f : SpanPort → SpanPort) : (s.updSpan p f).cxl = s.cxl := rfl
@[simp] theorem State.updSpan_dmas (s : State) (p : Nat) (f : SpanPort → SpanPort) : (s.updSpan p f).dmas = s.dmas := rfl
@[simp] theorem State.updSpan_cmp (s : State) (p : Nat) (f : SpanPort → SpanPort) : (s.updSpan p f).cmp = s.cmp := rfl
@[simp] theorem State.updSpan_eths (s : State) (p : Nat) (f : SpanPort → SpanPort) : (s.updSpan p f).eths = s.eths := rfl
@[simp] theorem State.updSpan_mboxes (s : State) (p : Nat) (f : SpanPort → SpanPort) : (s.updSpan p f).mboxes = s.mboxes := rfl
@[simp] theorem State.updSpan_zsp (s : State) (p : Nat) (f : SpanPort → SpanPort) : (s.updSpan p f).zsp = s.zsp := rfl
@[simp] theorem State.updSpan_sigs (s : State) (p : Nat) (f : SpanPort → SpanPort) : (s.updSpan p f).sigs = s.sigs := rfl
@[simp] theorem State.updSpan_mot (s : State) (p : Nat) (f : SpanPort → SpanPort) : (s.updSpan p f).mot = s.mot := rfl
@[simp] theorem State.updSpan_fl (s : State) (p : Nat) (f : SpanPort → SpanPort) : (s.updSpan p f).fl = s.fl := rfl
@[simp] theorem State.updSpan_boot (s : State) (p : Nat) (f : SpanPort → SpanPort) : (s.updSpan p f).boot = s.boot := rfl
@[simp] theorem State.updSpan_freeCtr (s : State) (p : Nat) (f : SpanPort → SpanPort) : (s.updSpan p f).freeCtr = s.freeCtr := rfl

@[simp] theorem State.updMarker_pending (s : State) (k : Nat) (f : Marker → Marker) : (s.updMarker k f).pending = s.pending := rfl
@[simp] theorem State.updMarker_regs (s : State) (k : Nat) (f : Marker → Marker) : (s.updMarker k f).regs = s.regs := rfl
@[simp] theorem State.updMarker_resp (s : State) (k : Nat) (f : Marker → Marker) : (s.updMarker k f).resp = s.resp := rfl
@[simp] theorem State.updMarker_pwr (s : State) (k : Nat) (f : Marker → Marker) : (s.updMarker k f).pwr = s.pwr := rfl
@[simp] theorem State.updMarker_sec (s : State) (k : Nat) (f : Marker → Marker) : (s.updMarker k f).sec = s.sec := rfl
@[simp] theorem State.updMarker_tick (s : State) (k : Nat) (f : Marker → Marker) : (s.updMarker k f).tick = s.tick := rfl
@[simp] theorem State.updMarker_times (s : State) (k : Nat) (f : Marker → Marker) : (s.updMarker k f).times = s.times := rfl
@[simp] theorem State.updMarker_encs (s : State) (k : Nat) (f : Marker → Marker) : (s.updMarker k f).encs = s.encs := rfl
@[simp] theorem State.updMarker_pt (s : State) (k : Nat) (f : Marker → Marker) : (s.updMarker k f).pt = s.pt := rfl
@[simp] theorem State.updMarker_evt (s : State) (k : Nat) (f : Marker → Marker) : (s.updMarker k f).evt = s.evt := rfl
@[simp] theorem State.updMarker_lanes (s : State) (k : Nat) (f : Marker → Marker) : (s.updMarker k f).lanes = s.lanes := rfl
@[simp] theorem State.updMarker_cams (s : State) (k : Nat) (f : Marker → Marker) : (s.updMarker k f).cams = s.cams := rfl
@[simp] theorem State.updMarker_ius (s : State) (k : Nat) (f : Marker → Marker) : (s.updMarker k f).ius = s.ius := rfl
@[simp] theorem State.updMarker_lamp (s : State) (k : Nat) (f : Marker → Marker) : (s.updMarker k f).lamp = s.lamp := rfl
@[simp] theorem State.updMarker_engs (s : State) (k : Nat) (f : Marker → Marker) : (s.updMarker k f).engs = s.engs := rfl
@[simp] theorem State.updMarker_accord (s : State) (k : Nat) (f : Marker → Marker) : (s.updMarker k f).accord = s.accord := rfl
@[simp] theorem State.updMarker_ref (s : State) (k : Nat) (f : Marker → Marker) : (s.updMarker k f).ref = s.ref := rfl
@[simp] theorem State.updMarker_sil (s : State) (k : Nat) (f : Marker → Marker) : (s.updMarker k f).sil = s.sil := rfl
@[simp] theorem State.updMarker_span (s : State) (k : Nat) (f : Marker → Marker) : (s.updMarker k f).span = s.span := rfl
@[simp] theorem State.updMarker_spanPorts (s : State) (k : Nat) (f : Marker → Marker) : (s.updMarker k f).spanPorts = s.spanPorts := rfl
@[simp] theorem State.updMarker_mem (s : State) (k : Nat) (f : Marker → Marker) : (s.updMarker k f).mem = s.mem := rfl
@[simp] theorem State.updMarker_blt (s : State) (k : Nat) (f : Marker → Marker) : (s.updMarker k f).blt = s.blt := rfl
@[simp] theorem State.updMarker_meet (s : State) (k : Nat) (f : Marker → Marker) : (s.updMarker k f).meet = s.meet := rfl
@[simp] theorem State.updMarker_l2 (s : State) (k : Nat) (f : Marker → Marker) : (s.updMarker k f).l2 = s.l2 := rfl
@[simp] theorem State.updMarker_hwHeld (s : State) (k : Nat) (f : Marker → Marker) : (s.updMarker k f).hwHeld = s.hwHeld := rfl
@[simp] theorem State.updMarker_cxl (s : State) (k : Nat) (f : Marker → Marker) : (s.updMarker k f).cxl = s.cxl := rfl
@[simp] theorem State.updMarker_dmas (s : State) (k : Nat) (f : Marker → Marker) : (s.updMarker k f).dmas = s.dmas := rfl
@[simp] theorem State.updMarker_cmp (s : State) (k : Nat) (f : Marker → Marker) : (s.updMarker k f).cmp = s.cmp := rfl
@[simp] theorem State.updMarker_eths (s : State) (k : Nat) (f : Marker → Marker) : (s.updMarker k f).eths = s.eths := rfl
@[simp] theorem State.updMarker_mboxes (s : State) (k : Nat) (f : Marker → Marker) : (s.updMarker k f).mboxes = s.mboxes := rfl
@[simp] theorem State.updMarker_zsp (s : State) (k : Nat) (f : Marker → Marker) : (s.updMarker k f).zsp = s.zsp := rfl
@[simp] theorem State.updMarker_sigs (s : State) (k : Nat) (f : Marker → Marker) : (s.updMarker k f).sigs = s.sigs := rfl
@[simp] theorem State.updMarker_mot (s : State) (k : Nat) (f : Marker → Marker) : (s.updMarker k f).mot = s.mot := rfl
@[simp] theorem State.updMarker_fl (s : State) (k : Nat) (f : Marker → Marker) : (s.updMarker k f).fl = s.fl := rfl
@[simp] theorem State.updMarker_boot (s : State) (k : Nat) (f : Marker → Marker) : (s.updMarker k f).boot = s.boot := rfl
@[simp] theorem State.updMarker_freeCtr (s : State) (k : Nat) (f : Marker → Marker) : (s.updMarker k f).freeCtr = s.freeCtr := rfl

@[simp] theorem State.updMot_pending (s : State) (f : Mot → Mot) : (s.updMot f).pending = s.pending := rfl
@[simp] theorem State.updMot_regs (s : State) (f : Mot → Mot) : (s.updMot f).regs = s.regs := rfl
@[simp] theorem State.updMot_resp (s : State) (f : Mot → Mot) : (s.updMot f).resp = s.resp := rfl
@[simp] theorem State.updMot_pwr (s : State) (f : Mot → Mot) : (s.updMot f).pwr = s.pwr := rfl
@[simp] theorem State.updMot_sec (s : State) (f : Mot → Mot) : (s.updMot f).sec = s.sec := rfl
@[simp] theorem State.updMot_tick (s : State) (f : Mot → Mot) : (s.updMot f).tick = s.tick := rfl
@[simp] theorem State.updMot_times (s : State) (f : Mot → Mot) : (s.updMot f).times = s.times := rfl
@[simp] theorem State.updMot_encs (s : State) (f : Mot → Mot) : (s.updMot f).encs = s.encs := rfl
@[simp] theorem State.updMot_pt (s : State) (f : Mot → Mot) : (s.updMot f).pt = s.pt := rfl
@[simp] theorem State.updMot_evt (s : State) (f : Mot → Mot) : (s.updMot f).evt = s.evt := rfl
@[simp] theorem State.updMot_lanes (s : State) (f : Mot → Mot) : (s.updMot f).lanes = s.lanes := rfl
@[simp] theorem State.updMot_cams (s : State) (f : Mot → Mot) : (s.updMot f).cams = s.cams := rfl
@[simp] theorem State.updMot_ius (s : State) (f : Mot → Mot) : (s.updMot f).ius = s.ius := rfl
@[simp] theorem State.updMot_lamp (s : State) (f : Mot → Mot) : (s.updMot f).lamp = s.lamp := rfl
@[simp] theorem State.updMot_engs (s : State) (f : Mot → Mot) : (s.updMot f).engs = s.engs := rfl
@[simp] theorem State.updMot_accord (s : State) (f : Mot → Mot) : (s.updMot f).accord = s.accord := rfl
@[simp] theorem State.updMot_ref (s : State) (f : Mot → Mot) : (s.updMot f).ref = s.ref := rfl
@[simp] theorem State.updMot_sil (s : State) (f : Mot → Mot) : (s.updMot f).sil = s.sil := rfl
@[simp] theorem State.updMot_rpt (s : State) (f : Mot → Mot) : (s.updMot f).rpt = s.rpt := rfl
@[simp] theorem State.updMot_span (s : State) (f : Mot → Mot) : (s.updMot f).span = s.span := rfl
@[simp] theorem State.updMot_spanPorts (s : State) (f : Mot → Mot) : (s.updMot f).spanPorts = s.spanPorts := rfl
@[simp] theorem State.updMot_mem (s : State) (f : Mot → Mot) : (s.updMot f).mem = s.mem := rfl
@[simp] theorem State.updMot_blt (s : State) (f : Mot → Mot) : (s.updMot f).blt = s.blt := rfl
@[simp] theorem State.updMot_meet (s : State) (f : Mot → Mot) : (s.updMot f).meet = s.meet := rfl
@[simp] theorem State.updMot_l2 (s : State) (f : Mot → Mot) : (s.updMot f).l2 = s.l2 := rfl
@[simp] theorem State.updMot_hwHeld (s : State) (f : Mot → Mot) : (s.updMot f).hwHeld = s.hwHeld := rfl
@[simp] theorem State.updMot_cxl (s : State) (f : Mot → Mot) : (s.updMot f).cxl = s.cxl := rfl
@[simp] theorem State.updMot_dmas (s : State) (f : Mot → Mot) : (s.updMot f).dmas = s.dmas := rfl
@[simp] theorem State.updMot_cmp (s : State) (f : Mot → Mot) : (s.updMot f).cmp = s.cmp := rfl
@[simp] theorem State.updMot_eths (s : State) (f : Mot → Mot) : (s.updMot f).eths = s.eths := rfl
@[simp] theorem State.updMot_mboxes (s : State) (f : Mot → Mot) : (s.updMot f).mboxes = s.mboxes := rfl
@[simp] theorem State.updMot_zsp (s : State) (f : Mot → Mot) : (s.updMot f).zsp = s.zsp := rfl
@[simp] theorem State.updMot_sigs (s : State) (f : Mot → Mot) : (s.updMot f).sigs = s.sigs := rfl
@[simp] theorem State.updMot_fl (s : State) (f : Mot → Mot) : (s.updMot f).fl = s.fl := rfl
@[simp] theorem State.updMot_boot (s : State) (f : Mot → Mot) : (s.updMot f).boot = s.boot := rfl
@[simp] theorem State.updMot_freeCtr (s : State) (f : Mot → Mot) : (s.updMot f).freeCtr = s.freeCtr := rfl

@[simp] theorem State.updFl_pending (s : State) (f : Flacon → Flacon) : (s.updFl f).pending = s.pending := rfl
@[simp] theorem State.updFl_regs (s : State) (f : Flacon → Flacon) : (s.updFl f).regs = s.regs := rfl
@[simp] theorem State.updFl_resp (s : State) (f : Flacon → Flacon) : (s.updFl f).resp = s.resp := rfl
@[simp] theorem State.updFl_pwr (s : State) (f : Flacon → Flacon) : (s.updFl f).pwr = s.pwr := rfl
@[simp] theorem State.updFl_sec (s : State) (f : Flacon → Flacon) : (s.updFl f).sec = s.sec := rfl
@[simp] theorem State.updFl_tick (s : State) (f : Flacon → Flacon) : (s.updFl f).tick = s.tick := rfl
@[simp] theorem State.updFl_times (s : State) (f : Flacon → Flacon) : (s.updFl f).times = s.times := rfl
@[simp] theorem State.updFl_encs (s : State) (f : Flacon → Flacon) : (s.updFl f).encs = s.encs := rfl
@[simp] theorem State.updFl_pt (s : State) (f : Flacon → Flacon) : (s.updFl f).pt = s.pt := rfl
@[simp] theorem State.updFl_evt (s : State) (f : Flacon → Flacon) : (s.updFl f).evt = s.evt := rfl
@[simp] theorem State.updFl_lanes (s : State) (f : Flacon → Flacon) : (s.updFl f).lanes = s.lanes := rfl
@[simp] theorem State.updFl_cams (s : State) (f : Flacon → Flacon) : (s.updFl f).cams = s.cams := rfl
@[simp] theorem State.updFl_ius (s : State) (f : Flacon → Flacon) : (s.updFl f).ius = s.ius := rfl
@[simp] theorem State.updFl_lamp (s : State) (f : Flacon → Flacon) : (s.updFl f).lamp = s.lamp := rfl
@[simp] theorem State.updFl_engs (s : State) (f : Flacon → Flacon) : (s.updFl f).engs = s.engs := rfl
@[simp] theorem State.updFl_accord (s : State) (f : Flacon → Flacon) : (s.updFl f).accord = s.accord := rfl
@[simp] theorem State.updFl_ref (s : State) (f : Flacon → Flacon) : (s.updFl f).ref = s.ref := rfl
@[simp] theorem State.updFl_sil (s : State) (f : Flacon → Flacon) : (s.updFl f).sil = s.sil := rfl
@[simp] theorem State.updFl_rpt (s : State) (f : Flacon → Flacon) : (s.updFl f).rpt = s.rpt := rfl
@[simp] theorem State.updFl_span (s : State) (f : Flacon → Flacon) : (s.updFl f).span = s.span := rfl
@[simp] theorem State.updFl_spanPorts (s : State) (f : Flacon → Flacon) : (s.updFl f).spanPorts = s.spanPorts := rfl
@[simp] theorem State.updFl_mem (s : State) (f : Flacon → Flacon) : (s.updFl f).mem = s.mem := rfl
@[simp] theorem State.updFl_blt (s : State) (f : Flacon → Flacon) : (s.updFl f).blt = s.blt := rfl
@[simp] theorem State.updFl_meet (s : State) (f : Flacon → Flacon) : (s.updFl f).meet = s.meet := rfl
@[simp] theorem State.updFl_l2 (s : State) (f : Flacon → Flacon) : (s.updFl f).l2 = s.l2 := rfl
@[simp] theorem State.updFl_hwHeld (s : State) (f : Flacon → Flacon) : (s.updFl f).hwHeld = s.hwHeld := rfl
@[simp] theorem State.updFl_cxl (s : State) (f : Flacon → Flacon) : (s.updFl f).cxl = s.cxl := rfl
@[simp] theorem State.updFl_dmas (s : State) (f : Flacon → Flacon) : (s.updFl f).dmas = s.dmas := rfl
@[simp] theorem State.updFl_cmp (s : State) (f : Flacon → Flacon) : (s.updFl f).cmp = s.cmp := rfl
@[simp] theorem State.updFl_eths (s : State) (f : Flacon → Flacon) : (s.updFl f).eths = s.eths := rfl
@[simp] theorem State.updFl_mboxes (s : State) (f : Flacon → Flacon) : (s.updFl f).mboxes = s.mboxes := rfl
@[simp] theorem State.updFl_zsp (s : State) (f : Flacon → Flacon) : (s.updFl f).zsp = s.zsp := rfl
@[simp] theorem State.updFl_sigs (s : State) (f : Flacon → Flacon) : (s.updFl f).sigs = s.sigs := rfl
@[simp] theorem State.updFl_mot (s : State) (f : Flacon → Flacon) : (s.updFl f).mot = s.mot := rfl
@[simp] theorem State.updFl_boot (s : State) (f : Flacon → Flacon) : (s.updFl f).boot = s.boot := rfl
@[simp] theorem State.updFl_freeCtr (s : State) (f : Flacon → Flacon) : (s.updFl f).freeCtr = s.freeCtr := rfl

@[simp] theorem State.updTrk_pending (s : State) (e : Nat) (f : Tracker → Tracker) : (s.updTrk e f).pending = s.pending := rfl
@[simp] theorem State.updTrk_regs (s : State) (e : Nat) (f : Tracker → Tracker) : (s.updTrk e f).regs = s.regs := rfl
@[simp] theorem State.updTrk_resp (s : State) (e : Nat) (f : Tracker → Tracker) : (s.updTrk e f).resp = s.resp := rfl
@[simp] theorem State.updTrk_pwr (s : State) (e : Nat) (f : Tracker → Tracker) : (s.updTrk e f).pwr = s.pwr := rfl
@[simp] theorem State.updTrk_sec (s : State) (e : Nat) (f : Tracker → Tracker) : (s.updTrk e f).sec = s.sec := rfl
@[simp] theorem State.updTrk_tick (s : State) (e : Nat) (f : Tracker → Tracker) : (s.updTrk e f).tick = s.tick := rfl
@[simp] theorem State.updTrk_times (s : State) (e : Nat) (f : Tracker → Tracker) : (s.updTrk e f).times = s.times := rfl
@[simp] theorem State.updTrk_encs (s : State) (e : Nat) (f : Tracker → Tracker) : (s.updTrk e f).encs = s.encs := rfl
@[simp] theorem State.updTrk_pt (s : State) (e : Nat) (f : Tracker → Tracker) : (s.updTrk e f).pt = s.pt := rfl
@[simp] theorem State.updTrk_evt (s : State) (e : Nat) (f : Tracker → Tracker) : (s.updTrk e f).evt = s.evt := rfl
@[simp] theorem State.updTrk_lanes (s : State) (e : Nat) (f : Tracker → Tracker) : (s.updTrk e f).lanes = s.lanes := rfl
@[simp] theorem State.updTrk_cams (s : State) (e : Nat) (f : Tracker → Tracker) : (s.updTrk e f).cams = s.cams := rfl
@[simp] theorem State.updTrk_ius (s : State) (e : Nat) (f : Tracker → Tracker) : (s.updTrk e f).ius = s.ius := rfl
@[simp] theorem State.updTrk_lamp (s : State) (e : Nat) (f : Tracker → Tracker) : (s.updTrk e f).lamp = s.lamp := rfl
@[simp] theorem State.updTrk_engs (s : State) (e : Nat) (f : Tracker → Tracker) : (s.updTrk e f).engs = s.engs := rfl
@[simp] theorem State.updTrk_accord (s : State) (e : Nat) (f : Tracker → Tracker) : (s.updTrk e f).accord = s.accord := rfl
@[simp] theorem State.updTrk_sil (s : State) (e : Nat) (f : Tracker → Tracker) : (s.updTrk e f).sil = s.sil := rfl
@[simp] theorem State.updTrk_rpt (s : State) (e : Nat) (f : Tracker → Tracker) : (s.updTrk e f).rpt = s.rpt := rfl
@[simp] theorem State.updTrk_span (s : State) (e : Nat) (f : Tracker → Tracker) : (s.updTrk e f).span = s.span := rfl
@[simp] theorem State.updTrk_spanPorts (s : State) (e : Nat) (f : Tracker → Tracker) : (s.updTrk e f).spanPorts = s.spanPorts := rfl
@[simp] theorem State.updTrk_mem (s : State) (e : Nat) (f : Tracker → Tracker) : (s.updTrk e f).mem = s.mem := rfl
@[simp] theorem State.updTrk_blt (s : State) (e : Nat) (f : Tracker → Tracker) : (s.updTrk e f).blt = s.blt := rfl
@[simp] theorem State.updTrk_meet (s : State) (e : Nat) (f : Tracker → Tracker) : (s.updTrk e f).meet = s.meet := rfl
@[simp] theorem State.updTrk_l2 (s : State) (e : Nat) (f : Tracker → Tracker) : (s.updTrk e f).l2 = s.l2 := rfl
@[simp] theorem State.updTrk_hwHeld (s : State) (e : Nat) (f : Tracker → Tracker) : (s.updTrk e f).hwHeld = s.hwHeld := rfl
@[simp] theorem State.updTrk_cxl (s : State) (e : Nat) (f : Tracker → Tracker) : (s.updTrk e f).cxl = s.cxl := rfl
@[simp] theorem State.updTrk_dmas (s : State) (e : Nat) (f : Tracker → Tracker) : (s.updTrk e f).dmas = s.dmas := rfl
@[simp] theorem State.updTrk_cmp (s : State) (e : Nat) (f : Tracker → Tracker) : (s.updTrk e f).cmp = s.cmp := rfl
@[simp] theorem State.updTrk_eths (s : State) (e : Nat) (f : Tracker → Tracker) : (s.updTrk e f).eths = s.eths := rfl
@[simp] theorem State.updTrk_mboxes (s : State) (e : Nat) (f : Tracker → Tracker) : (s.updTrk e f).mboxes = s.mboxes := rfl
@[simp] theorem State.updTrk_zsp (s : State) (e : Nat) (f : Tracker → Tracker) : (s.updTrk e f).zsp = s.zsp := rfl
@[simp] theorem State.updTrk_sigs (s : State) (e : Nat) (f : Tracker → Tracker) : (s.updTrk e f).sigs = s.sigs := rfl
@[simp] theorem State.updTrk_mot (s : State) (e : Nat) (f : Tracker → Tracker) : (s.updTrk e f).mot = s.mot := rfl
@[simp] theorem State.updTrk_fl (s : State) (e : Nat) (f : Tracker → Tracker) : (s.updTrk e f).fl = s.fl := rfl
@[simp] theorem State.updTrk_boot (s : State) (e : Nat) (f : Tracker → Tracker) : (s.updTrk e f).boot = s.boot := rfl
@[simp] theorem State.updTrk_freeCtr (s : State) (e : Nat) (f : Tracker → Tracker) : (s.updTrk e f).freeCtr = s.freeCtr := rfl

/-! ### Reading a unit after an update -/

theorem State.dom_updDom (s : State) (x k' : Nat) (f : TimeDom → TimeDom) :
    (s.updDom x f).dom k' = if k' = x then f (s.dom x) else s.dom k' := look_upd ..
@[simp] theorem State.dom_updDom_self (s : State) (x : Nat) (f : TimeDom → TimeDom) : (s.updDom x f).dom x = f (s.dom x) :=
  look_upd_self ..

theorem State.enc_updEnc (s : State) (e k' : Nat) (f : Enc → Enc) :
    (s.updEnc e f).enc k' = if k' = e then f (s.enc e) else s.enc k' := look_upd ..
@[simp] theorem State.enc_updEnc_self (s : State) (e : Nat) (f : Enc → Enc) : (s.updEnc e f).enc e = f (s.enc e) :=
  look_upd_self ..

theorem State.lane_updLane (s : State) (j k' : Nat) (f : Lane → Lane) :
    (s.updLane j f).lane k' = if k' = j then f (s.lane j) else s.lane k' := look_upd ..
@[simp] theorem State.lane_updLane_self (s : State) (j : Nat) (f : Lane → Lane) : (s.updLane j f).lane j = f (s.lane j) :=
  look_upd_self ..

theorem State.cam_updCam (s : State) (p k' : Nat) (f : Cam → Cam) :
    (s.updCam p f).cam k' = if k' = p then f (s.cam p) else s.cam k' := look_upd ..
@[simp] theorem State.cam_updCam_self (s : State) (p : Nat) (f : Cam → Cam) : (s.updCam p f).cam p = f (s.cam p) :=
  look_upd_self ..

theorem State.iu_updIu (s : State) (c k' : Nat) (f : Iu → Iu) :
    (s.updIu c f).iu k' = if k' = c then f (s.iu c) else s.iu k' := look_upd ..
@[simp] theorem State.iu_updIu_self (s : State) (c : Nat) (f : Iu → Iu) : (s.updIu c f).iu c = f (s.iu c) :=
  look_upd_self ..

theorem State.eng_updEng (s : State) (e k' : Nat) (f : Eng → Eng) :
    (s.updEng e f).eng k' = if k' = e then f (s.eng e) else s.eng k' := look_upd ..
@[simp] theorem State.eng_updEng_self (s : State) (e : Nat) (f : Eng → Eng) : (s.updEng e f).eng e = f (s.eng e) :=
  look_upd_self ..

theorem State.dma_updDma (s : State) (k k' : Nat) (f : Dma → Dma) :
    (s.updDma k f).dma k' = if k' = k then f (s.dma k) else s.dma k' := look_upd ..
@[simp] theorem State.dma_updDma_self (s : State) (k : Nat) (f : Dma → Dma) : (s.updDma k f).dma k = f (s.dma k) :=
  look_upd_self ..

theorem State.sig_updSig (s : State) (k k' : Nat) (f : SigCh → SigCh) :
    (s.updSig k f).sig k' = if k' = k then f (s.sig k) else s.sig k' := look_upd ..
@[simp] theorem State.sig_updSig_self (s : State) (k : Nat) (f : SigCh → SigCh) : (s.updSig k f).sig k = f (s.sig k) :=
  look_upd_self ..

theorem State.spanPort_updSpan (s : State) (p k' : Nat) (f : SpanPort → SpanPort) :
    (s.updSpan p f).spanPort k' = if k' = p then f (s.spanPort p) else s.spanPort k' := look_upd ..
@[simp] theorem State.spanPort_updSpan_self (s : State) (p : Nat) (f : SpanPort → SpanPort) : (s.updSpan p f).spanPort p = f (s.spanPort p) :=
  look_upd_self ..

theorem State.marker_updMarker (s : State) (k k' : Nat) (f : Marker → Marker) :
    (s.updMarker k f).marker k' = if k' = k then f (s.marker k) else s.marker k' := look_upd ..
@[simp] theorem State.marker_updMarker_self (s : State) (k : Nat) (f : Marker → Marker) : (s.updMarker k f).marker k = f (s.marker k) :=
  look_upd_self ..

end Sys2Proof.Machine
end

