-- ==== Sys2Proof/Laws/Ops.lean ====
section
/-!
SUPPORT. Sys2Proof/Laws/Ops.lean: the shared operations: registers and fields, power conditions, complement-protected pairs, the
access check and a master's register write or read.
-/
namespace Sys2Proof.Machine

/-! ### Registers and fields -/

@[simp] theorem State.reg_setReg_self (s : State) (r : Reg) (i : Nat) (v : Word) : (s.setReg r i v).reg r i = v :=
  look_put_self ..

theorem State.reg_setReg_ne (s : State) {r r' : Reg} {i i' : Nat} (v : Word) (h : (r', i') ≠ (r, i)) :
    (s.setReg r i v).reg r' i' = s.reg r' i' := look_put_ne _ _ _ h

theorem State.reg_setReg (s : State) (r r' : Reg) (i i' : Nat) (v : Word) :
    (s.setReg r i v).reg r' i' = if (r', i') = (r, i) then v else s.reg r' i' := look_put ..

theorem State.reg_setFld_ne (s : State) (f : Fld) {r' : Reg} {i i' : Nat} (v : Nat) (h : (r', i') ≠ (f.reg, i)) :
    (s.setFld f i v).reg r' i' = s.reg r' i' := State.reg_setReg_ne s _ h

theorem State.reg_raise_ne (s : State) (f : Flag) {r' : Reg} {i i' : Nat} (h : (r', i') ≠ (f.reg, i))
    (h' : (r', i') ≠ (f.cnt, i)) : (s.raise f i).reg r' i' = s.reg r' i' := by
  unfold State.raise State.count
  rw [State.reg_setReg_ne _ _ h', State.reg_setReg_ne _ _ h]

/-- Registers depend on nothing but the register store. -/
theorem State.reg_congr {s t : State} (h : t.regs = s.regs) (r : Reg) (i : Nat) : t.reg r i = s.reg r i := by
  unfold State.reg; rw [h]

/-! ### What a register update keeps -/

theorem State.keeps_refl (s : State) (l : List RegKey) : s.keeps s l := fun _ _ _ => rfl

/-- Registers kept so far are kept by any step that changes only listed registers. -/
theorem State.keeps_trans {s t u : State} {l : List RegKey} (h : s.keeps t l) (h' : t.keeps u l) : s.keeps u l :=
  fun r i hn => (h' r i hn).trans (h r i hn)

theorem State.keeps_of_regs {s t : State} (h : t.regs = s.regs) (l : List RegKey) : s.keeps t l :=
  fun r i _ => State.reg_congr h r i

theorem State.keeps_setReg (s : State) {l : List RegKey} {r : Reg} {i : Nat} (v : Word) (h : (r, i) ∈ l) :
    s.keeps (s.setReg r i v) l := fun _ _ hn => State.reg_setReg_ne s v fun e => hn (e ▸ h)

theorem State.keeps_setFld (s : State) {l : List RegKey} {f : Fld} {i : Nat} (v : Nat) (h : (f.reg, i) ∈ l) :
    s.keeps (s.setFld f i v) l := State.keeps_setReg s _ h

theorem State.keeps_count (s : State) {l : List RegKey} {r : Reg} {i : Nat} (n top : Nat) (h : (r, i) ∈ l) :
    s.keeps (s.count r i n top) l := State.keeps_setReg s _ h

theorem State.keeps_raise (s : State) {l : List RegKey} {f : Flag} {i : Nat} (h : (f.reg, i) ∈ l)
    (h' : (f.cnt, i) ∈ l) : s.keeps (s.raise f i) l :=
  State.keeps_trans (State.keeps_setReg s _ h) (State.keeps_count _ _ _ h')

theorem State.keeps_raiseIf (s : State) (c : Bool) {l : List RegKey} {f : Flag} {i : Nat} (h : (f.reg, i) ∈ l)
    (h' : (f.cnt, i) ∈ l) : s.keeps (s.raiseIf c f i) l := by
  unfold State.raiseIf; split
  · exact State.keeps_raise s h h'
  · exact State.keeps_refl s l

/-- A flag just raised reads 1. -/
theorem State.flag_raise (s : State) (f : Flag) (i : Nat) (h : f.cnt ≠ f.reg) (hb : f.bit < 32) :
    (s.raise f i).flag f i = true := by
  have e : (s.raise f i).reg f.reg i = s.reg f.reg i ||| BitVec.ofNat 32 (2 ^ f.bit) := by
    unfold State.raise State.count
    rw [State.reg_setReg_ne _ _ (by simp [Ne.symm h]), State.reg_setReg_self]
  unfold State.flag
  rw [e]
  rw [BitVec.getLsbD_or, BitVec.getLsbD_ofNat, Nat.testBit_two_pow_self, decide_eq_true hb, Bool.and_self, Bool.or_true]

/-- The counter of a flag just raised has counted, saturating at 65,535 (R7). -/
theorem State.cnt_raise (s : State) (f : Flag) (i : Nat) (h : f.cnt ≠ f.reg) :
    (s.raise f i).reg f.cnt i = BitVec.ofNat 32 (min 0xFFFF ((s.reg f.cnt i).toNat + 1)) := by
  unfold State.raise State.count
  rw [State.reg_setReg_self, State.reg_setReg_ne _ _ (by simp [h])]

theorem bits_lt (v hi lo : Nat) : bits v hi lo < 2 ^ (hi + 1 - lo) := Nat.mod_lt _ (Nat.two_pow_pos _)

/-- A field written and read back holds the low bits of the value written. -/
theorem bits_setBits_self (v hi lo x : Nat) : bits (setBits v hi lo x) hi lo = x % 2 ^ (hi + 1 - lo) := by
  unfold setBits bits
  simp only [Nat.shiftRight_eq_div_pow]
  generalize hw : hi + 1 - lo = w
  have hp : 0 < 2 ^ lo := Nat.two_pow_pos lo
  have e1 : 2 ^ lo * (v / 2 ^ lo) + v % 2 ^ lo = v := Nat.div_add_mod v (2 ^ lo)
  have e2 : 2 ^ w * (v / 2 ^ lo / 2 ^ w) + v / 2 ^ lo % 2 ^ w = v / 2 ^ lo := Nat.div_add_mod _ _
  have e3 : v - v / 2 ^ lo % 2 ^ w * 2 ^ lo + x % 2 ^ w * 2 ^ lo
      = v % 2 ^ lo + 2 ^ lo * (2 ^ w * (v / 2 ^ lo / 2 ^ w) + x % 2 ^ w) := by
    rw [← e2, Nat.mul_add] at e1
    rw [Nat.mul_add, Nat.mul_comm (v / 2 ^ lo % 2 ^ w), Nat.mul_comm (x % 2 ^ w)]
    omega
  rw [e3, Nat.add_mul_div_left _ _ hp, Nat.div_eq_of_lt (Nat.mod_lt _ hp), Nat.zero_add, Nat.mul_add_mod,
    Nat.mod_mod]

theorem bits_mod (v hi lo : Nat) (h : hi < 32) : bits (v % 2 ^ 32) hi lo = bits v hi lo := by
  apply Nat.eq_of_testBit_eq
  intro j
  unfold bits
  simp only [Nat.testBit_mod_two_pow, Nat.testBit_shiftRight]
  by_cases hj : j < hi + 1 - lo
  · have : lo + j < 32 := by omega
    simp [this]
  · simp [hj]

/-- A field just stored reads the low bits of the value stored. -/
theorem State.fld_setFld (s : State) (f : Fld) (i v : Nat) (h : f.hi < 32) :
    (s.setFld f i v).fld f i = v % 2 ^ (f.hi + 1 - f.lo) := by
  unfold State.fld State.setFld
  rw [State.reg_setReg_self, BitVec.toNat_ofNat, bits_mod _ _ _ h, bits_setBits_self]

/-- A field of another register, or of another element, is not disturbed. -/
theorem State.fld_setFld_ne (s : State) (f g : Fld) {i i' : Nat} (v : Nat) (h : (g.reg, i') ≠ (f.reg, i)) :
    (s.setFld f i v).fld g i' = s.fld g i' := by
  unfold State.fld; rw [State.reg_setFld_ne s f v h]

/-! ### Power conditions (R392) -/

theorem State.powered_of_live {s : State} (h : s.live = true) : s.powered = true := by
  unfold State.live at h; unfold State.powered
  cases hp : s.pwr.st <;> simp_all

theorem State.whenLive_of {s : State} (h : s.live = true) (f : State → State) : s.whenLive f = f s := if_pos h
theorem State.whenPowered_of {s : State} (h : s.powered = true) (f : State → State) : s.whenPowered f = f s := if_pos h
theorem State.whenLive_not {s : State} (h : s.live = false) (f : State → State) : s.whenLive f = s := by
  simp [State.whenLive, h]
theorem State.whenPowered_not {s : State} (h : s.powered = false) (f : State → State) : s.whenPowered f = s := by
  simp [State.whenPowered, h]

/-! ### Pairs, the access check, register writes and reads -/

theorem State.checkPair_of {s : State} {r : Reg} {i : Nat} (h : s.pairOk r i = true) : s.checkPair r i = s := if_pos h

theorem State.checkTable_of {s : State} {t : Nat} (h : s.tableOk t) : s.checkTable t = s := by
  have key : ∀ l : List Nat, (∀ j ∈ l, j < 128) →
      l.foldl (fun s j => s.checkPair .SEC_AT (t * 128 + j)) s = s := by
    intro l
    induction l with
    | nil => intro _; rfl
    | cons j l ih =>
      intro hl
      rw [List.foldl_cons, State.checkPair_of (h j (hl j List.mem_cons_self))]
      exact ih fun k hk => hl k (List.mem_cons_of_mem _ hk)
  exact key _ fun j hj => List.mem_range.1 hj

/-- A permitted access of a target whose table passes its checks changes nothing by itself. -/
theorem State.access_of {s : State} {m t ofs len : Nat} {k : Kind} (h : s.tableOk t)
    (hp : s.permitted m t (ofs / 4096) ((ofs + len - 1) / 4096) k = true) (hl : flLinksOnly m t ofs = true) :
    s.access m t ofs len k = (true, s) := by
  unfold State.access
  simp only [State.checkTable_of h, hp, hl, Bool.and_self, if_true]

/-- A refused access of a target whose table passes its checks is logged. -/
theorem State.access_denied {s : State} {m t ofs len : Nat} {k : Kind} (h : s.tableOk t)
    (hp : s.permitted m t (ofs / 4096) ((ofs + len - 1) / 4096) k = false) :
    s.access m t ofs len k = (false, s.logDenied m t ofs k) := by
  unfold State.access
  simp [State.checkTable_of h, hp]

/-- A write that reaches its block in the present power state has its effect, and answers OK unless the effect answers otherwise. -/
theorem State.guardWrite_on {s : State} {m : Nat} {r : Reg} {i : Nat} (h : s.mayWriteOn m r i) (eff : State → State) :
    s.guardWrite m r i eff = eff s.answered := by
  obtain ⟨h1, h2, h3, h4, h5⟩ := h
  unfold State.guardWrite
  simp only [h1, h2, Bool.not_true, Bool.false_eq_true, if_false, if_true, State.access_of h3 h4 h5]
  rfl

/-- A write that reaches its block in Run or Hold reaches it in the present power state. -/
theorem State.mayWriteOn_of {s : State} {m : Nat} {r : Reg} {i : Nat} (h : s.mayWrite m r i) : s.mayWriteOn m r i :=
  ⟨by simp [State.answers, h.1], h.2.1, h.2.2.1, h.2.2.2.1, h.2.2.2.2⟩

/-- A write that reaches its block has its effect, and answers OK unless the effect answers otherwise. -/
theorem State.guardWrite_of {s : State} {m : Nat} {r : Reg} {i : Nat} (h : s.mayWrite m r i) (eff : State → State) :
    s.guardWrite m r i eff = eff s.answered := State.guardWrite_on (State.mayWriteOn_of h) eff

/-- A write by a master that is not heard after a halted boot changes nothing (R409). -/
theorem State.guardWrite_unheard {s : State} {m : Nat} (h : s.hears m = false) (r : Reg) (i : Nat) (eff : State → State) :
    s.guardWrite m r i eff = s := by simp [State.guardWrite, h]

/-- A write in Off changes nothing. -/
theorem State.guardWrite_off {s : State} (h : s.powered = false) (m : Nat) (r : Reg) (i : Nat) (eff : State → State) :
    s.guardWrite m r i eff = s := by
  have hl : s.live = false := by
    cases h' : s.live
    · rfl
    · rw [State.powered_of_live h'] at h; cases h
  simp [State.guardWrite, State.answers, h, hl]

end Sys2Proof.Machine
end

