-- ==== Sys2Proof/Laws/Events.lean ====
section
/-!
SUPPORT. Sys2Proof/Laws/Events.lean: everything an occurrence at the event router can do, said once: `State.routed`.
-/
namespace Sys2Proof.Machine

theorem State.routed_refl (s : State) : s.routed s := ⟨rfl, fun _ _ _ => rfl⟩

theorem State.routed_trans {s t u : State} (h : s.routed t) (h' : t.routed u) : s.routed u := by
  obtain ⟨e, k⟩ := h
  obtain ⟨e', k'⟩ := h'
  refine ⟨?_, fun r i hr => (k' r i hr).trans (k r i hr)⟩
  rw [e] at e'
  exact e'

/-- A change of router registers and of the other parts that `routed` leaves open. -/
theorem State.routed_setReg (s : State) {r : Reg} (i : Nat) (v : Word) (h : r ∈ routerRegs) : s.routed (s.setReg r i v) := by
  refine ⟨rfl, fun r' i' h' => State.reg_setReg_ne s v ?_⟩
  intro e; cases e; exact h' h

theorem State.routed_of_regs {s t : State} (h : t = { s with
    regs := t.regs, evt := t.evt, engs := t.engs, eths := t.eths, mot := t.mot
    pwr := { s.pwr with
      drain := t.pwr.drain, drainAt := t.pwr.drainAt, holdLine := t.pwr.holdLine, wake := t.pwr.wake }
    tick := { s.tick with hw := t.tick.hw, holdAdv := t.tick.holdAdv }
    ref := { s.ref with press := t.ref.press }
    boot := { s.boot with splice := t.boot.splice }
    zsp := { s.zsp with irqs := t.zsp.irqs } }) (hr : t.regs = s.regs) : s.routed t :=
  ⟨h, fun r i _ => State.reg_congr hr r i⟩

theorem State.routed_setFld (s : State) {f : Fld} (i v : Nat) (h : f.reg ∈ routerRegs) : s.routed (s.setFld f i v) :=
  State.routed_setReg s i _ h

theorem State.routed_count (s : State) {r : Reg} (i n top : Nat) (h : r ∈ routerRegs) : s.routed (s.count r i n top) :=
  State.routed_setReg s i _ h

theorem State.routed_raise (s : State) {f : Flag} (i : Nat) (h : f.reg ∈ routerRegs) (h' : f.cnt ∈ routerRegs) :
    s.routed (s.raise f i) :=
  State.routed_trans (State.routed_setReg s i _ h) (State.routed_count _ i _ _ h')

theorem State.routed_raiseIf (s : State) (c : Bool) {f : Flag} (i : Nat) (h : f.reg ∈ routerRegs)
    (h' : f.cnt ∈ routerRegs) : s.routed (s.raiseIf c f i) := by
  unfold State.raiseIf; split
  · exact State.routed_raise s i h h'
  · exact State.routed_refl s

theorem State.routed_irq (s : State) (c : String) : s.routed (s.irq c) := State.routed_of_regs rfl rfl

theorem State.routed_foldl {α : Type} (f : State → α → State) (hf : ∀ (s : State) (a : α), s.routed (f s a)) (l : List α) (s : State) :
    s.routed (l.foldl f s) := by
  induction l generalizing s with
  | nil => exact State.routed_refl s
  | cons a l ih => exact State.routed_trans (hf s a) (ih _)

theorem State.routed_ethNext (s : State) (p : Nat) : s.routed (s.ethNext p) := by
  unfold State.ethNext
  dsimp only
  split
  · exact State.routed_refl s
  · split
    · exact State.routed_of_regs rfl rfl
    · exact State.routed_refl s

theorem State.routed_zspSend (s : State) (q : Nat) (m : Msg) : s.routed (s.zspSend q m) := by
  unfold State.zspSend
  split
  · refine State.routed_trans ?_ (State.routed_ethNext _ _)
    exact State.routed_of_regs rfl rfl
  · exact State.routed_refl s

theorem State.routed_zspEvent (s : State) (c t : Nat) (pl : List Byte) : s.routed (s.zspEvent c t pl) := by
  unfold State.zspEvent
  refine State.routed_foldl _ ?_ _ _
  intro s e
  split
  · exact State.routed_zspSend ..
  · exact State.routed_refl s

theorem State.routed_dropStaged (s : State) : s.routed s.dropStaged := State.routed_of_regs rfl rfl

theorem State.routed_pstat (s : State) (n res chk eng : Nat) : s.routed (s.pstat n res chk eng) :=
  State.routed_trans (State.routed_trans (State.routed_trans (State.routed_setFld _ 0 _ (by decide))
    (State.routed_setFld _ 0 _ (by decide))) (State.routed_setFld _ 0 _ (by decide))) (State.routed_setFld _ 0 _ (by decide))

theorem State.routed_unsplice (s : State) : s.routed { s.dropStaged with boot := { s.boot with splice := none } } :=
  State.routed_trans (State.routed_dropStaged s) (State.routed_of_regs rfl rfl)

theorem State.routed_profEvent (s : State) (line : Nat) : s.routed (s.profEvent line) := State.routed_zspEvent ..

theorem State.routed_endSplice (s : State) (res chk eng : Nat) : s.routed (s.endSplice res chk eng) := by
  unfold State.endSplice
  refine State.routed_trans ?_ (State.routed_profEvent _ _)
  refine State.routed_trans ?_ (State.routed_unsplice _)
  generalize (s.boot.splice.map (·.prof.number)).getD (s.fld SYS_PSTAT_PROF) = n
  refine State.routed_trans (State.routed_pstat s n res chk eng) ?_
  generalize s.pstat n res chk eng = u
  exact State.routed_trans (State.routed_setFld u (f := SYS_PSTAT_BUSY) 0 0 (by decide))
    (State.routed_setFld _ (f := SYS_PSTAT_PEND) 0 0 (by decide))

theorem State.routed_requestHold (s : State) : s.routed s.requestHold := by
  unfold State.requestHold
  dsimp only
  split
  · split
    · split
      · split
        · refine State.routed_trans ?_ (State.routed_endSplice _ _ _ _)
          exact State.routed_of_regs rfl rfl
        · exact State.routed_of_regs rfl rfl
      · exact State.routed_of_regs rfl rfl
    · exact State.routed_of_regs rfl rfl
  · exact State.routed_refl s

theorem State.routed_motEstop (s : State) : s.routed s.motEstop := by
  unfold State.motEstop
  split <;> exact State.routed_of_regs rfl rfl

theorem State.routed_evtCapture (s : State) (k : Nat) : s.routed (s.evtCapture k) := by
  unfold State.evtCapture
  dsimp only
  split
  · exact State.routed_trans (State.routed_raiseIf s (look {} s.evt.caps k).held.isSome (f := EVT_STAT_CAP_OVR) 0
      (by decide) (by decide)) (State.routed_of_regs rfl rfl)
  · have h : ∀ g : Nat → Word, s.routed ((List.range 8).foldl (fun s i => s.setReg .EVT_CAP (k * 8 + i) (g i)) s) :=
      fun g => State.routed_foldl _ (fun s i => State.routed_setReg s _ _ (by decide)) _ s
    refine State.routed_trans (h fun i => BitVec.ofNat 32 (leNat
      (((s.entry s.posWord 0 (if (look {} s.evt.caps k).unread then 4 else 0)).drop (4 * i)).take 4))) ?_
    generalize List.foldl _ _ _ = t
    exact State.routed_of_regs rfl rfl

theorem State.routed_evtRelay (s : State) (n : Nat) : s.routed (s.evtRelay n) := by
  unfold State.evtRelay
  dsimp only
  split
  · exact State.routed_of_regs rfl rfl
  · split
    · exact State.routed_of_regs rfl rfl
    · refine State.routed_trans ?_ (State.routed_raise _ _ (by decide) (by decide))
      exact State.routed_of_regs rfl rfl

theorem State.routed_evtConsume (s : State) (c ch : Nat) : s.routed (s.evtConsume c ch) := by
  unfold State.evtConsume
  dsimp only
  repeat' split
  all_goals first
    | exact State.routed_refl s
    | exact State.routed_evtRelay ..
    | exact State.routed_requestHold s
    | exact State.routed_motEstop s
    | exact State.routed_evtCapture ..
    | exact State.routed_trans (State.routed_setReg s _ _ (by decide)) (State.routed_count _ _ _ _ (by decide))
    | exact State.routed_of_regs rfl rfl

theorem State.routed_evtCoin (s : State) (c : Nat) : s.routed (s.evtCoin c) := by
  unfold State.evtCoin
  dsimp only
  refine State.routed_trans (State.routed_setReg s _ _ ?_) (State.routed_count _ _ _ _ (by decide))
  split <;> decide

theorem State.routed_evtHigh (s : State) (c : Nat) : s.routed (s.evtHigh c) := by
  unfold State.evtHigh
  split
  · exact State.routed_of_regs rfl rfl
  · exact State.routed_refl s

theorem State.routed_evtInput (s : State) (high rising : List Nat) (c : Nat) : s.routed (s.evtInput high rising c) := by
  unfold State.evtInput
  split
  · exact State.routed_refl s
  · next ch more _ =>
    have h : s.routed ((if (high.any (s.evtLinked c) || !more.isEmpty) = true then s.evtCoin c else s).evtHigh c) := by
      refine State.routed_trans ?_ (State.routed_evtHigh ..)
      split
      · exact State.routed_evtCoin s c
      · exact State.routed_refl s
    dsimp only
    split
    · exact h
    · exact State.routed_trans h (State.routed_evtConsume ..)

/-- An occurrence of event channels changes only what `routed` names. -/
theorem State.routed_strobe (s : State) (chs : List Nat) : s.routed (s.strobe chs) := by
  unfold State.strobe
  dsimp only
  split
  · exact State.routed_refl s
  · exact State.routed_foldl _ (fun s c => State.routed_evtInput ..) _ s

theorem State.routed_strobeTimes (s : State) (ch n : Nat) : s.routed (s.strobeTimes ch n) := by
  induction n generalizing s with
  | zero => exact State.routed_refl s
  | succ n ih => exact State.routed_trans (State.routed_strobe s _) (ih _)

theorem State.routed_strobeUp (s : State) (ch : Nat) : s.routed (s.strobeUp ch) := by
  unfold State.strobeUp
  dsimp only
  split
  · exact State.routed_refl s
  · exact State.routed_trans (State.routed_strobe s _) (State.routed_of_regs rfl rfl)

theorem State.routed_strobeDown (s : State) (ch : Nat) : s.routed (s.strobeDown ch) := State.routed_of_regs rfl rfl

/-- Where no occurrence rises at any consumer input, a strobe changes nothing. -/
theorem State.strobe_unlinked (s : State) (chs : List Nat) (h : ∀ c < 45, ∀ ch ∈ chs, s.evtLinked c ch = false) :
    s.strobe chs = s := by
  have key : ∀ (rising l : List Nat), (∀ ch ∈ rising, ch ∈ chs) → (∀ c ∈ l, c < 45) →
      l.foldl (fun t c => t.evtInput t.evt.level rising c) s = s := by
    intro rising l hr
    induction l with
    | nil => intro _; rfl
    | cons c l ih =>
      intro hl
      rw [List.foldl_cons]
      have e : s.evtInput s.evt.level rising c = s := by
        unfold State.evtInput
        have : rising.filter (s.evtLinked c) = [] := by
          rw [List.filter_eq_nil_iff]
          intro ch hc
          rw [h c (hl c List.mem_cons_self) ch (hr ch hc)]; simp
        rw [this]
      rw [e]
      exact ih fun c hc => hl c (List.mem_cons_of_mem _ hc)
  unfold State.strobe
  dsimp only
  split
  · rfl
  · refine key _ _ ?_ (fun c hc => List.mem_range.1 hc)
    intro ch hc
    split at hc
    · exact hc
    · exact (List.mem_filter.1 hc).1

end Sys2Proof.Machine
end

