-- ==== Sys2Proof/Laws/Quezu.lean ====
section
/-!
SUPPORT. Sys2Proof/Laws/Quezu.lean: one cycle of an engine that issues one instruction, said once for each kind of result:
a write that completes at once, writes that stay outstanding, queue entries, nothing.
-/
namespace Sys2Proof.Machine

theorem put_put {κ α : Type} [DecidableEq κ] (v w : α) (t : Tab κ α) (k : κ) : put w (put v t k) k = put w t k := by
  induction t with
  | nil => simp [put]
  | cons e t ih =>
    obtain ⟨k', v'⟩ := e
    by_cases h : k' = k
    · simp [put, h]
    · simp [put, h, ih]

theorem upd_upd {κ α : Type} [DecidableEq κ] (d : α) (f g : α → α) (t : Tab κ α) (k : κ) :
    upd d f (upd d g t k) k = upd d (fun x => f (g x)) t k := by
  unfold upd
  rw [look_put_self, put_put]

theorem State.updEng_updEng (s : State) (e : Nat) (f g : Eng → Eng) :
    (s.updEng e g).updEng e f = s.updEng e fun x => f (g x) := by
  have h : upd ({} : Eng) f (upd {} g s.engs e) e = upd {} (fun x => f (g x)) s.engs e := upd_upd ..
  show { s with engs := upd {} f (upd {} g s.engs e) e } = { s with engs := upd {} (fun x => f (g x)) s.engs e }
  rw [h]

theorem State.updEng_congr (s : State) (e : Nat) {f g : Eng → Eng} (h : f (s.eng e) = g (s.eng e)) :
    s.updEng e f = s.updEng e g := by
  unfold State.updEng upd
  have : f (look {} s.engs e) = g (look {} s.engs e) := h
  rw [this]

theorem State.free_zero (s : State) : ({ s with freeCtr := s.freeCtr + 0 } : State) = s := rfl

/-- A cycle of one instruction without loop, transfer, denial or free value: its writes are issued, its entries pushed. -/
theorem State.engOne_of {s t : State} {e slot : Nat} {r : Run} {p : Prog} {op : Op} {wr : List (Nat × RegWr)}
    {q : List QEntry} (h : s.engReady e r p) (ho : op (s.iss e r p) = { wr := wr, push := q })
    (ht : t = (s.updEng e fun g => { g with
          pend := wr.map fun w => { left := w.1, slot := slot, wr := w.2 }
          run := some { r with cycles := r.cycles + 1 } }).engRetire e) :
    s.engOne e slot op =
      if (t.engPush e q).2 then (t.engPush e q).1.updEng e fun g => { g with run := some r.stepped }
      else (t.engPush e q).1.engFault e 2 := by
  obtain ⟨h1, h2, h3, h4, h5, h6, h7⟩ := h
  have ho' : op { s := s, e := e, g := s.eng e, p := p, r := r } = { wr := wr, push := q } := ho
  have hc : ¬ p.cost ≤ r.cycles := by omega
  have e1 : s.engIssue e r [(slot, ({ wr := wr, push := q } : Out))] = t := by
    rw [ht]
    unfold State.engIssue
    simp only [List.foldl_cons, List.foldl_nil, State.slotDeny, State.free_zero, List.flatMap_cons, List.flatMap_nil,
      List.append_nil, Option.getD_none, Bool.false_eq_true, if_false]
    congr 1
    apply State.updEng_congr
    rw [h6]
    rfl
  have e2 : slotOuts r [(slot, ({ wr := wr, push := q } : Out))] = (.none, [(slot, { wr := wr, push := q })]) := by
    simp [slotOuts, h7]
  have e3 : ({ r with cycles := r.cycles + 1 } : Run).advance p .none = r.stepped := by
    simp [Run.advance, h7, Run.stepped]
  unfold State.engOne
  rw [if_pos h1]
  unfold State.engCycle
  simp only [h2, h3, h4, hc, if_false, List.map_cons, List.map_nil, ho', e2]
  have e4 : [(slot, ({ wr := wr, push := q } : Out))].foldl (fun (r : Run) (o : Nat × Out) => o.2.run.getD r) r = r := rfl
  have e5 : [(slot, ({ wr := wr, push := q } : Out))].foldl (State.slotPush e)
      (s.engIssue e r [(slot, { wr := wr, push := q })], true) = t.engPush e q := by
    rw [e1]
    simp [State.slotPush]
  rw [e4, e5, e3]
  generalize t.engPush e q = x
  obtain ⟨x1, x2⟩ := x
  cases x2
  · rfl
  · simp [State.engNext]

theorem State.engPush_nil (s : State) (e : Nat) : s.engPush e [] = (s, true) := rfl

/-- Outstanding writes with more than one cycle left only come one cycle nearer. -/
theorem State.engRetire_waits {s : State} {e : Nat} (h : ∀ w ∈ (s.eng e).pend, 2 ≤ w.left) :
    s.engRetire e = s.updEng e fun g => { g with pend := g.pend.map fun w => { w with left := w.left - 1 } } := by
  have h0 : ((s.eng e).pend.map fun w => ({ w with left := w.left - 1 } : PendWr)).filter (·.left == 0) = [] := by
    rw [List.filter_eq_nil_iff]
    intro w hw
    obtain ⟨x, hx, rfl⟩ := List.mem_map.1 hw
    have := h x hx
    simp; omega
  have h1 : ((s.eng e).pend.map fun w => ({ w with left := w.left - 1 } : PendWr)).filter (·.left != 0)
      = (s.eng e).pend.map fun w => ({ w with left := w.left - 1 } : PendWr) := by
    rw [List.filter_eq_self]
    intro w hw
    obtain ⟨x, hx, rfl⟩ := List.mem_map.1 hw
    have := h x hx
    simp; omega
  unfold State.engRetire
  simp only [h0, h1, List.zipIdx_nil, List.any_nil, List.foldl_nil, Bool.false_eq_true, if_false]
  apply State.updEng_congr
  rfl

/-- The only outstanding write, with one cycle left, takes effect. -/
theorem State.engRetire_one {s : State} {e slot : Nat} {w : RegWr} (h : (s.eng e).pend = [{ left := 1, slot := slot, wr := w }])
    (hw : w.key.isSome = true) : s.engRetire e = s.updEng e fun g => ({ g with pend := [] } : Eng).write w := by
  unfold State.engRetire
  simp only [h, List.map_cons, List.map_nil]
  have hrow : ∀ a bs, w ≠ .row a bs := by
    intro a bs hc; subst hc; cases hw
  have e1 : [({ left := 1 - 1, slot := slot, wr := w } : PendWr)].filter (·.left == 0) = [{ left := 0, slot := slot, wr := w }] := rfl
  have e2 : [({ left := 1 - 1, slot := slot, wr := w } : PendWr)].filter (·.left != 0) = [] := rfl
  simp only [e1, e2, List.zipIdx_cons, List.zipIdx_nil, List.any_cons, List.any_nil, Bool.or_false, List.foldl_cons,
    List.foldl_nil, Nat.lt_irrefl, decide_false, Bool.false_and, Bool.false_eq_true, if_false]
  have e3 : PendWr.loses [({ left := 0, slot := slot, wr := w } : PendWr)] (decide (s.free % 2 = 1)) 0
      { left := 0, slot := slot, wr := w } = false := by
    simp [PendWr.loses]
  cases w with
  | row a bs => exact absurd rfl (hrow a bs)
  | _ =>
    simp only [PendWr.loses, List.zipIdx_cons, List.zipIdx_nil, List.any_cons, List.any_nil, bne_self_eq_false,
      Bool.false_and, Bool.or_false, Bool.false_eq_true, if_false]
    rw [State.updEng_updEng]

/-- One write that completes at once. -/
theorem State.engOne_wrote {s : State} {e slot : Nat} {r : Run} {p : Prog} {op : Op} {w : RegWr}
    (h : s.engReady e r p) (ho : op (s.iss e r p) = { wr := [(1, w)] }) (hw : w.key.isSome = true) :
    s.engOne e slot op = s.engWrote e r w := by
  rw [State.engOne_of h ho rfl]
  have h6 : (s.eng e).pend = [] := h.2.2.2.2.2.1
  rw [State.engRetire_one (slot := slot) (w := w) (by simp [State.eng_updEng_self]) hw]
  rw [State.engPush_nil, if_pos rfl, State.updEng_updEng, State.updEng_updEng]
  apply State.updEng_congr
  cases w <;> simp [Eng.write, Eng.vreg, Eng.areg, h6]
  all_goals split <;> simp [h6]

/-- Writes with a longer latency stay outstanding. -/
theorem State.engOne_holds {s : State} {e slot lat : Nat} {r : Run} {p : Prog} {op : Op} {ws : List RegWr}
    (h : s.engReady e r p) (ho : op (s.iss e r p) = { wr := ws.map fun w => (lat + 2, w) }) :
    s.engOne e slot op = s.engHolds e r slot (lat + 1) ws := by
  rw [State.engOne_of h ho rfl, State.engRetire_waits]
  · rw [State.engPush_nil, if_pos rfl, State.updEng_updEng, State.updEng_updEng]
    apply State.updEng_congr
    simp
  · intro w hw
    simp at hw
    obtain ⟨x, _, rfl⟩ := hw
    simp

/-- An instruction without any result. -/
theorem State.engOne_passed {s : State} {e slot : Nat} {r : Run} {p : Prog} {op : Op}
    (h : s.engReady e r p) (ho : op (s.iss e r p) = {}) : s.engOne e slot op = s.engPassed e r := by
  rw [State.engOne_of h ho rfl, State.engRetire_waits (by simp)]
  rw [State.engPush_nil, if_pos rfl, State.updEng_updEng, State.updEng_updEng]
  apply State.updEng_congr
  simp [h.2.2.2.2.2.1]

/-- Queue entries that find room. -/
theorem State.engOne_queued {s : State} {e slot : Nat} {r : Run} {p : Prog} {op : Op} {q : List QEntry}
    (h : s.engReady e r p) (ho : op (s.iss e r p) = { push := q }) (hq : q ≠ [])
    (hn : (s.eng e).queue.length + q.length ≤ 64) : s.engOne e slot op = s.engQueued e r q := by
  rw [State.engOne_of h ho rfl, State.engRetire_waits (by simp), State.updEng_updEng]
  have hq' : q.isEmpty = false := by cases q <;> simp_all
  have hn' : ¬ 64 < (s.eng e).queue.length + q.length := by omega
  unfold State.engPush
  simp only [hq', Bool.false_eq_true, if_false, State.eng_updEng_self, hn', if_true]
  unfold State.engQueued
  have e1 : ∀ (t : State) (f : Eng → Eng) (i v : Nat),
      (t.setFld SE_QPEAK_PEAK i v).updEng e f = (t.updEng e f).setFld SE_QPEAK_PEAK i v := fun _ _ _ _ => rfl
  rw [e1, State.updEng_updEng, State.updEng_updEng]
  congr 1
  apply State.updEng_congr
  simp [h.2.2.2.2.2.1]

end Sys2Proof.Machine
end

