-- ==== Sys2Proof/Machine/Pins.lean ====
section
/-!
DEFINITION. Sys2Proof/Machine/Pins.lean: the levels of the output pins that no other unit's file gives (R263, R271, R317, R357,
R415, R422). The gates of the carriage are State.motGates, the pass-through pins State.ptPins, the event pins State.evtPinOut.
-/
namespace Sys2Proof.Machine

/-- SDCLK runs: driven by SIG while it is enabled, by the always-on domain in Standby, and by the Flacon in FORM 1 while SIG does not
drive it (R317, R357, R415). -/
def State.sdclkRuns (s : State) : Bool :=
  match s.pwr.st with
  | .off => false
  | .standby => true
  | _ => s.on SIG_CTL_EN || (s.fl.st == .counting && s.fl.form == 1)

/-- XP_PERST_N of port p is high: released at the port's EN, and low again once the link is in L2 or the device in Off (R263, R271,
R415). -/
def State.perstHigh (s : State) (p : Nat) : Bool :=
  match s.pwr.st with
  | .off | .standby => false
  | _ => s.on CXL_P_CTL_EN p && (s.cxlp p).st != .l2

/-- XSPI_RST_N is high: released at boot stage 2, and low in Off and Standby (R415). -/
def State.xspiRstHigh (s : State) : Bool := s.live && decide (2 ≤ s.fld SYS_BOOT_STAGE)

/-- THERMTRIP_N is driven low; else it is released (R415, R422). -/
def State.thermTripLow (s : State) : Bool := s.pwr.thermTrip

end Sys2Proof.Machine
end

