-- ==== Sys2Proof/Tests/Slice0.lean ====
section
/-!
SUPPORT. Sys2Proof/Tests/Slice0.lean: an ill-formed command for each check of WellFormed; small tests with values from the
spec; and, for the statements with premises, states and operands that meet the premises.
-/
set_option maxRecDepth 100000
set_option linter.unusedVariables false
set_option Elab.async false

namespace Sys2Proof.Machine

/-! ### Ill-formed commands: one for each check of WellFormed -/

theorem test_wf_write_of_three_bytes : Instr.wf (.registerWrite 40 0x40000000 3 ⟨0, false⟩) = false := by decide
theorem test_wf_write_past_address_space : Instr.wf (.registerWrite 40 (2 ^ 64) 4 ⟨0, false⟩) = false := by decide
theorem test_wf_counter_clear_past_address_space : Instr.wf (.counterClear 40 (2 ^ 64) 0) = false := by decide
theorem test_wf_complement_past_address_space : Instr.wf (.rwcComplementWrite 40 (2 ^ 64) 0) = false := by decide
theorem test_wf_value_past_address_space : Instr.wf (.rwcValueWrite 40 (2 ^ 64) 0) = false := by decide
theorem test_wf_read_of_no_bytes : Instr.wf (.latchingRead 40 0x40000000 0) = false := by decide
theorem test_wf_edge_before_time : Instr.wf (.abEdge 0 true false (-1)) = false := by decide
theorem test_wf_observer_before_time : Instr.wf (.observerUpdate 0 (-1)) = false := by decide
theorem test_wf_frame_before_time : Instr.wf (.serialFrameStart 0 (-1)) = false := by decide
theorem test_wf_frame_of_49_bits : Instr.wf (.serialFrameEnd 0 (2 ^ 48)) = false := by decide
theorem test_wf_codeword_too_wide : Instr.wf (.codewordReceive 0 (2 ^ 5440) 0) = false := by decide +kernel
theorem test_wf_sweep_of_33 : Instr.wf (.retrainSweepEnd 0 (List.replicate 33 none)) = false := by decide
theorem test_wf_eye_count : Instr.wf (.eyeScanDone 0 (2 ^ 28 + 1)) = false := by decide
theorem test_wf_halo_header : Instr.wf (.haloLine 0 0 [] []) = false := by decide
theorem test_wf_seam_run_reversed : Instr.wf (.seamPacket 0 1 [(5, 4, 0)] [] false) = false := by decide
theorem test_wf_record_of_63 : Instr.wf (.forwardedRecord 0 (List.replicate 63 0)) = false := by decide
theorem test_wf_row_of_no_bank : Instr.wf (.blotterDone [(48, 0)]) = false := by decide
theorem test_wf_halt_offset : Instr.wf (.channelHalt 0 (2 ^ 32)) = false := by decide
theorem test_wf_pause_count : Instr.wf (.pauseDrained 0 (2 ^ 32)) = false := by decide
theorem test_wf_queue_of_no_number : Instr.wf (.ethFrameReceive 0 [4] [] none) = false := by decide
theorem test_wf_frame_too_long : Instr.wf (.ethFrameReceive 0 [] (List.replicate 1523 0) none) = false := by decide +kernel
theorem test_wf_request_id : Instr.wf (.stopReports 1 (2 ^ 32)) = false := by decide
theorem test_wf_echo_too_long : (∀ b : List Byte, b.length = 1048561 → Instr.wf (.echo 1 1 b) = false) := by
  intro b h; simp [Instr.wf, h]
theorem test_wf_job_name : Instr.wf (.jobStart 1 1 0 [] true) = false := by decide
theorem test_wf_part_too_long : (∀ b : List Byte, b.length = 1048553 → Instr.wf (.profileUpload 1 1 0 0 b) = false) := by
  intro b h; simp [Instr.wf, partOk, h]
theorem test_wf_install_too_long : (∀ b : List Byte, b.length = 1048553 → Instr.wf (.zspInstall 1 1 0 0 b) = false) := by
  intro b h; simp [Instr.wf, partOk, h]
theorem test_wf_nonce : Instr.wf (.quote 1 1 []) = false := by decide
theorem test_wf_sync_time : Instr.wf (.channelSync 0 (-1)) = false := by decide
theorem test_wf_straps : Instr.wf (.porstRelease ⟨[], [none, none, none], [], [], true, 0⟩) = false := by decide
theorem test_wf_wake_straps : Instr.wf (.wake ⟨[none, none], [none, none, none], [], [], true, 0⟩) = false := by decide
theorem test_reset_memory_and_queue : State.reset.memOk ∧ State.reset.queueOk :=
  ⟨⟨by decide, by decide, by decide⟩, by simp [State.queueOk, State.reset]⟩
theorem test_wf_accepts : Instr.wf (.registerWrite 40 0x40000000 4 ⟨0, false⟩) = true ∧ Instr.wf (.tick) = true := by decide

/-! ### The queue: the front command runs on the queue's rest -/

theorem test_step_takes_front :
    (match step { State.reset with pending := [.ovsNowClear, .tick] } with
      | .next t => decide (t.pending = [.tick])
      | _ => false) = true := by decide +kernel

/-! ### States and operands for the statements -/

/-- The access tables of a state that has not written them pass their checks. -/
theorem tableOk_of_untouched {s : State} (h : s.regs.all (fun e => decide (e.1.1 ≠ .SEC_AT) && decide (e.1.1 ≠ .SEC_ATC)) = true)
    (t : Nat) : s.tableOk t := by
  intro j _
  have look_of : ∀ (rs : Tab RegKey Word) (r : Reg) (i : Nat) (d : Word),
      rs.all (fun e => decide (e.1.1 ≠ r)) = true → look d rs (r, i) = d := by
    intro rs r i d
    induction rs with
    | nil => intro _; rfl
    | cons e rs ih =>
      intro he
      simp only [List.all_cons, Bool.and_eq_true, decide_eq_true_eq] at he
      obtain ⟨k, v⟩ := e
      simp only [look]
      rw [if_neg (fun hk => he.1 (by rw [hk]))]
      exact ih he.2
  have h1 : s.regs.all (fun e => decide (e.1.1 ≠ .SEC_AT)) = true := by
    rw [List.all_eq_true] at h ⊢; intro e he; have := h e he; simp_all
  have h2 : s.regs.all (fun e => decide (e.1.1 ≠ .SEC_ATC)) = true := by
    rw [List.all_eq_true] at h ⊢; intro e he; have := h e he; simp_all
  unfold State.pairOk State.reg
  rw [show complementOf Reg.SEC_AT = Reg.SEC_ATC from rfl, look_of _ _ _ _ h1, look_of _ _ _ _ h2]
  generalize t * 128 + j = i
  simp only [regReset]
  split
  · split
    · rfl
    · split
      · rfl
      · split <;> rfl
  · rfl

/-- An access of a state that has not written the access tables reaches the block where the tables permit it. -/
theorem reach {s : State} {m a : Nat} {k : Kind}
    (h : (s.live = true ∧ s.hears m = true) ∧ s.regs.all (fun e => decide (e.1.1 ≠ .SEC_AT) && decide (e.1.1 ≠ .SEC_ATC)) = true ∧
      s.permitted m (regTarget a) (a % 2 ^ 20 / 4096) ((a % 2 ^ 20 + 4 - 1) / 4096) k = true ∧
      flLinksOnly m (regTarget a) (a % 2 ^ 20) = true) : s.mayReach m a k :=
  ⟨h.1.1, h.1.2, tableOk_of_untouched h.2.1 _, h.2.2⟩

/-- A write in a state that has not written the access tables reaches its block in the present power state. -/
theorem reachOn {s : State} {m : Nat} {r : Reg} {i : Nat}
    (h : (s.answers (regTarget (regAddr r i)) = true ∧ s.hears m = true) ∧
      s.regs.all (fun e => decide (e.1.1 ≠ .SEC_AT) && decide (e.1.1 ≠ .SEC_ATC)) = true ∧
      s.permitted m (regTarget (regAddr r i)) (regAddr r i % 2 ^ 20 / 4096) ((regAddr r i % 2 ^ 20 + 4 - 1) / 4096) .w = true ∧
      flLinksOnly m (regTarget (regAddr r i)) (regAddr r i % 2 ^ 20) = true) : s.mayWriteOn m r i :=
  ⟨h.1.1, h.1.2, tableOk_of_untouched h.2.1 _, h.2.2⟩

/-- An access table whose pairs all pass. -/
theorem tableT {s : State} {t : Nat} (h : ((List.range 128).all fun j => s.pairOk .SEC_AT (t * 128 + j)) = true) : s.tableOk t :=
  fun j hj => List.all_eq_true.mp h j (List.mem_range.mpr hj)

/-- The same for an access in a state that has written access tables. -/
theorem reachT {s : State} {m a : Nat} {k : Kind}
    (h : (s.live = true ∧ s.hears m = true) ∧ ((List.range 128).all fun j => s.pairOk .SEC_AT (regTarget a * 128 + j)) = true ∧
      s.permitted m (regTarget a) (a % 2 ^ 20 / 4096) ((a % 2 ^ 20 + 4 - 1) / 4096) k = true ∧
      flLinksOnly m (regTarget a) (a % 2 ^ 20) = true) : s.mayReach m a k :=
  ⟨h.1.1, h.1.2, tableT h.2.1, h.2.2⟩

/-- The same for accesses of one kind at several addresses. -/
theorem reachAll {s : State} {m : Nat} {k : Kind} {n : Nat} {f : Nat → Nat}
    (h : (s.live = true ∧ s.hears m = true) ∧ ∀ i < n,
      ((List.range 128).all fun j => s.pairOk .SEC_AT (regTarget (f i) * 128 + j)) = true ∧
      s.permitted m (regTarget (f i)) (f i % 2 ^ 20 / 4096) ((f i % 2 ^ 20 + 4 - 1) / 4096) k = true ∧
      flLinksOnly m (regTarget (f i)) (f i % 2 ^ 20) = true) :
    ∀ i < n, s.mayReach m (f i) k :=
  fun i hi => ⟨h.1.1, h.1.2, tableT (h.2 i hi).1, (h.2 i hi).2⟩

/-- A pair or triple from its first component. -/
theorem pairOf {α β : Type} {p : α × β} {a : α} (h : p.1 = a) : p = (a, p.2) := Prod.ext h rfl
theorem tripleOf {α β γ : Type} {p : α × β × γ} {a : α} (h : p.1 = a) : p = (a, p.2.1, p.2.2) := Prod.ext h rfl

theorem quadOf {α β γ δ : Type} {p : α × β × γ × δ} {a : α} (h : p.1 = a) : p = (a, p.2.1, p.2.2.1, p.2.2.2) := Prod.ext h rfl

/-- What is absent meets every condition. -/
theorem noneOf {α : Type} {o : Option α} {P : α → Prop} (h : o = none) : ∀ c, o = some c → P c :=
  fun c hc => by rw [h] at hc; cases hc

/-- A session that may use a class, from the session the state holds. -/
theorem zspMayOf {s : State} {sid cls : Nat}
    (h : s.serving = true ∧ (s.session sid).isSome = true ∧ ((s.session sid).map fun c => c.may cls) = some true) :
    s.zspMay sid cls := by
  obtain ⟨h1, h2, h3⟩ := h
  obtain ⟨c, hc⟩ := Option.isSome_iff_exists.mp h2
  exact ⟨h1, c, hc, by rw [hc] at h3; exact Option.some.inj h3⟩

/-- An engine ready to issue a bundle. -/
theorem engReadyOf {s : State} {e : Nat} {r : Run} {p : Prog}
    (h : s.inRun = true ∧ (s.eng e).st = .running ∧ r.cycles < p.cost ∧ (s.eng e).pend = [] ∧ r.loop = none)
    (hr : ((s.eng e).run, (s.eng e).prog) = (some r, some p)) : s.engReady e r p :=
  ⟨h.1, h.2.1, congrArg Prod.fst hr, congrArg Prod.snd hr, h.2.2.1, h.2.2.2.1, h.2.2.2.2⟩

/-- An engine ready to issue a bundle of a loop. -/
theorem engLoopsOf {s : State} {e : Nat} {r : Run} {p : Prog} {l : LoopSt}
    (h : s.inRun = true ∧ (s.eng e).st = .running ∧ r.cycles < p.cost ∧ (s.eng e).pend = [] ∧ r.loop = some l)
    (hr : ((s.eng e).run, (s.eng e).prog) = (some r, some p)) : s.engLoops e r p l :=
  ⟨h.1, h.2.1, congrArg Prod.fst hr, congrArg Prod.snd hr, h.2.2.1, h.2.2.2.1, h.2.2.2.2⟩

/-- A Sillage that is ready to process a line. -/
theorem silReadyOf {s : State} {n : Int}
    (h : s.inRun = true ∧ s.on SIL_CTL_EN = true ∧ s.silNext = some n ∧ s.silSpan = false ∧ s.on SIL_WSWAP_PEND = false)
    (h1 : s.sil.seam = []) (h2 : s.sil.seamCtx = []) : s.silReady n :=
  ⟨h.1, h.2.1, h.2.2.1, h.2.2.2.1, h.2.2.2.2, h1, h2⟩

/-- Without an enabled link no path leaves a channel. -/
theorem noPath {s : State} {c0 base : Nat} {new : Word} {r : Reg}
    (h : (∀ c < 45, s.reg .EVT_LNK_LO c = 0 ∧ s.reg .EVT_LNK_HI c = 0) ∧
      ∀ b < 32, new.getLsbD b = true → evtFixed c0 ≠ some (base + b)) :
    ∀ b < 32, new.getLsbD b = true → (s.reg r c0).getLsbD b = false → ∀ ch, evtFixed c0 = some ch → ¬EvtPath s ch (base + b) := by
  intro b hb hn _ ch hf p
  have e : ∀ a d, EvtPath s a d → d = a := by
    intro a d q
    induction q with
    | here => rfl
    | step _ hc hl _ _ => simp [State.evtLinked, h.1 _ hc] at hl
  exact h.2 b hb hn (by rw [e _ _ p]; exact hf)

/-- Small states the witnesses start from: in Hold, and in Run; the fuses of the Flacon, whose values are free, are left empty. -/
def wFl : Flacon := { secret := [], romKey := [] }
def wHold : State := { fl := wFl }
def wRun : State := { fl := wFl, pwr := { st := .run } }
/-- A frame of 77 control-block headers over payloads of zeros, with parity symbols. -/
def wParity (p : List Nat) : Nat := (List.range 77).foldl (fun a k => a + 2 ^ (66 * k + 1)) 0 + 2 ^ 5140 * symbolsFrame p
/-- A codeword, and a word with too many errors, computed by hand from R63. -/
def wCode : Nat := wParity [887, 580, 834, 80, 438, 506, 404, 430, 435, 409, 1022, 385, 814, 516, 351, 948, 274, 412, 566, 882,
  896, 821, 885, 986, 892, 722, 365, 731, 629, 86]
def wBad : Nat := wParity [886, 859, 323, 704, 371, 655, 699, 605, 318, 330, 740, 66, 676, 224, 40, 567, 63, 751, 573, 94, 31,
  583, 704, 984, 189, 225, 779, 239, 472, 390]
theorem wCode_a : (List.range 10).map (fun j => gfEval (frameSymbols wCode) (gfAlpha j)) = List.replicate 10 0 := by decide +kernel
theorem wCode_b : (List.range 10).map (fun j => gfEval (frameSymbols wCode) (gfAlpha (j + 10))) = List.replicate 10 0 := by
  decide +kernel
theorem wCode_c : (List.range 10).map (fun j => gfEval (frameSymbols wCode) (gfAlpha (j + 20))) = List.replicate 10 0 := by
  decide +kernel
theorem wBad_a : (List.range 10).map (fun j => gfEval (frameSymbols wBad) (gfAlpha j)) = List.replicate 10 0 := by decide +kernel
theorem wBad_b : (List.range 10).map (fun j => gfEval (frameSymbols wBad) (gfAlpha (j + 10))) = List.replicate 10 0 := by
  decide +kernel
theorem wBad_c : (List.range 10).map (fun j => gfEval (frameSymbols wBad) (gfAlpha (j + 20))) = List.replicate 9 0 ++ [676] := by
  decide +kernel
theorem syndromes_split (w : List Nat) : rsSyndromes w = (List.range 10).map (fun j => gfEval w (gfAlpha j)) ++
  (List.range 10).map (fun j => gfEval w (gfAlpha (j + 10))) ++ (List.range 10).map (fun j => gfEval w (gfAlpha (j + 20))) := rfl
theorem wCode_decodes : rsDecode (frameSymbols wCode) = some (frameSymbols wCode, 0) := by
  have h : rsSyndromes (frameSymbols wCode) = List.replicate 30 0 := by rw [syndromes_split, wCode_a, wCode_b, wCode_c]; rfl
  unfold rsDecode
  rw [h]; rfl
theorem wBad_fails : rsDecode (frameSymbols wBad) = none := by
  have h : rsSyndromes (frameSymbols wBad) = List.replicate 29 0 ++ [676] := by rw [syndromes_split, wBad_a, wBad_b, wBad_c]; rfl
  unfold rsDecode
  rw [h]
  rw [if_neg (by decide +kernel)]
  have hq : ((List.range 30).foldl (RsSearch.next (List.replicate 29 0 ++ [676])) {}).len = 30 := by decide +kernel
  simp only [hq]
  rw [if_pos (Or.inl (by decide))]
/-- Fields of registers set one after the other. -/
def wSet (s : State) (l : List (Fld × Nat × Nat)) : State := l.foldl (fun s x => s.setFld x.1 x.2.1 x.2.2) s
/-- A frame whose 77 sync headers are valid: every block begins with 10. -/
def wFrame : Nat := (List.range 77).foldl (fun a k => a + 2 ^ (66 * k)) 0
/-- Entry 1 of the access table of target t grants master m every access. -/
def wGrant (s : State) (t m : Nat) : State :=
  [(0, 0x80000000), (1, 0x7FFFFFFF), (2 + m / 32, 2 ^ (m % 32)), (4 + m / 32, 2 ^ (m % 32)), (6 + m / 32, 2 ^ (m % 32))].foldl
    (fun s (x : Nat × Nat) => (s.setReg .SEC_AT (atIdx t 1 x.1) (BitVec.ofNat 32 x.2)).setReg .SEC_ATC (atIdx t 1 x.1)
      (~~~ BitVec.ofNat 32 x.2)) s
/-- A program of 2 bundles with a camera ring of one element (0), a work ring (1) and a table area of two elements, the run of an
engine at its first bundle, and engine 0 there. -/
def wProg : Prog := {
  base := 0, bundles := 2, entry := 0, launches := [⟨1, 1, 0, 1, 4, 1⟩]
  rings := [⟨0, 1, 1, 0, 0, false, 0x1000, 0, 0, 0, 0⟩, ⟨0x800, 1, 1, 3, 0, false, 0, 0, 0, 0, 0⟩]
  areas := [(0x2000, 16)], coefs := [], peak := 0, cLine := 100, wLine := 0 }
def wRunAt : Run := { line := 5, ctx := [], mask := 0, q := 0, pc := 0 }
def wEng : State := { wRun with engs := [(0, { st := .running, run := some wRunAt, prog := some wProg })] }
/-- The same in a loop. -/
def wLoop : LoopSt := { k := 0, b0 := 0, count := 2, sa := 0, sb := 128, ret := 1 }
def wRunL : Run := { wRunAt with loop := some wLoop }
def wEngL : State := { wRun with engs := [(0, { st := .running, run := some wRunL, prog := some wProg })] }
/-- The same with an entry of the row store's access table for engine 0. -/
def wEngT : State := wGrant wEng 0 0
def wEngB : State := wGrant { wEng with blt := some ⟨false, 0, 1, 0, 0⟩ } 0 0
/-- Sums of a window of one run whose correlation is 2 at shift 12, 1 at shift 11 and 0 elsewhere. -/
def wSums : RegSums := { n := 1, sums := (List.range 100).map fun i => if i = 48 then 2 else if i = 44 then 1 else if i % 4 = 1 then 1 else 0 }
theorem wSums_corr : (List.range 25).map wSums.corr = (List.range 25).map fun k => if k = 12 then 2 else if k = 11 then 1 else 0 := by decide +kernel
theorem wSums_peak (f : Nat) : wSums.peak f = 12 := by
  unfold RegSums.peak
  simp only []
  rw [wSums_corr]
  rw [show (List.range 25).filter (fun k => (List.map (fun k => if k = 12 then (2 : Rat) else if k = 11 then 1 else 0) (List.range 25)).getD k 0 ==
    List.foldl (fun a c => if a < c then c else a) ((List.map (fun k => if k = 12 then (2 : Rat) else if k = 11 then 1 else 0) (List.range 25)).headD 0)
      (List.map (fun k => if k = 12 then (2 : Rat) else if k = 11 then 1 else 0) (List.range 25))) = [12] from by decide +kernel]
  show [12].getD (f % 1) 0 = 12
  rw [Nat.mod_one]; rfl
theorem wSums_axis (f : Nat) : wSums.axis 12 1 2 f = (-1 / 6, 3 / 4, false) ∧ wSums.axis 12 5 2 f = (0, 1, false) := by
  have c : wSums.corr 12 = 2 := by decide +kernel
  have c1 : wSums.corr 11 = 1 := by decide +kernel
  have c2 : wSums.corr 13 = 0 := by decide +kernel
  have c3 : wSums.corr 7 = 0 := by decide +kernel
  have c4 : wSums.corr 17 = 0 := by decide +kernel
  constructor <;> unfold RegSums.axis <;> rw [if_neg (by decide)] <;> simp only [c, c1, c2, c3, c4, Nat.reduceAdd, Nat.reduceSub] <;>
    rw [if_neg (by decide +kernel), if_neg (by decide +kernel)] <;> decide +kernel
/-- A packet of tile 0 in band 0 of page 1, one column wide; a program with a reference ring. -/
def wTilePk : Packet := { ch := 0, bytes := [1, 0, 0, 0, 0, 0, 0, 0, 0, 0, 1, 0, 1, 0, 0, 0] }
def wProgR : Prog := { wProg with rings := [⟨0, 1, 1, 1, 0, false, 0x1000, 0, 0, 0, 0⟩] }
/-- REF enabled with a page queued, one element of its rows read for engine 0 from a window over port 0. -/
def wRef (c : CxlPort) (n : Nat) : State := wGrant (wGrant (wSet { wHold with
    engs := [(0, { prog := some wProgR })], ref := { queue := [{ id := 5, len := 64 }] }, cxl := [(0, c)] }
  [(REF_CTL_EN, 0, 1), (REF_EWIN_ECOUNT, 0, n), (CXL_DEC_BASE_BASE, 0, 0x100), (CXL_DEC_SIZE_SIZE, 0, 1), (CXL_DEC_CTL_EN, 0, 1),
   (REF_RBASE_HI_ADDR_H, 0, 0x10)]) 17 17) 0 17
/-- Sillage enabled in Run with lines 1 to 9 ticked. -/
def wSil : State := wSet { wRun with tick := { ticked := [(1, 9)], hw := 200 } } [(SIL_CTL_EN, 0, 1), (SIL_ENGMASK_MASK, 0, 0), (SIL_LONGLEN_LINES, 0, 100)]
def wRec : RunRec := { first := 3, last := 4, sums := [], peak := 0, off := 0, line := 1 }
/-- RPT enabled in Run at tick 9, and in Hold. -/
def wRpt : State := wSet { wRun with tick := { ticked := [(1, 9)], hw := 9 } } [(RPT_CTL_EN, 0, 1)]
def wBuilt : Record := { typ := 4, bytes := [], ext := ⟨1, 1, 0, 0⟩, f := 1, last := 1, cls := 0, xmin := 0, xmax := 0, region := 0, cdMid := 0, due := 9 }
/-- A HELLO of chip 1; a TICK packet of line 3. -/
def wPk : Packet := { ch := 1, bytes := [1, 1, 0, 0, 4, 0, 0, 0, 9, 0, 0, 0] }
def wTickPk : Packet := { ch := 1, bytes := [4, 0, 0, 0, 0, 0, 0, 0] ++ leBytes 8 0x30000 ++ leBytes 24 0 ++ leBytes 8 50 }
/-- A descriptor that copies 8 bytes in the shared pool, as bytes at its start, channel 5 with the pool granted. -/
def wDescB : List Byte := leBytes 8 0 ++ leBytes 8 0x14000000 ++ leBytes 8 0x14001000 ++ leBytes 4 8 ++ leBytes 4 1 ++ leBytes 12 0
  ++ [6, 6, 0, 1] ++ leBytes 16 0
def wDesc : Desc := ⟨0, 0x14000100, 0x14001000, 8, 1, 0, 0, 0, 6, 6, 0, 0, true, false, false, none⟩
def wDma (m : Nat) (c : Dma) : State := wGrant { wHold with
  dmas := [(5, c)], mem := memWrite (memWrite [] 0x14000000 wDescB) 0x14000100 (leBytes 8 7) } 16 (m + 5)
/-- The steps of the copy that descriptor makes; a channel whose data is written, with its status wanted. -/
def wC0 : State := (wDma 20 { st := .running, desc := some wDesc }).updDma 5 fun c => { c with goal := 8 }
def wCt : State := (wC0.anyRead 25 0x14000100 8).2.2
def wCb : List Byte := (wC0.anyRead 25 0x14000100 8).2.1
def wCx : State := wCt.updDma 5 fun c => { c with done := 8, buf := wCb }
def wCy : State := (wCx.anyWrite 25 0x14001000 wCb).2
def wC1 : State := wCy.updDma 5 fun c => { c with out := 8, lastW := (0x14001000, 8), buf := [] }
def wBk : State := wSet (wDma 20 { st := .running, desc := some { wDesc with wb := true }, done := 8, out := 8, stage := 1, lastW := (0x14001000, 8) })
  [(DMA_CURDESC_LO_ADDR_L, 5, 0x14000000)]
def wBq : State := ((wBk.dmaCur 5).anyRead 25 0x14001000 8).2.2
def wBr : State := ((wBq.updDma 5 fun c => { c with stage := 2 }).anyWrite 25 (wBq.dmaCurDesc 5 + 56) (leBytes 4 rOK ++ leBytes 4 8)).2
/-- A channel at its first byte of a descriptor, with these bytes at the source. -/
def wCmp (d : Desc) (bs : List Byte) : State := { wDma 20 { st := .running, desc := some d } with mem := memWrite [] 0x14000100 bs }
def wRefTile : RefTile := { page := 1, band := 0, tile := 0, width := 4, rows := 64, stored := true, lane := 0, stream := [1, 2] }
/-- A served state with a control session 7 of an operator; core 0 and core 1 granted the registers they write. -/
def wCtl : Session := ⟨0, false, .operator, [], none⟩
def wZsp (s : State) : State := { s with pwr := { s.pwr with booted := true }, zsp := { s.zsp with sessions := [(7, wCtl)] } }
def wTgt (s : State) (r : Reg) (m : Nat) : State := wGrant s (regTarget (regAddr r 0)) m
/-- A frame with a VLAN tag of PCP 0. -/
def wVlan : List Byte := List.replicate 12 0 ++ [0x81, 0, 0, 0]
def wEth : State := wSet wHold [(ETH_CTL_EN, 0, 1), (ETH_STAT_LINK, 0, 1), (ETH_CFLT_VLAN_EN, 0, 1), (ETH_CFLT_CTL_PCP, 0, 0)]
/-- The same with a data session 7 of the service role, and core 1 granted the blocks a job enables. -/
def wDat : Session := ⟨0, true, .service, [], none⟩
def wZspD (s : State) : State := { s with pwr := { s.pwr with booted := true }, zsp := { s.zsp with sessions := [(7, wDat)] } }
def wJob (s : State) : State :=
  wTgt (wTgt (wTgt (wTgt (wTgt (wZspD s) .TICK_CTL 41) .REF_CTL 41) .RPT_CTL 41) .SIL_CTL 41) .SYS_PWRCMD 41
def wStop : State := { wRun with pwr := { st := .run, drain := true, holdLine := 9, drainAt := 600 } }
def wPg : RefPage := { id := 1, len := 64, start := some 40 }
def wSub : Subscription := { types := 0xFFFF, classes := 0xFFFF, unsure := true, chips := 15, start := 0, backlog := [(1, [4, 0, 0]), (2, [4, 0, 0])] }
/-- The pool with bytes in it, granted to core 1. -/
def wPool (s : State) (bs : List Byte) : State := wTgt (wGrant { s with mem := memWrite s.mem poolBase bs } 16 41) .RPT_QRD 41

/-- A store of no bytes at a free place of the pool is answered OK. -/
theorem wInstall (s : State) :
    s.drawn.anyWrite 41 (poolBase + s.free % (0x1000000 - ([] : List Byte).length + 1)) [] = (rOK, s.drawn) := by
  have h : ∀ k, k < 0x1000001 → regSpace (poolBase + k) = false := by
    intro k hk
    have : ¬ 0x40000000 ≤ poolBase + k := by simp only [poolBase]; omega
    simp [regSpace, this]
  unfold State.anyWrite
  rw [h (s.free % (0x1000000 - ([] : List Byte).length + 1)) (Nat.mod_lt _ (by decide))]
  simp [State.busWrite, memParts]
/-- A state whose job may start. -/
def wJobOk : State := wTgt (wZspD (wSet wHold [(SYS_PSTAT_VALID, 0, 1), (REF_CTL_EN, 0, 1)])) .SYS_PWRCMD 41
def wJobOk0 : State :=
  (wJobOk.coreWrite 41 .RPT_JOB0_LO 0 ((ofSigned 48 wJobOk.tick.hw + 1 + wJobOk.maxOffset) % 2 ^ 32)).coreWrite 41 .RPT_JOB0_HI 0
    ((ofSigned 48 wJobOk.tick.hw + 1 + wJobOk.maxOffset) / 2 ^ 32 % 65536)
/-- The same after the job's first line was refused to core 1, and after its enables were: each denial is logged. -/
def wDenied (l : List (Reg × Nat × Word)) : State :=
  { wJobOk with resp := { code := rDENIED }, regs := wJobOk.regs ++ l.map fun x => ((x.1, x.2.1), x.2.2) }
def wJobM : State := wDenied [(.SEC_DLOG_A, 33, 8), (.SEC_DLOG_B, 33, 0x129), (.SEC_DLOG_CNT, 33, 2), (.SEC_STAT, 0, 2), (.SEC_DEN_CNT, 0, 2)]
def wJobE : State := wDenied [(.SEC_DLOG_A, 33, 0), (.SEC_DLOG_B, 33, 0x129), (.SEC_DLOG_CNT, 33, 3), (.SEC_STAT, 0, 2),
  (.SEC_DEN_CNT, 0, 6), (.SEC_DLOG_A, 23, 0), (.SEC_DLOG_B, 23, 0x129), (.SEC_DLOG_CNT, 23, 1), (.SEC_DLOG_A, 31, 0),
  (.SEC_DLOG_B, 31, 0x129), (.SEC_DLOG_CNT, 31, 1), (.SEC_DLOG_A, 32, 0), (.SEC_DLOG_B, 32, 0x129), (.SEC_DLOG_CNT, 32, 1)]
theorem wJobOk_first : wJobOk0 = wJobM := by decide +kernel
theorem wJobM_enable : wJobM.jobEnable = (true, wJobE) := by decide +kernel
theorem wJobOk_enable : wJobOk0.jobEnable.1 = true := by rw [wJobOk_first, wJobM_enable]
theorem wJobE_mark : (wJobE.askRun 0).1 = rOK := by decide +kernel
theorem wJobOk_run : (wJobOk0.jobEnable.2.askRun (ofSigned 48 wJobOk.tick.hw)).1 = rOK := by
  rw [wJobOk_first, wJobM_enable]; exact wJobE_mark
/-- A configuration image with profile 7, which passes its checks and has no items; that profile's header. -/
def wProfB : List Byte := [0x5A, 0x50, 0x46, 0x31, 7, 1, 1, 8, 1, 0, 0, 0, 0, 0] ++ (List.range 12).flatMap (fun _ => [1, 0]) ++ List.replicate 90 0
def wHdr : ProfHdr := profHdr wProfB
def wCfg : State := { wHold with boot := { cfg := List.replicate 176 0 ++ leBytes 4 192 ++ leBytes 4 128 ++ List.replicate 8 0 ++ wProfB } }

/-- The premises of clauses of Obligations.FrontCommandRuns are met. -/
theorem witness_FrontCommandRuns :
    ∃ s : State, ∃ c : Instr, ∃ rest : List Instr, (s.pending = c :: rest) :=
  ⟨({ pending := [.pps] } : State), (.pps : Instr), ([] : List Instr), by decide +kernel⟩

/-- The premises of clauses of Obligations.TimeBaseAndServo are met. -/
theorem witness_TimeBaseAndServo_1 :
    (∃ s : State, (s.pending = []) ∧ (s.powered = false)) ∧
    (∃ s : State, (s.pending = []) ∧ (s.powered = true) ∧ (s.live = false ∨ s.on SEC_QRES_BUSY = false)) ∧
    (∃ s : State, ∃ m : Master, ∃ x : Fin 2, ∃ v : Word, (s.mayWrite m .TIME_SET_NS x) ∧ (1000000000 ≤ bits v.toNat 29 0)) ∧
    (∃ s : State, ∃ m : Master, ∃ x : Fin 2, ∃ v : Word, (s.mayWrite m .TIME_SET_NS x) ∧ (bits v.toNat 29 0 < 1000000000) ∧ (s.pri = x.val) ∧ (s.inRun = true)) :=
  ⟨⟨({ pwr := { st := .off } } : State), by decide +kernel⟩,
   ⟨(wHold : State), by decide +kernel⟩,
   ⟨(wHold : State), (48 : Master), (0 : Fin 2), (1000000000 : Word), reach (by decide +kernel), by decide +kernel⟩,
   ⟨(wRun : State), (48 : Master), (0 : Fin 2), (999999999 : Word), reach (by decide +kernel), by decide +kernel⟩⟩

/-- The premises of clauses of Obligations.TimeBaseAndServo are met. -/
theorem witness_TimeBaseAndServo_2 :
    (∃ s : State, ∃ m : Master, ∃ x : Fin 2, ∃ v : Word, (s.mayWrite m .TIME_SET_NS x) ∧ (bits v.toNat 29 0 < 1000000000) ∧ (¬(s.pri = x.val ∧ s.inRun = true))) ∧
    (∃ s : State, ∃ m : Master, ∃ x : Fin 2, ∃ v : Word, (s.mayWrite m .TIME_OFS x) ∧ ((v.toInt).natAbs < s.fld TIME_STEPTHR_THR x)) ∧
    (∃ s : State, ∃ m : Master, ∃ v : Word, (s.mayWrite m .TIME_CTL 0) ∧ (bits v.toNat 0 0 = s.pri)) ∧
    (∃ s : State, ∃ m : Master, ∃ v : Word, (s.mayWrite m .TIME_CTL 0) ∧ (bits v.toNat 0 0 ≠ s.pri) ∧ (s.fld TIME_STAT_X_LOCKED (bits v.toNat 0 0) = 1)) :=
  ⟨⟨((wHold.setReg .TIME_SET_SEC_HI 0 0xFFFF) : State), (48 : Master), (0 : Fin 2), (999999999 : Word), reach (by decide +kernel), by decide +kernel⟩,
   ⟨((wHold.setReg .TIME_STEPTHR 1 6).setReg .TIME_GAIN 1 0x00FF00FF : State), (48 : Master), (1 : Fin 2), (5 : Word), reach (by decide +kernel), by decide +kernel⟩,
   ⟨(wHold : State), (48 : Master), (0 : Word), reach (by decide +kernel), by decide +kernel⟩,
   ⟨(wHold.setFld TIME_STAT_X_LOCKED 1 1 : State), (48 : Master), (1 : Word), reach (by decide +kernel), by decide +kernel⟩⟩

/-- The premises of clauses of Obligations.TimeBaseAndServo are met. -/
theorem witness_TimeBaseAndServo_3 :
    ∃ s : State, ∃ m : Master, ∃ v : Word, (s.mayWrite m .TIME_CTL 0) ∧ (bits v.toNat 0 0 ≠ s.pri) ∧ (s.fld TIME_STAT_X_LOCKED (bits v.toNat 0 0) ≠ 1) :=
  ⟨(wHold : State), (48 : Master), (1 : Word), reach (by decide +kernel), by decide +kernel⟩

/-- The premises of clauses of Obligations.RegisterAccesses are met. -/
theorem witness_RegisterAccesses_1 :
    (∃ s : State, ∃ m : Master, ∃ a : Nat, ∃ r : Reg, ∃ i : Nat, (s.mayReach m a .w) ∧ (a % 4 = 0) ∧ (locate a = some (r, i)) ∧ ((regRow r).fields = [⟨31, 0, .rw, .none, .any⟩]) ∧ (r ∉ [Reg.TIME_OFS, .MOT_D1, .MOT_D2])) ∧
    (∃ s : State, ∃ m : Master, ∃ a : Nat, ∃ r : Reg, ∃ i : Nat, (s.mayReach m a .w) ∧ (a % 4 = 0) ∧ (locate a = some (r, i)) ∧ ((regRow r).fields = [⟨15, 0, .clr, .none, .any⟩])) ∧
    (∃ s : State, ∃ m : Master, ∃ k : Fin 4, ∃ v : Word, (s.mayWrite m .RPT_MK_DIST k) ∧ (s.mayWrite m .RPT_MK_DISTC k) ∧ (s.sec.held.find? (fun e => decide (e.1 = (Reg.RPT_MK_DIST, k.val))) = some ((.RPT_MK_DIST, k.val), ~~~ v))) ∧
    (∃ s : State, ∃ m : Master, ∃ k : Fin 4, (s.mayWrite m .RPT_MK_DIST k) ∧ (s.mayWrite m .RPT_MK_DISTC k) ∧ (s.sec.held.find? (fun e => decide (e.1 = (Reg.RPT_MK_DIST, k.val))) = none)) :=
  ⟨⟨(wHold : State), (48 : Master), (regAddr .TIME_SET_SEC_LO 0 : Nat), (.TIME_SET_SEC_LO : Reg), (0 : Nat), reach (by decide +kernel), by decide +kernel⟩,
   ⟨(wHold.setReg .TIME_STEP_CNT 1 0xFFFF : State), (48 : Master), (regAddr .TIME_STEP_CNT 1 : Nat), (.TIME_STEP_CNT : Reg), (1 : Nat), reach (by decide +kernel), by decide +kernel⟩,
   ⟨({ wHold with sec := { held := [((.RPT_MK_DIST, 3), ~~~ 5)] } } : State), (48 : Master), (3 : Fin 4), (5 : Word), reach (by decide +kernel), reach (by decide +kernel), by decide +kernel⟩,
   ⟨(wHold : State), (48 : Master), (3 : Fin 4), reach (by decide +kernel), reach (by decide +kernel), by decide +kernel⟩⟩

/-- The premises of clauses of Obligations.RegisterAccesses are met. -/
theorem witness_RegisterAccesses_2 :
    ∃ s : State, ∃ m : Master, ∃ x : Fin 2, (s.mayRead m .TIME_NS x) ∧ ((s.dom x).ns < 2 ^ 32) :=
  ⟨({ wHold with times := [(1, { sec := 2 ^ 48 - 1, ns := 999999999 })] } : State), (48 : Master), (1 : Fin 2), reach (by decide +kernel), by decide +kernel⟩

/-- The premises of clauses of Obligations.DeniedAccessOnlyLogged are met. -/
theorem witness_DeniedAccessOnlyLogged :
    ∃ s : State, ∃ m : Master, ∃ a : Nat, ∃ n : Nat, ∃ t : Nat, ∃ ofs : Nat, ∃ v : Word, ∃ b : Bool, ∃ c : Instr, ∃ k : Kind, (s.tableOk t) ∧ (s.live = true) ∧ (s.hears m = true) ∧ ((regSpace a = true ∧ a % 4 = 0 ∧ n = 4 ∧ t = regTarget a ∧ ofs = a % 2 ^ 20) ∨ (regSpace a = false ∧ 1 ≤ n ∧ n ≤ 4 ∧ a % 4096 + n ≤ 4096 ∧ s.region a n = .sram t ofs) ∨ (regSpace a = false ∧ 1 ≤ n ∧ n ≤ 4 ∧ a % 4096 + n ≤ 4096 ∧ s.region a n = .cxl (t - 17) ∧ 17 ≤ t ∧ ofs = a - s.decBase (t - 17))) ∧ ((c = .registerWrite m a n ⟨v, b⟩ ∧ k = .w) ∨ (c = .latchingRead m a n ∧ k = .r)) ∧ (s.permitted m t (ofs / 4096) ((ofs + n - 1) / 4096) k = false) :=
  ⟨(wHold : State), (0 : Master), (0x14000FFC : Nat), (4 : Nat), (16 : Nat), (0xFFC : Nat), (1 : Word), (false : Bool), (.registerWrite 0 0x14000FFC 4 ⟨1, false⟩ : Instr), (.w : Kind), tableOk_of_untouched (by decide) _, by decide +kernel⟩

/-- The premises of clauses of Obligations.IncrementalEncoders are met. -/
theorem witness_IncrementalEncoders_1 :
    (∃ s : State, ∃ e : Fin 2, ∃ a : Bool, ∃ b : Bool, ∃ fwd : Bool, (fwd = ((if a != (s.enc e).a then a != b else a == b) != s.on ENC_CTL_INV e)) ∧ (s.live = true) ∧ (s.fld ENC_CTL_MODE e = 1) ∧ (s.fld ENC_CTL_DECODE e = 2) ∧ ((a != (s.enc e).a) ≠ (b != (s.enc e).b))) ∧
    (∃ s : State, ∃ e : Fin 2, ∃ a : Bool, ∃ b : Bool, (s.live = true) ∧ (e = 1) ∧ (s.fld ENC_CTL_MODE e = 1) ∧ (a ≠ (s.enc e).a) ∧ (b ≠ (s.enc e).b)) ∧
    (∃ s : State, ∃ e : Fin 2, (s.live = true) ∧ (2 ≤ s.fld ENC_CTL_MODE e) ∧ ((s.enc e).coast = false) ∧ ((if s.fld ENC_CTL_MODE e = 2 then 64 else max 1 (s.fld ENC_SER_FAILLIM e)) ≤ (s.enc e).bad)) ∧
    (∃ s : State, ∃ e : Fin 2, (s.live = true) ∧ ((s.enc e).bad < (if s.fld ENC_CTL_MODE e = 2 then 64 else max 1 (s.fld ENC_SER_FAILLIM e)))) :=
  ⟨⟨({ wHold with regs := [((.ENC_CTL, 1), 0x09), ((.ENC_CTL, 0), 0x09)] } : State), (1 : Fin 2), (true : Bool), (false : Bool), _, rfl, by decide +kernel⟩,
   ⟨({ wHold with regs := [((.ENC_CTL, 1), 0x09)] } : State), (1 : Fin 2), (true : Bool), (true : Bool), by decide +kernel⟩,
   ⟨({ wHold with regs := [((.ENC_CTL, 1), 0x0A)], encs := [(1, { bad := 64 })] } : State), (1 : Fin 2), by decide +kernel⟩,
   ⟨({ wHold with regs := [((.ENC_CTL, 1), 0x0A)], encs := [(1, { bad := 63 })] } : State), (1 : Fin 2), by decide +kernel⟩⟩

/-- The premises of clauses of Obligations.IncrementalEncoders are met. -/
theorem witness_IncrementalEncoders_2 :
    (∃ s : State, (s.live = true) ∧ (s.fld ENC_CTL_MODE 1 = 1) ∧ (s.on ENC_CTL_IDX_EN 1 = true) ∧ ((s.enc 1).idx = none)) ∧
    (∃ s : State, ∃ old : Int, ∃ d : Int, (s.live = true) ∧ (s.fld ENC_CTL_MODE 1 = 1) ∧ (s.on ENC_CTL_IDX_EN 1 = true) ∧ ((s.enc 1).idx = some (old, (s.enc 1).back)) ∧ (s.fld ENC_IDXPER_IDXPER 1 ≠ 0) ∧ (s.inHold = false) ∧ (d = (if (s.enc 1).back then old - (s.enc 1).count else (s.enc 1).count - old) - s.fld ENC_IDXPER_IDXPER 1) ∧ (d ≠ 0)) :=
  ⟨⟨({ wHold with regs := [((.ENC_CTL, 1), 0x29)] } : State), by decide +kernel⟩,
   ⟨({ wRun with regs := [((.ENC_CTL, 1), 0x29), ((.ENC_IDXPER, 1), 0x100)], encs := [(1, { count := 255, idx := some (0, false) })] } : State), (0 : Int), (-1 : Int), by decide +kernel⟩⟩

/-- The premises of clauses of Obligations.ObserverAndSerialEncoders are met. -/
theorem witness_ObserverAndSerialEncoders_1 :
    (∃ s : State, ∃ e : Fin 2, ∃ t : Int, ∃ T : Rat, ∃ lag : Rat, ∃ x : Rat, ∃ err : Rat, ∃ pos : Rat, (T = ((s.fld ENC_OBS_UPD e * 5 : Nat) : Rat) / 1000000000) ∧ (lag = ((t - (s.enc e).edgeAt : Int) : Rat) * 5 / 1000000000) ∧ (x = 2 * piRat * (max 1 (s.fld ENC_OBS_BW e) : Nat) * T) ∧ (err = ((s.enc e).count : Rat) - ((s.enc e).p + (s.enc e).v * T + (s.enc e).acc * T * T / 2 - ((s.enc e).v + (s.enc e).acc * T) * lag)) ∧ (pos = (s.enc e).p + (s.enc e).v * T + (s.enc e).acc * T * T / 2 + 3 * x * err) ∧ (s.live = true) ∧ (s.fld ENC_CTL_MODE e = 1) ∧ (s.fld TICK_CTL_SRC ≠ e.val) ∧ ((s.enc e).phase = .moving) ∧ ((s.enc e).fresh = true) ∧ ((s.enc e).coast = false)) ∧
    (∃ s : State, (s.live = true) ∧ (s.fld ENC_CTL_MODE 1 = 3) ∧ ((s.enc 1).frame = none)) ∧
    (∃ s : State, ∃ t : Int, ∃ w : Nat, ∃ old : Nat, (s.live = true) ∧ (s.fld ENC_CTL_MODE 1 = 3) ∧ ((s.enc 1).frame = some t) ∧ (s.fld ENC_CTL_SERIAL 1 = 1) ∧ (s.on ENC_SER_PAR 1 = false) ∧ (s.on ENC_SER_GRAY 1 = false) ∧ (s.on ENC_CTL_INV 1 = false) ∧ ((s.enc 1).word = some old) ∧ (old < 2 ^ s.fld ENC_SER_BITS 1) ∧ (w < 2 ^ s.fld ENC_SER_BITS 1)) ∧
    (∃ s : State, ∃ t : Int, ∃ w : Nat, (s.live = true) ∧ (s.fld ENC_CTL_MODE 1 = 3) ∧ ((s.enc 1).frame = some t) ∧ (s.fld ENC_CTL_SERIAL 1 = 0) ∧ (crc6 (w / 64) (s.fld ENC_SER_BITS 1 + 2) 0 ≠ 63 - w % 64)) :=
  ⟨⟨(wSet { wHold with encs := [(1, { phase := .moving, fresh := true })] } [(ENC_CTL_MODE, 1, 1)] : State), (1 : Fin 2), (0 : Int), _, _, _, _, _, rfl, rfl, rfl, rfl, rfl, by decide +kernel⟩,
   ⟨({ wHold with regs := [((.ENC_CTL, 1), 0x0B)] } : State), by decide +kernel⟩,
   ⟨({ wHold with regs := [((.ENC_CTL, 1), 0x8B), ((.ENC_SER, 1), 12)], encs := [(1, { frame := some 9, word := some 0 })] } : State), (9 : Int), (4095 : Nat), (0 : Nat), by decide +kernel⟩,
   ⟨({ wHold with regs := [((.ENC_CTL, 1), 0x0B), ((.ENC_SER, 1), 12)], encs := [(1, { frame := some 9, word := some 0 })] } : State), (9 : Int), (0 : Nat), by decide +kernel⟩⟩

/-- The premises of clauses of Obligations.ObserverAndSerialEncoders are met. -/
theorem witness_ObserverAndSerialEncoders_2 :
    (∃ s : State, ∃ fwd : Bool, ∃ q : List Bool, (s.live = true) ∧ (s.pt.queue = fwd :: q) ∧ (s.fld ENC_CTL_MODE 0 = 1)) ∧
    (∃ s : State, ∃ m : Master, (s.mayWrite m .ENC_PT_CTL 0) ∧ (s.live = true)) :=
  ⟨⟨({ wSet wHold [(ENC_CTL_MODE, 0, 1)] with pt := { queue := [true] } } : State), (true : Bool), ([] : List Bool), by decide +kernel⟩,
   ⟨({ wHold with pt := { out := -3 } } : State), (48 : Master), reach (by decide +kernel), by decide +kernel⟩⟩

/-- The premises of clauses of Obligations.TicksAndOverspeed are met. -/
theorem witness_TicksAndOverspeed_1 :
    (∃ s : State, ∃ n : Int, ∃ entry : List Byte, (n = s.tickLast + 1) ∧ (entry = s.entry (65536 * ofSigned 48 n) (s.tickCross n).2 0) ∧ (s.issuing = true) ∧ (s.fld TICK_CTL_SRC < 2) ∧ (n ≤ s.tick.line) ∧ ((s.inArray && s.on SPAN_CTL_MASTER) = false)) ∧
    (∃ s : State, ∃ n : Int, ∃ entry : List Byte, (n = s.tickLast + 1) ∧ (entry = s.entry (65536 * ofSigned 48 n) (s.tickCross n).2 0) ∧ (s.issuing = true) ∧ (s.fld TICK_CTL_SRC < 2) ∧ (n ≤ s.tick.line) ∧ ((s.inArray && s.on SPAN_CTL_MASTER) = true) ∧ (∀ p < 2, (s.spanPort p).st ≠ .up)) ∧
    (∃ s : State, ∃ n : Int, ∃ entry : List Byte, (n = s.tickLast + 1) ∧ (entry = s.entry (65536 * ofSigned 48 n) (s.tickCross n).2 0) ∧ (s.issuing = false ∨ 2 ≤ s.fld TICK_CTL_SRC ∨ s.tick.line < n)) ∧
    (∃ s : State, (s.issuing = true) ∧ (s.fld TICK_CTL_SRC = 3)) :=
  ⟨⟨({ wRun with tick := { line := 1 }, regs := [((.TICK_CTL, 0), 4)] } : State), _, _, rfl, rfl, by decide +kernel⟩,
   ⟨({ wRun with tick := { line := 1 }, regs := [((.TICK_CTL, 0), 4), ((.SPAN_CTL, 0), 3)] } : State), _, _, rfl, rfl, by decide +kernel⟩,
   ⟨({ wRun with tick := { line := 0 }, regs := [((.TICK_CTL, 0), 4)] } : State), _, _, rfl, rfl, by decide +kernel⟩,
   ⟨({ wRun with regs := [((.TICK_CTL, 0), 7)] } : State), by decide +kernel⟩⟩

/-- The premises of clauses of Obligations.TicksAndOverspeed are met. -/
theorem witness_TicksAndOverspeed_2 :
    (∃ s : State, (s.issuing = false ∨ s.fld TICK_CTL_SRC ≠ 3)) ∧
    (∃ s : State, (s.live = true) ∧ (s.fld TICK_STAT_OVS_NOW = 1) ∧ (s.overspeed = false) ∧ (64 ≤ s.tick.ovsClear)) ∧
    (∃ s : State, (s.overspeed = true ∨ s.tick.ovsClear < 64)) ∧
    (∃ s : State, (s.pwr.drain = true) ∧ (s.rpt.loupeTry = false) ∧ ((s.pwr.holdLine : Int) < s.pwr.drainAt + 1 - s.depth)) :=
  ⟨⟨({ wRun with regs := [((.TICK_CTL, 0), 4)] } : State), by decide +kernel⟩,
   ⟨({ wRun with regs := [((.TICK_STAT, 0), 256), ((.TICK_FMAX, 0), 9)], tick := { ovsClear := 64 } } : State), by decide +kernel⟩,
   ⟨({ wRun with tick := { ovsClear := 63 } } : State), by decide +kernel⟩,
   ⟨({ wRun with pwr := { st := .run, drain := true, drainAt := 200, holdLine := 3 } } : State), by decide +kernel⟩⟩

/-- The premises of clauses of Obligations.TicksAndOverspeed are met. -/
theorem witness_TicksAndOverspeed_3 :
    (∃ s : State, (s.pwr.drain = true) ∧ ((s.pwr.drainAt : Int) + 1 - s.depth ≤ s.pwr.holdLine)) ∧
    (∃ s : State, (s.pwr.drain = false)) :=
  ⟨⟨({ wRun with pwr := { st := .run, drain := true, drainAt := 10, holdLine := 11 } } : State), by decide +kernel⟩,
   ⟨({ wRun with pwr := { st := .run } } : State), by decide +kernel⟩⟩

/-- The premises of clauses of Obligations.LaneStateMachine are met. -/
theorem witness_LaneStateMachine_1 :
    (∃ s : State, ∃ m : Master, ∃ j : Fin 36, ∃ v : Word, (s.mayWrite m .LANE_CTL j) ∧ (24 ≤ j.val) ∧ (j.val < 28) ∧ (s.on LANE_CTL_EN j = false) ∧ ((s.lane j).st = .off) ∧ (v.getLsbD 13 = false)) ∧
    (∃ s : State, ∃ m : Master, ∃ j : Fin 36, ∃ v : Word, (s.mayWrite m .LANE_CTL j) ∧ (24 ≤ j.val) ∧ (j.val < 28) ∧ (s.on LANE_CTL_EN j = true) ∧ ((s.lane j).st ≠ .locked) ∧ (v.getLsbD 13 = false)) ∧
    (∃ s : State, ∃ m : Master, ∃ j : Fin 36, ∃ v : Word, (s.mayWrite m .LANE_CTL j) ∧ (24 ≤ j.val) ∧ (j.val < 28) ∧ (s.on LANE_CTL_EN j = true) ∧ (v.getLsbD 0 = true) ∧ ((s.lane j).st ≠ .locked) ∧ ((s.lane j).st ≠ .off)) ∧
    (∃ s : State, ∃ j : Fin 36, ∃ w : Nat, (24 ≤ j.val) ∧ (j.val < 28) ∧ (s.live = true) ∧ (w < 2 ^ 5440) ∧ (s.on LANE_CTL_LPBK j = false) ∧ (s.on LANE_CTL_RX_INV j = false) ∧ ((s.lane j).st = .hunt) ∧ (frameValid w = false)) :=
  ⟨⟨(wHold : State), (48 : Master), (24 : Fin 36), (1 : Word), reach (by decide +kernel), by decide +kernel⟩,
   ⟨(wSet { wHold with lanes := [(27, { st := .hunt })] } [(LANE_CTL_EN, 27, 1)] : State), (48 : Master), (27 : Fin 36), (0 : Word), reach (by decide +kernel), by decide +kernel⟩,
   ⟨(wSet { wHold with lanes := [(27, { st := .failed })] } [(LANE_CTL_EN, 27, 1)] : State), (48 : Master), (27 : Fin 36), (0x2001 : Word), reach (by decide +kernel), by decide +kernel⟩,
   ⟨({ wHold with lanes := [(24, { st := .hunt, cand := 5439 })] } : State), (24 : Fin 36), (0 : Nat), by decide +kernel⟩⟩

/-- The premises of clauses of Obligations.LaneStateMachine are met. -/
theorem witness_LaneStateMachine_2 :
    (∃ s : State, ∃ j : Fin 36, ∃ w : Nat, (24 ≤ j.val) ∧ (j.val < 28) ∧ (s.live = true) ∧ (w < 2 ^ 5440) ∧ (s.on LANE_CTL_LPBK j = false) ∧ (s.on LANE_CTL_RX_INV j = false) ∧ ((s.lane j).st = .hunt) ∧ (frameValid w = true)) ∧
    (∃ s : State, ∃ j : Fin 36, ∃ w : Nat, (24 ≤ j.val) ∧ (j.val < 28) ∧ (s.live = true) ∧ (w < 2 ^ 5440) ∧ (s.on LANE_CTL_LPBK j = false) ∧ (s.on LANE_CTL_RX_INV j = false) ∧ ((s.lane j).st = .verify) ∧ (frameValid w = true) ∧ ((s.lane j).good + 1 < 4)) ∧
    (∃ s : State, ∃ j : Fin 36, ∃ w : Nat, (24 ≤ j.val) ∧ (j.val < 28) ∧ (s.live = true) ∧ (w < 2 ^ 5440) ∧ (s.on LANE_CTL_LPBK j = false) ∧ (s.on LANE_CTL_RX_INV j = false) ∧ ((s.lane j).st = .verify) ∧ (frameValid w = false)) ∧
    (∃ s : State, ∃ j : Fin 36, ∃ w : Nat, (24 ≤ j.val) ∧ (j.val < 28) ∧ (s.live = true) ∧ (w < 2 ^ 5440) ∧ (s.on LANE_CTL_LPBK j = false) ∧ (s.on LANE_CTL_RX_INV j = false) ∧ (s.on LANE_CTL_EN j = true)) :=
  ⟨⟨({ wHold with lanes := [(24, { st := .hunt, cand := 5439 })] } : State), (24 : Fin 36), (wFrame : Nat), by decide +kernel⟩,
   ⟨({ wHold with lanes := [(24, { st := .verify, good := 2 })] } : State), (24 : Fin 36), (wFrame : Nat), by decide +kernel⟩,
   ⟨({ wHold with lanes := [(24, { st := .verify, good := 2 })] } : State), (24 : Fin 36), (0 : Nat), by decide +kernel⟩,
   ⟨(wSet { wHold with lanes := [(27, { st := .locked, txCnt := 65535 })] } [(LANE_CTL_EN, 27, 1)] : State), (27 : Fin 36), (0 : Nat), by decide +kernel⟩⟩

/-- The premises of clauses of Obligations.LaneStateMachine are met. -/
theorem witness_LaneStateMachine_3 :
    (∃ s : State, ∃ j : Fin 36, ∃ w : Nat, (24 ≤ j.val) ∧ (j.val < 28) ∧ (s.live = true) ∧ (w < 2 ^ 5440) ∧ (s.on LANE_CTL_LPBK j = false) ∧ (s.on LANE_CTL_RX_INV j = false) ∧ (s.on LANE_CTL_EN j = false)) ∧
    (∃ s : State, ∃ j : Fin 36, ∃ w : Nat, ∃ hs : List Bool, (hs = ((List.range 77).map fun k => (frameHeader w k).isSome)) ∧ (rsDecode (frameSymbols w) = none) ∧ (24 ≤ j.val) ∧ (j.val < 28) ∧ (s.live = true) ∧ (w < 2 ^ 5440) ∧ (s.on LANE_CTL_LPBK j = false) ∧ (s.on LANE_CTL_RX_INV j = false) ∧ ((s.lane j).st = .locked) ∧ (headersLost (s.lane j).hdrs hs = false)) ∧
    (∃ s : State, ∃ j : Fin 36, ∃ w : Nat, ∃ hs : List Bool, ∃ syms : List Nat, ∃ n : Nat, ∃ f : Nat, ∃ cnt : Nat, (hs = ((List.range 77).map fun k => (frameHeader w k).isSome)) ∧ (rsDecode (frameSymbols w) = some (syms, n)) ∧ (f = symbolsFrame syms) ∧ (cnt = bits f 5097 5082) ∧ (24 ≤ j.val) ∧ (j.val < 28) ∧ (s.live = true) ∧ (w < 2 ^ 5440) ∧ (s.on LANE_CTL_LPBK j = false) ∧ (s.on LANE_CTL_RX_INV j = false) ∧ ((s.lane j).st = .locked) ∧ (headersLost (s.lane j).hdrs hs = false) ∧ (bits f 5129 5126 = 0) ∧ (∀ k < 77, frameHeader f k = some false) ∧ (16 ≤ (s.lane j).eb.length) ∧ ((s.lane j).eb.length ≤ 18) ∧ (∀ b ∈ (s.lane j).eb, b.ctl = false ∧ b.gap = false) ∧ ((s.lane j).gap = false) ∧ ((s.lane j).ebFilling = false) ∧ ((s.lane j).ebDel = false) ∧ ((s.lane j).ebIns = false) ∧ ((s.lane j).open_ = none)) ∧
    (∃ s : State, ∃ j : Fin 36, (24 ≤ j.val) ∧ (j.val < 28) ∧ (s.live = true) ∧ ((s.lane j).st = .hunt ∨ (s.lane j).st = .verify) ∧ (s.on LANE_CTL_AUTO_RT j = true)) :=
  ⟨⟨(wHold : State), (27 : Fin 36), (0 : Nat), by decide +kernel⟩,
   ⟨({ wHold with lanes := [(24, { st := .locked, eb := List.replicate 16 { ctl := false }, ebFilling := false })] } : State), (24 : Fin 36), (wBad : Nat), _, rfl, wBad_fails, by decide +kernel⟩,
   ⟨({ wHold with lanes := [(24, { st := .locked, eb := List.replicate 16 { ctl := false }, ebFilling := false })] } : State), (24 : Fin 36), (wCode : Nat), _, (frameSymbols wCode : List Nat), (0 : Nat), _, _, rfl, wCode_decodes, rfl, rfl, by decide +kernel⟩,
   ⟨(wSet { wHold with lanes := [(24, { st := .hunt })] } [(LANE_CTL_AUTO_RT, 24, 1)] : State), (24 : Fin 36), by decide +kernel⟩⟩

/-- The premises of clauses of Obligations.LaneStateMachine are met. -/
theorem witness_LaneStateMachine_4 :
    (∃ s : State, ∃ j : Fin 36, (24 ≤ j.val) ∧ (j.val < 28) ∧ (s.live = true) ∧ ((s.lane j).st = .failed) ∧ (s.fld LANE_RT_RETRY j ≠ 0)) ∧
    (∃ s : State, ∃ j : Fin 36, (24 ≤ j.val) ∧ (j.val < 28) ∧ (s.live = true) ∧ ((s.lane j).csym ≤ s.fld LANE_CSLIM_CSYM_LIM j)) ∧
    (∃ s : State, ∃ j : Fin 36, ∃ hs : List (Option Nat), ∃ code : Nat, ∃ h : Nat, (∀ k g : Nat, hs[k]? = some (some g) → g ≤ h ∧ (k < code → g < h ∨ g < s.fld LANE_RT_HMIN j)) ∧ (24 ≤ j.val) ∧ (j.val < 28) ∧ (s.live = true) ∧ ((s.lane j).st = .retrain) ∧ (hs.length ≤ 32) ∧ (hs[code]? = some (some h)) ∧ (s.fld LANE_RT_HMIN j ≤ h)) ∧
    (∃ s : State, ∃ j : Fin 36, ∃ hs : List (Option Nat), (∀ k g : Nat, hs[k]? = some (some g) → g < s.fld LANE_RT_HMIN j) ∧ (24 ≤ j.val) ∧ (j.val < 28) ∧ (s.live = true) ∧ ((s.lane j).st = .retrain)) :=
  ⟨⟨(wSet { wHold with lanes := [(24, { st := .failed })] } [(LANE_RT_RETRY, 24, 1)] : State), (24 : Fin 36), by decide +kernel⟩,
   ⟨(wSet { wHold with lanes := [(24, { st := .locked, csym := 7 })] } [(LANE_CSLIM_CSYM_LIM, 24, 7)] : State), (24 : Fin 36), by decide +kernel⟩,
   ⟨(wSet { wHold with lanes := [(24, { st := .retrain })] } [(LANE_RT_HMIN, 24, 5)] : State), (24 : Fin 36), ([some 5] : List (Option Nat)), (0 : Nat), (5 : Nat), by intro k g h; cases k <;> simp_all, by decide +kernel⟩,
   ⟨(wSet { wHold with lanes := [(24, { st := .retrain })] } [(LANE_RT_HMIN, 24, 5)] : State), (24 : Fin 36), ([some 4] : List (Option Nat)), by intro k g h; cases k <;> simp_all; subst h; decide, by decide +kernel⟩⟩

/-- The premises of clauses of Obligations.EyeScansAndPackets are met. -/
theorem witness_EyeScansAndPackets_1 :
    (∃ s : State, ∃ m : Master, ∃ j : Fin 36, ∃ v : Word, (s.mayWrite m .LANE_ESCAN_CTL j) ∧ (v.getLsbD 31 = true) ∧ (s.on LANE_ESCAN_RES_BUSY j = false)) ∧
    (∃ s : State, ∃ j : Fin 36, (s.live = true) ∧ (s.on LANE_ESCAN_RES_BUSY j = true)) ∧
    (∃ s : State, ∃ j : Fin 12, ∃ k : Packet, ∃ ks : List Packet, (4 ≤ j.val) ∧ (s.live = true) ∧ ((s.lane (24 + j)).pkts = k :: ks) ∧ (k.ch < 6) ∧ ((s.spanPort ((j - 4) / 4)).st = .up)) ∧
    (∃ s : State, ∃ j : Fin 12, ∃ k : Packet, ∃ ks : List Packet, (4 ≤ j.val) ∧ (s.live = true) ∧ ((s.lane (24 + j)).pkts = k :: ks) ∧ (6 ≤ k.ch)) :=
  ⟨⟨({ wHold with lanes := [(35, { st := .locked })] } : State), (48 : Master), (35 : Fin 36), (0x80000000 : Word), reach (by decide +kernel), by decide +kernel⟩,
   ⟨(wSet wHold [(LANE_ESCAN_RES_BUSY, 0, 1)] : State), (0 : Fin 36), by decide +kernel⟩,
   ⟨({ wHold with lanes := [(28, { pkts := [⟨5, [], 0, []⟩] })], spanPorts := [(0, { st := .up })] } : State), (4 : Fin 12), (⟨5, [], 0, []⟩ : Packet), ([] : List Packet), by decide +kernel⟩,
   ⟨({ wHold with lanes := [(35, { pkts := [⟨6, [], 0, []⟩] })] } : State), (11 : Fin 12), (⟨6, [], 0, []⟩ : Packet), ([] : List Packet), by decide +kernel⟩⟩

/-- The premises of clauses of Obligations.EyeScansAndPackets are met. -/
theorem witness_EyeScansAndPackets_2 :
    ∃ s : State, ∃ j : Fin 12, ∃ w : Nat, (4 ≤ j.val) ∧ (s.live = true) ∧ ((s.lane (24 + j)).ctlIn = [w]) ∧ (w / 2 ^ 28 = 8) :=
  ⟨({ wHold with lanes := [(35, { ctlIn := [0x81000001] })] } : State), (11 : Fin 12), (0x81000001 : Nat), by decide +kernel⟩

/-- The premises of clauses of Obligations.CameraPorts are met. -/
theorem witness_CameraPorts_1 :
    (∃ s : State, ∃ m : Master, ∃ p : Fin 12, (s.mayWrite m .CAM_CTL p) ∧ (s.inRun = true) ∧ ((s.cam p).st = .off) ∧ ((s.cam p).fmt = none) ∧ (∀ j ∈ lanesOf p (s.fld CAM_CTL_LANES p), s.on LANE_CTL_EN j = true)) ∧
    (∃ s : State, ∃ t : State, ∃ p : Fin 12, ∃ w : Nat, ∃ f : FmtReq, (s.live = true) ∧ (s.camTake p 7 = some (w, t)) ∧ ((s.cam p).fmt = some f) ∧ (w % 2 ^ 28 = f.word) ∧ (f.target = .normal) ∧ (s.camLocked p f.lanes = true) ∧ (f.lanes < 4)) ∧
    (∃ s : State, ∃ t : State, ∃ p : Fin 12, ∃ w : Nat, ∃ f : FmtReq, (s.live = true) ∧ (s.camTake p 7 = some (w, t)) ∧ ((s.cam p).fmt = some f) ∧ (w % 2 ^ 28 ≠ f.word)) ∧
    (∃ s : State, ∃ p : Fin 12, ∃ f : FmtReq, (s.live = true) ∧ ((s.cam p).fmt = some f) ∧ (f.late = false) ∧ (f.eff ≤ s.tick.hw) ∧ ((s.cam p).st ≠ .stopped)) :=
  ⟨⟨(wSet wRun [(LANE_CTL_EN, 22, 1), (CAM_CTL_LANES, 11, 1)] : State), (48 : Master), (11 : Fin 12), reach (by decide +kernel), by decide +kernel⟩,
   ⟨({ wHold with lanes := [(0, { st := .locked, ctlIn := [0x75000000] })], cams := [(0, { fmt := some ⟨1, 1, 0, .normal, false⟩ })] } : State), ({ wHold with lanes := [(0, { st := .locked })], cams := [(0, { fmt := some ⟨1, 1, 0, .normal, false⟩ })] } : State), (0 : Fin 12), (0x75000000 : Nat), (⟨1, 1, 0, .normal, false⟩ : FmtReq), by decide +kernel⟩,
   ⟨({ wHold with lanes := [(0, { st := .locked, ctlIn := [0x76000000] })], cams := [(0, { fmt := some ⟨1, 1, 0, .normal, false⟩ })] } : State), ({ wHold with lanes := [(0, { st := .locked })], cams := [(0, { fmt := some ⟨1, 1, 0, .normal, false⟩ })] } : State), (0 : Fin 12), (0x76000000 : Nat), (⟨1, 1, 0, .normal, false⟩ : FmtReq), by decide +kernel⟩,
   ⟨({ wRun with cams := [(0, { st := .normal, fmt := some ⟨1, 1, 0, .normal, false⟩ })] } : State), (0 : Fin 12), (⟨1, 1, 0, .normal, false⟩ : FmtReq), by decide +kernel⟩⟩

/-- The premises of clauses of Obligations.CameraPorts are met. -/
theorem witness_CameraPorts_2 :
    (∃ s : State, ∃ p : Fin 12, ∃ f : FmtReq, (s.live = true) ∧ ((s.cam p).fmt = some f) ∧ (f.late = true) ∧ (f.eff + 240 ≤ s.tick.hw)) ∧
    (∃ s : State, ∃ p : Fin 12, (s.live = true) ∧ ((s.cam p).st = .stopped) ∧ ((s.cam p).cause = 3) ∧ ((s.cam p).fmt = none) ∧ (64 ≤ (s.cam p).calm) ∧ (s.on CAM_CTL_EN p = true)) :=
  ⟨⟨({ wRun with cams := [(0, { st := .normal, fmt := some ⟨1, 1, 0, .normal, true⟩ })], tick := { hw := 240 } } : State), (0 : Fin 12), (⟨1, 1, 0, .normal, true⟩ : FmtReq), by decide +kernel⟩,
   ⟨({ wSet wRun [(CAM_CTL_EN, 0, 1)] with cams := [(0, { st := .stopped, cause := 3, calm := 64, work := 2 })] } : State), (0 : Fin 12), by decide +kernel⟩⟩

/-- The premises of clauses of Obligations.CameraRegisterAccess are met. -/
theorem witness_CameraRegisterAccess_1 :
    (∃ s : State, ∃ p : Fin 12, (s.live = true) ∧ (s.camTake p 9 = none)) ∧
    (∃ s : State, ∃ p : Fin 12, ∃ w : Nat, ∃ t : State, (s.live = true) ∧ (s.camTake p 9 = some (w, t))) ∧
    (∃ s : State, ∃ m : Master, ∃ p : Fin 12, ∃ v : Word, (s.mayWrite m .CAM_REGCMD p) ∧ (v.getLsbD 31 = true) ∧ ((s.cam p).reg = none)) ∧
    (∃ s : State, ∃ m : Master, ∃ p : Fin 12, ∃ a : RegAcc, (s.mayWrite m .CAM_REGCMD p) ∧ ((s.cam p).reg = some a)) :=
  ⟨⟨(wHold : State), (11 : Fin 12), by decide +kernel⟩,
   ⟨({ wHold with lanes := [(23, { ctlIn := [0x90000004] })] } : State), (11 : Fin 12), (0x90000004 : Nat), ({ wHold with lanes := [(23, {})] } : State), by decide +kernel⟩,
   ⟨({ wHold with cams := [(11, { tag := 7 })] } : State), (48 : Master), (11 : Fin 12), (0x80FFFFFF : Word), reach (by decide +kernel), by decide +kernel⟩,
   ⟨({ wHold with cams := [(11, { reg := some ⟨false, 7, 1, none, none, 0⟩ })] } : State), (48 : Master), (11 : Fin 12), (⟨false, 7, 1, none, none, 0⟩ : RegAcc), reach (by decide +kernel), by decide +kernel⟩⟩

/-- The premises of clauses of Obligations.CameraRegisterAccess are met. -/
theorem witness_CameraRegisterAccess_2 :
    (∃ s : State, ∃ p : Fin 12, ∃ w : Nat, ∃ t : State, ∃ a : RegAcc, ∃ res : Nat, (res = (if a.res ≠ rOK then a.res else if bits w 23 16 = rOK ∨ bits w 23 16 = rRANGE ∨ bits w 23 16 = rDENIED then bits w 23 16 else rERROR)) ∧ (s.live = true) ∧ (s.camTake p 5 = some (w, t)) ∧ ((s.cam p).reg = some a) ∧ (bits w 26 24 ≠ a.tag)) ∧
    (∃ s : State, ∃ p : Fin 12, ∃ w : Nat, ∃ t : State, ∃ a : RegAcc, ∃ res : Nat, (res = (if a.res ≠ rOK then a.res else if bits w 23 16 = rOK ∨ bits w 23 16 = rRANGE ∨ bits w 23 16 = rDENIED then bits w 23 16 else rERROR)) ∧ (s.live = true) ∧ (s.camTake p 5 = some (w, t)) ∧ ((s.cam p).reg = some a) ∧ (bits w 26 24 = a.tag) ∧ (a.write = true)) ∧
    (∃ s : State, ∃ p : Fin 12, ∃ w : Nat, ∃ t : State, ∃ a : RegAcc, ∃ res : Nat, (res = (if a.res ≠ rOK then a.res else if bits w 23 16 = rOK ∨ bits w 23 16 = rRANGE ∨ bits w 23 16 = rDENIED then bits w 23 16 else rERROR)) ∧ (s.live = true) ∧ (s.camTake p 5 = some (w, t)) ∧ ((s.cam p).reg = some a) ∧ (bits w 26 24 = a.tag) ∧ (a.write = false) ∧ (if w.testBit 27 then a.lo = none else a.hi = none)) ∧
    (∃ s : State, ∃ p : Fin 12, ∃ w : Nat, ∃ t : State, ∃ a : RegAcc, ∃ res : Nat, ∃ lo : Nat, ∃ hi : Nat, (res = (if a.res ≠ rOK then a.res else if bits w 23 16 = rOK ∨ bits w 23 16 = rRANGE ∨ bits w 23 16 = rDENIED then bits w 23 16 else rERROR)) ∧ (s.live = true) ∧ (s.camTake p 5 = some (w, t)) ∧ ((s.cam p).reg = some a) ∧ (bits w 26 24 = a.tag) ∧ (a.write = false) ∧ (if w.testBit 27 then a.lo = some lo ∧ hi = w % 2 ^ 16 else a.hi = some hi ∧ lo = w % 2 ^ 16)) :=
  ⟨⟨({ wHold with lanes := [(23, { ctlIn := [0x5F00FFFF] })], cams := [(11, { reg := some ⟨false, 6, 1, none, none, 0⟩ })] } : State), (11 : Fin 12), (0x5F00FFFF : Nat), ({ wHold with lanes := [(23, {})], cams := [(11, { reg := some ⟨false, 6, 1, none, none, 0⟩ })] } : State), (⟨false, 6, 1, none, none, 0⟩ : RegAcc), _, rfl, by decide +kernel⟩,
   ⟨({ wHold with lanes := [(23, { ctlIn := [0x5F00FFFF] })], cams := [(11, { reg := some ⟨true, 7, 1, none, none, 0⟩ })] } : State), (11 : Fin 12), (0x5F00FFFF : Nat), ({ wHold with lanes := [(23, {})], cams := [(11, { reg := some ⟨true, 7, 1, none, none, 0⟩ })] } : State), (⟨true, 7, 1, none, none, 0⟩ : RegAcc), _, rfl, by decide +kernel⟩,
   ⟨({ wHold with lanes := [(23, { ctlIn := [0x5F00FFFF] })], cams := [(11, { reg := some ⟨false, 7, 1, none, none, 0⟩ })] } : State), (11 : Fin 12), (0x5F00FFFF : Nat), ({ wHold with lanes := [(23, {})], cams := [(11, { reg := some ⟨false, 7, 1, none, none, 0⟩ })] } : State), (⟨false, 7, 1, none, none, 0⟩ : RegAcc), _, rfl, by decide +kernel⟩,
   ⟨({ wHold with lanes := [(23, { ctlIn := [0x5F00FFFF] })], cams := [(11, { reg := some ⟨false, 7, 1, some 3, none, 0⟩ })] } : State), (11 : Fin 12), (0x5F00FFFF : Nat), ({ wHold with lanes := [(23, {})], cams := [(11, { reg := some ⟨false, 7, 1, some 3, none, 0⟩ })] } : State), (⟨false, 7, 1, some 3, none, 0⟩ : RegAcc), _, (3 : Nat), (0xFFFF : Nat), rfl, by decide +kernel⟩⟩

/-- The premises of clauses of Obligations.CameraRegisterAccess are met. -/
theorem witness_CameraRegisterAccess_3 :
    ∃ s : State, ∃ p : Fin 12, (s.live = true) ∧ ((s.cam p).reg = none) :=
  ⟨(wHold : State), (0 : Fin 12), by decide +kernel⟩

/-- The premises of clauses of Obligations.IngestUnits are met. -/
theorem witness_IngestUnits_1 :
    (∃ s : State, ∃ s1 : State, ∃ s2 : State, ∃ c : Fin 12, ∃ l : CamLine, ∃ ls : List CamLine, (s1 = s.updCam c (fun q => { q with lines := ls })) ∧ (s2 = s1.iuReach c l.line) ∧ (s.live = true) ∧ ((s.cam c).lines = l :: ls) ∧ (s.on IU_CTL_EN c = false)) ∧
    (∃ s : State, ∃ s1 : State, ∃ s2 : State, ∃ c : Fin 12, ∃ late : Bool, ∃ l : CamLine, ∃ ls : List CamLine, ∃ cal : List Byte, ∃ code : List Byte, (s1 = s.updCam c (fun q => { q with lines := ls })) ∧ (s2 = s1.iuReach c l.line) ∧ (s2.busRead 16 (poolBase + s.fld IU_TBASE_OFS c) (16 * s.camPx c) = (rOK, cal, s2)) ∧ (s2.busRead 16 (poolBase + s.fld IU_TBASE_OFS c + 32 * s.camPx c) (s.camPx c) = (rOK, code, s2)) ∧ (s.live = true) ∧ ((s.cam c).lines = l :: ls) ∧ (s.on IU_CTL_EN c = true) ∧ ((s.iu c).pend = none) ∧ ((s.iu c).acc = none) ∧ (s.on IU_CTL_LAMP_EN c = false) ∧ ((s.iu c).stats.first ≤ l.line - l.line % s.iuBlock c) ∧ (∀ x ∈ (s.cam c).lost, x.1 = l.line → x.2 = 0) ∧ (late = true)) ∧
    (∃ s : State, ∃ s1 : State, ∃ s2 : State, ∃ c : Fin 12, ∃ late : Bool, ∃ l : CamLine, ∃ ls : List CamLine, ∃ cal : List Byte, ∃ code : List Byte, (s1 = s.updCam c (fun q => { q with lines := ls })) ∧ (s2 = s1.iuReach c l.line) ∧ (s2.busRead 16 (poolBase + s.fld IU_TBASE_OFS c) (16 * s.camPx c) = (rOK, cal, s2)) ∧ (s2.busRead 16 (poolBase + s.fld IU_TBASE_OFS c + 32 * s.camPx c) (s.camPx c) = (rOK, code, s2)) ∧ (late = false) ∧ (s.live = true) ∧ ((s.cam c).lines = l :: ls) ∧ (s.on IU_CTL_EN c = true) ∧ ((s.iu c).pend = none) ∧ ((s.iu c).acc = none) ∧ (s.on IU_CTL_LAMP_EN c = false) ∧ ((s.iu c).stats.first ≤ l.line - l.line % s.iuBlock c) ∧ (∀ x ∈ (s.cam c).lost, x.1 = l.line → x.2 = 0)) ∧
    (∃ s : State, ∃ m : Master, ∃ c : Fin 12, (s.mayWrite m .IU_TCMD c) ∧ ((s.iu c).check = none) ∧ ((s.iu c).pend = none)) :=
  ⟨⟨({ wHold with cams := [(3, { lines := [⟨7, 0, 0, []⟩] })] } : State), _, _, (3 : Fin 12), (⟨7, 0, 0, []⟩ : CamLine), ([] : List CamLine), rfl, rfl, by decide +kernel⟩,
   ⟨(wGrant (wSet { wHold with cams := [(3, { lines := [⟨7, 0, 1, [1, 2, 3, 4]⟩] })] } [(IU_CTL_EN, 3, 1), (CAM_PIX_PIX, 3, 1)]) 16 16 : State), _, _, (3 : Fin 12), (true : Bool), (⟨7, 0, 1, [1, 2, 3, 4]⟩ : CamLine), ([] : List CamLine), (List.replicate 16 0 : List Byte), ([0] : List Byte), rfl, rfl, by decide +kernel, by decide +kernel, by decide +kernel⟩,
   ⟨(wGrant (wSet { wHold with cams := [(3, { lines := [⟨7, 0, 1, [1, 2, 3, 4]⟩] })] } [(IU_CTL_EN, 3, 1), (CAM_PIX_PIX, 3, 1)]) 16 16 : State), _, _, (3 : Fin 12), _, (⟨7, 0, 1, [1, 2, 3, 4]⟩ : CamLine), ([] : List CamLine), (List.replicate 16 0 : List Byte), ([0] : List Byte), rfl, rfl, by decide +kernel, by decide +kernel, rfl, by decide +kernel⟩,
   ⟨(wHold : State), (48 : Master), (11 : Fin 12), reach (by decide +kernel), by decide +kernel⟩⟩

/-- The premises of clauses of Obligations.IngestUnits are met. -/
theorem witness_IngestUnits_2 :
    (∃ s : State, ∃ m : Master, ∃ c : Fin 12, (s.mayWrite m .IU_TCMD c) ∧ (((s.iu c).check.isSome || (s.iu c).pend.isSome) = true)) ∧
    (∃ s : State, ∃ c : Fin 12, ∃ ofs : Nat, ∃ line : Int, ∃ bad : Option Nat, ∃ t : State, (t = (s.setFld IU_TRES_DONE c 1).setFld IU_TRES_BUSY c 0) ∧ (t.iuBadPixel c ofs = (bad, t)) ∧ (s.live = true) ∧ ((s.iu c).check = some (ofs, line))) ∧
    (∃ s : State, ∃ c : Fin 12, ∃ b : IuStats, ∃ bs : List IuStats, (s.live = true) ∧ ((s.iu c).ended = b :: bs) ∧ (b.count ≠ 0)) ∧
    (∃ s : State, ∃ m : Master, ∃ c : Fin 12, ∃ v : Word, (s.mayWrite m .IU_ACC_CTL c) ∧ (v.getLsbD 0 = true) ∧ (s.on IU_ACC_STAT_BUSY c = false)) :=
  ⟨⟨({ wHold with ius := [(11, { pend := some (0, 5) })] } : State), (48 : Master), (11 : Fin 12), reach (by decide +kernel), by decide +kernel⟩,
   ⟨(wGrant (wSet { wHold with ius := [(11, { check := some (0, 5) })] } [(CAM_PIX_PIX, 11, 1)]) 16 16 : State), (11 : Fin 12), (0 : Nat), (5 : Int), (none : Option Nat), _, rfl, pairOf (by decide +kernel), by decide +kernel⟩,
   ⟨({ wHold with ius := [(11, { ended := [{ count := 1 }] })] } : State), (11 : Fin 12), ({ count := 1 } : IuStats), ([] : List IuStats), by decide +kernel⟩,
   ⟨(wHold : State), (48 : Master), (11 : Fin 12), (7 : Word), reach (by decide +kernel), by decide +kernel⟩⟩

/-- The premises of clauses of Obligations.IngestUnits are met. -/
theorem witness_IngestUnits_3 :
    (∃ s : State, ∃ m : Master, ∃ c : Fin 12, (s.mayWrite m .IU_ACC_CTL c) ∧ (s.on IU_ACC_STAT_BUSY c = true)) ∧
    (∃ s : State, ∃ c : Fin 12, ∃ a : IuAcc, (s.live = true) ∧ ((s.iu c).acc = some a) ∧ (a.left = 0)) :=
  ⟨⟨(wSet wHold [(IU_ACC_STAT_BUSY, 11, 1)] : State), (48 : Master), (11 : Fin 12), reach (by decide +kernel), by decide +kernel⟩,
   ⟨({ wHold with ius := [(11, { acc := some ⟨2, 0⟩ })] } : State), (11 : Fin 12), (⟨2, 0⟩ : IuAcc), by decide +kernel⟩⟩

/-- The premises of clauses of Obligations.AccordEnableAndMapCheck are met. -/
theorem witness_AccordEnableAndMapCheck :
    (∃ s : State, ∃ m : Master, ∃ v : Word, (s.mayWrite m .ACCORD_CTL 0) ∧ (v.getLsbD 0 = true) ∧ (s.inHold = true)) ∧
    (∃ s : State, ∃ m : Master, ∃ v : Word, (s.mayWrite m .ACCORD_CTL 0) ∧ (v.getLsbD 0 = true) ∧ (s.inHold = false)) ∧
    (∃ s : State, ∃ m : Master, ∃ v : Word, (s.mayWrite m .ACCORD_MCHK_CMD 0) ∧ (v.getLsbD 31 = true) ∧ (s.on ACCORD_MRES_BUSY = false)) ∧
    (∃ s : State, ∃ e : Nat, ∃ set : Nat, (s.live = true) ∧ (s.accord.check = some (e, set))) :=
  ⟨⟨(wHold : State), (48 : Master), (1 : Word), reach (by decide +kernel), by decide +kernel⟩,
   ⟨(wRun : State), (48 : Master), (1 : Word), reach (by decide +kernel), by decide +kernel⟩,
   ⟨(wHold : State), (48 : Master), (0x8000000F : Word), reach (by decide +kernel), by decide +kernel⟩,
   ⟨({ wHold with accord := { check := some (15, 3) } } : State), (15 : Nat), (3 : Nat), by decide +kernel⟩⟩

/-- The premises of clauses of Obligations.EventRouter are met. -/
theorem witness_EventRouter_1 :
    (∃ s : State, ∃ ch : Nat, (s.live = true) ∧ (∀ c < 45, s.evtLinked c ch = false)) ∧
    (∃ s : State, ∃ ch : Nat, ∃ c : Nat, (s.live = true) ∧ (c < 24) ∧ (s.evtLinked c ch = true) ∧ (∀ d < 45, d ≠ c → s.evtLinked d ch = false) ∧ (s.evt.level.any (s.evtLinked c) = false) ∧ (s.on EVT_PIN_OMODE c = false)) ∧
    (∃ s : State, ∃ n : Fin 8, (s.live = true) ∧ (0 < look 0 s.evt.rlyHeld n.val)) ∧
    (∃ s : State, ∃ m : Master, ∃ k : Fin 4, (s.mayRead m .EVT_CAP (k * 8 + 7)) ∧ ((look {} s.evt.caps k.val).held = none)) :=
  ⟨⟨(wHold : State), (63 : Nat), by decide +kernel⟩,
   ⟨(wSet wHold [(EVT_LNK_LO_EN, 2, 1)] : State), (0 : Nat), (2 : Nat), by decide +kernel⟩,
   ⟨({ wHold with evt := { rlyHeld := [(7, 1)] } } : State), (7 : Fin 8), by decide +kernel⟩,
   ⟨(wHold : State), (48 : Master), (3 : Fin 4), reach (by decide +kernel), by decide +kernel⟩⟩

/-- The premises of clauses of Obligations.EventRouter are met. -/
theorem witness_EventRouter_2 :
    (∃ s : State, ∃ m : Master, ∃ k : Fin 4, ∃ e : List Byte, (s.mayRead m .EVT_CAP (k * 8 + 7)) ∧ ((look {} s.evt.caps k.val).held = some e)) ∧
    (∃ s : State, ∃ m : Master, ∃ n : Fin 8, ∃ dly : Bool, (s.mayWrite m (if dly then .EVT_RLY_DLY else .EVT_RLY_DIV) n)) ∧
    (∃ s : State, ∃ m : Master, ∃ ch : Fin 64, (s.mayWrite m .EVT_OWN ch) ∧ (m = 48) ∧ (s.fld EVT_LOCK_LOCK = 0) ∧ (ch ≠ 19) ∧ (ch ≠ 20)) ∧
    (∃ s : State, ∃ m : Master, ∃ ch : Fin 64, (s.mayWrite m .EVT_OWN ch) ∧ (m ≠ 48 ∨ s.fld EVT_LOCK_LOCK ≠ 0 ∨ ch = 19 ∨ ch = 20)) :=
  ⟨⟨({ wHold with evt := { caps := [(3, ⟨true, false, some [1]⟩)] } } : State), (48 : Master), (3 : Fin 4), ([1] : List Byte), reach (by decide +kernel), by decide +kernel⟩,
   ⟨({ wHold with evt := { rlyHeld := [(7, 1)] } } : State), (48 : Master), (7 : Fin 8), (true : Bool), reach (by decide +kernel)⟩,
   ⟨(wHold : State), (48 : Master), (63 : Fin 64), reach (by decide +kernel), by decide +kernel⟩,
   ⟨(wHold : State), (48 : Master), (19 : Fin 64), reach (by decide +kernel), by decide +kernel⟩⟩

/-- The premises of clauses of Obligations.EventRouter are met. -/
theorem witness_EventRouter_3 :
    ∃ s : State, ∃ m : Master, (s.mayWrite m .EVT_LOCK 0) :=
  ⟨(wHold : State), (48 : Master), reach (by decide +kernel)⟩

/-- The premises of clauses of Obligations.LinkAndTriggerOwnership are met. -/
theorem witness_LinkAndTriggerOwnership_1 :
    (∃ s : State, ∃ m : Master, ∃ v : Word, ∃ c : Fin 45, ∃ r : Reg, ∃ base : Nat, ∃ hi : Bool, ∃ new : Word, ((r, base) = (if hi then (Reg.EVT_LNK_HI, 32) else (Reg.EVT_LNK_LO, 0))) ∧ (new = v &&& BitVec.ofNat 32 (evtWireWord c / 2 ^ base)) ∧ (s.mayWrite m r c) ∧ (∀ b < 32, new.getLsbD b = true → (s.reg r c).getLsbD b = false → ∀ ch, evtFixed c = some ch → ¬EvtPath s ch (base + b)) ∧ (∀ b < 32, new.getLsbD b ≠ (s.reg r c).getLsbD b → some (s.evtOwner (base + b)) = ownerOfMaster m ∧ (c = 36 → new.getLsbD b = true → s.on EVT_OWN_SECURE (base + b) = true))) ∧
    (∃ s : State, ∃ m : Master, ∃ v : Word, ∃ c : Fin 45, ∃ r : Reg, ∃ base : Nat, ∃ hi : Bool, ∃ new : Word, ∃ b, ∃ ch, ((r, base) = (if hi then (Reg.EVT_LNK_HI, 32) else (Reg.EVT_LNK_LO, 0))) ∧ (new = v &&& BitVec.ofNat 32 (evtWireWord c / 2 ^ base)) ∧ (s.mayWrite m r c) ∧ (EvtPath s ch (base + b)) ∧ (∀ b < 32, new.getLsbD b ≠ (s.reg r c).getLsbD b → some (s.evtOwner (base + b)) = ownerOfMaster m ∧ (c = 36 → new.getLsbD b = true → s.on EVT_OWN_SECURE (base + b) = true)) ∧ (b < 32) ∧ (new.getLsbD b = true) ∧ ((s.reg r c).getLsbD b = false) ∧ (evtFixed c = some ch)) ∧
    (∃ s : State, ∃ m : Master, ∃ v : Word, ∃ c : Fin 45, ∃ r : Reg, ∃ base : Nat, ∃ hi : Bool, ∃ new : Word, ∃ b, ((r, base) = (if hi then (Reg.EVT_LNK_HI, 32) else (Reg.EVT_LNK_LO, 0))) ∧ (new = v &&& BitVec.ofNat 32 (evtWireWord c / 2 ^ base)) ∧ (s.mayWrite m r c) ∧ (b < 32) ∧ (new.getLsbD b ≠ (s.reg r c).getLsbD b) ∧ (some (s.evtOwner (base + b)) ≠ ownerOfMaster m ∨ (c = 36 ∧ new.getLsbD b = true ∧ s.on EVT_OWN_SECURE (base + b) = false))) ∧
    (∃ s : State, ∃ m : Master, ∃ v : Word, (s.mayWrite m .EVT_SWTRIG 0) ∧ (∀ b < 8, v.getLsbD b = true → some (s.evtOwner (48 + b)) = ownerOfMaster m)) :=
  ⟨⟨(wTgt (wSet wHold [(EVT_OWN_OWNER, 24, 1)]) .EVT_LNK_LO 40 : State), (40 : Master), (0x1000000 : Word), (26 : Fin 45), (.EVT_LNK_LO : Reg), (0 : Nat), (false : Bool), _, rfl, rfl, reachT (by decide +kernel), noPath (by decide +kernel), by decide +kernel⟩,
   ⟨(wSet wHold [(EVT_OWN_OWNER, 56, 0)] : State), (48 : Master), (0x1000000 : Word), (37 : Fin 45), (.EVT_LNK_HI : Reg), (32 : Nat), (true : Bool), _, 24, 56, rfl, rfl, reach (by decide +kernel), EvtPath.here, by decide +kernel⟩,
   ⟨(wTgt (wSet wHold [(EVT_OWN_OWNER, 24, 0)]) .EVT_LNK_LO 40 : State), (40 : Master), (0x1000000 : Word), (26 : Fin 45), (.EVT_LNK_LO : Reg), (0 : Nat), (false : Bool), _, 24, rfl, rfl, reachT (by decide +kernel), by decide +kernel⟩,
   ⟨(wSet wHold [(EVT_OWN_OWNER, 55, 0)] : State), (48 : Master), (0x80 : Word), reach (by decide +kernel), by decide +kernel⟩⟩

/-- The premises of clauses of Obligations.LinkAndTriggerOwnership are met. -/
theorem witness_LinkAndTriggerOwnership_2 :
    ∃ s : State, ∃ m : Master, ∃ v : Word, ∃ b : Nat, (s.mayWrite m .EVT_SWTRIG 0) ∧ (b < 8) ∧ (v.getLsbD b = true) ∧ (some (s.evtOwner (48 + b)) ≠ ownerOfMaster m) :=
  ⟨(wSet wHold [(EVT_OWN_OWNER, 55, 0)] : State), (48 : Master), (0xC0 : Word), (6 : Nat), reach (by decide +kernel), by decide +kernel⟩

/-- The premises of clauses of Obligations.ControlInstructions are met. -/
theorem witness_ControlInstructions_1 :
    (∃ s : State, ∃ e : Fin 16, ∃ f : CFields, ∃ r : Run, ∃ p : Prog, ∃ a : BitVec 64, ∃ b : BitVec 64, ∃ i : Instr, ∃ v : BitVec 64, (s.engReady e r p) ∧ (a = (s.eng e).sreg f.sa) ∧ (b = (s.eng e).sreg (bits f.imm.toNat 31 27)) ∧ ((i, v) ∈ [(.cAdd e f, a + b), (.cSub e f, a - b), (.cAnd e f, a &&& b), (.cOr e f, a ||| b), (.cXor e f, a ^^^ b), (.cShl e f, a <<< (b.toNat % 64)), (.cShr e f, a >>> (b.toNat % 64)), (.cSar e f, a.sshiftRight (b.toNat % 64)), (.cMin e f, if a.sle b then a else b), (.cMax e f, if a.sle b then b else a), (.slt e f, if a.slt b then 1 else 0), (.addi e f, a + f.imm.signExtend 64), (.li e f, f.imm.signExtend 64), (.lih e f, f.imm ++ a.truncate 32), (.shli e f, a <<< (f.imm.toNat % 64)), (.shri e f, a >>> (f.imm.toNat % 64)), (.sari e f, a.sshiftRight (f.imm.toNat % 64)), (.ctx e f, r.ctx.getD (f.imm.toNat % 8) 0), (.pget e f, (s.eng e).preg (f.sa.val % 8))]) ∧ (f.sd ≠ 0)) ∧
    (∃ s : State, ∃ e : Fin 16, ∃ f : CFields, ∃ r : Run, ∃ p : Prog, ∃ a : BitVec 64, ∃ b : BitVec 64, ∃ i : Instr, ∃ v : BitVec 64, (s.engReady e r p) ∧ (a = (s.eng e).sreg f.sa) ∧ (b = (s.eng e).sreg (bits f.imm.toNat 31 27)) ∧ ((i, v) ∈ [(.cAdd e f, a + b), (.cSub e f, a - b), (.cAnd e f, a &&& b), (.cOr e f, a ||| b), (.cXor e f, a ^^^ b), (.cShl e f, a <<< (b.toNat % 64)), (.cShr e f, a >>> (b.toNat % 64)), (.cSar e f, a.sshiftRight (b.toNat % 64)), (.cMin e f, if a.sle b then a else b), (.cMax e f, if a.sle b then b else a), (.slt e f, if a.slt b then 1 else 0), (.addi e f, a + f.imm.signExtend 64), (.li e f, f.imm.signExtend 64), (.lih e f, f.imm ++ a.truncate 32), (.shli e f, a <<< (f.imm.toNat % 64)), (.shri e f, a >>> (f.imm.toNat % 64)), (.sari e f, a.sshiftRight (f.imm.toNat % 64)), (.ctx e f, r.ctx.getD (f.imm.toNat % 8) 0), (.pget e f, (s.eng e).preg (f.sa.val % 8))]) ∧ (f.sd = 0)) ∧
    (∃ s : State, ∃ e : Fin 16, ∃ f : CFields, ∃ r : Run, ∃ p : Prog, ∃ l : LoopSt, ∃ a : BitVec 64, ∃ b : BitVec 64, ∃ i : Instr, ∃ v : BitVec 64, (s.engLoops e r p l) ∧ (a = (s.eng e).sreg f.sa) ∧ (b = (s.eng e).sreg (bits f.imm.toNat 31 27)) ∧ ((i, v) ∈ [(.cAdd e f, a + b), (.cSub e f, a - b), (.cAnd e f, a &&& b), (.cOr e f, a ||| b), (.cXor e f, a ^^^ b), (.cShl e f, a <<< (b.toNat % 64)), (.cShr e f, a >>> (b.toNat % 64)), (.cSar e f, a.sshiftRight (b.toNat % 64)), (.cMin e f, if a.sle b then a else b), (.cMax e f, if a.sle b then b else a), (.slt e f, if a.slt b then 1 else 0), (.addi e f, a + f.imm.signExtend 64), (.li e f, f.imm.signExtend 64), (.lih e f, f.imm ++ a.truncate 32), (.shli e f, a <<< (f.imm.toNat % 64)), (.shri e f, a >>> (f.imm.toNat % 64)), (.sari e f, a.sshiftRight (f.imm.toNat % 64)), (.ctx e f, r.ctx.getD (f.imm.toNat % 8) 0), (.pget e f, (s.eng e).preg (f.sa.val % 8))]) ∧ (f.sd ≠ 0)) ∧
    (∃ s : State, ∃ e : Fin 16, ∃ f : CFields, ∃ r : Run, ∃ p : Prog, ∃ l : LoopSt, ∃ a : BitVec 64, ∃ b : BitVec 64, (s.engLoops e r p l) ∧ (a = (s.eng e).sreg f.sa) ∧ (b = (s.eng e).sreg (bits f.imm.toNat 31 27)) ∧ (f.sd.val % 8 ≠ 0)) :=
  ⟨⟨(wEng : State), (0 : Fin 16), (⟨1, 0, 0⟩ : CFields), (wRunAt : Run), (wProg : Prog), _, _, (.cAdd 0 ⟨1, 0, 0⟩ : Instr), (0 : BitVec 64), engReadyOf (by decide +kernel) rfl, rfl, rfl, List.Mem.head _, by decide +kernel⟩,
   ⟨(wEng : State), (0 : Fin 16), (⟨0, 0, 0⟩ : CFields), (wRunAt : Run), (wProg : Prog), _, _, (.cAdd 0 ⟨0, 0, 0⟩ : Instr), (0 : BitVec 64), engReadyOf (by decide +kernel) rfl, rfl, rfl, List.Mem.head _, by decide +kernel⟩,
   ⟨(wEngL : State), (0 : Fin 16), (⟨1, 0, 0⟩ : CFields), (wRunL : Run), (wProg : Prog), (wLoop : LoopSt), _, _, (.cAdd 0 ⟨1, 0, 0⟩ : Instr), (0 : BitVec 64), engLoopsOf (by decide +kernel) rfl, rfl, rfl, List.Mem.head _, by decide +kernel⟩,
   ⟨(wEngL : State), (0 : Fin 16), (⟨31, 0, 0⟩ : CFields), (wRunL : Run), (wProg : Prog), (wLoop : LoopSt), _, _, engLoopsOf (by decide +kernel) rfl, rfl, rfl, by decide +kernel⟩⟩

/-- The premises of clauses of Obligations.ControlInstructions are met. -/
theorem witness_ControlInstructions_2 :
    (∃ s : State, ∃ e : Fin 16, ∃ f : CFields, ∃ r : Run, ∃ p : Prog, ∃ l : LoopSt, ∃ a : BitVec 64, ∃ b : BitVec 64, ∃ i : Instr, (s.engLoops e r p l) ∧ (a = (s.eng e).sreg f.sa) ∧ (b = (s.eng e).sreg (bits f.imm.toNat 31 27)) ∧ (i ∈ [.br e f, .brz e f, .brnz e f, .brlt e f, .loopv e f, .tickwait e, .mbox e f])) ∧
    (∃ s : State, ∃ e : Fin 16, ∃ f : CFields, ∃ r : Run, ∃ p : Prog, ∃ a : BitVec 64, ∃ b : BitVec 64, ∃ t : State, (s.engReady e r p) ∧ (a = (s.eng e).sreg f.sa) ∧ (b = (s.eng e).sreg (bits f.imm.toNat 31 27)) ∧ (t = s.updEng e (fun g => { g with run := some { r with cycles := r.cycles + 1, pc := r.pc + max 1 (bits f.imm.toNat 10 0) } })) ∧ (f.sd.val % 8 ≠ 0)) ∧
    (∃ s : State, ∃ e : Fin 16, ∃ f : CFields, ∃ r : Run, ∃ p : Prog, ∃ a : BitVec 64, ∃ b : BitVec 64, ∃ t : State, (s.engReady e r p) ∧ (a = (s.eng e).sreg f.sa) ∧ (b = (s.eng e).sreg (bits f.imm.toNat 31 27)) ∧ (t = s.updEng e (fun g => { g with run := some { r with cycles := r.cycles + 1, pc := r.pc + max 1 (bits f.imm.toNat 10 0) } })) ∧ (f.sd.val % 8 = 0)) ∧
    (∃ s : State, ∃ e : Fin 16, ∃ f : CFields, ∃ r : Run, ∃ p : Prog, ∃ a : BitVec 64, ∃ b : BitVec 64, ∃ t : State, (s.engReady e r p) ∧ (a = (s.eng e).sreg f.sa) ∧ (b = (s.eng e).sreg (bits f.imm.toNat 31 27)) ∧ (t = s.updEng e (fun g => { g with run := some { r with cycles := r.cycles + 1, pc := r.pc + max 1 (bits f.imm.toNat 10 0) } })) ∧ (r.pc + max 1 (bits f.imm.toNat 10 0) < p.base + p.bundles)) :=
  ⟨⟨(wEngL : State), (0 : Fin 16), (⟨31, 0, 0⟩ : CFields), (wRunL : Run), (wProg : Prog), (wLoop : LoopSt), _, _, (.tickwait 0 : Instr), engLoopsOf (by decide +kernel) rfl, rfl, rfl, by decide +kernel⟩,
   ⟨(wEng : State), (0 : Fin 16), (⟨31, 0, 0⟩ : CFields), (wRunAt : Run), (wProg : Prog), _, _, _, engReadyOf (by decide +kernel) rfl, rfl, rfl, rfl, by decide +kernel⟩,
   ⟨(wEng : State), (0 : Fin 16), (⟨24, 0, 0⟩ : CFields), (wRunAt : Run), (wProg : Prog), _, _, _, engReadyOf (by decide +kernel) rfl, rfl, rfl, rfl, by decide +kernel⟩,
   ⟨(wEng : State), (0 : Fin 16), (⟨0, 0, 1⟩ : CFields), (wRunAt : Run), (wProg : Prog), _, _, _, engReadyOf (by decide +kernel) rfl, rfl, rfl, rfl, by decide +kernel⟩⟩

/-- The premises of clauses of Obligations.ControlInstructions are met. -/
theorem witness_ControlInstructions_3 :
    (∃ s : State, ∃ e : Fin 16, ∃ f : CFields, ∃ r : Run, ∃ p : Prog, ∃ a : BitVec 64, ∃ b : BitVec 64, ∃ t : State, (s.engReady e r p) ∧ (a = (s.eng e).sreg f.sa) ∧ (b = (s.eng e).sreg (bits f.imm.toNat 31 27)) ∧ (t = s.updEng e (fun g => { g with run := some { r with cycles := r.cycles + 1, pc := r.pc + max 1 (bits f.imm.toNat 10 0) } })) ∧ (p.base + p.bundles ≤ r.pc + max 1 (bits f.imm.toNat 10 0)) ∧ (r.u0.cur = none) ∧ (r.u1.cur = none) ∧ (r.buf = []) ∧ (r.mask = 0) ∧ ((s.eng e).queue.length < 64) ∧ ((s.eng e).nexts = [])) ∧
    (∃ s : State, ∃ e : Fin 16, ∃ f : CFields, ∃ r : Run, ∃ p : Prog, ∃ n : Launch, ∃ a : Int, ∃ b : Int, ∃ k : Nat, (s.engReady e r p) ∧ (n = p.launch (f.sd.val / 2)) ∧ (a = ((s.eng e).sreg f.sa).toInt) ∧ (b = ((s.eng e).sreg (bits f.imm.toNat 31 27)).toInt) ∧ (k = min n.v ((b + 63) / 64 - a / 64).toNat) ∧ (k = 0)) ∧
    (∃ s : State, ∃ e : Fin 16, ∃ f : CFields, ∃ r : Run, ∃ p : Prog, ∃ n : Launch, ∃ a : Int, ∃ b : Int, ∃ k : Nat, (s.engReady e r p) ∧ (n = p.launch (f.sd.val / 2)) ∧ (a = ((s.eng e).sreg f.sa).toInt) ∧ (b = ((s.eng e).sreg (bits f.imm.toNat 31 27)).toInt) ∧ (k = min n.v ((b + 63) / 64 - a / 64).toNat) ∧ (0 < k)) ∧
    (∃ s : State, ∃ e : Fin 16, ∃ r : Run, ∃ p : Prog, (s.engReady e r p) ∧ (r.u0.cur = none) ∧ (r.u1.cur = none) ∧ (r.buf = []) ∧ (r.mask = 0) ∧ ((s.eng e).queue.length < 64) ∧ ((s.eng e).stop = false) ∧ (look [] s.tick.slack e.val = []) ∧ ((s.eng e).nexts = [])) :=
  ⟨⟨(wEng : State), (0 : Fin 16), (⟨0, 0, 2⟩ : CFields), (wRunAt : Run), (wProg : Prog), _, _, _, engReadyOf (by decide +kernel) rfl, rfl, rfl, rfl, by decide +kernel⟩,
   ⟨(wEng : State), (0 : Fin 16), (⟨0, 0, 0⟩ : CFields), (wRunAt : Run), (wProg : Prog), _, _, _, _, engReadyOf (by decide +kernel) rfl, rfl, rfl, rfl, rfl, by decide +kernel⟩,
   ⟨({ wRun with engs := [(0, { st := .running, run := some wRunAt, prog := some wProg, sc := [(1, 256)] })] } : State), (0 : Fin 16), (⟨0, 0, 0x08000000⟩ : CFields), (wRunAt : Run), (wProg : Prog), _, _, _, _, engReadyOf (by decide +kernel) rfl, rfl, rfl, rfl, rfl, by decide +kernel⟩,
   ⟨(wEng : State), (0 : Fin 16), (wRunAt : Run), (wProg : Prog), engReadyOf (by decide +kernel) rfl, by decide +kernel⟩⟩

/-- The premises of clauses of Obligations.VectorArithmetic are met. -/
theorem witness_VectorArithmetic :
    (∃ s : State, ∃ e : Fin 16, ∃ u1 : Bool, ∃ f : UFields, ∃ r : Run, ∃ p : Prog, ∃ va : Vec, ∃ vb : Vec, ∃ i : Instr, ∃ op : BitVec 16 → BitVec 16 → BitVec 16, (s.engReady e r p) ∧ (va = (s.eng e).vreg f.va) ∧ (vb = (s.eng e).vreg f.vb) ∧ ((i, op) ∈ ([ (.uAdd e u1 f, fun a b => if f.t then BitVec.ofInt 16 (max (-32768) (min 32767 (a.toInt + b.toInt))) else BitVec.ofNat 16 (min 65535 (a.toNat + b.toNat))), (.uSub e u1 f, fun a b => if f.t then BitVec.ofInt 16 (max (-32768) (min 32767 (a.toInt - b.toInt))) else BitVec.ofNat 16 (a.toNat - b.toNat)), (.mulh e u1 f, fun a b => if f.t then BitVec.ofInt 16 (max (-32768) (min 32767 ((a.toInt * b.toInt + (if f.rnd && f.sh != 0 then 2 ^ (f.sh - 1) else 0)) / 2 ^ f.sh))) else BitVec.ofNat 16 (min 65535 ((a.toNat * b.toNat + (if f.rnd && f.sh != 0 then 2 ^ (f.sh - 1) else 0)) / 2 ^ f.sh))), (.absd e u1 f, fun a b => if f.t then BitVec.ofNat 16 (a.toInt - b.toInt).natAbs else BitVec.ofNat 16 (max a.toNat b.toNat - min a.toNat b.toNat)), (.uMin e u1 f, fun a b => if f.t then (if a.sle b then a else b) else (if a.ule b then a else b)), (.uMax e u1 f, fun a b => if f.t then (if a.sle b then b else a) else (if a.ule b then b else a)), (.uAnd e u1 f, fun a b => a &&& b), (.uOr e u1 f, fun a b => a ||| b), (.uXor e u1 f, fun a b => a ^^^ b), (.andn e u1 f, fun a b => a &&& ~~~ b)] : List (Instr × (BitVec 16 → BitVec 16 → BitVec 16)))) ∧ (va.length = 256) ∧ (vb.length = 256)) ∧
    (∃ s : State, ∃ e : Fin 16, ∃ u1 : Bool, ∃ f : UFields, ∃ r : Run, ∃ p : Prog, ∃ va : Vec, ∃ vb : Vec, ∃ vc : Vec, ∃ i : Instr, ∃ op : BitVec 16 → BitVec 16 → BitVec 16 → BitVec 16, ∃ le : BitVec 16 → BitVec 16 → Bool, ∃ mn : BitVec 16 → BitVec 16 → BitVec 16, ∃ mx : BitVec 16 → BitVec 16 → BitVec 16, (s.engReady e r p) ∧ (va = (s.eng e).vreg f.va) ∧ (vb = (s.eng e).vreg f.vb) ∧ (vc = (s.eng e).vreg (bits f.low.toNat 10 6)) ∧ (le = (fun a b => if f.t then a.sle b else a.ule b)) ∧ (mn = (fun a b => if le a b then a else b)) ∧ (mx = (fun a b => if le a b then b else a)) ∧ ((i, op) ∈ ([ (.min3 e u1 f, fun a b c => mn (mn a b) c), (.max3 e u1 f, fun a b c => mx (mx a b) c), (.med3 e u1 f, fun a b c => mx (mn a b) (mn (mx a b) c)), (.clamp e u1 f, fun a b c => mn (mx a b) c), (.addiu e u1 f, fun a _ _ => BitVec.ofInt 16 (max 0 (min 65535 ((a.toNat : Int) + f.imm.toInt)))), (.addis e u1 f, fun a _ _ => BitVec.ofInt 16 (max (-32768) (min 32767 (a.toInt + f.imm.toInt)))), (.abs e u1 f, fun a _ _ => BitVec.ofNat 16 (min 32767 a.toInt.natAbs)), (.uShl e u1 f, fun a _ _ => if f.t then BitVec.ofInt 16 (max (-32768) (min 32767 (a.toInt * 2 ^ f.sh))) else BitVec.ofNat 16 (min 65535 (a.toNat * 2 ^ f.sh))), (.uShr e u1 f, fun a _ _ => BitVec.ofInt 16 (((if f.t then a.toInt else (a.toNat : Int)) + (if f.rnd && f.sh != 0 then 2 ^ (f.sh - 1) else 0)) / 2 ^ f.sh)), (.cvt e u1 f, fun a _ _ => if a.msb then (if f.t then 0 else 32767) else a)] : List (Instr × (BitVec 16 → BitVec 16 → BitVec 16 → BitVec 16)))) ∧ (va.length = 256) ∧ (vb.length = 256) ∧ (vc.length = 256)) :=
  ⟨⟨(wEng : State), (0 : Fin 16), (false : Bool), (⟨0, false, 1, 2, 3, 0, 0⟩ : UFields), (wRunAt : Run), (wProg : Prog), _, _, (.uAdd 0 false ⟨0, false, 1, 2, 3, 0, 0⟩ : Instr), _, engReadyOf (by decide +kernel) rfl, rfl, rfl, List.Mem.head _, by decide +kernel⟩,
   ⟨(wEng : State), (0 : Fin 16), (false : Bool), (⟨0, false, 1, 2, 3, 0, 0⟩ : UFields), (wRunAt : Run), (wProg : Prog), _, _, _, (.min3 0 false ⟨0, false, 1, 2, 3, 0, 0⟩ : Instr), _, _, _, _, engReadyOf (by decide +kernel) rfl, rfl, rfl, rfl, rfl, rfl, rfl, List.Mem.head _, by decide +kernel⟩⟩

/-- The premises of clauses of Obligations.VectorMovesAndPredicates are met. -/
theorem witness_VectorMovesAndPredicates_1 :
    (∃ s : State, ∃ e : Fin 16, ∃ u1 : Bool, ∃ f : UFields, ∃ r : Run, ∃ p : Prog, ∃ va : Vec, ∃ vb : Vec, ∃ i : Instr, ∃ x : Nat → Nat → BitVec 16, (s.engReady e r p) ∧ (va = (s.eng e).vreg f.va) ∧ (vb = (s.eng e).vreg f.vb) ∧ ((i, x) ∈ ([ (.movi e u1 f, fun _ _ => BitVec.ofNat 16 (2048 * f.vb.val + f.low.toNat)), (.vspl e u1 f, fun _ ch => BitVec.ofNat 16 (((s.eng e).sreg f.va).toNat / 2 ^ (16 * ch))), (.laneix e u1 f, fun l ch => if ch = 0 then BitVec.ofInt 16 ((l : Int) + f.imm.toInt) else 0), (.chsh e u1 f, fun l ch => vch va l (f.low.toNat / 4 ^ ch % 4)), (.lfun e u1 f, fun l ch => let k := max (-63) (toSigned 7 f.low.toNat); if (l : Int) + k < 0 then vch vb ((l : Int) + k + 64).toNat ch else if (l : Int) + k ≤ 63 then vch va ((l : Int) + k).toNat ch else vch vb ((l : Int) + k - 64).toNat ch)] : List (Instr × (Nat → Nat → BitVec 16)))) ∧ (va.length = 256) ∧ (vb.length = 256)) ∧
    (∃ s : State, ∃ e : Fin 16, ∃ u1 : Bool, ∃ f : UFields, ∃ r : Run, ∃ p : Prog, ∃ va : Vec, ∃ vb : Vec, ∃ i : Instr, ∃ rel : BitVec 16 → BitVec 16 → Bool, (s.engReady e r p) ∧ (va = (s.eng e).vreg f.va) ∧ (vb = (s.eng e).vreg f.vb) ∧ ((i, rel) ∈ ([ (.cmpeq e u1 f, fun a b => a == b), (.cmplt e u1 f, fun a b => if f.t then a.slt b else a.ult b), (.cmple e u1 f, fun a b => if f.t then a.sle b else a.ule b), (.cmpltiu e u1 f, fun a _ => decide ((a.toNat : Int) < f.imm.toInt)), (.cmpltis e u1 f, fun a _ => decide (a.toInt < f.imm.toInt)), (.cmpgtiu e u1 f, fun a _ => decide (f.imm.toInt < (a.toNat : Int))), (.cmpgtis e u1 f, fun a _ => decide (f.imm.toInt < a.toInt))] : List (Instr × (BitVec 16 → BitVec 16 → Bool)))) ∧ (va.length = 256) ∧ (vb.length = 256) ∧ (f.vd.val % 8 = 0)) ∧
    (∃ s : State, ∃ e : Fin 16, ∃ u1 : Bool, ∃ f : UFields, ∃ r : Run, ∃ p : Prog, ∃ va : Vec, ∃ vb : Vec, ∃ i : Instr, ∃ rel : BitVec 16 → BitVec 16 → Bool, (s.engReady e r p) ∧ (va = (s.eng e).vreg f.va) ∧ (vb = (s.eng e).vreg f.vb) ∧ ((i, rel) ∈ ([ (.cmpeq e u1 f, fun a b => a == b), (.cmplt e u1 f, fun a b => if f.t then a.slt b else a.ult b), (.cmple e u1 f, fun a b => if f.t then a.sle b else a.ule b), (.cmpltiu e u1 f, fun a _ => decide ((a.toNat : Int) < f.imm.toInt)), (.cmpltis e u1 f, fun a _ => decide (a.toInt < f.imm.toInt)), (.cmpgtiu e u1 f, fun a _ => decide (f.imm.toInt < (a.toNat : Int))), (.cmpgtis e u1 f, fun a _ => decide (f.imm.toInt < a.toInt))] : List (Instr × (BitVec 16 → BitVec 16 → Bool)))) ∧ (va.length = 256) ∧ (vb.length = 256) ∧ (f.vd.val % 8 ≠ 0)) ∧
    (∃ s : State, ∃ e : Fin 16, ∃ u1 : Bool, ∃ f : UFields, ∃ r : Run, ∃ p : Prog, ∃ va : Vec, ∃ vb : Vec, ∃ i : Instr, ∃ pr : Bool → Bool → Bool, (s.engReady e r p) ∧ (va = (s.eng e).vreg f.va) ∧ (vb = (s.eng e).vreg f.vb) ∧ ((i, pr) ∈ ([(.pand e u1 f, fun a b => a && b), (.por e u1 f, fun a b => a || b), (.pxor e u1 f, fun a b => a ^^ b), (.pandn e u1 f, fun a b => a && !b), (.pnot e u1 f, fun a _ => !a)] : List (Instr × (Bool → Bool → Bool)))) ∧ (va.length = 256) ∧ (vb.length = 256) ∧ (f.vd.val % 8 = 0)) :=
  ⟨⟨(wEng : State), (0 : Fin 16), (false : Bool), (⟨0, false, 1, 2, 3, 0, 0⟩ : UFields), (wRunAt : Run), (wProg : Prog), _, _, (.movi 0 false ⟨0, false, 1, 2, 3, 0, 0⟩ : Instr), _, engReadyOf (by decide +kernel) rfl, rfl, rfl, List.Mem.head _, by decide +kernel⟩,
   ⟨(wEng : State), (0 : Fin 16), (false : Bool), (⟨0, false, 8, 2, 3, 0, 0⟩ : UFields), (wRunAt : Run), (wProg : Prog), _, _, (.cmpeq 0 false ⟨0, false, 8, 2, 3, 0, 0⟩ : Instr), _, engReadyOf (by decide +kernel) rfl, rfl, rfl, List.Mem.head _, by decide +kernel⟩,
   ⟨(wEng : State), (0 : Fin 16), (false : Bool), (⟨0, false, 15, 2, 3, 0, 0⟩ : UFields), (wRunAt : Run), (wProg : Prog), _, _, (.cmpeq 0 false ⟨0, false, 15, 2, 3, 0, 0⟩ : Instr), _, engReadyOf (by decide +kernel) rfl, rfl, rfl, List.Mem.head _, by decide +kernel⟩,
   ⟨(wEng : State), (0 : Fin 16), (false : Bool), (⟨0, false, 8, 2, 3, 0, 0⟩ : UFields), (wRunAt : Run), (wProg : Prog), _, _, (.pand 0 false ⟨0, false, 8, 2, 3, 0, 0⟩ : Instr), _, engReadyOf (by decide +kernel) rfl, rfl, rfl, List.Mem.head _, by decide +kernel⟩⟩

/-- The premises of clauses of Obligations.VectorMovesAndPredicates are met. -/
theorem witness_VectorMovesAndPredicates_2 :
    ∃ s : State, ∃ e : Fin 16, ∃ u1 : Bool, ∃ f : UFields, ∃ r : Run, ∃ p : Prog, ∃ va : Vec, ∃ vb : Vec, ∃ i : Instr, ∃ pr : Bool → Bool → Bool, (s.engReady e r p) ∧ (va = (s.eng e).vreg f.va) ∧ (vb = (s.eng e).vreg f.vb) ∧ ((i, pr) ∈ ([(.pand e u1 f, fun a b => a && b), (.por e u1 f, fun a b => a || b), (.pxor e u1 f, fun a b => a ^^ b), (.pandn e u1 f, fun a b => a && !b), (.pnot e u1 f, fun a _ => !a)] : List (Instr × (Bool → Bool → Bool)))) ∧ (va.length = 256) ∧ (vb.length = 256) ∧ (f.vd.val % 8 ≠ 0) :=
  ⟨(wEng : State), (0 : Fin 16), (false : Bool), (⟨0, false, 15, 2, 3, 0, 0⟩ : UFields), (wRunAt : Run), (wProg : Prog), _, _, (.pand 0 false ⟨0, false, 15, 2, 3, 0, 0⟩ : Instr), _, engReadyOf (by decide +kernel) rfl, rfl, rfl, List.Mem.head _, by decide +kernel⟩

/-- The premises of clauses of Obligations.VectorMemoryInstructions are met. -/
theorem witness_VectorMemoryInstructions_1 :
    (∃ s : State, ∃ e : Fin 16, ∃ f : WFields, ∃ r : Run, ∃ p : Prog, ∃ g : Ring, ∃ at_ : Int → Nat, ∃ x : Int → Nat → BitVec 16, ∃ vec : (Nat → Int) → List (Option (BitVec 16)) → Prop, (s.engReady e r p) ∧ (s.tableOk e) ∧ (s.bankFree e) ∧ (at_ = (fun i => stripeBase e + g.slotOfs ((s.iss e r p).slot g f.rel) + (max 0 (min ((g.width : Int) - 1) i)).toNat * g.esize)) ∧ (x = (fun i ch => BitVec.ofNat 16 (if g.elem = 0 then (memByte s.mem (at_ i + 2 * ch)).toNat + 256 * (memByte s.mem (at_ i + 2 * ch + 1)).toNat else (memByte s.mem (at_ i + ch)).toNat))) ∧ (vec = (fun ix vals => vals.length = 256 ∧ ∀ l < 64, ∀ ch < 4, vals[4 * l + ch]? = some (if ((s.eng e).preg f.pg).getLsbD l then some (x (ix l) ch) else none))) ∧ (p.rings[f.src.val]? = some g) ∧ (∀ k < g.width, (s.iss e r p).grants .r (g.slotOfs ((s.iss e r p).slot g f.rel) + k * g.esize) g.esize = true) ∧ (0 < g.width) ∧ (g.elem = 0 → g.esize = 8) ∧ (g.elem ≠ 0 → g.esize = 4) ∧ (f.mode.val = 0 ∨ f.mode.val = 3)) ∧
    (∃ s : State, ∃ e : Fin 16, ∃ f : WFields, ∃ r : Run, ∃ p : Prog, ∃ g : Ring, ∃ at_ : Int → Nat, ∃ x : Int → Nat → BitVec 16, ∃ vec : (Nat → Int) → List (Option (BitVec 16)) → Prop, (s.engReady e r p) ∧ (s.tableOk e) ∧ (s.bankFree e) ∧ (at_ = (fun i => stripeBase e + g.slotOfs ((s.iss e r p).slot g f.rel) + (max 0 (min ((g.width : Int) - 1) i)).toNat * g.esize)) ∧ (x = (fun i ch => BitVec.ofNat 16 (if g.elem = 0 then (memByte s.mem (at_ i + 2 * ch)).toNat + 256 * (memByte s.mem (at_ i + 2 * ch + 1)).toNat else (memByte s.mem (at_ i + ch)).toNat))) ∧ (vec = (fun ix vals => vals.length = 256 ∧ ∀ l < 64, ∀ ch < 4, vals[4 * l + ch]? = some (if ((s.eng e).preg f.pg).getLsbD l then some (x (ix l) ch) else none))) ∧ (p.rings[f.src.val]? = some g) ∧ (∀ k < g.width, (s.iss e r p).grants .r (g.slotOfs ((s.iss e r p).slot g f.rel) + k * g.esize) g.esize = true) ∧ (0 < g.width) ∧ (g.elem = 0 → g.esize = 8) ∧ (g.elem ≠ 0 → g.esize = 4) ∧ (f.mode.val = 1 ∨ f.mode.val = 2)) ∧
    (∃ s : State, ∃ e : Fin 16, ∃ f : WFields, ∃ r : Run, ∃ p : Prog, ∃ g : Ring, ∃ b : BltTest, (s.engReady e r p) ∧ (s.tableOk e) ∧ (s.blt = some b) ∧ (b.preserving = false) ∧ (b.sb.testBit e = true) ∧ (p.rings[f.src.val]? = some g) ∧ (0 < g.width) ∧ (g.elem = 0 → g.esize = 8) ∧ (g.elem ≠ 0 → g.esize = 4) ∧ (∀ k < g.width, (s.iss e r p).grants .r (g.slotOfs ((s.iss e r p).slot g f.rel) + k * g.esize) g.esize = true)) ∧
    (∃ s : State, ∃ e : Fin 16, ∃ f : WFields, ∃ r : Run, ∃ p : Prog, ∃ ar : Nat × Nat, ∃ x : Int → Nat → BitVec 16, ∃ vec : (Nat → Int) → List (Option (BitVec 16)) → Prop, (s.engReady e r p) ∧ (s.tableOk e) ∧ (s.bankFree e) ∧ (x = (fun i ch => BitVec.ofNat 16 (memNat s.mem (stripeBase e + (ar.1 + (clampInt 0 ((ar.2 / 8 : Nat) - 1 : Int) i).toNat * 8) + 2 * ch) 2))) ∧ (vec = (fun ix vals => vals.length = 256 ∧ ∀ l < 64, ∀ ch < 4, vals[4 * l + ch]? = some (if ((s.eng e).preg f.pg).getLsbD l then some (x (ix l) ch) else none))) ∧ (p.areas[f.src.val]? = some ar) ∧ (f.mode = 0) ∧ (∀ k < max 1 (ar.2 / 8), (s.iss e r p).grants .r (ar.1 + k * 8) 8 = true)) :=
  ⟨⟨(wEngT : State), (0 : Fin 16), (⟨0, 1, 0, 0, 0, 2, 0, 3⟩ : WFields), (wRunAt : Run), (wProg : Prog), (⟨0, 1, 1, 0, 0, false, 0x1000, 0, 0, 0, 0⟩ : Ring), _, _, _, engReadyOf (by decide +kernel) rfl, tableT (by decide +kernel), fun b h => (nomatch (show (none : Option BltTest) = some b from h)), rfl, rfl, rfl, by decide +kernel⟩,
   ⟨(wEngT : State), (0 : Fin 16), (⟨0, 1, 0, 0, 0, 2, 0, 2⟩ : WFields), (wRunAt : Run), (wProg : Prog), (⟨0, 1, 1, 0, 0, false, 0x1000, 0, 0, 0, 0⟩ : Ring), _, _, _, engReadyOf (by decide +kernel) rfl, tableT (by decide +kernel), fun b h => (nomatch (show (none : Option BltTest) = some b from h)), rfl, rfl, rfl, by decide +kernel⟩,
   ⟨(wEngB : State), (0 : Fin 16), (⟨0, 1, 0, 0, 0, 2, 0, 3⟩ : WFields), (wRunAt : Run), (wProg : Prog), (⟨0, 1, 1, 0, 0, false, 0x1000, 0, 0, 0, 0⟩ : Ring), (⟨false, 0, 1, 0, 0⟩ : BltTest), engReadyOf (by decide +kernel) rfl, tableT (by decide +kernel), by decide +kernel⟩,
   ⟨(wEngT : State), (0 : Fin 16), (⟨0, 1, 0, 0, 0, 2, 0, 0⟩ : WFields), (wRunAt : Run), (wProg : Prog), ((0x2000, 16) : Nat × Nat), _, _, engReadyOf (by decide +kernel) rfl, tableT (by decide +kernel), fun b h => (nomatch (show (none : Option BltTest) = some b from h)), rfl, rfl, by decide +kernel⟩⟩

/-- The premises of clauses of Obligations.VectorMemoryInstructions are met. -/
theorem witness_VectorMemoryInstructions_2 :
    (∃ s : State, ∃ e : Fin 16, ∃ f : WFields, ∃ r : Run, ∃ p : Prog, ∃ ar : Nat × Nat, ∃ x : Int → Nat → BitVec 16, ∃ vec : (Nat → Int) → List (Option (BitVec 16)) → Prop, (s.engReady e r p) ∧ (s.tableOk e) ∧ (s.bankFree e) ∧ (x = (fun i ch => BitVec.ofNat 16 (memNat s.mem (stripeBase e + (ar.1 + (clampInt 0 ((ar.2 / 8 : Nat) - 1 : Int) i).toNat * 8) + 2 * ch) 2))) ∧ (vec = (fun ix vals => vals.length = 256 ∧ ∀ l < 64, ∀ ch < 4, vals[4 * l + ch]? = some (if ((s.eng e).preg f.pg).getLsbD l then some (x (ix l) ch) else none))) ∧ (p.areas[f.src.val]? = some ar) ∧ (f.mode = 1) ∧ (∀ k < max 1 (ar.2 / 4), (s.iss e r p).grants .r (ar.1 + k * 4) 4 = true)) ∧
    (∃ s : State, ∃ e : Fin 16, ∃ f : WFields, ∃ r : Run, ∃ p : Prog, ∃ ar : Nat × Nat, ∃ x : Int → Nat → BitVec 16, ∃ vec : (Nat → Int) → List (Option (BitVec 16)) → Prop, (s.engReady e r p) ∧ (s.tableOk e) ∧ (s.bankFree e) ∧ (x = (fun i ch => BitVec.ofNat 16 (memNat s.mem (stripeBase e + (ar.1 + (clampInt 0 ((ar.2 / 8 : Nat) - 1 : Int) i).toNat * 8) + 2 * ch) 2))) ∧ (vec = (fun ix vals => vals.length = 256 ∧ ∀ l < 64, ∀ ch < 4, vals[4 * l + ch]? = some (if ((s.eng e).preg f.pg).getLsbD l then some (x (ix l) ch) else none))) ∧ (p.areas[f.src.val]? = some ar) ∧ (f.mode = 1) ∧ (∀ k < max 1 (ar.2 / 8), (s.iss e r p).grants .r (ar.1 + k * 8) 8 = true)) ∧
    (∃ s : State, ∃ e : Fin 16, ∃ f : WFields, ∃ r : Run, ∃ p : Prog, ∃ g : Ring, ∃ ar : Nat × Nat, ∃ x : Int → Nat → BitVec 16, ∃ vec : (Nat → Int) → List (Option (BitVec 16)) → Prop, (s.engReady e r p) ∧ (s.tableOk e) ∧ (s.bankFree e) ∧ (x = (fun i ch => BitVec.ofNat 16 (memNat s.mem (stripeBase e + (ar.1 + (clampInt 0 ((ar.2 / 8 : Nat) - 1 : Int) i).toNat * 8) + 2 * ch) 2))) ∧ (vec = (fun ix vals => vals.length = 256 ∧ ∀ l < 64, ∀ ch < 4, vals[4 * l + ch]? = some (if ((s.eng e).preg f.pg).getLsbD l then some (x (ix l) ch) else none))) ∧ (p.rings[f.src.val]? = some g) ∧ (g.kind < 3) ∧ (f.vd ≠ 0) ∧ (∀ k < 4, (s.iss e r p).grants .r (g.hdrOfs ((s.iss e r p).slot g f.rel) + 8 * k) 8 = true)) ∧
    (∃ s : State, ∃ e : Fin 16, ∃ f : WFields, ∃ r : Run, ∃ p : Prog, ∃ g : Ring, ∃ ar : Nat × Nat, ∃ x : Int → Nat → BitVec 16, ∃ vec : (Nat → Int) → List (Option (BitVec 16)) → Prop, (s.engReady e r p) ∧ (s.tableOk e) ∧ (s.bankFree e) ∧ (x = (fun i ch => BitVec.ofNat 16 (memNat s.mem (stripeBase e + (ar.1 + (clampInt 0 ((ar.2 / 8 : Nat) - 1 : Int) i).toNat * 8) + 2 * ch) 2))) ∧ (vec = (fun ix vals => vals.length = 256 ∧ ∀ l < 64, ∀ ch < 4, vals[4 * l + ch]? = some (if ((s.eng e).preg f.pg).getLsbD l then some (x (ix l) ch) else none))) ∧ (p.rings[f.src.val]? = some g) ∧ (g.kind ≠ 3)) :=
  ⟨⟨(wEngT : State), (0 : Fin 16), (⟨0, 1, 0, 0, 0, 2, 0, 1⟩ : WFields), (wRunAt : Run), (wProg : Prog), ((0x2000, 16) : Nat × Nat), _, _, engReadyOf (by decide +kernel) rfl, tableT (by decide +kernel), fun b h => (nomatch (show (none : Option BltTest) = some b from h)), rfl, rfl, by decide +kernel⟩,
   ⟨(wEngT : State), (0 : Fin 16), (⟨0, 1, 0, 0, 0, 2, 0, 1⟩ : WFields), (wRunAt : Run), (wProg : Prog), ((0x2000, 16) : Nat × Nat), _, _, engReadyOf (by decide +kernel) rfl, tableT (by decide +kernel), fun b h => (nomatch (show (none : Option BltTest) = some b from h)), rfl, rfl, by decide +kernel⟩,
   ⟨(wEngT : State), (0 : Fin 16), (⟨0, 1, 0, 0, 0, 2, 7, 0⟩ : WFields), (wRunAt : Run), (wProg : Prog), (⟨0, 1, 1, 0, 0, false, 0x1000, 0, 0, 0, 0⟩ : Ring), ((0x2000, 16) : Nat × Nat), _, _, engReadyOf (by decide +kernel) rfl, tableT (by decide +kernel), fun b h => (nomatch (show (none : Option BltTest) = some b from h)), rfl, rfl, by decide +kernel⟩,
   ⟨(wEngT : State), (0 : Fin 16), (⟨0, 1, 0, 0, 0, 2, 7, 0⟩ : WFields), (wRunAt : Run), (wProg : Prog), (⟨0, 1, 1, 0, 0, false, 0x1000, 0, 0, 0, 0⟩ : Ring), ((0x2000, 16) : Nat × Nat), _, _, engReadyOf (by decide +kernel) rfl, tableT (by decide +kernel), fun b h => (nomatch (show (none : Option BltTest) = some b from h)), rfl, rfl, by decide +kernel⟩⟩

/-- The premises of clauses of Obligations.VectorMemoryInstructions are met. -/
theorem witness_VectorMemoryInstructions_3 :
    ∃ s : State, ∃ e : Fin 16, ∃ f : WFields, ∃ r : Run, ∃ p : Prog, ∃ g : Ring, ∃ ar : Nat × Nat, ∃ x : Int → Nat → BitVec 16, ∃ vec : (Nat → Int) → List (Option (BitVec 16)) → Prop, (s.engReady e r p) ∧ (s.tableOk e) ∧ (s.bankFree e) ∧ (x = (fun i ch => BitVec.ofNat 16 (memNat s.mem (stripeBase e + (ar.1 + (clampInt 0 ((ar.2 / 8 : Nat) - 1 : Int) i).toNat * 8) + 2 * ch) 2))) ∧ (vec = (fun ix vals => vals.length = 256 ∧ ∀ l < 64, ∀ ch < 4, vals[4 * l + ch]? = some (if ((s.eng e).preg f.pg).getLsbD l then some (x (ix l) ch) else none))) ∧ (p.rings[f.src.val]? = some g) ∧ (g.kind = 3) ∧ (0 < g.width) ∧ (∀ k < g.width, (s.iss e r p).grants .w (g.slotOfs ((s.iss e r p).slot g 0) + k * g.esize) g.esize = true) :=
  ⟨(wEngT : State), (0 : Fin 16), (⟨0, 1, 1, 0, 0, 2, 7, 0⟩ : WFields), (wRunAt : Run), (wProg : Prog), (⟨0x800, 1, 1, 3, 0, false, 0, 0, 0, 0, 0⟩ : Ring), ((0x2000, 16) : Nat × Nat), _, _, engReadyOf (by decide +kernel) rfl, tableT (by decide +kernel), fun b h => (nomatch (show (none : Option BltTest) = some b from h)), rfl, rfl, by decide +kernel⟩

/-- The premises of clauses of Obligations.AccumulatorAndMatrix are met. -/
theorem witness_AccumulatorAndMatrix_1 :
    (∃ s : State, ∃ e : Fin 16, ∃ f : MFields, ∃ r : Run, ∃ p : Prog, ∃ va : Vec, ∃ vb : Vec, ∃ tv : Bool → BitVec 16 → Int, ∃ act : Nat → Bool, ∃ vec : (Nat → Nat → Int) → List (Option Int) → Prop, ∃ g : Eng, ∃ k : Nat, ∃ vals : List (Option Int), ∃ i : Nat, ∃ old : BitVec 40, ∃ new : Option Int, (s.engReady e r p) ∧ (va = (s.eng e).vreg f.va) ∧ (vb = (s.eng e).vreg f.vb) ∧ (tv = (fun t x => if t then x.toInt else (x.toNat : Int))) ∧ (act = (fun l => ((s.eng e).preg f.pg).getLsbD l)) ∧ (vec = (fun x vals => vals.length = 256 ∧ ∀ l < 64, ∀ ch < 4, vals[4 * l + ch]? = some (if act l then some (x l ch) else none))) ∧ ((g.areg k)[i]? = some old) ∧ (vals[i]? = some new)) ∧
    (∃ s : State, ∃ e : Fin 16, ∃ f : MFields, ∃ r : Run, ∃ p : Prog, ∃ va : Vec, ∃ vb : Vec, ∃ act : Nat → Bool, ∃ k : Nat, (s.engReady e r p) ∧ (va = (s.eng e).vreg f.va) ∧ (vb = (s.eng e).vreg f.vb) ∧ (act = (fun l => ((s.eng e).preg f.pg).getLsbD l)) ∧ (k = bits f.mod.toNat 12 10) ∧ (k ≤ 4)) ∧
    (∃ s : State, ∃ e : Fin 16, ∃ f : MFields, ∃ r : Run, ∃ p : Prog, ∃ va : Vec, ∃ vb : Vec, ∃ act : Nat → Bool, (s.engReady e r p) ∧ (va = (s.eng e).vreg f.va) ∧ (vb = (s.eng e).vreg f.vb) ∧ (act = (fun l => ((s.eng e).preg f.pg).getLsbD l)) ∧ (5 ≤ bits f.mod.toNat 12 10)) ∧
    (∃ s : State, ∃ e : Fin 16, ∃ f : MFields, ∃ r : Run, ∃ p : Prog, ∃ va : Vec, ∃ vb : Vec, ∃ act : Nat → Bool, ∃ dy : Int, (s.engReady e r p) ∧ (va = (s.eng e).vreg f.va) ∧ (vb = (s.eng e).vreg f.vb) ∧ (act = (fun l => ((s.eng e).preg f.pg).getLsbD l)) ∧ (dy = toSigned 3 (bits f.mod.toNat 14 12)) ∧ (dy < -2 ∨ 2 < dy)) :=
  ⟨⟨(wEng : State), (0 : Fin 16), (⟨0, 0, 1, 2, 3, 4, 0⟩ : MFields), (wRunAt : Run), (wProg : Prog), _, _, _, _, _, ({} : Eng), (0 : Nat), (List.replicate 256 (some 1) : List (Option Int)), (255 : Nat), (0 : BitVec 40), (some 1 : Option Int), engReadyOf (by decide +kernel) rfl, rfl, rfl, rfl, rfl, rfl, by decide +kernel⟩,
   ⟨(wEng : State), (0 : Fin 16), (⟨0, 0, 1, 2, 3, 4, 0⟩ : MFields), (wRunAt : Run), (wProg : Prog), _, _, _, _, engReadyOf (by decide +kernel) rfl, rfl, rfl, rfl, rfl, by decide +kernel⟩,
   ⟨(wEng : State), (0 : Fin 16), (⟨0, 0, 1, 2, 3, 4, 0x1400⟩ : MFields), (wRunAt : Run), (wProg : Prog), _, _, _, engReadyOf (by decide +kernel) rfl, rfl, rfl, rfl, by decide +kernel⟩,
   ⟨(wEng : State), (0 : Fin 16), (⟨0, 0, 1, 2, 3, 4, 0x3000⟩ : MFields), (wRunAt : Run), (wProg : Prog), _, _, _, _, engReadyOf (by decide +kernel) rfl, rfl, rfl, rfl, rfl, by decide +kernel⟩⟩

/-- The premises of clauses of Obligations.AccumulatorAndMatrix are met. -/
theorem witness_AccumulatorAndMatrix_2 :
    ∃ s : State, ∃ e : Fin 16, ∃ f : MFields, ∃ r : Run, ∃ p : Prog, ∃ va : Vec, ∃ vb : Vec, ∃ act : Nat → Bool, ∃ dy : Int, (s.engReady e r p) ∧ (va = (s.eng e).vreg f.va) ∧ (vb = (s.eng e).vreg f.vb) ∧ (act = (fun l => ((s.eng e).preg f.pg).getLsbD l)) ∧ (dy = toSigned 3 (bits f.mod.toNat 14 12)) ∧ (-2 ≤ dy) ∧ (dy ≤ 2) :=
  ⟨(wEng : State), (0 : Fin 16), (⟨0, 0, 1, 2, 3, 4, 0x6000⟩ : MFields), (wRunAt : Run), (wProg : Prog), _, _, _, _, engReadyOf (by decide +kernel) rfl, rfl, rfl, rfl, rfl, by decide +kernel⟩

/-- The premises of clauses of Obligations.QueueAndBundles are met. -/
theorem witness_QueueAndBundles_1 :
    (∃ s : State, ∃ e : Fin 16, ∃ f : EFields, ∃ r : Run, ∃ p : Prog, ∃ va : Vec, ∃ act : Nat → Bool, (s.engReady e r p) ∧ (va = (s.eng e).vreg f.va) ∧ (act = (fun l => ((s.eng e).preg f.pg).getLsbD l)) ∧ ((s.eng e).queue.length + 14 ≤ 64) ∧ (f.imm.getLsbD 0 = false) ∧ (r.u0.cur = none) ∧ (r.buf = []) ∧ (∀ l < 64, act l = false)) ∧
    (∃ s : State, ∃ e : Fin 16, ∃ f : EFields, ∃ r : Run, ∃ p : Prog, ∃ va : Vec, ∃ act : Nat → Bool, ∃ a : Nat, ∃ b : Nat, (s.engReady e r p) ∧ (va = (s.eng e).vreg f.va) ∧ (act = (fun l => ((s.eng e).preg f.pg).getLsbD l)) ∧ ((s.eng e).queue.length + 14 ≤ 64) ∧ (f.imm.getLsbD 0 = false) ∧ (r.u0.cur = none) ∧ (r.buf = []) ∧ (r.mask = 0) ∧ (va.length = 256) ∧ (a ≤ b) ∧ (b < 63) ∧ (∀ l < 64, act l = true ↔ a ≤ l ∧ l ≤ b) ∧ (s.stripeStart e + 64 ≤ 2 ^ 18)) ∧
    (∃ s : State, ∃ e : Fin 16, ∃ f : EFields, ∃ r : Run, ∃ p : Prog, ∃ va : Vec, ∃ act : Nat → Bool, ∃ val : Nat → Nat, (s.engReady e r p) ∧ (va = (s.eng e).vreg f.va) ∧ (act = (fun l => ((s.eng e).preg f.pg).getLsbD l)) ∧ (val = (fun k => if k < 100 then (max 0 (min 4294967295 (((s.eng e).areg (f.va.val % 4)).getD k 0).toInt)).toNat else 0)) ∧ ((s.eng e).queue.length + 14 ≤ 64)) ∧
    (∃ s : State, ∃ e : Fin 16, ∃ r : Run, ∃ p : Prog, (s.engReady e r p) ∧ (look 0 (s.eng e).imem (r.pc % 2048) = 0)) :=
  ⟨⟨({ wRun with engs := [(0, { st := .running, run := some wRunAt, prog := some wProg })] } : State), (0 : Fin 16), (⟨1, 0, 1, 2, 0⟩ : EFields), (wRunAt : Run), (wProg : Prog), _, _, engReadyOf (by decide +kernel) rfl, rfl, rfl, by decide +kernel⟩,
   ⟨({ wRun with engs := [(0, { st := .running, run := some wRunAt, prog := some wProg, p := [(1, BitVec.ofNat 64 (2 ^ 63 - 8))] })] } : State), (0 : Fin 16), (⟨1, 0, 1, 2, 0⟩ : EFields), (wRunAt : Run), (wProg : Prog), _, _, (3 : Nat), (62 : Nat), engReadyOf (by decide +kernel) rfl, rfl, rfl, by decide +kernel⟩,
   ⟨(wEng : State), (0 : Fin 16), (⟨0, 0, 1, 2, 0⟩ : EFields), (wRunAt : Run), (wProg : Prog), _, _, _, engReadyOf (by decide +kernel) rfl, rfl, rfl, rfl, by decide +kernel⟩,
   ⟨(wEng : State), (0 : Fin 16), (wRunAt : Run), (wProg : Prog), engReadyOf (by decide +kernel) rfl, by decide +kernel⟩⟩

/-- The premises of clauses of Obligations.QueueAndBundles are met. -/
theorem witness_QueueAndBundles_2 :
    (∃ s : State, ∃ e : Fin 16, (s.inRun = true) ∧ ((s.eng e).st = .loaded ∨ (s.eng e).st = .armed ∨ (s.eng e).st = .running) ∧ ((s.eng e).nexts = [])) ∧
    (∃ s : State, ∃ e : Fin 16, ∃ q : Prog, ∃ lim : Nat, ∃ at_ : Int, (s.inRun = true) ∧ ((s.eng e).st = .loaded ∨ (s.eng e).st = .armed ∨ (s.eng e).st = .running) ∧ ((s.eng e).nexts = [(q, lim, at_)])) ∧
    (∃ s : State, ∃ e : Fin 16, ∃ r : Run, ∃ p : Prog, (s.inRun = true) ∧ ((s.eng e).st = .running) ∧ ((s.eng e).run = some r) ∧ ((s.eng e).prog = some p) ∧ (p.cost ≤ r.cycles) ∧ ((s.eng e).nexts = [])) :=
  ⟨⟨({ wRun with engs := [(15, { st := .loaded })] } : State), (15 : Fin 16), by decide +kernel⟩,
   ⟨({ wRun with engs := [(15, { st := .armed, nexts := [(wProg, 9, 5)] })] } : State), (15 : Fin 16), (wProg : Prog), (9 : Nat), (5 : Int), by decide +kernel⟩,
   ⟨({ wRun with engs := [(15, { st := .running, run := some { wRunAt with cycles := 1000 }, prog := some wProg })] } : State), (15 : Fin 16), ({ wRunAt with cycles := 1000 } : Run), (wProg : Prog), by decide +kernel⟩⟩

/-- The premises of clauses of Obligations.EngineControlAndRuns are met. -/
theorem witness_EngineControlAndRuns_1 :
    (∃ s : State, ∃ m : Master, ∃ e : Fin 16, ∃ v : Word, (s.mayWrite m .SE_CTL e) ∧ (v.getLsbD 0 = false) ∧ (v.getLsbD 1 = false) ∧ ((s.eng e).st = .loaded)) ∧
    (∃ s : State, ∃ m : Master, ∃ e : Fin 16, ∃ v : Word, (s.mayWrite m .SE_CTL e) ∧ (v.getLsbD 0 = false) ∧ (v.getLsbD 1 = false) ∧ ((s.eng e).st = .empty ∨ (s.eng e).st = .fault)) ∧
    (∃ s : State, ∃ m : Master, ∃ e : Fin 16, ∃ v : Word, (s.mayWrite m .SE_CTL e) ∧ (v.getLsbD 0 = false) ∧ (v.getLsbD 1 = false) ∧ ((s.eng e).st = .armed) ∧ ((s.eng e).due = none)) ∧
    (∃ s : State, ∃ m : Master, ∃ e : Fin 16, ∃ v : Word, ∃ n : Int, (s.mayWrite m .SE_CTL e) ∧ (v.getLsbD 0 = false) ∧ (v.getLsbD 1 = false) ∧ ((s.eng e).st = .armed) ∧ ((s.eng e).due = some n) ∧ ((s.slackOf e).length < 8)) :=
  ⟨⟨({ wHold with engs := [(15, { st := .loaded })], tick := { slack := [(15, [7, 8])] } } : State), (48 : Master), (15 : Fin 16), (0 : Word), reach (by decide +kernel), by decide +kernel⟩,
   ⟨(wHold : State), (48 : Master), (15 : Fin 16), (0 : Word), reach (by decide +kernel), by decide +kernel⟩,
   ⟨({ wHold with engs := [(15, { st := .armed })] } : State), (48 : Master), (15 : Fin 16), (0 : Word), reach (by decide +kernel), by decide +kernel⟩,
   ⟨({ wHold with engs := [(15, { st := .armed, due := some 7 })], tick := { slack := [(15, List.replicate 7 1)] } } : State), (48 : Master), (15 : Fin 16), (0 : Word), (7 : Int), reach (by decide +kernel), by decide +kernel⟩⟩

/-- The premises of clauses of Obligations.EngineControlAndRuns are met. -/
theorem witness_EngineControlAndRuns_2 :
    (∃ s : State, ∃ m : Master, ∃ e : Fin 16, ∃ v : Word, (s.mayWrite m .SE_CTL e) ∧ (v.getLsbD 0 = false) ∧ (v.getLsbD 1 = false) ∧ ((s.eng e).st = .running)) ∧
    (∃ s : State, ∃ m : Master, ∃ e : Fin 16, ∃ v : Word, (s.mayWrite m .SE_CTL e) ∧ (v.getLsbD 0 = false) ∧ (v.getLsbD 1 = false) ∧ ((s.eng e).st = .fault) ∧ ((s.eng e).nexts = [])) ∧
    (∃ s : State, ∃ m : Master, ∃ e : Fin 16, ∃ v : Word, (s.mayWrite m .SE_CTL e) ∧ (v.getLsbD 0 = false) ∧ (v.getLsbD 1 = false) ∧ ((s.eng e).st ≠ .fault)) ∧
    (∃ s : State, ∃ e : Fin 16, ∃ n : Int, ∃ p : Prog, (s.inRun = true) ∧ (s.on TICK_CTL_EN = true) ∧ ((s.eng e).st = .armed) ∧ ((s.eng e).due = some n) ∧ ((s.eng e).prog = some p) ∧ ((s.eng e).staged = none) ∧ ((s.eng e).nexts = []) ∧ (∀ c < 12, s.routesOf c = [] ∧ s.haloOf c = []) ∧ (s.ref.barred.contains e.val = false) ∧ (s.ref.nextRow ≤ s.ref.freed) ∧ (∀ x ∈ p.rings.zipIdx, x.1.kind = 0 → (s.ringCheck e n (s.pageCtx e p n) x.2 x.1).1 = false)) :=
  ⟨⟨({ wHold with engs := [(15, { st := .running })] } : State), (48 : Master), (15 : Fin 16), (0 : Word), reach (by decide +kernel), by decide +kernel⟩,
   ⟨({ wHold with engs := [(15, { st := .fault })] } : State), (48 : Master), (15 : Fin 16), (0 : Word), reach (by decide +kernel), by decide +kernel⟩,
   ⟨(wHold : State), (48 : Master), (15 : Fin 16), (0 : Word), reach (by decide +kernel), by decide +kernel⟩,
   ⟨({ wSet wRun [(TICK_CTL_EN, 0, 1)] with engs := [(0, { st := .armed, due := some 5, prog := some { wProg with rings := [] } })] } : State), (0 : Fin 16), (5 : Int), ({ wProg with rings := [] } : Prog), by decide +kernel⟩⟩

/-- The premises of clauses of Obligations.ProgramLoadAndCheck are met. -/
theorem witness_ProgramLoadAndCheck_1 :
    (∃ s : State, ∃ m : Master, ∃ e : Fin 16, (s.mayWrite m .SE_LDCMD e) ∧ (s.on SE_LDRES_BUSY e = false)) ∧
    (∃ s : State, ∃ m : Master, ∃ e : Fin 16, (s.mayWrite m .SE_LDCMD e) ∧ (s.on SE_LDRES_BUSY e = true)) ∧
    (∃ s : State, ∃ e : Fin 16, (s.live = true) ∧ ((s.eng e).load = none)) ∧
    (∃ s : State, ∃ e : Fin 16, ∃ l : LoadReq, (s.live = true) ∧ ((s.eng e).load = some l) ∧ (s.on MEM_RPR_FAILED e = true)) :=
  ⟨⟨(wHold : State), (48 : Master), (15 : Fin 16), reach (by decide +kernel), by decide +kernel⟩,
   ⟨(wSet wHold [(SE_LDRES_BUSY, 15, 1)] : State), (48 : Master), (15 : Fin 16), reach (by decide +kernel), by decide +kernel⟩,
   ⟨(wHold : State), (15 : Fin 16), by decide +kernel⟩,
   ⟨({ wSet wHold [(MEM_RPR_FAILED, 15, 1)] with engs := [(15, { load := some ⟨0, false, 0, 9⟩ })] } : State), (15 : Fin 16), (⟨0, false, 0, 9⟩ : LoadReq), by decide +kernel⟩⟩

/-- The premises of clauses of Obligations.ProgramLoadAndCheck are met. -/
theorem witness_ProgramLoadAndCheck_2 :
    ∃ s : State, ∃ e : Fin 16, ∃ l : LoadReq, ∃ hdr : List Byte, ∃ img : List Byte, ∃ digest : List Byte, ∃ r : State, ∃ w : State, ∃ x : State, ∃ ok : Bool, ∃ res : Nat, ∃ step : Nat, ((ok, digest, x) = w.verifyImage 2 img) ∧ ((res, step) = (if ok then x.loadCheck e l img else (rAUTH_FAIL, 1))) ∧ (s.live = true) ∧ ((s.eng e).load = some l) ∧ (s.on MEM_RPR_FAILED e = false) ∧ (s.busRead 48 l.addr 64 = (rOK, hdr, r)) ∧ (r.busRead 48 l.addr (imgSize hdr) = (rOK, img, w)) ∧ (w = { s with cxl := w.cxl }) :=
  ⟨({ wHold with engs := [(15, { load := some ⟨0x14000000, false, 0, 9⟩ })] } : State), (15 : Fin 16), (⟨0x14000000, false, 0, 9⟩ : LoadReq), (List.replicate 64 0 : List Byte), (((({ wHold with engs := [(15, { load := some ⟨0x14000000, false, 0, 9⟩ })] } : State)).busRead 48 0x14000000 (imgSize (List.replicate 64 0))).2.1 : List Byte), (((((({ wHold with engs := [(15, { load := some ⟨0x14000000, false, 0, 9⟩ })] } : State)) : State)).verifyImage 2 ((((({ wHold with engs := [(15, { load := some ⟨0x14000000, false, 0, 9⟩ })] } : State)).busRead 48 0x14000000 (imgSize (List.replicate 64 0))).2.1 : List Byte))).2.1 : List Byte), ((({ wHold with engs := [(15, { load := some ⟨0x14000000, false, 0, 9⟩ })] } : State)) : State), ((({ wHold with engs := [(15, { load := some ⟨0x14000000, false, 0, 9⟩ })] } : State)) : State), (((((({ wHold with engs := [(15, { load := some ⟨0x14000000, false, 0, 9⟩ })] } : State)) : State)).verifyImage 2 ((((({ wHold with engs := [(15, { load := some ⟨0x14000000, false, 0, 9⟩ })] } : State)).busRead 48 0x14000000 (imgSize (List.replicate 64 0))).2.1 : List Byte))).2.2 : State), (((((({ wHold with engs := [(15, { load := some ⟨0x14000000, false, 0, 9⟩ })] } : State)) : State)).verifyImage 2 ((((({ wHold with engs := [(15, { load := some ⟨0x14000000, false, 0, 9⟩ })] } : State)).busRead 48 0x14000000 (imgSize (List.replicate 64 0))).2.1 : List Byte))).1 : Bool), ((if ((((((({ wHold with engs := [(15, { load := some ⟨0x14000000, false, 0, 9⟩ })] } : State)) : State)).verifyImage 2 ((((({ wHold with engs := [(15, { load := some ⟨0x14000000, false, 0, 9⟩ })] } : State)).busRead 48 0x14000000 (imgSize (List.replicate 64 0))).2.1 : List Byte))).1 : Bool)) then ((((((({ wHold with engs := [(15, { load := some ⟨0x14000000, false, 0, 9⟩ })] } : State)) : State)).verifyImage 2 ((((({ wHold with engs := [(15, { load := some ⟨0x14000000, false, 0, 9⟩ })] } : State)).busRead 48 0x14000000 (imgSize (List.replicate 64 0))).2.1 : List Byte))).2.2 : State)).loadCheck ((15 : Fin 16)) ((⟨0x14000000, false, 0, 9⟩ : LoadReq)) ((((({ wHold with engs := [(15, { load := some ⟨0x14000000, false, 0, 9⟩ })] } : State)).busRead 48 0x14000000 (imgSize (List.replicate 64 0))).2.1 : List Byte)) else (rAUTH_FAIL, 1)).1 : Nat), ((if ((((((({ wHold with engs := [(15, { load := some ⟨0x14000000, false, 0, 9⟩ })] } : State)) : State)).verifyImage 2 ((((({ wHold with engs := [(15, { load := some ⟨0x14000000, false, 0, 9⟩ })] } : State)).busRead 48 0x14000000 (imgSize (List.replicate 64 0))).2.1 : List Byte))).1 : Bool)) then ((((((({ wHold with engs := [(15, { load := some ⟨0x14000000, false, 0, 9⟩ })] } : State)) : State)).verifyImage 2 ((((({ wHold with engs := [(15, { load := some ⟨0x14000000, false, 0, 9⟩ })] } : State)).busRead 48 0x14000000 (imgSize (List.replicate 64 0))).2.1 : List Byte))).2.2 : State)).loadCheck ((15 : Fin 16)) ((⟨0x14000000, false, 0, 9⟩ : LoadReq)) ((((({ wHold with engs := [(15, { load := some ⟨0x14000000, false, 0, 9⟩ })] } : State)).busRead 48 0x14000000 (imgSize (List.replicate 64 0))).2.1 : List Byte)) else (rAUTH_FAIL, 1)).2 : Nat), rfl, rfl, by decide +kernel⟩

/-- The premises of clauses of Obligations.QueueEntryDrains are met. -/
theorem witness_QueueEntryDrains_1 :
    (∃ s : State, ∃ e : Fin 16, (s.live = true) ∧ ((s.eng e).queue = [])) ∧
    (∃ s : State, ∃ e : Fin 16, ∃ qs : List QEntry, ∃ a : Nat, ∃ b : Byte, ∃ t : State, (s.live = true) ∧ ((s.eng e).queue = .stc [(a, b)] :: qs) ∧ ((s.updEng e fun g => { g with queue := qs }).busWrite e a [b] = (rOK, t))) ∧
    (∃ s : State, ∃ e : Fin 16, ∃ qs : List QEntry, ∃ a : Nat, ∃ r : Nat, ∃ b : Byte, ∃ t : State, ((s.updEng e fun g => { g with queue := qs }).busWrite e a [b] = (r, t)) ∧ (s.live = true) ∧ ((s.eng e).queue = .stc [(a, b)] :: qs) ∧ (r ≠ rOK)) ∧
    (∃ s : State, ∃ e : Fin 16, ∃ qs : List QEntry, ∃ recs : List RunRec, (s.live = true) ∧ ((s.eng e).queue = .emit recs :: qs) ∧ (s.on SIL_CTL_EN = false)) :=
  ⟨⟨(wHold : State), (0 : Fin 16), by decide +kernel⟩,
   ⟨(wGrant { wHold with engs := [(0, { queue := [.stc [(0x14000000, 5)]] })] } 16 0 : State), (0 : Fin 16), ([] : List QEntry), (0x14000000 : Nat), (5 : Byte), ({ wGrant wHold 16 0 with engs := [(0, {})], mem := [(0x14000000, 5)] } : State), by decide +kernel⟩,
   ⟨({ wHold with engs := [(15, { queue := [.stc [(stripeBase 15, 7)]] })] } : State), (15 : Fin 16), ([] : List QEntry), (stripeBase 15 : Nat), (rDENIED : Nat), (7 : Byte), _, pairOf (by decide +kernel), by decide +kernel⟩,
   ⟨({ wHold with engs := [(0, { queue := [.emit []] })] } : State), (0 : Fin 16), ([] : List QEntry), ([] : List RunRec), by decide +kernel⟩⟩

/-- The premises of clauses of Obligations.QueueEntryDrains are met. -/
theorem witness_QueueEntryDrains_2 :
    (∃ s : State, ∃ e : Fin 16, ∃ qs : List QEntry, ∃ recs : List RunRec, (s.live = true) ∧ ((s.eng e).queue = .emit recs :: qs) ∧ (s.on SIL_CTL_EN = true)) ∧
    (∃ s : State, ∃ e : Fin 16, ∃ qs : List QEntry, (s.live = true) ∧ ((s.eng e).queue = .void :: qs)) ∧
    (∃ s : State, ∃ e : Fin 16, ∃ qs : List QEntry, ∃ a : Nat, ∃ bs : List Byte, (s.live = true) ∧ ((s.eng e).queue = .proj a bs :: qs)) ∧
    (∃ s : State, ∃ e : Fin 16, ∃ qs : List QEntry, ∃ bs : List Byte, (s.live = true) ∧ ((s.eng e).queue = .mbox bs :: qs) ∧ (s.on ETH_EMB_CFG_EN = false ∨ seqSub (s.fld ETH_EMB_WR_IDX) (s.fld ETH_EMB_RD_IDX) = 2 ^ s.fld ETH_EMB_CFG_ELOG)) :=
  ⟨⟨(wSet { wHold with engs := [(0, { queue := [.emit [⟨0, 1, [], 2, 0, true, false, false, 0, 0, 0, 0⟩]] })] } [(SIL_CTL_EN, 0, 1)] : State), (0 : Fin 16), ([] : List QEntry), ([⟨0, 1, [], 2, 0, true, false, false, 0, 0, 0, 0⟩] : List RunRec), by decide +kernel⟩,
   ⟨({ wHold with engs := [(15, { queue := [.void] })] } : State), (15 : Fin 16), ([] : List QEntry), by decide +kernel⟩,
   ⟨({ wHold with engs := [(0, { queue := [.proj 0 []] })] } : State), (0 : Fin 16), ([] : List QEntry), (0 : Nat), ([] : List Byte), by decide +kernel⟩,
   ⟨({ wHold with engs := [(0, { queue := [.mbox []] })] } : State), (0 : Fin 16), ([] : List QEntry), ([] : List Byte), by decide +kernel⟩⟩

/-- The premises of clauses of Obligations.QueueEntryDrains are met. -/
theorem witness_QueueEntryDrains_3 :
    (∃ s : State, ∃ e : Fin 16, ∃ qs : List QEntry, ∃ bs : List Byte, ∃ r : Nat, ∃ t : State, ((s.updEng e fun g => { g with queue := qs }).busWrite e (poolBase + s.fld ETH_EMB_BASE_OFS + 32 * (s.fld ETH_EMB_WR_IDX % 2 ^ s.fld ETH_EMB_CFG_ELOG)) (fit 32 bs) = (r, t)) ∧ (s.live = true) ∧ ((s.eng e).queue = .mbox bs :: qs) ∧ (s.on ETH_EMB_CFG_EN = true) ∧ (t.regs = s.regs) ∧ (seqSub (s.fld ETH_EMB_WR_IDX) (s.fld ETH_EMB_RD_IDX) ≠ 2 ^ s.fld ETH_EMB_CFG_ELOG) ∧ (r = rOK)) ∧
    (∃ s : State, ∃ e : Fin 16, ∃ qs : List QEntry, ∃ bs : List Byte, ∃ r : Nat, ∃ t : State, ((s.updEng e fun g => { g with queue := qs }).busWrite e (poolBase + s.fld ETH_EMB_BASE_OFS + 32 * (s.fld ETH_EMB_WR_IDX % 2 ^ s.fld ETH_EMB_CFG_ELOG)) (fit 32 bs) = (r, t)) ∧ (s.live = true) ∧ ((s.eng e).queue = .mbox bs :: qs) ∧ (s.on ETH_EMB_CFG_EN = true) ∧ (t.regs = s.regs) ∧ (seqSub (s.fld ETH_EMB_WR_IDX) (s.fld ETH_EMB_RD_IDX) ≠ 2 ^ s.fld ETH_EMB_CFG_ELOG) ∧ (r ≠ rOK)) ∧
    (∃ s : State, ∃ e : Fin 16, ∃ qs : List QEntry, ∃ part : Nat, ∃ bs : List Byte, (s.live = true) ∧ ((s.eng e).queue = .sreg part bs :: qs) ∧ (s.refMode = false)) ∧
    (∃ s : State, ∃ e : Fin 16, ∃ qs : List QEntry, ∃ part : Nat, ∃ bs : List Byte, (s.live = true) ∧ ((s.eng e).queue = .sreg part bs :: qs) ∧ (s.refMode = true) ∧ (part ≠ 13)) :=
  ⟨⟨(wGrant ({ wSet wHold [(ETH_EMB_CFG_EN, 0, 1)] with engs := [(15, { queue := [.mbox [1]] })] }) 16 15 : State), (15 : Fin 16), ([] : List QEntry), ([1] : List Byte), (rOK : Nat), _, pairOf (by decide +kernel), by decide +kernel⟩,
   ⟨(wGrant ({ wSet wHold [(ETH_EMB_CFG_EN, 0, 1), (ETH_EMB_BASE_OFS, 0, 0xFFFFF0)] with engs := [(15, { queue := [.mbox [1]] })] }) 16 15 : State), (15 : Fin 16), ([] : List QEntry), ([1] : List Byte), (rERROR : Nat), _, pairOf (by decide +kernel), by decide +kernel⟩,
   ⟨(wSet { wHold with engs := [(0, { queue := [.sreg 13 []] })] } [(REF_CTL_MODE, 0, 1)] : State), (0 : Fin 16), ([] : List QEntry), (13 : Nat), ([] : List Byte), by decide +kernel⟩,
   ⟨({ wHold with engs := [(0, { queue := [.sreg 12 [1]] })] } : State), (0 : Fin 16), ([] : List QEntry), (12 : Nat), ([1] : List Byte), by decide +kernel⟩⟩

/-- The premises of clauses of Obligations.QueueEntryDrains are met. -/
theorem witness_QueueEntryDrains_4 :
    ∃ s : State, ∃ e : Fin 16, ∃ qs : List QEntry, ∃ recs : List RunRec, ∃ l : Int, ∃ a : Nat, ∃ b : Nat, ∃ c : Bool, ∃ ranges : List (Nat × Nat), (s.live = true) ∧ ((s.eng e).queue = .eol recs l a b c ranges :: qs) :=
  ⟨(wSet { wHold with engs := [(0, { queue := [.eol [] 5 1 0 false [(0, 3)]] })] } [(SIL_CTL_EN, 0, 1)] : State), (0 : Fin 16), ([] : List QEntry), ([] : List RunRec), (5 : Int), (1 : Nat), (0 : Nat), (false : Bool), ([(0, 3)] : List (Nat × Nat)), by decide +kernel⟩

/-- The premises of clauses of Obligations.ReferenceFeed are met. -/
theorem witness_ReferenceFeed_1 :
    (∃ s : State, ∃ j : Nat, ∃ p : Packet, ∃ rest : List (Nat × Packet), (s.live = true) ∧ (s.ref.inbox = (j, p) :: rest) ∧ (p.ch = 1) ∧ (s.refMode = false)) ∧
    (∃ s : State, ∃ j : Nat, ∃ p : Packet, ∃ rest : List (Nat × Packet), (s.live = true) ∧ (s.ref.inbox = (j, p) :: rest) ∧ (p.ch = 1) ∧ (s.refMode = true) ∧ (leNat ((p.bytes.drop 4).take 4) < 32 ∨ s.fld REF_PMAX_PMAX < leNat ((p.bytes.drop 4).take 4) ∨ leNat (p.bytes.take 4) = 0xFFFFFFFF ∨ ∃ q ∈ s.ref.queue, q.id = leNat (p.bytes.take 4))) ∧
    (∃ s : State, ∃ j : Nat, ∃ p : Packet, ∃ rest : List (Nat × Packet), (s.live = true) ∧ (s.ref.inbox = (j, p) :: rest) ∧ (p.ch = 1) ∧ (s.refMode = true) ∧ (32 ≤ leNat ((p.bytes.drop 4).take 4)) ∧ (leNat ((p.bytes.drop 4).take 4) ≤ s.fld REF_PMAX_PMAX) ∧ (leNat (p.bytes.take 4) ≠ 0xFFFFFFFF) ∧ (∀ q ∈ s.ref.queue, q.id ≠ leNat (p.bytes.take 4))) ∧
    (∃ s : State, ∃ j : Nat, ∃ p : Packet, ∃ rest : List (Nat × Packet), ∃ pg : RefPage, ∃ t : RefTile, (t = { page := leNat ((p.bytes.drop 0).take 4), band := leNat ((p.bytes.drop 4).take 4), tile := leNat ((p.bytes.drop 8).take 2), width := leNat ((p.bytes.drop 10).take 2), rows := pg.bandRows (leNat ((p.bytes.drop 4).take 4)), stored := (leNat ((p.bytes.drop 12).take 1)).testBit 0, lane := j, stream := p.bytes.drop 16, qp := pg.qp }) ∧ (s.live = true) ∧ (s.ref.inbox = (j, p) :: rest) ∧ (p.ch = 0) ∧ (s.livePages.find? (fun q => q.id == leNat ((p.bytes.drop 0).take 4)) = some pg) ∧ (s.refMode = true) ∧ ((pg.len + 63) / 64 > leNat ((p.bytes.drop 4).take 4)) ∧ (s.refTiles > leNat ((p.bytes.drop 8).take 2)) ∧ (leNat ((p.bytes.drop 10).take 2) = min (s.fld REF_TILE_TILEW) (s.fld REF_RWIDTH_WIDTH - leNat ((p.bytes.drop 8).take 2) * s.fld REF_TILE_TILEW)) ∧ (pg.tiles.contains (t.band, t.tile) = true)) :=
  ⟨⟨(wSet { wHold with ref := { inbox := [(24, ⟨1, [], 0, []⟩)] } } [(REF_CTL_MODE, 0, 1)] : State), (24 : Nat), (⟨1, [], 0, []⟩ : Packet), ([] : List (Nat × Packet)), by decide +kernel⟩,
   ⟨({ wHold with ref := { inbox := [(24, ⟨1, [], 0, []⟩)] } } : State), (24 : Nat), (⟨1, [], 0, []⟩ : Packet), ([] : List (Nat × Packet)), by decide +kernel⟩,
   ⟨(wSet { wHold with ref := { inbox := [(24, ⟨1, [1, 0, 0, 0, 32, 0, 0, 0], 0, []⟩)] } } [(REF_PMAX_PMAX, 0, 32)] : State), (24 : Nat), (⟨1, [1, 0, 0, 0, 32, 0, 0, 0], 0, []⟩ : Packet), ([] : List (Nat × Packet)), by decide +kernel⟩,
   ⟨(wSet { wHold with ref := { inbox := [(24, wTilePk)], queue := [{ id := 1, len := 64, tiles := [(0, 0)] }] } } [(REF_TILE_TILEW, 0, 1), (REF_RWIDTH_WIDTH, 0, 1)] : State), (24 : Nat), (wTilePk : Packet), ([] : List (Nat × Packet)), ({ id := 1, len := 64, tiles := [(0, 0)] } : RefPage), _, rfl, by decide +kernel⟩⟩

/-- The premises of clauses of Obligations.ReferenceFeed are met. -/
theorem witness_ReferenceFeed_2 :
    (∃ s : State, ∃ j : Nat, ∃ p : Packet, ∃ rest : List (Nat × Packet), ∃ pg : RefPage, ∃ t : RefTile, ∃ i : Nat, (t = { page := leNat ((p.bytes.drop 0).take 4), band := leNat ((p.bytes.drop 4).take 4), tile := leNat ((p.bytes.drop 8).take 2), width := leNat ((p.bytes.drop 10).take 2), rows := pg.bandRows (leNat ((p.bytes.drop 4).take 4)), stored := (leNat ((p.bytes.drop 12).take 1)).testBit 0, lane := j, stream := p.bytes.drop 16, qp := pg.qp }) ∧ (s.live = true) ∧ (s.ref.inbox = (j, p) :: rest) ∧ (p.ch = 0) ∧ (s.livePages.find? (fun q => q.id == leNat ((p.bytes.drop 0).take 4)) = some pg) ∧ (s.refMode = true) ∧ ((pg.len + 63) / 64 > leNat ((p.bytes.drop 4).take 4)) ∧ (s.refTiles > leNat ((p.bytes.drop 8).take 2)) ∧ (leNat ((p.bytes.drop 10).take 2) = min (s.fld REF_TILE_TILEW) (s.fld REF_RWIDTH_WIDTH - leNat ((p.bytes.drop 8).take 2) * s.fld REF_TILE_TILEW)) ∧ (pg.tiles.contains (t.band, t.tile) = false) ∧ (s.cmpIdle = some i) ∧ (s.ref.waiting = [])) ∧
    (∃ s : State, ∃ j : Nat, ∃ p : Packet, ∃ rest : List (Nat × Packet), ∃ pg : RefPage, ∃ t : RefTile, (t = { page := leNat ((p.bytes.drop 0).take 4), band := leNat ((p.bytes.drop 4).take 4), tile := leNat ((p.bytes.drop 8).take 2), width := leNat ((p.bytes.drop 10).take 2), rows := pg.bandRows (leNat ((p.bytes.drop 4).take 4)), stored := (leNat ((p.bytes.drop 12).take 1)).testBit 0, lane := j, stream := p.bytes.drop 16, qp := pg.qp }) ∧ (s.live = true) ∧ (s.ref.inbox = (j, p) :: rest) ∧ (p.ch = 0) ∧ (s.livePages.find? (fun q => q.id == leNat ((p.bytes.drop 0).take 4)) = some pg) ∧ (s.refMode = true) ∧ ((pg.len + 63) / 64 > leNat ((p.bytes.drop 4).take 4)) ∧ (s.refTiles > leNat ((p.bytes.drop 8).take 2)) ∧ (leNat ((p.bytes.drop 10).take 2) = min (s.fld REF_TILE_TILEW) (s.fld REF_RWIDTH_WIDTH - leNat ((p.bytes.drop 8).take 2) * s.fld REF_TILE_TILEW)) ∧ (pg.tiles.contains (t.band, t.tile) = false) ∧ (s.cmpIdle = none ∨ s.ref.waiting ≠ [])) ∧
    (∃ s : State, ∃ j : Nat, ∃ p : Packet, ∃ rest : List (Nat × Packet), (s.live = true) ∧ (s.ref.inbox = (j, p) :: rest) ∧ (p.ch = 0) ∧ (s.refMode = false)) ∧
    (∃ s : State, ∃ j : Nat, ∃ p : Packet, ∃ rest : List (Nat × Packet), (∀ pg : RefPage, s.livePages.find? (fun q => q.id == leNat ((p.bytes.drop 0).take 4)) = some pg → (pg.len + 63) / 64 ≤ leNat ((p.bytes.drop 4).take 4) ∨ s.refTiles ≤ leNat ((p.bytes.drop 8).take 2) ∨ leNat ((p.bytes.drop 10).take 2) ≠ min (s.fld REF_TILE_TILEW) (s.fld REF_RWIDTH_WIDTH - leNat ((p.bytes.drop 8).take 2) * s.fld REF_TILE_TILEW)) ∧ (s.live = true) ∧ (s.ref.inbox = (j, p) :: rest) ∧ (p.ch = 0) ∧ (s.refMode = true)) :=
  ⟨⟨(wSet { wHold with ref := { inbox := [(24, wTilePk)], queue := [{ id := 1, len := 64 }] } } [(REF_TILE_TILEW, 0, 1), (REF_RWIDTH_WIDTH, 0, 1)] : State), (24 : Nat), (wTilePk : Packet), ([] : List (Nat × Packet)), ({ id := 1, len := 64 } : RefPage), _, (0 : Nat), rfl, by decide +kernel⟩,
   ⟨(wSet { wHold with ref := { inbox := [(24, wTilePk)], queue := [{ id := 1, len := 64 }], waiting := [⟨1, 0, 0, 5, 1, 1, true, 24, []⟩] } } [(REF_TILE_TILEW, 0, 1), (REF_RWIDTH_WIDTH, 0, 1)] : State), (24 : Nat), (wTilePk : Packet), ([] : List (Nat × Packet)), ({ id := 1, len := 64 } : RefPage), _, rfl, by decide +kernel⟩,
   ⟨(wSet { wHold with ref := { inbox := [(24, wTilePk)] } } [(REF_CTL_MODE, 0, 1)] : State), (24 : Nat), (wTilePk : Packet), ([] : List (Nat × Packet)), by decide +kernel⟩,
   ⟨({ wHold with ref := { inbox := [(24, wTilePk)] } } : State), (24 : Nat), (wTilePk : Packet), ([] : List (Nat × Packet)), fun _ h => (nomatch (show (none : Option RefPage) = some _ from h)), by decide +kernel⟩⟩

/-- The premises of clauses of Obligations.ReferenceFeed are met. -/
theorem witness_ReferenceFeed_3 :
    (∃ s : State, ∃ i : Fin 8, ∃ t : RefTile, ∃ pg : RefPage, ∃ u : State, ∃ v : State, (u = ((s.cmpGive i .idle).refReturn t.lane t.blocks).cmpCount t.stream.length t.stream.length) ∧ (u.tileWrite pg t t.stream = (true, v)) ∧ (s.live = true) ∧ (s.cmpOwner i = .tile t) ∧ (t.stored = true) ∧ (t.stream.length = t.width * t.rows * 4) ∧ (s.livePages.find? (fun q => q.qp == t.qp && q.id == t.page) = some pg) ∧ (u.livePages = s.livePages)) ∧
    (∃ s : State, ∃ i : Fin 8, (∀ t : RefTile, s.cmpOwner i ≠ .tile t) ∧ (s.live = true)) :=
  ⟨⟨(wSet { wHold with ref := { queue := [{ id := 1, len := 64 }] }, cmp := { eng := [(7, .tile ⟨1, 0, 0, 0, 0, 1, true, 24, []⟩)] } } [(REF_TILE_TILEW, 0, 1), (REF_RWIDTH_WIDTH, 0, 1)] : State), (7 : Fin 8), (⟨1, 0, 0, 0, 0, 1, true, 24, []⟩ : RefTile), ({ id := 1, len := 64 } : RefPage), _, _, rfl, pairOf (by decide +kernel), by decide +kernel⟩,
   ⟨(wHold : State), (7 : Fin 8), fun t h => CmpOwner.noConfusion h, by decide +kernel⟩⟩

/-- The premises of clauses of Obligations.PageStarts are met. -/
theorem witness_PageStarts_1 :
    (∃ s : State, ∃ p : Int, ∃ ps : List Int, ∃ q : RefPage, ∃ qs : List RefPage, (s.inRun = true) ∧ (s.on REF_CTL_EN = true) ∧ (s.ref.ready = p :: ps) ∧ (∀ x ∈ s.rpt.startLine, x.2 < p) ∧ (s.refMode = true) ∧ (s.ref.queue = q :: qs)) ∧
    (∃ s : State, ∃ p : Int, ∃ ps : List Int, (s.inRun = true) ∧ (s.on REF_CTL_EN = true) ∧ (s.ref.ready = p :: ps) ∧ (∀ x ∈ s.rpt.startLine, x.2 < p) ∧ (s.refMode = true) ∧ (s.ref.queue = [])) ∧
    (∃ s : State, ∃ p : Int, ∃ ps : List Int, (s.inRun = true) ∧ (s.on REF_CTL_EN = true) ∧ (s.ref.ready = p :: ps) ∧ (∀ x ∈ s.rpt.startLine, x.2 < p) ∧ (s.refMode = false)) ∧
    (∃ s : State, ∃ a : Int, (s.inRun = true) ∧ (s.on REF_CTL_EN = true) ∧ (s.ref.ready = []) ∧ (s.pageSrc = 2) ∧ (s.pwr.drain = false) ∧ (s.ref.armed = some a) ∧ (a ≤ s.tick.hw)) :=
  ⟨⟨(wSet { wRun with ref := { ready := [9], queue := [{ id := 1, len := 64 }] } } [(REF_CTL_EN, 0, 1)] : State), (9 : Int), ([] : List Int), ({ id := 1, len := 64 } : RefPage), ([] : List RefPage), by decide +kernel⟩,
   ⟨(wSet { wRun with ref := { ready := [9] } } [(REF_CTL_EN, 0, 1)] : State), (9 : Int), ([] : List Int), by decide +kernel⟩,
   ⟨(wSet { wRun with ref := { ready := [9] } } [(REF_CTL_EN, 0, 1), (REF_CTL_MODE, 0, 1)] : State), (9 : Int), ([] : List Int), by decide +kernel⟩,
   ⟨(wSet { wRun with ref := { armed := some 9 }, tick := { hw := 9 } } [(REF_CTL_EN, 0, 1), (REF_CTL_PSRC, 0, 2)] : State), (9 : Int), by decide +kernel⟩⟩

/-- The premises of clauses of Obligations.PageStarts are met. -/
theorem witness_PageStarts_2 :
    (∃ s : State, ∃ l : Int, (s.inRun = true) ∧ (s.on REF_CTL_EN = true) ∧ (s.ref.ready = []) ∧ (s.pageSrc = 2) ∧ (s.pwr.drain = false) ∧ (s.ref.armed = none) ∧ (s.ref.exact = some l) ∧ (nearStart l ≤ s.tick.hw)) ∧
    (∃ s : State, ∃ a : Int, (s.inRun = true) ∧ (s.on REF_CTL_EN = true) ∧ (s.ref.ready = []) ∧ (s.pageSrc = 2) ∧ (s.pwr.drain = false) ∧ (s.ref.armed = some a) ∧ (s.tick.hw < a)) ∧
    (∃ s : State, ∃ l : Int, (s.inRun = true) ∧ (s.on REF_CTL_EN = true) ∧ (s.pageSrc = 0) ∧ (s.ref.exact = some l) ∧ (l / 65536 + s.fld REF_MARK_MWIN - s.fld REF_MARK_MARKOFS ≤ s.sil.lastLine)) ∧
    (∃ s : State, ∃ l : Int, (s.inRun = true) ∧ (s.on REF_CTL_EN = true) ∧ (s.pageSrc = 0) ∧ (s.ref.exact = some l) ∧ (s.sil.lastLine < l / 65536 + s.fld REF_MARK_MWIN - s.fld REF_MARK_MARKOFS)) :=
  ⟨⟨(wSet { wRun with ref := { exact := some 32768 }, tick := { hw := 1 } } [(REF_CTL_EN, 0, 1), (REF_CTL_PSRC, 0, 2)] : State), (32768 : Int), by decide +kernel⟩,
   ⟨(wSet { wRun with ref := { armed := some 9 }, tick := { hw := 8 } } [(REF_CTL_EN, 0, 1), (REF_CTL_PSRC, 0, 2)] : State), (9 : Int), by decide +kernel⟩,
   ⟨(wSet { wRun with ref := { exact := some 65536 }, sil := { lastLine := 5 } } [(REF_CTL_EN, 0, 1), (REF_CTL_PSRC, 0, 0), (REF_MARK_MWIN, 0, 4)] : State), (65536 : Int), by decide +kernel⟩,
   ⟨(wSet { wRun with ref := { exact := some 65536 }, sil := { lastLine := 4 } } [(REF_CTL_EN, 0, 1), (REF_CTL_PSRC, 0, 0), (REF_MARK_MWIN, 0, 4)] : State), (65536 : Int), by decide +kernel⟩⟩

/-- The premises of clauses of Obligations.PageStarts are met. -/
theorem witness_PageStarts_3 :
    (∃ s : State, ∃ l : Int, ∃ ps : List Int, (∀ q, s.lastStart = some q → q < l + s.sfld REF_PAGEOFS_PAGEOFS) ∧ (s.live = true) ∧ (s.on REF_CTL_EN = true) ∧ (s.pageSrc = 1) ∧ (s.ref.press = l :: ps)) ∧
    (∃ s : State, ∃ l : Int, ∃ ps : List Int, ∃ q, (s.live = true) ∧ (s.on REF_CTL_EN = true) ∧ (s.pageSrc = 1) ∧ (s.ref.press = l :: ps) ∧ (s.lastStart = some q) ∧ (l + s.sfld REF_PAGEOFS_PAGEOFS ≤ q)) ∧
    (∃ s : State, ∃ m : Master, ∃ v : Word, (s.mayWrite m .REF_FIRST_HI 0) ∧ (∀ q, s.on REF_CTL_EN = true → s.ref.last = some q → q < ((s.reg .REF_FIRST_LO).toNat : Int) + 2 ^ 32 * (bits v.toNat 15 0 : Int)) ∧ (s.pageSrc = 2)) :=
  ⟨⟨(wSet { wRun with ref := { press := [7], last := some 6 } } [(REF_CTL_EN, 0, 1), (REF_CTL_PSRC, 0, 1)] : State), (7 : Int), ([] : List Int), by intro q h; cases h; decide +kernel, by decide +kernel⟩,
   ⟨(wSet { wRun with ref := { press := [7], last := some 7 } } [(REF_CTL_EN, 0, 1), (REF_CTL_PSRC, 0, 1)] : State), (7 : Int), ([] : List Int), 7, by decide +kernel⟩,
   ⟨(wSet wHold [(REF_CTL_PSRC, 0, 3)] : State), (48 : Master), (0xFFFF : Word), reach (by decide +kernel), fun _ h => absurd h (by decide +kernel), by decide +kernel⟩⟩

/-- The premises of clauses of Obligations.ReferenceCommands are met. -/
theorem witness_ReferenceCommands_1 :
    (∃ s : State, ∃ m : Master, ∃ v : Word, (s.mayWrite m .REF_CMD 0) ∧ (v.getLsbD 1 = false) ∧ (s.ref.queue = [])) ∧
    (∃ s : State, ∃ m : Master, ∃ v : Word, ∃ q : RefPage, ∃ qs : List RefPage, (s.mayWrite m .REF_CMD 0) ∧ (v.getLsbD 1 = false) ∧ (s.ref.queue = q :: qs)) ∧
    (∃ s : State, ∃ m : Master, ∃ v : Word, (s.mayWrite m .REF_CMD 0) ∧ (v.getLsbD 0 = false)) ∧
    (∃ s : State, ∃ m : Master, ∃ e : Fin 16, ∃ w : Fin 3, (s.mayWrite m (if w = 0 then .REF_TRK_MD else if w = 1 then .REF_TRK_CD else .REF_TRK_K) e)) :=
  ⟨⟨(wHold : State), (48 : Master), (1 : Word), reach (by decide +kernel), by decide +kernel⟩,
   ⟨({ wHold with ref := { queue := [{ id := 1, len := 64 }] } } : State), (48 : Master), (1 : Word), ({ id := 1, len := 64 } : RefPage), ([] : List RefPage), reach (by decide +kernel), by decide +kernel⟩,
   ⟨(wHold : State), (48 : Master), (2 : Word), reach (by decide +kernel), by decide +kernel⟩,
   ⟨(wHold : State), (48 : Master), (15 : Fin 16), (0 : Fin 3), reach (by decide +kernel)⟩⟩

/-- The premises of clauses of Obligations.ReferenceCommands are met. -/
theorem witness_ReferenceCommands_2 :
    (∃ s : State, ∃ m : Master, ∃ v : Word, ∃ w : State, ∃ e : Nat, (s.mayWrite m .REF_CTL 0) ∧ (s.inHold = true) ∧ (w = ((s.answered.regStore .REF_CTL 0 (v ||| 1)).setFld REF_CTL_EN 0 0)) ∧ (w.enginesInUse.find? (fun e => !w.refEngineOk e) = some e)) ∧
    (∃ s : State, ∃ m : Master, ∃ v : Word, ∃ w : State, (s.mayWrite m .REF_CTL 0) ∧ (s.inHold = true) ∧ (w = ((s.answered.regStore .REF_CTL 0 (v ||| 1)).setFld REF_CTL_EN 0 0)) ∧ (∀ e ∈ w.enginesInUse, w.refEngineOk e = true) ∧ (w.pageSrc ≠ 1) ∧ (w.pageLen < 65536)) ∧
    (∃ s : State, ∃ m : Master, ∃ v : Word, ∃ w : State, (s.mayWrite m .REF_CTL 0) ∧ (s.inHold = true) ∧ (w = ((s.answered.regStore .REF_CTL 0 (v ||| 1)).setFld REF_CTL_EN 0 0)) ∧ (∀ e ∈ w.enginesInUse, w.refEngineOk e = true) ∧ (w.pageSrc = 1 ∨ 65536 ≤ w.pageLen)) :=
  ⟨⟨(wSet wHold [(SE_STRIPE_WIDTH, 15, 1)] : State), (48 : Master), (1 : Word), (((((wSet wHold [(SE_STRIPE_WIDTH, 15, 1)] : State)).answered.regStore .REF_CTL 0 (((1 : Word)) ||| 1)).setFld REF_CTL_EN 0 0) : State), (15 : Nat), reach (by decide +kernel), by decide +kernel⟩,
   ⟨(wHold : State), (48 : Master), (1 : Word), (((((wHold : State)).answered.regStore .REF_CTL 0 (((1 : Word)) ||| 1)).setFld REF_CTL_EN 0 0) : State), reach (by decide +kernel), by decide +kernel⟩,
   ⟨(wHold : State), (48 : Master), (9 : Word), (((((wHold : State)).answered.regStore .REF_CTL 0 (((9 : Word)) ||| 1)).setFld REF_CTL_EN 0 0) : State), reach (by decide +kernel), by decide +kernel⟩⟩

/-- The premises of clauses of Obligations.ReferencePrefetchAndRegistration are met. -/
theorem witness_ReferencePrefetchAndRegistration_1 :
    (∃ s : State, ∃ e : Fin 16, ∃ p : Prog, ∃ r : Ring, ∃ i : Nat, ∃ k : Nat, ∃ hdr : Nat, ∃ pg : RefPage, ∃ bs : List Byte, ∃ x : State, ∃ y : State, ∃ res : Nat, ∃ want : Nat → RefPage → Prop, (want = (fun k q => s.ref.freed ≤ k ∧ s.bandOk q ((k - q.qp) / 64) = true ∧ s.refHolds e r k q.id = false ∧ (∀ f ∈ s.ref.fills, f.hdrAt ≠ stripeBase e + r.hdrOfs (s.refSlot r k)) ∧ ¬((stripeBase e + r.hdrOfs (s.refSlot r k), k) ∈ s.ref.missed ∧ s.rowReads e k = false))) ∧ (∀ j < i, ∀ q : RefPage, s.rowPage (s.rowBase e p r + j) = some q → ¬want (s.rowBase e p r + j) q) ∧ (k = s.rowBase e p r + i) ∧ (want k pg) ∧ (hdr = stripeBase e + r.hdrOfs (s.refSlot r k)) ∧ (s.busRead 17 (s.refAddr k (s.fld REF_EWIN_EFIRST e)) (4 * s.fld REF_EWIN_ECOUNT e) = (res, bs, x)) ∧ (y = x.tagNew 17 hdr k) ∧ (s.live = true) ∧ (s.on REF_CTL_EN = true) ∧ (s.refMode = true) ∧ (s.ref.barred.contains e.val = false) ∧ ((s.eng e).prog = some p) ∧ (p.refRings = [r]) ∧ (i < r.depth) ∧ (s.rowPage k = some pg) ∧ (res = rOK) ∧ (x = { s with cxl := x.cxl }) ∧ (y.tagWaits 17 (· == (hdr, k)) = true)) ∧
    (∃ s : State, ∃ e : Fin 16, ∃ p : Prog, ∃ r : Ring, ∃ i : Nat, ∃ k : Nat, ∃ hdr : Nat, ∃ pg : RefPage, ∃ bs : List Byte, ∃ x : State, ∃ y : State, ∃ res : Nat, ∃ want : Nat → RefPage → Prop, ∃ t : State, ∃ u : State, (want = (fun k q => s.ref.freed ≤ k ∧ s.bandOk q ((k - q.qp) / 64) = true ∧ s.refHolds e r k q.id = false ∧ (∀ f ∈ s.ref.fills, f.hdrAt ≠ stripeBase e + r.hdrOfs (s.refSlot r k)) ∧ ¬((stripeBase e + r.hdrOfs (s.refSlot r k), k) ∈ s.ref.missed ∧ s.rowReads e k = false))) ∧ (∀ j < i, ∀ q : RefPage, s.rowPage (s.rowBase e p r + j) = some q → ¬want (s.rowBase e p r + j) q) ∧ (k = s.rowBase e p r + i) ∧ (want k pg) ∧ (hdr = stripeBase e + r.hdrOfs (s.refSlot r k)) ∧ (s.busRead 17 (s.refAddr k (s.fld REF_EWIN_EFIRST e)) (4 * s.fld REF_EWIN_ECOUNT e) = (res, bs, x)) ∧ (y = x.tagNew 17 hdr k) ∧ (({ y with ref := { s.ref with fail := s.ref.fail.filter (·.1 != e.val), missed := s.ref.missed.filter (· != (hdr, k)) } } : State).busWrite 17 (stripeBase e + r.slotOfs (s.refSlot r k)) bs = (rOK, t)) ∧ (t.busWrite 17 hdr (s.rowHeader e k pg) = (rOK, u)) ∧ (s.live = true) ∧ (s.on REF_CTL_EN = true) ∧ (s.refMode = true) ∧ (s.ref.barred.contains e.val = false) ∧ ((s.eng e).prog = some p) ∧ (p.refRings = [r]) ∧ (i < r.depth) ∧ (s.rowPage k = some pg) ∧ (res = rOK) ∧ (x = { s with cxl := x.cxl }) ∧ (y.tagWaits 17 (· == (hdr, k)) = false)) ∧
    (∃ s : State, ∃ e : Fin 16, ∃ p : Prog, ∃ r : Ring, ∃ i : Nat, ∃ k : Nat, ∃ hdr : Nat, ∃ pg : RefPage, ∃ bs : List Byte, ∃ x : State, ∃ res : Nat, ∃ want : Nat → RefPage → Prop, (want = (fun k q => s.ref.freed ≤ k ∧ s.bandOk q ((k - q.qp) / 64) = true ∧ s.refHolds e r k q.id = false ∧ (∀ f ∈ s.ref.fills, f.hdrAt ≠ stripeBase e + r.hdrOfs (s.refSlot r k)) ∧ ¬((stripeBase e + r.hdrOfs (s.refSlot r k), k) ∈ s.ref.missed ∧ s.rowReads e k = false))) ∧ (∀ j < i, ∀ q : RefPage, s.rowPage (s.rowBase e p r + j) = some q → ¬want (s.rowBase e p r + j) q) ∧ (k = s.rowBase e p r + i) ∧ (want k pg) ∧ (hdr = stripeBase e + r.hdrOfs (s.refSlot r k)) ∧ (s.busRead 17 (s.refAddr k (s.fld REF_EWIN_EFIRST e)) (4 * s.fld REF_EWIN_ECOUNT e) = (res, bs, x)) ∧ (s.live = true) ∧ (s.on REF_CTL_EN = true) ∧ (s.refMode = true) ∧ (s.ref.barred.contains e.val = false) ∧ ((s.eng e).prog = some p) ∧ (p.refRings = [r]) ∧ (i < r.depth) ∧ (s.rowPage k = some pg) ∧ (res ≠ rOK) ∧ (x.ref = s.ref)) ∧
    (∃ s : State, (s.live = true) ∧ (s.on REF_CTL_EN = false)) :=
  ⟨⟨(wRef { st := .up } 1 : State), (0 : Fin 16), (wProgR : Prog), (⟨0, 1, 1, 1, 0, false, 0x1000, 0, 0, 0, 0⟩ : Ring), (0 : Nat), _, _, ({ id := 5, len := 64 } : RefPage), _, _, _, _, _, rfl, fun j h => absurd h (Nat.not_lt_zero j), rfl, by decide +kernel, rfl, tripleOf rfl, rfl, by decide +kernel⟩,
   ⟨(wRef { st := .up } 0 : State), (0 : Fin 16), (wProgR : Prog), (⟨0, 1, 1, 1, 0, false, 0x1000, 0, 0, 0, 0⟩ : Ring), (0 : Nat), _, _, ({ id := 5, len := 64 } : RefPage), _, _, _, _, _, _, _, rfl, fun j h => absurd h (Nat.not_lt_zero j), rfl, by decide +kernel, rfl, tripleOf rfl, rfl, pairOf (by decide +kernel), pairOf (by decide +kernel), by decide +kernel⟩,
   ⟨(wRef {} 1 : State), (0 : Fin 16), (wProgR : Prog), (⟨0, 1, 1, 1, 0, false, 0x1000, 0, 0, 0, 0⟩ : Ring), (0 : Nat), _, _, ({ id := 5, len := 64 } : RefPage), _, _, _, _, rfl, fun j h => absurd h (Nat.not_lt_zero j), rfl, by decide +kernel, rfl, tripleOf rfl, by decide +kernel⟩,
   ⟨(wHold : State), by decide +kernel⟩⟩

/-- The premises of clauses of Obligations.ReferencePrefetchAndRegistration are met. -/
theorem witness_ReferencePrefetchAndRegistration_2 :
    (∃ s : State, ∃ e : Fin 16, (s.live = true) ∧ ((s.trk e).due = false)) ∧
    (∃ s : State, ∃ e : Fin 16, ∃ k : Nat, ∃ dx : Rat, ∃ qx : Rat, ∃ dy : Rat, ∃ qy : Rat, (∀ f, (s.trk e).left.peak f = k) ∧ (∀ f, (s.trk e).left.axis k 1 (k % 5) f = (dx, qx, false)) ∧ (∀ f, (s.trk e).left.axis k 5 (k / 5) f = (dy, qy, false)) ∧ (s.live = true) ∧ ((s.trk e).due = true) ∧ ((s.trk e).right.sums = []) ∧ ((if qx < qy then qx else qy) < (s.fld REF_Q_QMIN : Rat) / 65536)) :=
  ⟨⟨(wHold : State), (0 : Fin 16), by decide +kernel⟩,
   ⟨(wSet { wHold with ref := { trk := [(3, { due := true, left := wSums, md := 1 / 2 })] } } [(REF_Q_QMIN, 0, 65535)] : State), (3 : Fin 16), (12 : Nat), (-1 / 6 : Rat), (3 / 4 : Rat), (0 : Rat), (1 : Rat), wSums_peak, fun f => (wSums_axis f).1, fun f => (wSums_axis f).2, by decide +kernel⟩⟩

/-- The premises of clauses of Obligations.SillageLinesAndControl are met. -/
theorem witness_SillageLinesAndControl_1 :
    (∃ s : State, ∃ n : Int, (s.silReady n) ∧ (s.silMissing n = []) ∧ (s.silDue n = false)) ∧
    (∃ s : State, ∃ n : Int, (s.silReady n) ∧ (s.silMissing n = []) ∧ (s.silDue n = true) ∧ (s.sil.eols.filter (fun x => x.line == n && !x.blind.isEmpty) = []) ∧ (s.sil.carry = []) ∧ (s.sil.regions = []) ∧ (s.sil.runs.filter (fun q => q.line == ofSigned 16 n) = [])) ∧
    (∃ s : State, ∃ n : Int, ∃ q : RunRec, (s.silReady n) ∧ (s.silMissing n = []) ∧ (s.silDue n = true) ∧ (s.sil.eols.filter (fun x => x.line == n && !x.blind.isEmpty) = []) ∧ (s.sil.carry = []) ∧ (s.sil.runs.filter (fun q => q.line == ofSigned 16 n) = [q]) ∧ (q.user.testBit 3 = false) ∧ (s.inJob n = true) ∧ (s.sil.freedNow = []) ∧ (s.sil.regions = []) ∧ (s.sil.kept = []) ∧ (2 ≤ s.fld SIL_LONGLEN_LINES)) ∧
    (∃ s : State, ∃ n : Int, ∃ q : RunRec, ∃ r : Region, ∃ k : KeptRun, (s.silReady n) ∧ (s.silMissing n = []) ∧ (s.silDue n = true) ∧ (s.sil.eols.filter (fun x => x.line == n && !x.blind.isEmpty) = []) ∧ (s.sil.carry = []) ∧ (s.sil.runs.filter (fun q => q.line == ofSigned 16 n) = [q]) ∧ (q.user.testBit 3 = false) ∧ (s.inJob n = true) ∧ (s.sil.freedNow = []) ∧ (s.sil.regions = [r]) ∧ (s.sil.kept = [k]) ∧ (k.region = r.id) ∧ (idChip r.id = s.span.chip) ∧ (s.silAdjacent n q.first q.last k = true) ∧ (s.sil.links = []) ∧ (r.isSat = false) ∧ (r.long = false) ∧ (r.last ≤ n) ∧ (n - r.f + 1 < s.longLen)) :=
  ⟨⟨({ wSil with tick := { ticked := [(1, 9)], hw := 1 } } : State), (1 : Int), silReadyOf (by decide +kernel) rfl rfl, by decide +kernel⟩,
   ⟨(wSil : State), (1 : Int), silReadyOf (by decide +kernel) rfl rfl, by decide +kernel⟩,
   ⟨({ wSil with sil := { runs := [wRec] } } : State), (1 : Int), (wRec : RunRec), silReadyOf (by decide +kernel) rfl rfl, by decide +kernel⟩,
   ⟨({ wSil with sil := { runs := [wRec], regions := [newRegion (.ctx 0) 1 0 0 3 4], kept := [⟨0, 3, 4, 1⟩] } } : State), (1 : Int), (wRec : RunRec), (newRegion (.ctx 0) 1 0 0 3 4 : Region), (⟨0, 3, 4, 1⟩ : KeptRun), silReadyOf (by decide +kernel) rfl rfl, by decide +kernel⟩⟩

/-- The premises of clauses of Obligations.SillageLinesAndControl are met. -/
theorem witness_SillageLinesAndControl_2 :
    (∃ s : State, ∃ n : Int, (s.silReady n) ∧ (s.silMissing n ≠ []) ∧ (s.nowTick < n + s.depth + 1 + (max 10 (s.fld SIL_EOLTO_TO) : Nat))) ∧
    (∃ s : State, ∃ n : Int, (s.silReady n) ∧ (s.silMissing n ≠ []) ∧ (n + s.depth + 1 + (max 10 (s.fld SIL_EOLTO_TO) : Nat) ≤ s.nowTick) ∧ (s.sil.regions = []) ∧ (s.sil.runs = []) ∧ (s.sil.eols = []) ∧ (s.inJob n = true)) ∧
    (∃ s : State, ∃ m : Master, (s.mayWrite m .SIL_CTL 0) ∧ (s.inHold = true) ∧ (s.on SIL_CTL_EN = false)) ∧
    (∃ s : State, ∃ m : Master, (s.mayWrite m .SIL_CTL 0) ∧ (s.inRun = true) ∧ (s.on SIL_CTL_EN = false)) :=
  ⟨⟨(wSet { wSil with tick := { ticked := [(1, 9)], hw := 1 } } [(SIL_ENGMASK_MASK, 0, 1)] : State), (1 : Int), silReadyOf (by decide +kernel) rfl rfl, by decide +kernel⟩,
   ⟨(wSet wSil [(SIL_ENGMASK_MASK, 0, 1)] : State), (1 : Int), silReadyOf (by decide +kernel) rfl rfl, by decide +kernel⟩,
   ⟨({ wHold with sil := { runs := [wRec] } } : State), (48 : Master), reach (by decide +kernel), by decide +kernel⟩,
   ⟨(wRun : State), (48 : Master), reach (by decide +kernel), by decide +kernel⟩⟩

/-- The premises of clauses of Obligations.SillageLinesAndControl are met. -/
theorem witness_SillageLinesAndControl_3 :
    (∃ s : State, ∃ m : Master, (s.mayWrite m .SIL_CTL 0) ∧ (s.on SIL_CTL_EN = true)) ∧
    (∃ s : State, ∃ m : Master, (s.mayWrite m .SIL_CMD 0) ∧ (s.inHold = true) ∧ (s.sil.links = [])) ∧
    (∃ s : State, ∃ m : Master, (s.mayWrite m .SIL_CMD 0) ∧ (s.inRun = true)) ∧
    (∃ s : State, ∃ m : Master, (s.mayWrite m .SIL_WSWAP 0) ∧ (s.fld SIL_WSWAP_PEND = 0)) :=
  ⟨⟨(wSet wHold [(SIL_CTL_EN, 0, 1)] : State), (48 : Master), reach (by decide +kernel), by decide +kernel⟩,
   ⟨({ wHold with sil := { regions := [newRegion (.ctx 0) 1 0 0 3 4] } } : State), (48 : Master), reach (by decide +kernel), by decide +kernel⟩,
   ⟨(wRun : State), (48 : Master), reach (by decide +kernel), by decide +kernel⟩,
   ⟨(wHold : State), (48 : Master), reach (by decide +kernel), by decide +kernel⟩⟩

/-- The premises of clauses of Obligations.SillageLinesAndControl are met. -/
theorem witness_SillageLinesAndControl_4 :
    ∃ s : State, ∃ m : Master, (s.mayWrite m .SIL_WSWAP 0) ∧ (s.fld SIL_WSWAP_PEND = 1) :=
  ⟨(wSet wHold [(SIL_WSWAP_PEND, 0, 1)] : State), (48 : Master), reach (by decide +kernel), by decide +kernel⟩

/-- The premises of clauses of Obligations.RecordsBuiltAndQueued are met. -/
theorem witness_RecordsBuiltAndQueued_1 :
    (∃ s : State, (s.inRun = true) ∧ (s.on RPT_CTL_EN = true) ∧ (s.nowTick ≤ s.rpt.builtAt)) ∧
    (∃ s : State, ∃ i : Pending, (s.inRun = true) ∧ (s.on RPT_CTL_EN = true) ∧ (s.rpt.builtAt < s.nowTick) ∧ (s.lineLive s.nowTick = true) ∧ (s.rpt.wait = [i]) ∧ (s.nowTick < i.due)) ∧
    (∃ s : State, ∃ i : Pending, (s.inRun = true) ∧ (s.on RPT_CTL_EN = true) ∧ (s.rpt.builtAt < s.nowTick) ∧ (s.lineLive s.nowTick = true) ∧ (s.rpt.wait = [i]) ∧ (i.due ≤ s.nowTick)) ∧
    (∃ s : State, ∃ r : Record, ∃ rs : List Record, (s.inRun = true) ∧ (s.on RPT_CTL_EN = true) ∧ (s.rpt.built = r :: rs) ∧ (r.due ≤ s.nowTick) ∧ (s.rpt.back = []) ∧ (s.forwards = true) ∧ ((s.spanPort s.span.tickPort).st = .up) ∧ (s.on SPAN_NB_MASTER s.span.tickPort = true) ∧ (s.on RPT_CTL_CROP_EN = false)) :=
  ⟨⟨({ wRpt with rpt := { builtAt := 9 } } : State), by decide +kernel⟩,
   ⟨({ wRpt with rpt := { wait := [⟨10, .page 1 0 0 0, false⟩] } } : State), (⟨10, .page 1 0 0 0, false⟩ : Pending), by decide +kernel⟩,
   ⟨({ wRpt with rpt := { wait := [⟨9, .page 1 0 0 0, true⟩] } } : State), (⟨9, .page 1 0 0 0, true⟩ : Pending), by decide +kernel⟩,
   ⟨(wSet { wRpt with spanPorts := [(0, { st := .up })], rpt := { built := [wBuilt] } } [(SPAN_CTL_CONSOL, 0, 1), (SPAN_NB_MASTER, 0, 1)] : State), (wBuilt : Record), ([] : List Record), by decide +kernel⟩⟩

/-- The premises of clauses of Obligations.RecordsBuiltAndQueued are met. -/
theorem witness_RecordsBuiltAndQueued_2 :
    (∃ s : State, ∃ r : Record, ∃ rs : List Record, ∃ b : BlindRec, (s.inRun = true) ∧ (s.on RPT_CTL_EN = true) ∧ (s.rpt.built = r :: rs) ∧ (r.due ≤ s.nowTick) ∧ (s.rpt.back = []) ∧ (s.forwards = false) ∧ (r.blind = some b) ∧ (s.rpt.blind ≠ [] ∨ s.qFull = true)) ∧
    (∃ s : State, ∃ r : Record, ∃ rs : List Record, (s.inRun = true) ∧ (s.on RPT_CTL_EN = true) ∧ (s.rpt.built = r :: rs) ∧ (r.due ≤ s.nowTick) ∧ (s.rpt.back = []) ∧ (s.forwards = false) ∧ (s.qFull = true) ∧ (r.blind = none)) ∧
    (∃ s : State, ∃ r : Record, ∃ rs : List Record, ∃ t : State, ∃ t1 : State, ∃ t2 : State, ∃ w : State, ∃ h : Nat, ∃ cf : Nat, ∃ mf : Nat, ∃ a : Nat, ∃ b : List Byte, (a = poolBase + s.fld RPT_QBASE_OFS + 128 * (s.fld RPT_QWR_SEQ % s.qSize)) ∧ (({ s with rpt := { s.rpt with built := rs } } : State).busWrite 19 a (fit 128 r.bytes) = (rOK, t)) ∧ (t.cropRequest r ((leNat ((r.bytes.drop 106).take 2)).testBit 5) = (h, cf, t1)) ∧ (t1.markAll r = (mf, t2)) ∧ (b = patch (patch (patch r.bytes 4 (leBytes 4 (s.fld RPT_QWR_SEQ))) 108 (leBytes 4 h)) 112 (leBytes 2 (leNat ((r.bytes.drop 112).take 2) + cf + mf))) ∧ (w = ({ t2 with mem := memWrite t2.mem a b } : State).setFld RPT_QWR_SEQ 0 ((s.fld RPT_QWR_SEQ + 1) % 2 ^ 32)) ∧ (s.inRun = true) ∧ (s.on RPT_CTL_EN = true) ∧ (s.rpt.built = r :: rs) ∧ (r.due ≤ s.nowTick) ∧ (s.rpt.back = []) ∧ (s.forwards = false) ∧ (s.qFull = false) ∧ (r.blind ≠ none → s.rpt.blind = []) ∧ (t = { s with rpt := { s.rpt with built := rs }, mem := t.mem })) ∧
    (∃ s : State, ∃ r : Record, ∃ want : Bool, (want = (s.on RPT_CTL_CROP_EN && decide (r.typ < 3) && (s.fld RPT_CROP_TYPES).testBit r.typ)) ∧ (want = false)) :=
  ⟨⟨({ wRpt with rpt := { built := [{ wBuilt with blind := some ⟨3, 0, 0, ⟨1, 1, 0, 0⟩, false, [], false, false, 0, none, false⟩ }], blind := [⟨3, 0, 0, ⟨1, 1, 0, 0⟩, false, [], false, false, 0, none, false⟩] } } : State), ({ wBuilt with blind := some ⟨3, 0, 0, ⟨1, 1, 0, 0⟩, false, [], false, false, 0, none, false⟩ } : Record), ([] : List Record), (⟨3, 0, 0, ⟨1, 1, 0, 0⟩, false, [], false, false, 0, none, false⟩ : BlindRec), by decide +kernel⟩,
   ⟨(wSet { wRpt with rpt := { built := [wBuilt] } } [(RPT_QCFG_QLOG, 0, 0), (RPT_QWR_SEQ, 0, 1)] : State), (wBuilt : Record), ([] : List Record), by decide +kernel⟩,
   ⟨(wGrant { wRpt with rpt := { built := [wBuilt] } } 16 19 : State), (wBuilt : Record), ([] : List Record), _, _, _, _, _, _, _, _, _, rfl, pairOf (by decide +kernel), tripleOf rfl, pairOf rfl, rfl, rfl, by decide +kernel⟩,
   ⟨(wHold : State), (wBuilt : Record), _, rfl, by decide +kernel⟩⟩

/-- The premises of clauses of Obligations.RecordsBuiltAndQueued are met. -/
theorem witness_RecordsBuiltAndQueued_3 :
    (∃ s : State, ∃ r : Record, ∃ seam : Bool, ∃ want : Bool, ∃ mg : Nat, ∃ w : Nat, ∃ n : Nat, ∃ p0 : Nat, ∃ p1 : Nat, ∃ l0 : Int, ∃ l1 : Int, ∃ cut : Bool, ∃ wide : Bool, ∃ long : Bool, ∃ res : Nat, ∃ t : State, (want = (s.on RPT_CTL_CROP_EN && decide (r.typ < 3) && (s.fld RPT_CROP_TYPES).testBit r.typ)) ∧ (mg = s.fld RPT_CROP_MARGIN) ∧ (w = max 1 (s.fld RPT_CLIM_CMAXW)) ∧ (n = max 1 (s.fld RPT_CLIM_CMAXL)) ∧ (p0 = r.xmin - mg) ∧ (p1 = min (r.xmax + mg) s.lastPx) ∧ (l0 = max (r.f - mg) s.jobLine) ∧ (l1 = r.last + mg) ∧ (wide = decide (w < p1 + 1 - p0)) ∧ (long = decide ((n : Int) < l1 - l0 + 1)) ∧ (cut = (seam && (decide (s.lastPx < r.xmax + mg) || decide (r.xmin < mg)))) ∧ ((s.setFld RPT_CHANDLE_HANDLE 0 (if s.fld RPT_CHANDLE_HANDLE = 0xFFFFFFFF then 1 else s.fld RPT_CHANDLE_HANDLE + 1)).busWrite 19 (s.wide .RPT_CIBASE_LO .RPT_CIBASE_HI + 16 * (s.fld RPT_CHANDLE_HANDLE % 65536)) (leBytes 8 0 ++ leBytes 4 0 ++ leBytes 1 1 ++ leBytes 1 0 ++ leBytes 2 0) = (res, t)) ∧ (want = true)) ∧
    (∃ s : State, ∃ r : Record, ∃ k : Nat, ∃ mf : Nat, ∃ w : State, ∃ want : Bool, ∃ a : Int, ∃ f : Int, (s.markAll r = (mf, w)) ∧ (want = (s.on RPT_MK_CTL_EN k && (s.fld RPT_MK_CTL_TYPES k).testBit r.typ && decide (r.typ < 3) && (r.typ == 1 || (if r.cls = 0xFF then s.on RPT_MK_CTL_UNSURE k else (s.fld RPT_MK_CTL_CLS k).testBit r.cls)))) ∧ (a = (if r.typ = 1 ∨ s.fld RPT_MK_CTL_ANCHOR k = 1 then r.last else if s.fld RPT_MK_CTL_ANCHOR k = 2 then (r.f + r.last) / 2 else r.f)) ∧ (f = a + s.fld RPT_MK_DIST_DIST k) ∧ (k < 4) ∧ (want = false)) ∧
    (∃ s : State, ∃ r : Record, ∃ k : Nat, ∃ mf : Nat, ∃ w : State, ∃ want : Bool, ∃ a : Int, ∃ f : Int, (s.markAll r = (mf, w)) ∧ (want = (s.on RPT_MK_CTL_EN k && (s.fld RPT_MK_CTL_TYPES k).testBit r.typ && decide (r.typ < 3) && (r.typ == 1 || (if r.cls = 0xFF then s.on RPT_MK_CTL_UNSURE k else (s.fld RPT_MK_CTL_CLS k).testBit r.cls)))) ∧ (a = (if r.typ = 1 ∨ s.fld RPT_MK_CTL_ANCHOR k = 1 then r.last else if s.fld RPT_MK_CTL_ANCHOR k = 2 then (r.f + r.last) / 2 else r.f)) ∧ (f = a + s.fld RPT_MK_DIST_DIST k) ∧ (k < 4) ∧ (want = true) ∧ (s.pairOk .RPT_MK_DIST k = true) ∧ (f ≤ s.tick.hw)) ∧
    (∃ s : State, ∃ r : Record, ∃ k : Nat, ∃ mf : Nat, ∃ w : State, ∃ want : Bool, ∃ a : Int, ∃ f : Int, (s.markAll r = (mf, w)) ∧ (want = (s.on RPT_MK_CTL_EN k && (s.fld RPT_MK_CTL_TYPES k).testBit r.typ && decide (r.typ < 3) && (r.typ == 1 || (if r.cls = 0xFF then s.on RPT_MK_CTL_UNSURE k else (s.fld RPT_MK_CTL_CLS k).testBit r.cls)))) ∧ (a = (if r.typ = 1 ∨ s.fld RPT_MK_CTL_ANCHOR k = 1 then r.last else if s.fld RPT_MK_CTL_ANCHOR k = 2 then (r.f + r.last) / 2 else r.f)) ∧ (f = a + s.fld RPT_MK_DIST_DIST k) ∧ (k < 4) ∧ (want = true) ∧ (s.pairOk .RPT_MK_DIST k = true) ∧ (s.tick.hw < f) ∧ ((s.marker k).fires.length < 256)) :=
  ⟨⟨(wSet wRpt [(RPT_CTL_CROP_EN, 0, 1), (RPT_CROP_TYPES, 0, 1)] : State), ({ wBuilt with typ := 0 } : Record), (true : Bool), _, _, _, _, _, _, _, _, _, _, _, _, _, rfl, rfl, rfl, rfl, rfl, rfl, rfl, rfl, rfl, rfl, rfl, pairOf rfl, by decide +kernel⟩,
   ⟨(wHold : State), (wBuilt : Record), (3 : Nat), _, _, _, _, _, pairOf rfl, rfl, rfl, rfl, by decide +kernel⟩,
   ⟨(wSet { wRpt with rpt := { marks := [] } } [(RPT_MK_CTL_EN, 3, 1)] : State), ({ wBuilt with typ := 0, f := 9 } : Record), (3 : Nat), _, _, _, _, _, pairOf rfl, rfl, rfl, rfl, by decide +kernel⟩,
   ⟨(wSet { wRpt with rpt := { marks := [(3, { fires := List.replicate 255 ⟨0, 20, 20, none⟩ })] } } [(RPT_MK_CTL_EN, 3, 1)] : State), ({ wBuilt with typ := 0, f := 10 } : Record), (3 : Nat), _, _, _, _, _, pairOf rfl, rfl, rfl, rfl, by decide +kernel⟩⟩

/-- The premises of clauses of Obligations.RecordsBuiltAndQueued are met. -/
theorem witness_RecordsBuiltAndQueued_4 :
    (∃ s : State, ∃ r : Record, ∃ k : Nat, ∃ mf : Nat, ∃ w : State, ∃ want : Bool, ∃ a : Int, ∃ f : Int, (s.markAll r = (mf, w)) ∧ (want = (s.on RPT_MK_CTL_EN k && (s.fld RPT_MK_CTL_TYPES k).testBit r.typ && decide (r.typ < 3) && (r.typ == 1 || (if r.cls = 0xFF then s.on RPT_MK_CTL_UNSURE k else (s.fld RPT_MK_CTL_CLS k).testBit r.cls)))) ∧ (a = (if r.typ = 1 ∨ s.fld RPT_MK_CTL_ANCHOR k = 1 then r.last else if s.fld RPT_MK_CTL_ANCHOR k = 2 then (r.f + r.last) / 2 else r.f)) ∧ (f = a + s.fld RPT_MK_DIST_DIST k) ∧ (k < 4) ∧ (want = true) ∧ (s.pairOk .RPT_MK_DIST k = true) ∧ (s.tick.hw < f) ∧ (256 ≤ (s.marker k).fires.length)) ∧
    (∃ s : State, ∃ r : Record, ∃ k : Nat, ∃ mf : Nat, ∃ w : State, ∃ want : Bool, ∃ a : Int, ∃ f : Int, (s.markAll r = (mf, w)) ∧ (want = (s.on RPT_MK_CTL_EN k && (s.fld RPT_MK_CTL_TYPES k).testBit r.typ && decide (r.typ < 3) && (r.typ == 1 || (if r.cls = 0xFF then s.on RPT_MK_CTL_UNSURE k else (s.fld RPT_MK_CTL_CLS k).testBit r.cls)))) ∧ (a = (if r.typ = 1 ∨ s.fld RPT_MK_CTL_ANCHOR k = 1 then r.last else if s.fld RPT_MK_CTL_ANCHOR k = 2 then (r.f + r.last) / 2 else r.f)) ∧ (f = a + s.fld RPT_MK_DIST_DIST k) ∧ (k < 4) ∧ (want = true) ∧ (s.pairOk .RPT_MK_DIST k = false)) ∧
    (∃ s : State, ∃ r : Record, ∃ w : State, (w = ({ s with rpt := { s.rpt with built := [] } } : State).recOut r) ∧ (s.inHold = true) ∧ (s.on RPT_CTL_EN = true) ∧ (s.rpt.built = [r]) ∧ (s.rpt.wait = []) ∧ (s.rpt.back = []) ∧ (w.rpt.wait = []) ∧ (w.rpt.built = []) ∧ (w.rpt.blind = []) ∧ (w.rpt.back = [])) ∧
    (∃ s : State, (s.live = true) ∧ (s.on RPT_CTL_EN = true) ∧ (∀ k < 4, (s.marker k).off = none) ∧ (∀ p < 2, (s.spanPort p).lost = none)) :=
  ⟨⟨(wSet { wRpt with rpt := { marks := [(3, { fires := List.replicate 256 ⟨0, 20, 20, none⟩ })] } } [(RPT_MK_CTL_EN, 3, 1)] : State), ({ wBuilt with typ := 0, f := 10 } : Record), (3 : Nat), _, _, _, _, _, pairOf rfl, rfl, rfl, rfl, by decide +kernel⟩,
   ⟨(wSet { wRpt with rpt := { marks := [] } } [(RPT_MK_CTL_EN, 3, 1), (RPT_MK_DIST_DIST, 3, 1)] : State), ({ wBuilt with typ := 0, f := 10 } : Record), (3 : Nat), _, _, _, _, _, pairOf rfl, rfl, rfl, rfl, by decide +kernel⟩,
   ⟨(wSet (wGrant { wHold with rpt := { built := [wBuilt] } } 16 19) [(RPT_CTL_EN, 0, 1)] : State), (wBuilt : Record), _, rfl, by decide +kernel⟩,
   ⟨({ wRpt with rpt := { open_ := [⟨1, 2, 3, ⟨0, 4095, 0, 1⟩⟩, ⟨1, 2, 3, ⟨1, 4095, 0, 1⟩⟩] } } : State), by decide +kernel⟩⟩

/-- The premises of clauses of Obligations.RecordsBuiltAndQueued are met. -/
theorem witness_RecordsBuiltAndQueued_5 :
    (∃ s : State, ∃ m : Master, ∃ v : Word, (s.mayWrite m .RPT_QRD 0) ∧ (seqSub (s.fld RPT_QWR_SEQ) v.toNat ≤ 2 ^ s.fld RPT_QCFG_QLOG)) ∧
    (∃ s : State, ∃ m : Master, ∃ v : Word, (s.mayWrite m .RPT_QRD 0) ∧ (2 ^ s.fld RPT_QCFG_QLOG < seqSub (s.fld RPT_QWR_SEQ) v.toNat)) :=
  ⟨⟨(wSet wHold [(RPT_QWR_SEQ, 0, 5), (RPT_QCFG_QLOG, 0, 2)] : State), (48 : Master), (1 : Word), reach (by decide +kernel), by decide +kernel⟩,
   ⟨(wSet wHold [(RPT_QWR_SEQ, 0, 6), (RPT_QCFG_QLOG, 0, 2)] : State), (48 : Master), (1 : Word), reach (by decide +kernel), by decide +kernel⟩⟩

/-- The premises of clauses of Obligations.MarkerChannels are met. -/
theorem witness_MarkerChannels_1 :
    (∃ s : State, ∃ m : Master, ∃ k : Fin 4, (s.mayWrite m .RPT_MK_CTL k)) ∧
    (∃ s : State, ∃ k : Fin 4, (s.live = true) ∧ (∀ x ∈ (s.marker k).fires, s.tick.hw < x.f)) ∧
    (∃ s : State, ∃ k : Fin 4, ∃ f : Int, (s.live = true) ∧ (f ≤ s.tick.hw) ∧ (∃ x ∈ (s.marker k).fires, x.f = f) ∧ (∀ x ∈ (s.marker k).fires, f ≤ x.f) ∧ (∀ x ∈ (s.marker k).fires, x.f = f → x.target = none)) ∧
    (∃ s : State, ∃ k : Fin 4, (s.live = true) ∧ ((s.marker k).high = false)) :=
  ⟨⟨(wHold : State), (48 : Master), (3 : Fin 4), reach (by decide +kernel)⟩,
   ⟨({ wHold with rpt := { marks := [(3, { fires := [⟨0, 5, 5, none⟩] })] }, tick := { hw := 4 } } : State), (3 : Fin 4), by decide +kernel⟩,
   ⟨({ wHold with rpt := { marks := [(3, { fires := [⟨0, 5, 5, none⟩] })] }, tick := { hw := 5 } } : State), (3 : Fin 4), (5 : Int), by decide +kernel⟩,
   ⟨(wHold : State), (3 : Fin 4), by decide +kernel⟩⟩

/-- The premises of clauses of Obligations.MarkerChannels are met. -/
theorem witness_MarkerChannels_2 :
    (∃ s : State, ∃ k : Fin 4, (s.live = true) ∧ ((s.marker k).high = true)) ∧
    (∃ s : State, (s.live = true) ∧ (s.loupeWant = none)) ∧
    (∃ s : State, ∃ f : Firing, ∃ t : State, (s.motRpt (f.target.getD 0) = (true, t)) ∧ (s.live = true) ∧ (s.loupeWant = some f) ∧ (s.rpt.loupeFor ≠ some f.id) ∧ (s.rpt.loupeTry = true ∨ s.mot.st = .idle)) ∧
    (∃ s : State, ∃ f : Firing, ∃ t : State, (s.motRpt (f.target.getD 0) = (false, t)) ∧ (s.live = true) ∧ (s.loupeWant = some f) ∧ (s.rpt.loupeFor ≠ some f.id) ∧ (s.rpt.loupeTry = true ∨ s.mot.st = .idle)) :=
  ⟨⟨({ wHold with rpt := { marks := [(3, { high := true })] } } : State), (3 : Fin 4), by decide +kernel⟩,
   ⟨(wHold : State), by decide +kernel⟩,
   ⟨({ wSet wHold [(RPT_MK_CTL_LOUPE, 0, 1), (MOT_CTL_RPT_EN, 0, 1)] with rpt := { marks := [(0, { fires := [⟨2, 5, 5, some 7⟩] })] }, mot := { st := .idle, homed := true } } : State), (⟨2, 5, 5, some 7⟩ : Firing), (((({ wSet wHold [(RPT_MK_CTL_LOUPE, 0, 1), (MOT_CTL_RPT_EN, 0, 1)] with rpt := { marks := [(0, { fires := [⟨2, 5, 5, some 7⟩] })] }, mot := { st := .idle, homed := true } } : State)).motRpt 7).2 : State), Prod.ext (by decide +kernel) rfl, by decide +kernel⟩,
   ⟨({ wSet wHold [(RPT_MK_CTL_LOUPE, 0, 1)] with rpt := { loupeTry := true, marks := [(0, { fires := [⟨2, 5, 5, some 7⟩] })] } } : State), (⟨2, 5, 5, some 7⟩ : Firing), (((({ wSet wHold [(RPT_MK_CTL_LOUPE, 0, 1)] with rpt := { loupeTry := true, marks := [(0, { fires := [⟨2, 5, 5, some 7⟩] })] } } : State)).motRpt 7).2 : State), Prod.ext (by decide +kernel) rfl, by decide +kernel⟩⟩

/-- The premises of clauses of Obligations.CropCopies are met. -/
theorem witness_CropCopies_1 :
    (∃ s : State, ∃ c : Crop, ∃ cs : List Crop, ∃ r : Nat, ∃ t : State, (({ s with rpt := { s.rpt with crops := cs } } : State).busWrite 19 (s.wide .RPT_CIBASE_LO .RPT_CIBASE_HI + 16 * (c.handle % 65536)) (leBytes 8 0 ++ leBytes 4 0 ++ leBytes 1 3 ++ leBytes 1 4 ++ leBytes 2 0) = (r, t)) ∧ (s.live = true) ∧ (s.rpt.crops = c :: cs) ∧ (s.rpt.copy = none) ∧ (s.on RPT_CTL_EN = true) ∧ ((s.dma (s.fld RPT_CROP_DCH)).st = .idle) ∧ (∀ e < 16, (s.fld SIL_ENGMASK_MASK).testBit e = true → ∃ x, s.rpt.doneLine.find? (·.1 == e) = some x ∧ c.l1 ≤ x.2) ∧ (max 1 (s.fld RPT_CSSIZE_SIZE) * 2 ^ 20 < cropSpace (s.cropMax c))) ∧
    (∃ s : State, ∃ c : Crop, ∃ cs : List Crop, ∃ d : Desc, ∃ ds : List Desc, ∃ ofs : Nat, (s.live = true) ∧ (s.rpt.crops = c :: cs) ∧ (s.rpt.copy = none) ∧ (s.on RPT_CTL_EN = true) ∧ ((s.dma (s.fld RPT_CROP_DCH)).st = .idle) ∧ (∀ e < 16, (s.fld SIL_ENGMASK_MASK).testBit e = true → ∃ x, s.rpt.doneLine.find? (·.1 == e) = some x ∧ c.l1 ≤ x.2) ∧ (cropSpace (s.cropMax c) ≤ max 1 (s.fld RPT_CSSIZE_SIZE) * 2 ^ 20) ∧ (s.rpt.store = []) ∧ (ofs = (if max 1 (s.fld RPT_CSSIZE_SIZE) * 2 ^ 20 < s.rpt.storeAt + cropSpace (s.cropMax c) then 0 else s.rpt.storeAt)) ∧ (s.cropDescs c (s.wide .RPT_CSBASE_LO .RPT_CSBASE_HI + ofs + 32) = d :: ds)) ∧
    (∃ s : State, (s.live = true) ∧ (s.rpt.crops = [])) ∧
    (∃ s : State, ∃ c : Crop, (s.live = true) ∧ (s.rpt.copy = some c) ∧ (s.rpt.failed = false) ∧ ((s.dma (s.fld RPT_CROP_DCH)).st ≠ .idle)) :=
  ⟨⟨(wGrant (wSet { wHold with rpt := { crops := [⟨1, 0, 0, 0, 0, 0x200000, 0, 0, false⟩] } } [(RPT_CTL_EN, 0, 1), (RPT_CIBASE_LO_ADDR_L, 0, 0x14000000), (RPT_CSSIZE_SIZE, 0, 0)]) 16 19 : State), (⟨1, 0, 0, 0, 0, 0x200000, 0, 0, false⟩ : Crop), ([] : List Crop), (rOK : Nat), ((({ ((wGrant (wSet { wHold with rpt := { crops := [⟨1, 0, 0, 0, 0, 0x200000, 0, 0, false⟩] } } [(RPT_CTL_EN, 0, 1), (RPT_CIBASE_LO_ADDR_L, 0, 0x14000000), (RPT_CSSIZE_SIZE, 0, 0)]) 16 19 : State)) with rpt := { ((wGrant (wSet { wHold with rpt := { crops := [⟨1, 0, 0, 0, 0, 0x200000, 0, 0, false⟩] } } [(RPT_CTL_EN, 0, 1), (RPT_CIBASE_LO_ADDR_L, 0, 0x14000000), (RPT_CSSIZE_SIZE, 0, 0)]) 16 19 : State)).rpt with crops := (([] : List Crop)) } } : State).busWrite 19 (((wGrant (wSet { wHold with rpt := { crops := [⟨1, 0, 0, 0, 0, 0x200000, 0, 0, false⟩] } } [(RPT_CTL_EN, 0, 1), (RPT_CIBASE_LO_ADDR_L, 0, 0x14000000), (RPT_CSSIZE_SIZE, 0, 0)]) 16 19 : State)).wide .RPT_CIBASE_LO .RPT_CIBASE_HI + 16 * (((⟨1, 0, 0, 0, 0, 0x200000, 0, 0, false⟩ : Crop)).handle % 65536)) (leBytes 8 0 ++ leBytes 4 0 ++ leBytes 1 3 ++ leBytes 1 4 ++ leBytes 2 0)).2 : State), Prod.ext (by decide +kernel) rfl, by decide +kernel⟩,
   ⟨(wSet { wHold with rpt := { crops := [⟨1, 0, 0, 0, 0, 2, 0, 0, false⟩], storeAt := 0xFFFFF } } [(RPT_CTL_EN, 0, 1), (RPT_CSSIZE_SIZE, 0, 1)] : State), (⟨1, 0, 0, 0, 0, 2, 0, 0, false⟩ : Crop), ([] : List Crop), (((wSet wHold [(RPT_CTL_EN, 0, 1), (RPT_CSSIZE_SIZE, 0, 1)]).cropDescs ⟨1, 0, 0, 0, 0, 2, 0, 0, false⟩ 32).headD ⟨0, 0, 0, 0, 0, 0, 0, 0, 0, 0, 0, 0, false, false, false, none⟩ : Desc), (((wSet wHold [(RPT_CTL_EN, 0, 1), (RPT_CSSIZE_SIZE, 0, 1)]).cropDescs ⟨1, 0, 0, 0, 0, 2, 0, 0, false⟩ 32).tail : List Desc), (0 : Nat), by decide +kernel⟩,
   ⟨(wHold : State), by decide +kernel⟩,
   ⟨(wSet { wHold with rpt := { copy := some ⟨1, 0, 0, 0, 0, 2, 0, 0, false⟩ }, dmas := [(0, { st := .running })] } [(RPT_CROP_DCH, 0, 0)] : State), (⟨1, 0, 0, 0, 0, 2, 0, 0, false⟩ : Crop), by decide +kernel⟩⟩

/-- The premises of clauses of Obligations.CropCopies are met. -/
theorem witness_CropCopies_2 :
    (∃ s : State, ∃ c : Crop, ∃ r : Nat, ∃ t : State, (({ s with rpt := { s.rpt with copy := none, descs := [], failed := false } } : State).busWrite 19 (s.wide .RPT_CIBASE_LO .RPT_CIBASE_HI + 16 * (c.handle % 65536)) (leBytes 8 0 ++ leBytes 4 0 ++ leBytes 1 3 ++ leBytes 1 3 ++ leBytes 2 0) = (r, t)) ∧ (s.live = true) ∧ (s.rpt.copy = some c) ∧ (s.rpt.failed = true)) ∧
    (∃ s : State, ∃ c : Crop, ∃ r : Nat, ∃ e : Nat, ∃ x : Nat × Int, ∃ t : State, (({ s with rpt := { s.rpt with copy := none, descs := [], failed := false } } : State).busWrite 19 (s.wide .RPT_CIBASE_LO .RPT_CIBASE_HI + 16 * (c.handle % 65536)) (leBytes 8 0 ++ leBytes 4 0 ++ leBytes 1 3 ++ leBytes 1 2 ++ leBytes 2 0) = (r, t)) ∧ (s.live = true) ∧ (s.rpt.copy = some c) ∧ (s.rpt.failed = false) ∧ ((s.dma (s.fld RPT_CROP_DCH)).st = .idle) ∧ (s.rpt.descs = []) ∧ (e < 16) ∧ (s.rpt.startLine.find? (·.1 == e) = some x) ∧ (c.l0 + 2 ^ s.fld RPT_CRING_CDLOG ≤ x.2)) ∧
    (∃ s : State, ∃ c : Crop, ∃ r : Nat, ∃ r' : Nat, ∃ t : State, ∃ t' : State, (∀ e < 16, ∀ x : Nat × Int, s.rpt.startLine.find? (·.1 == e) = some x → x.2 < c.l0 + 2 ^ s.fld RPT_CRING_CDLOG) ∧ (({ s with rpt := { s.rpt with copy := none, descs := [], failed := false } } : State).busWrite 19 (s.wide .RPT_CSBASE_LO .RPT_CSBASE_HI + c.ofs) (leBytes 4 c.handle ++ leBytes 4 c.region ++ leBytes 6 (ofSigned 48 c.l0) ++ leBytes 2 c.rows ++ leBytes 4 c.p0 ++ leBytes 2 (c.p1 + 1 - c.p0) ++ leBytes 1 c.comp.toNat ++ leBytes 1 0 ++ leBytes 4 s.rpt.stored ++ leBytes 4 0) = (r, t)) ∧ (({ t with rpt := { t.rpt with store := t.rpt.store ++ [(c.handle, c.ofs, cropSpace s.rpt.stored)], storeAt := c.ofs + cropSpace s.rpt.stored } } : State).busWrite 19 (s.wide .RPT_CIBASE_LO .RPT_CIBASE_HI + 16 * (c.handle % 65536)) (leBytes 8 c.ofs ++ leBytes 4 (cropSpace s.rpt.stored) ++ leBytes 1 2 ++ leBytes 1 0 ++ leBytes 2 0) = (r', t')) ∧ (s.live = true) ∧ (s.rpt.copy = some c) ∧ (s.rpt.failed = false) ∧ ((s.dma (s.fld RPT_CROP_DCH)).st = .idle) ∧ (s.rpt.descs = []) ∧ (t.regs = s.regs)) :=
  ⟨⟨(wSet { wHold with rpt := { copy := some ⟨1, 0, 0, 0, 0, 2, 0, 0, false⟩, failed := true } } [(RPT_CROP_DCH, 0, 0)] : State), (⟨1, 0, 0, 0, 0, 2, 0, 0, false⟩ : Crop), _, _, pairOf rfl, by decide +kernel⟩,
   ⟨(wSet { wHold with rpt := { copy := some ⟨1, 0, 0, 0, 0, 2, 0, 0, false⟩, startLine := [(15, 2)] } } [(RPT_CROP_DCH, 0, 0), (RPT_CRING_CDLOG, 0, 1)] : State), (⟨1, 0, 0, 0, 0, 2, 0, 0, false⟩ : Crop), _, (15 : Nat), ((15, 2) : Nat × Int), _, pairOf rfl, by decide +kernel⟩,
   ⟨(wGrant (wSet { wHold with rpt := { copy := some ⟨1, 0, 0, 0, 0, 2, 0, 0, false⟩, stored := 3 } } [(RPT_CIBASE_LO_ADDR_L, 0, 0x14000000), (RPT_CSBASE_LO_ADDR_L, 0, 0x14100000)]) 16 19 : State), (⟨1, 0, 0, 0, 0, 2, 0, 0, false⟩ : Crop), _, _, _, _, fun _ _ _ h => (nomatch (show (none : Option (Nat × Int)) = some _ from h)), pairOf rfl, pairOf rfl, by decide +kernel⟩⟩

/-- The premises of clauses of Obligations.SpanLinks are met. -/
theorem witness_SpanLinks_1 :
    (∃ s : State, ∃ m : Master, ∃ v : Word, ∃ w : State, (s.mayWrite m .SPAN_CTL 0) ∧ (w = s.answered.regStore .SPAN_CTL 0 (v ||| 1)) ∧ (s.inRun = true)) ∧
    (∃ s : State, ∃ m : Master, ∃ v : Word, ∃ w : State, ∃ i : Nat, (s.mayWrite m .SPAN_CTL 0) ∧ (w = s.answered.regStore .SPAN_CTL 0 (v ||| 1)) ∧ (s.inHold = true) ∧ (w.haloEntries.find? (fun i => w.haloCheck i != rOK) = some i) ∧ (∀ y < 2, (s.spanPort y).st = .off ∧ (s.spanPort y).outbox = [] ∧ (s.spanPort y).sending = [])) ∧
    (∃ s : State, ∃ m : Master, ∃ v : Word, ∃ w : State, (s.mayWrite m .SPAN_CTL 0) ∧ (w = s.answered.regStore .SPAN_CTL 0 (v ||| 1)) ∧ (s.inHold = true) ∧ (∀ i ∈ w.haloEntries, w.haloCheck i = rOK) ∧ (∀ y < 2, (s.spanPort y).st = .off ∧ s.spanLanes y = [])) ∧
    (∃ s : State, ∃ p : Fin 2, (s.live = true) ∧ (s.on SPAN_CTL_EN = true) ∧ (s.spanLanes p ≠ [])) :=
  ⟨⟨(wRun : State), (48 : Master), (1 : Word), (((wRun : State)).answered.regStore .SPAN_CTL 0 (((1 : Word)) ||| 1) : State), reach (by decide +kernel), by decide +kernel⟩,
   ⟨(wSet wHold [(SPAN_HRX_V, 1, 1)] : State), (48 : Master), (1 : Word), _, (1 : Nat), reach (by decide +kernel), rfl, by decide +kernel⟩,
   ⟨(wHold : State), (48 : Master), (1 : Word), (((wHold : State)).answered.regStore .SPAN_CTL 0 (((1 : Word)) ||| 1) : State), reach (by decide +kernel), by decide +kernel⟩,
   ⟨(wSet { wHold with lanes := [(28, { st := .locked })] } [(SPAN_CTL_EN, 0, 1)] : State), (0 : Fin 2), by decide +kernel⟩⟩

/-- The premises of clauses of Obligations.SpanLinks are met. -/
theorem witness_SpanLinks_2 :
    (∃ s : State, ∃ p : Fin 2, (s.live = true) ∧ (s.on SPAN_CTL_EN = false ∨ s.spanLanes p = [])) ∧
    (∃ s : State, ∃ p : Fin 2, ∃ k : Packet, ∃ rest : List Packet, (s.live = true) ∧ ((s.spanPort p).inbox = k :: rest) ∧ (k.ch = 1) ∧ (k.at 0 1 = 1) ∧ ((s.spanPort p).st = .wait) ∧ (∀ y < 2, (s.spanPort y).lost = none) ∧ (s.helloErrs p k = (false, false, false))) ∧
    (∃ s : State, ∃ p : Fin 2, ∃ k : Packet, ∃ rest : List Packet, ∃ a : Bool, ∃ b : Bool, ∃ c : Bool, (s.live = true) ∧ ((s.spanPort p).inbox = k :: rest) ∧ (k.ch = 1) ∧ (k.at 0 1 = 1) ∧ ((s.spanPort p).st = .wait) ∧ (s.helloErrs p k = (a, b, c)) ∧ ((a || b || c) = true)) ∧
    (∃ s : State, ∃ p : Fin 2, ∃ k : Packet, ∃ rest : List Packet, (s.live = true) ∧ ((s.spanPort p).inbox = k :: rest) ∧ (k.ch = 1) ∧ (k.at 0 1 = 1) ∧ ((s.spanPort p).st = .down)) :=
  ⟨⟨(wHold : State), (0 : Fin 2), by decide +kernel⟩,
   ⟨({ wHold with spanPorts := [(0, { st := .wait, inbox := [wPk] })] } : State), (0 : Fin 2), (wPk : Packet), ([] : List Packet), by decide +kernel⟩,
   ⟨({ wHold with spanPorts := [(0, { st := .wait, inbox := [⟨1, [1, 0, 0, 0], 0, []⟩] })] } : State), (0 : Fin 2), (⟨1, [1, 0, 0, 0], 0, []⟩ : Packet), ([] : List Packet), (true : Bool), (false : Bool), (false : Bool), by decide +kernel⟩,
   ⟨({ wHold with spanPorts := [(0, { st := .down, inbox := [wPk, wPk] })] } : State), (0 : Fin 2), (wPk : Packet), ([wPk] : List Packet), by decide +kernel⟩⟩

/-- The premises of clauses of Obligations.SpanLinks are met. -/
theorem witness_SpanLinks_3 :
    (∃ s : State, ∃ p : Fin 2, (s.live = true) ∧ ((s.spanPort p).st ≠ .up)) ∧
    (∃ s : State, ∃ p : Fin 2, (s.live = true) ∧ ((s.spanPort p).st = .up) ∧ (s.spanSeam p = false) ∧ ((s.spanPort (1 - p.val)).st ≠ .up) ∧ ((s.spanPort p).sending = []) ∧ (∀ x ∈ (s.spanPort p).outbox, x.rec_ = [])) ∧
    (∃ s : State, ∃ p : Fin 2, ∃ k : Packet, ∃ rest : List Packet, (s.live = true) ∧ ((s.spanPort p).inbox = k :: rest) ∧ (k.ch = 1) ∧ (k.at 0 1 = 2)) ∧
    (∃ s : State, ∃ p : Fin 2, ∃ k : Packet, ∃ rest : List Packet, ∃ lat : Int, ∃ ofs : Int, (s.live = true) ∧ ((s.spanPort p).inbox = k :: rest) ∧ (k.ch = 1) ∧ (k.at 0 1 = 3) ∧ ((s.spanPort p).echo = [(k.at 1 1, k.at 8 8)]) ∧ (((k.at_ : Int) - k.at 8 8) - ((k.at 24 8 : Int) - k.at 16 8) = 2 * lat) ∧ (((k.at 16 8 : Int) - k.at 8 8) - ((k.at_ : Int) - k.at 24 8) = 2 * ofs) ∧ (s.on SPAN_CTL_MASTER = true)) :=
  ⟨⟨(wHold : State), (0 : Fin 2), by decide +kernel⟩,
   ⟨({ wHold with spanPorts := [(0, { st := .up })] } : State), (0 : Fin 2), by decide +kernel⟩,
   ⟨({ wHold with lanes := [(28, { st := .locked })], spanPorts := [(0, { st := .up, inbox := [⟨1, [2, 9], 0, []⟩] })] } : State), (0 : Fin 2), (⟨1, [2, 9], 0, []⟩ : Packet), ([] : List Packet), by decide +kernel⟩,
   ⟨(wSet { wHold with spanPorts := [(0, { st := .up, inbox := [{ ch := 1, bytes := [3, 7, 0, 0, 0, 0, 0, 0] ++ leBytes 8 100 ++ leBytes 8 125 ++ leBytes 8 125, at_ := 140 }], echo := [(7, 100)] })] } [(SPAN_CTL_MASTER, 0, 1)] : State), (0 : Fin 2), ({ ch := 1, bytes := [3, 7, 0, 0, 0, 0, 0, 0] ++ leBytes 8 100 ++ leBytes 8 125 ++ leBytes 8 125, at_ := 140 } : Packet), ([] : List Packet), (20 : Int), (5 : Int), by decide +kernel⟩⟩

/-- The premises of clauses of Obligations.SpanLinks are met. -/
theorem witness_SpanLinks_4 :
    ∃ s : State, ∃ p : Fin 2, ∃ k : Packet, ∃ rest : List Packet, ∃ lat : Int, ∃ ofs : Int, (s.live = true) ∧ ((s.spanPort p).inbox = k :: rest) ∧ (k.ch = 1) ∧ (k.at 0 1 = 3) ∧ ((s.spanPort p).echo = [(k.at 1 1, k.at 8 8)]) ∧ (((k.at_ : Int) - k.at 8 8) - ((k.at 24 8 : Int) - k.at 16 8) = 2 * lat) ∧ (((k.at 16 8 : Int) - k.at 8 8) - ((k.at_ : Int) - k.at 24 8) = 2 * ofs) ∧ (s.on SPAN_CTL_MASTER = false) ∧ (s.span.tickPort = p.val) ∧ (ofs.natAbs ≤ 20) :=
  ⟨({ wHold with spanPorts := [(0, { st := .up, inbox := [{ ch := 1, bytes := [3, 7, 0, 0, 0, 0, 0, 0] ++ leBytes 8 100 ++ leBytes 8 125 ++ leBytes 8 125, at_ := 140 }], echo := [(7, 100)] })] } : State), (0 : Fin 2), ({ ch := 1, bytes := [3, 7, 0, 0, 0, 0, 0, 0] ++ leBytes 8 100 ++ leBytes 8 125 ++ leBytes 8 125, at_ := 140 } : Packet), ([] : List Packet), (20 : Int), (5 : Int), by decide +kernel⟩

/-- The premises of clauses of Obligations.SpanTicks are met. -/
theorem witness_SpanTicks_1 :
    (∃ s : State, ∃ p : Fin 2, ∃ k : Packet, ∃ rest : List Packet, (s.live = true) ∧ ((s.spanPort p).inbox = k :: rest) ∧ (k.ch = 1) ∧ (k.at 0 1 = 4) ∧ (s.on SPAN_CTL_MASTER = true ∨ packetLine (k.at 8 8) ∈ s.span.seen)) ∧
    (∃ s : State, ∃ p : Fin 2, ∃ k : Packet, ∃ rest : List Packet, (s.live = true) ∧ ((s.spanPort p).inbox = k :: rest) ∧ (k.ch = 1) ∧ (k.at 0 1 = 4) ∧ (s.on SPAN_CTL_MASTER = false) ∧ (packetLine (k.at 8 8) ∉ s.span.seen) ∧ (s.fld TICK_CTL_SRC ≠ 2)) ∧
    (∃ s : State, ∃ p : Fin 2, ∃ k : Packet, ∃ rest : List Packet, (s.live = true) ∧ ((s.spanPort p).inbox = k :: rest) ∧ (k.ch = 1) ∧ (k.at 0 1 = 4) ∧ (s.on SPAN_CTL_MASTER = false) ∧ (packetLine (k.at 8 8) ∉ s.span.seen) ∧ (s.fld TICK_CTL_SRC = 2) ∧ (s.tick.spanFirst = false) ∧ (s.tick.line = packetLine (k.at 8 8)) ∧ (s.span.ticks = []) ∧ (s.span.time ≤ k.at 40 8)) ∧
    (∃ s : State, ∃ p : Fin 2, ∃ k : Packet, ∃ rest : List Packet, (s.live = true) ∧ ((s.spanPort p).inbox = k :: rest) ∧ (k.ch = 1) ∧ (k.at 0 1 = 4) ∧ (s.on SPAN_CTL_MASTER = false) ∧ (packetLine (k.at 8 8) ∉ s.span.seen) ∧ (s.fld TICK_CTL_SRC = 2) ∧ (s.tick.spanFirst = false) ∧ (s.tick.line = packetLine (k.at 8 8)) ∧ (s.span.ticks = []) ∧ (k.at 40 8 < s.span.time)) :=
  ⟨⟨({ wHold with span := { seen := [3] }, spanPorts := [(0, { inbox := [wTickPk] })] } : State), (0 : Fin 2), (wTickPk : Packet), ([] : List Packet), by decide +kernel⟩,
   ⟨({ wHold with spanPorts := [(0, { inbox := [wTickPk] })] } : State), (0 : Fin 2), (wTickPk : Packet), ([] : List Packet), by decide +kernel⟩,
   ⟨(wSet { wHold with tick := { line := 3, spanFirst := false }, spanPorts := [(0, { inbox := [wTickPk] })] } [(TICK_CTL_SRC, 0, 2)] : State), (0 : Fin 2), (wTickPk : Packet), ([] : List Packet), by decide +kernel⟩,
   ⟨(wSet { wHold with spanPorts := [(0, { st := .up, inbox := [{ ch := 1, bytes := [4, 0, 0, 0, 0, 0, 0, 0] ++ leBytes 8 0x30000 ++ leBytes 24 0 ++ leBytes 8 50 }] })], span := { time := 51 }, tick := { line := 3, spanFirst := false } } [(TICK_CTL_SRC, 0, 2)] : State), (0 : Fin 2), ({ ch := 1, bytes := [4, 0, 0, 0, 0, 0, 0, 0] ++ leBytes 8 0x30000 ++ leBytes 24 0 ++ leBytes 8 50 } : Packet), ([] : List Packet), by decide +kernel⟩⟩

/-- The premises of clauses of Obligations.SpanTicks are met. -/
theorem witness_SpanTicks_2 :
    (∃ s : State, ∃ pos : Nat, ∃ t : Nat, ∃ port : Nat, ∃ entry : List Byte, ∃ more : List (Nat × List Byte × Nat × Nat), (s.live = true) ∧ (s.span.ticks = (pos, entry, t, port) :: more) ∧ (s.span.time < t)) ∧
    (∃ s : State, ∃ pos : Nat, ∃ t : Nat, ∃ port : Nat, ∃ entry : List Byte, ∃ more : List (Nat × List Byte × Nat × Nat), (s.live = true) ∧ (s.span.ticks = (pos, entry, t, port) :: more) ∧ (t ≤ s.span.time) ∧ (s.issuing = true) ∧ (s.on SPAN_CTL_MASTER = true ∨ s.on SPAN_STAT_SYNCED = true) ∧ (packetLine pos = s.spanPast + 1)) ∧
    (∃ s : State, ∃ pos : Nat, ∃ t : Nat, ∃ port : Nat, ∃ entry : List Byte, ∃ more : List (Nat × List Byte × Nat × Nat), (s.live = true) ∧ (s.span.ticks = (pos, entry, t, port) :: more) ∧ (t ≤ s.span.time) ∧ (s.issuing = true) ∧ (s.on SPAN_CTL_MASTER = true ∨ s.on SPAN_STAT_SYNCED = true) ∧ (s.spanPast + 1 < packetLine pos)) ∧
    (∃ s : State, ∃ pos : Nat, ∃ t : Nat, ∃ port : Nat, ∃ entry : List Byte, ∃ more : List (Nat × List Byte × Nat × Nat), (s.live = true) ∧ (s.span.ticks = (pos, entry, t, port) :: more) ∧ (t ≤ s.span.time) ∧ (s.issuing = false ∨ packetLine pos ≤ s.spanPast ∨ (s.on SPAN_CTL_MASTER = false ∧ s.on SPAN_STAT_SYNCED = false))) :=
  ⟨⟨({ wHold with span := { ticks := [(0x30000, [], 5, 0)] } } : State), (0x30000 : Nat), (5 : Nat), (0 : Nat), ([] : List Byte), ([] : List (Nat × List Byte × Nat × Nat)), by decide +kernel⟩,
   ⟨(wSet { wRun with tick := { hw := 0 }, span := { time := 5, ticks := [(0x30000, [], 5, 0)], gap := some 2 } } [(TICK_CTL_EN, 0, 1), (SPAN_CTL_MASTER, 0, 1)] : State), (0x30000 : Nat), (5 : Nat), (0 : Nat), ([] : List Byte), ([] : List (Nat × List Byte × Nat × Nat)), by decide +kernel⟩,
   ⟨(wSet { wRun with tick := { hw := 1 }, span := { time := 5, ticks := [(0x30000, [], 5, 0)] } } [(TICK_CTL_EN, 0, 1), (SPAN_CTL_MASTER, 0, 1)] : State), (0x30000 : Nat), (5 : Nat), (0 : Nat), ([] : List Byte), ([] : List (Nat × List Byte × Nat × Nat)), by decide +kernel⟩,
   ⟨(wSet { wRun with tick := { hw := 3 }, span := { time := 5, ticks := [(0x30000, [], 5, 0)] } } [(TICK_CTL_EN, 0, 1), (SPAN_CTL_MASTER, 0, 1)] : State), (0x30000 : Nat), (5 : Nat), (0 : Nat), ([] : List Byte), ([] : List (Nat × List Byte × Nat × Nat)), by decide +kernel⟩⟩

/-- The premises of clauses of Obligations.SpanTicks are met. -/
theorem witness_SpanTicks_3 :
    (∃ s : State, ∃ pos : Nat, ∃ t : Nat, ∃ port : Nat, ∃ entry : List Byte, ∃ more : List (Nat × List Byte × Nat × Nat), (s.live = true) ∧ (s.span.ticks = (pos, entry, t, port) :: more) ∧ (t ≤ s.span.time) ∧ (s.issuing = true) ∧ (s.on SPAN_CTL_MASTER = false) ∧ (s.on SPAN_STAT_SYNCED = true) ∧ (s.spanPast + 1 < packetLine pos)) ∧
    (∃ s : State, ∃ pos : Nat, ∃ t : Nat, ∃ port : Nat, ∃ entry : List Byte, ∃ more : List (Nat × List Byte × Nat × Nat), (s.live = true) ∧ (s.span.ticks = (pos, entry, t, port) :: more) ∧ (packetLine pos ≤ s.spanPast + 1)) ∧
    (∃ s : State, (s.live = true) ∧ (s.on SPAN_CTL_EN = true) ∧ (s.on SPAN_CTL_TSYNC = true) ∧ (s.on SPAN_CTL_MASTER = false)) ∧
    (∃ s : State, (s.live = true) ∧ (s.on SPAN_CTL_TSYNC = false)) :=
  ⟨⟨(wSet { wRun with tick := { hw := 1 }, span := { time := 5, ticks := [(0x30000, [], 5, 0)] } } [(TICK_CTL_EN, 0, 1), (SPAN_STAT_SYNCED, 0, 1)] : State), (0x30000 : Nat), (5 : Nat), (0 : Nat), ([] : List Byte), ([] : List (Nat × List Byte × Nat × Nat)), by decide +kernel⟩,
   ⟨(wSet { wHold with tick := { hw := 2 }, span := { time := 5, ticks := [(0x30000, [], 5, 0)] } } [] : State), (0x30000 : Nat), (5 : Nat), (0 : Nat), ([] : List Byte), ([] : List (Nat × List Byte × Nat × Nat)), by decide +kernel⟩,
   ⟨(wSet wHold [(SPAN_CTL_EN, 0, 1), (SPAN_CTL_TSYNC, 0, 1)] : State), by decide +kernel⟩,
   ⟨(wHold : State), by decide +kernel⟩⟩

/-- The premises of clauses of Obligations.SpanHaloSeamAndRecords are met. -/
theorem witness_SpanHaloSeamAndRecords_1 :
    (∃ s : State, ∃ p : Fin 2, ∃ x : Packet, ∃ rest : List Packet, ∃ k : Fin 2, ∃ hdr : List Byte, ∃ pixels : List Byte, ∃ r : Ring, ∃ t : State, ∃ u : State, ((s.updSpan p fun q => { q with inbox := rest }).busWrite 37 (stripeBase (s.fld SPAN_HRX_ENG (2 * p.val + k.val)) + r.slotOfs (r.slotOf (toSigned 48 (hdrLine (fit 32 hdr))))) (pixels.take r.pitch) = (rOK, t)) ∧ (t.busWrite 37 (stripeBase (s.fld SPAN_HRX_ENG (2 * p.val + k.val)) + r.hdrOfs (r.slotOf (toSigned 48 (hdrLine (fit 32 hdr))))) (fit 32 hdr) = (rOK, u)) ∧ (s.live = true) ∧ ((s.spanPort p).inbox = x :: rest) ∧ (x.ch = 3) ∧ ((s.spanPort p).st = .up) ∧ (s.on SPAN_HRX_V (2 * p.val + k.val) = true) ∧ (s.engRing (s.fld SPAN_HRX_ENG (2 * p.val + k.val)) (s.fld SPAN_HRX_RING (2 * p.val + k.val)) = some r) ∧ (r.kind = 2) ∧ ((((fit 32 hdr).drop 11).take 1) = [0])) ∧
    (∃ s : State, ∃ p : Fin 2, ∃ x : Packet, ∃ rest : List Packet, ∃ k : Fin 2, ∃ hdr : List Byte, ∃ r : Ring, ∃ u : State, ((s.updSpan p fun q => { q with inbox := rest }).busWrite 37 (stripeBase (s.fld SPAN_HRX_ENG (2 * p.val + k.val)) + r.hdrOfs (r.slotOf (toSigned 48 (hdrLine (fit 32 hdr))))) (fit 32 hdr) = (rOK, u)) ∧ (s.live = true) ∧ ((s.spanPort p).inbox = x :: rest) ∧ (x.ch = 3) ∧ ((s.spanPort p).st = .up) ∧ (s.on SPAN_HRX_V (2 * p.val + k.val) = true) ∧ (s.engRing (s.fld SPAN_HRX_ENG (2 * p.val + k.val)) (s.fld SPAN_HRX_RING (2 * p.val + k.val)) = some r) ∧ (r.kind = 2) ∧ ((((fit 32 hdr).drop 11).take 1) = [1])) ∧
    (∃ s : State, ∃ p : Fin 2, ∃ x : Packet, ∃ rest : List Packet, (s.live = true) ∧ ((s.spanPort p).inbox = x :: rest) ∧ (x.ch = 2) ∧ (s.silSpan = true) ∧ (s.spanSeam p = true) ∧ ((s.spanPort p).st = .up)) ∧
    (∃ s : State, ∃ p : Fin 2, ∃ x : Packet, ∃ rest : List Packet, ∃ n : Int, (s.live = true) ∧ ((s.spanPort p).inbox = x :: rest) ∧ (s.inRun = true) ∧ (s.on SIL_CTL_EN = true) ∧ (s.silNext = some n) ∧ (p.val ∈ s.silSeamWait n) ∧ (n + s.depth + 1 + (max 2 (s.fld SPAN_SEAMTO_SEAMTO) : Nat) ≤ s.nowTick)) :=
  ⟨⟨(wSet (wGrant { wHold with spanPorts := [(0, { st := .up, inbox := [⟨3, [], 0, []⟩] })], engs := [(0, { prog := some { wProg with rings := [⟨0, 1, 1, 2, 0, false, 0x1000, 0, 0, 0, 0⟩] } })] } 0 37) [(SPAN_HRX_V, 0, 1)] : State), (0 : Fin 2), (⟨3, [], 0, []⟩ : Packet), ([] : List Packet), (0 : Fin 2), ([] : List Byte), ([5] : List Byte), (⟨0, 1, 1, 2, 0, false, 0x1000, 0, 0, 0, 0⟩ : Ring), (((((wSet (wGrant { wHold with spanPorts := [(0, { st := .up, inbox := [⟨3, [], 0, []⟩] })], engs := [(0, { prog := some { wProg with rings := [⟨0, 1, 1, 2, 0, false, 0x1000, 0, 0, 0, 0⟩] } })] } 0 37) [(SPAN_HRX_V, 0, 1)] : State)).updSpan ((0 : Fin 2)) fun q => { q with inbox := (([] : List Packet)) }).busWrite 37 (stripeBase (((wSet (wGrant { wHold with spanPorts := [(0, { st := .up, inbox := [⟨3, [], 0, []⟩] })], engs := [(0, { prog := some { wProg with rings := [⟨0, 1, 1, 2, 0, false, 0x1000, 0, 0, 0, 0⟩] } })] } 0 37) [(SPAN_HRX_V, 0, 1)] : State)).fld SPAN_HRX_ENG (2 * ((0 : Fin 2)).val + ((0 : Fin 2)).val)) + ((⟨0, 1, 1, 2, 0, false, 0x1000, 0, 0, 0, 0⟩ : Ring)).slotOfs (((⟨0, 1, 1, 2, 0, false, 0x1000, 0, 0, 0, 0⟩ : Ring)).slotOf (toSigned 48 (hdrLine (fit 32 (([] : List Byte))))))) ((([5] : List Byte)).take ((⟨0, 1, 1, 2, 0, false, 0x1000, 0, 0, 0, 0⟩ : Ring)).pitch)).2 : State), ((((((((wSet (wGrant { wHold with spanPorts := [(0, { st := .up, inbox := [⟨3, [], 0, []⟩] })], engs := [(0, { prog := some { wProg with rings := [⟨0, 1, 1, 2, 0, false, 0x1000, 0, 0, 0, 0⟩] } })] } 0 37) [(SPAN_HRX_V, 0, 1)] : State)).updSpan ((0 : Fin 2)) fun q => { q with inbox := (([] : List Packet)) }).busWrite 37 (stripeBase (((wSet (wGrant { wHold with spanPorts := [(0, { st := .up, inbox := [⟨3, [], 0, []⟩] })], engs := [(0, { prog := some { wProg with rings := [⟨0, 1, 1, 2, 0, false, 0x1000, 0, 0, 0, 0⟩] } })] } 0 37) [(SPAN_HRX_V, 0, 1)] : State)).fld SPAN_HRX_ENG (2 * ((0 : Fin 2)).val + ((0 : Fin 2)).val)) + ((⟨0, 1, 1, 2, 0, false, 0x1000, 0, 0, 0, 0⟩ : Ring)).slotOfs (((⟨0, 1, 1, 2, 0, false, 0x1000, 0, 0, 0, 0⟩ : Ring)).slotOf (toSigned 48 (hdrLine (fit 32 (([] : List Byte))))))) ((([5] : List Byte)).take ((⟨0, 1, 1, 2, 0, false, 0x1000, 0, 0, 0, 0⟩ : Ring)).pitch)).2 : State)).busWrite 37 (stripeBase (((wSet (wGrant { wHold with spanPorts := [(0, { st := .up, inbox := [⟨3, [], 0, []⟩] })], engs := [(0, { prog := some { wProg with rings := [⟨0, 1, 1, 2, 0, false, 0x1000, 0, 0, 0, 0⟩] } })] } 0 37) [(SPAN_HRX_V, 0, 1)] : State)).fld SPAN_HRX_ENG (2 * ((0 : Fin 2)).val + ((0 : Fin 2)).val)) + ((⟨0, 1, 1, 2, 0, false, 0x1000, 0, 0, 0, 0⟩ : Ring)).hdrOfs (((⟨0, 1, 1, 2, 0, false, 0x1000, 0, 0, 0, 0⟩ : Ring)).slotOf (toSigned 48 (hdrLine (fit 32 (([] : List Byte))))))) (fit 32 (([] : List Byte)))).2 : State), Prod.ext (by decide +kernel) rfl, Prod.ext (by decide +kernel) rfl, by decide +kernel⟩,
   ⟨(wSet (wGrant { wHold with spanPorts := [(0, { st := .up, inbox := [⟨3, [], 0, []⟩] })], engs := [(0, { prog := some { wProg with rings := [⟨0, 1, 1, 2, 0, false, 0x1000, 0, 0, 0, 0⟩] } })] } 0 37) [(SPAN_HRX_V, 0, 1)] : State), (0 : Fin 2), (⟨3, [], 0, []⟩ : Packet), ([] : List Packet), (0 : Fin 2), (List.replicate 11 0 ++ [1] : List Byte), (⟨0, 1, 1, 2, 0, false, 0x1000, 0, 0, 0, 0⟩ : Ring), _, pairOf (by decide +kernel), by decide +kernel⟩,
   ⟨(wSet { wHold with spanPorts := [(0, { st := .up, inbox := [⟨2, [], 0, []⟩] })] } [(SIL_CTL_SPAN_EN, 0, 1), (SPAN_CTL_SEAM0, 0, 1)] : State), (0 : Fin 2), (⟨2, [], 0, []⟩ : Packet), ([] : List Packet), by decide +kernel⟩,
   ⟨(wSet { wRun with tick := { ticked := [(1, 9)], hw := 3000 }, sil := { lastLine := 2 }, spanPorts := [(0, { st := .up, inbox := [⟨2, [], 0, []⟩] })] } [(SIL_CTL_EN, 0, 1), (SIL_CTL_SPAN_EN, 0, 1), (SPAN_CTL_SEAM0, 0, 1)] : State), (0 : Fin 2), (⟨2, [], 0, []⟩ : Packet), ([] : List Packet), (3 : Int), by decide +kernel⟩⟩

/-- The premises of clauses of Obligations.SpanHaloSeamAndRecords are met. -/
theorem witness_SpanHaloSeamAndRecords_2 :
    (∃ s : State, ∃ p : Fin 2, ∃ x : Packet, ∃ rest : List Packet, ∃ n : Int, (s.live = true) ∧ ((s.spanPort p).inbox = x :: rest) ∧ (s.inRun = true) ∧ (s.on SIL_CTL_EN = true) ∧ (s.silNext = some n) ∧ (p.val ∈ s.silSeamWait n) ∧ (s.nowTick < n + s.depth + 1 + (max 2 (s.fld SPAN_SEAMTO_SEAMTO) : Nat))) ∧
    (∃ s : State, ∃ p : Fin 2, ∃ x : Packet, ∃ rest : List Packet, (s.live = true) ∧ ((s.spanPort p).inbox = x :: rest) ∧ (x.ch = 4) ∧ (s.on SPAN_CTL_MASTER = false) ∧ ((s.spanPort (1 - p.val)).st = .up) ∧ (s.on SPAN_NB_MASTER (1 - p.val) = true)) ∧
    (∃ s : State, ∃ p : Fin 2, ∃ x : Packet, ∃ rest : List Packet, ∃ b : List Byte, (s.live = true) ∧ ((s.spanPort p).inbox = x :: rest) ∧ (x.ch = 4) ∧ (s.on SPAN_CTL_MASTER = false) ∧ ((s.spanPort (1 - p.val)).st ≠ .up) ∧ (s.qFull = true) ∧ ((s.recordOf b).blind = none)) ∧
    (∃ s : State, ∃ p : Fin 2, ∃ x : Packet, ∃ rest : List Packet, ∃ b : List Byte, (s.live = true) ∧ ((s.spanPort p).inbox = x :: rest) ∧ (x.ch = 4) ∧ (s.on SPAN_CTL_MASTER = true) ∧ (s.qFull = true) ∧ ((s.recordOf b).blind = none)) :=
  ⟨⟨(wSet { wRun with tick := { ticked := [(1, 9)], hw := 3 }, sil := { lastLine := 2 }, spanPorts := [(0, { st := .up, inbox := [⟨2, [], 0, []⟩] })] } [(SIL_CTL_EN, 0, 1), (SIL_CTL_SPAN_EN, 0, 1), (SPAN_CTL_SEAM0, 0, 1)] : State), (0 : Fin 2), (⟨2, [], 0, []⟩ : Packet), ([] : List Packet), (3 : Int), by decide +kernel⟩,
   ⟨(wSet { wHold with spanPorts := [(0, { st := .up, inbox := [⟨4, [5, 6], 0, []⟩] }), (1, { st := .up })] } [(SPAN_NB_MASTER, 1, 1)] : State), (0 : Fin 2), (⟨4, [5, 6], 0, []⟩ : Packet), ([] : List Packet), by decide +kernel⟩,
   ⟨(wSet { wHold with spanPorts := [(0, { st := .up, inbox := [⟨4, [5, 6], 0, []⟩] })] } [(RPT_QWR_SEQ, 0, 1), (RPT_QCFG_QLOG, 0, 0)] : State), (0 : Fin 2), (⟨4, [5, 6], 0, []⟩ : Packet), ([] : List Packet), ([4] : List Byte), by decide +kernel⟩,
   ⟨(wSet { wHold with spanPorts := [(0, { st := .up, inbox := [⟨4, [5, 6], 0, []⟩] })] } [(SPAN_CTL_MASTER, 0, 1), (RPT_QWR_SEQ, 0, 1), (RPT_QCFG_QLOG, 0, 0)] : State), (0 : Fin 2), (⟨4, [5, 6], 0, []⟩ : Packet), ([] : List Packet), ([4] : List Byte), by decide +kernel⟩⟩

/-- The premises of clauses of Obligations.BlotterTests are met. -/
theorem witness_BlotterTests_1 :
    (∃ s : State, ∃ m : Master, (s.mayWrite m .MEM_BLT_CTL 0) ∧ (s.on MEM_BLT_RES_BUSY = true)) ∧
    (∃ s : State, ∃ m : Master, (s.mayWrite m .MEM_BLT_CTL 0) ∧ (s.on MEM_BLT_RES_BUSY = false) ∧ (s.fld MEM_BLT_SB_SB = 0) ∧ (s.fld MEM_BLT_SP_SP = 0)) ∧
    (∃ s : State, ∃ m : Master, ∃ v : Word, (s.mayWrite m .MEM_BLT_CTL 0) ∧ (s.on MEM_BLT_RES_BUSY = false) ∧ (s.fld MEM_BLT_SB_SB ≠ 0 ∨ s.fld MEM_BLT_SP_SP ≠ 0) ∧ (v.getLsbD 1 = true ∨ s.bltMay m (s.fld MEM_BLT_SB_SB) (s.fld MEM_BLT_SP_SP) = true)) ∧
    (∃ s : State, ∃ m : Master, ∃ v : Word, (s.mayWrite m .MEM_BLT_CTL 0) ∧ (s.on MEM_BLT_RES_BUSY = false) ∧ (s.fld MEM_BLT_SB_SB ≠ 0 ∨ s.fld MEM_BLT_SP_SP ≠ 0) ∧ (v.getLsbD 1 = false) ∧ (s.bltMay m (s.fld MEM_BLT_SB_SB) (s.fld MEM_BLT_SP_SP) = false)) :=
  ⟨⟨(wSet wHold [(MEM_BLT_RES_BUSY, 0, 1)] : State), (48 : Master), reach (by decide +kernel), by decide +kernel⟩,
   ⟨(wHold : State), (48 : Master), reach (by decide +kernel), by decide +kernel⟩,
   ⟨(wSet wHold [(MEM_BLT_SB_SB, 0, 1)] : State), (48 : Master), (6 : Word), reach (by decide +kernel), by decide +kernel⟩,
   ⟨(wSet wRun [(MEM_BLT_SB_SB, 0, 1)] : State), (48 : Master), (0 : Word), reach (by decide +kernel), by decide +kernel⟩⟩

/-- The premises of clauses of Obligations.BlotterTests are met. -/
theorem witness_BlotterTests_2 :
    (∃ s : State, (s.live = true) ∧ (s.blt = none)) ∧
    (∃ s : State, ∃ t : BltTest, ∃ b : Nat, ∃ r : Nat, (s.live = true) ∧ (s.blt = some t) ∧ (b < 48) ∧ (t.has b = true) ∧ (r < bankRows b) ∧ (s.fld MEM_RPR_USED b < 4)) ∧
    (∃ s : State, ∃ t : BltTest, ∃ b : Nat, ∃ r : Nat, (s.live = true) ∧ (s.blt = some t) ∧ (b < 48) ∧ (t.has b = true) ∧ (r < bankRows b) ∧ (4 ≤ s.fld MEM_RPR_USED b)) ∧
    (∃ s : State, ∃ t : BltTest, ∃ l : List (Nat × Nat), ∃ rows : List (Nat × Nat), (rows = l.filter (fun x => decide (x.1 < 48) && t.has x.1 && decide (x.2 < bankRows x.1))) ∧ (s.live = true) ∧ (s.blt = some t)) :=
  ⟨⟨(wHold : State), by decide +kernel⟩,
   ⟨(wSet { wHold with blt := some ⟨false, 0, 1, 1, 0⟩ } [(MEM_RPR_USED, 16, 3)] : State), (⟨false, 0, 1, 1, 0⟩ : BltTest), (16 : Nat), (511 : Nat), by decide +kernel⟩,
   ⟨(wSet { wHold with blt := some ⟨false, 0, 1, 1, 0⟩ } [(MEM_RPR_USED, 16, 4)] : State), (⟨false, 0, 1, 1, 0⟩ : BltTest), (16 : Nat), (511 : Nat), by decide +kernel⟩,
   ⟨({ wHold with blt := some ⟨false, 0, 1, 0, 0⟩ } : State), (⟨false, 0, 1, 0, 0⟩ : BltTest), ([] : List (Nat × Nat)), _, rfl, by decide +kernel⟩⟩

/-- The premises of clauses of Obligations.CxlPorts are met. -/
theorem witness_CxlPorts_1 :
    (∃ s : State, ∃ m : Master, ∃ p : Fin 4, (s.mayWrite m .CXL_P_CTL p) ∧ (s.inHold = true) ∧ (s.on CXL_P_CTL_EN p = false)) ∧
    (∃ s : State, ∃ p : Fin 4, (s.live = true) ∧ ((s.cxlp p).st = .training)) ∧
    (∃ s : State, ∃ m : Master, ∃ p : Fin 4, (s.mayWrite m .CXL_P_CFGA p)) ∧
    (∃ s : State, ∃ p : Fin 4, (s.live = true) ∧ (s.fld CXL_P_CFGRES_BUSY p = 0)) :=
  ⟨⟨(wHold : State), (48 : Master), (3 : Fin 4), reach (by decide +kernel), by decide +kernel⟩,
   ⟨({ wHold with cxl := [(3, { st := .training })] } : State), (3 : Fin 4), by decide +kernel⟩,
   ⟨(wHold : State), (48 : Master), (3 : Fin 4), reach (by decide +kernel)⟩,
   ⟨(wHold : State), (3 : Fin 4), by decide +kernel⟩⟩

/-- The premises of clauses of Obligations.CxlPorts are met. -/
theorem witness_CxlPorts_2 :
    (∃ s : State, ∃ p : Fin 4, (s.live = true) ∧ (s.fld CXL_P_CFGRES_BUSY p = 1)) ∧
    (∃ s : State, ∃ p : Fin 4, (s.live = true) ∧ ((s.cxlp p).st = .up ∨ (s.cxlp p).st = .l1)) ∧
    (∃ s : State, ∃ p : Fin 4, (s.inHold = true) ∧ (s.on CXL_P_CTL_L1_EN p = true) ∧ ((s.cxlp p).st = .up) ∧ ((s.cxlp p).outst = [])) ∧
    (∃ s : State, (s.inRun = true)) :=
  ⟨⟨(wSet wHold [(CXL_P_CFGRES_BUSY, 3, 1)] : State), (3 : Fin 4), by decide +kernel⟩,
   ⟨({ wHold with cxl := [(3, { st := .l1 })] } : State), (3 : Fin 4), by decide +kernel⟩,
   ⟨(wSet { wHold with cxl := [(3, { st := .up })] } [(CXL_P_CTL_L1_EN, 3, 1)] : State), (3 : Fin 4), by decide +kernel⟩,
   ⟨(wRun : State), by decide +kernel⟩⟩

/-- The premises of clauses of Obligations.CxlPorts are met. -/
theorem witness_CxlPorts_3 :
    (∃ s : State, ∃ m : Master, ∃ p : Fin 4, ∃ v : Word, ∃ w : State, (s.mayWrite m .CXL_DEC_CTL p) ∧ (s.inHold = true) ∧ (w = s.answered.regStore .CXL_DEC_CTL p (v ||| 1)) ∧ (w.decCheck p = rOK)) ∧
    (∃ s : State, ∃ m : Master, ∃ p : Fin 4, ∃ v : Word, ∃ w : State, (s.mayWrite m .CXL_DEC_CTL p) ∧ (s.inHold = true) ∧ (w = s.answered.regStore .CXL_DEC_CTL p (v ||| 1)) ∧ (w.decCheck p ≠ rOK)) ∧
    (∃ s : State, ∃ m : Master, ∃ p : Fin 4, (s.mayWrite m .CXL_P_CMD p) ∧ ((s.cxlp p).frozen = true) ∧ ((s.cxlp p).logrd = true) ∧ ((s.cxlp p).st = .up)) ∧
    (∃ s : State, ∃ m : Master, ∃ p : Fin 4, (s.mayWrite m .CXL_P_CMD p) ∧ (¬((s.cxlp p).frozen = true ∧ (s.cxlp p).logrd = true ∧ (s.cxlp p).st = .up))) :=
  ⟨⟨(wSet wHold [(CXL_DEC_BASE_BASE, 3, 0x100), (CXL_DEC_SIZE_SIZE, 3, 1)] : State), (48 : Master), (3 : Fin 4), (0 : Word), (((wSet wHold [(CXL_DEC_BASE_BASE, 3, 0x100), (CXL_DEC_SIZE_SIZE, 3, 1)] : State)).answered.regStore .CXL_DEC_CTL ((3 : Fin 4)) (((0 : Word)) ||| 1) : State), reach (by decide +kernel), by decide +kernel⟩,
   ⟨(wHold : State), (48 : Master), (3 : Fin 4), (0 : Word), (((wHold : State)).answered.regStore .CXL_DEC_CTL ((3 : Fin 4)) (((0 : Word)) ||| 1) : State), reach (by decide +kernel), by decide +kernel⟩,
   ⟨({ wHold with cxl := [(3, { st := .up, frozen := true, logrd := true })] } : State), (48 : Master), (3 : Fin 4), reach (by decide +kernel), by decide +kernel⟩,
   ⟨({ wHold with cxl := [(3, { st := .up, frozen := true, logrd := false })] } : State), (48 : Master), (3 : Fin 4), reach (by decide +kernel), by decide +kernel⟩⟩

/-- The premises of clauses of Obligations.CxlPorts are met. -/
theorem witness_CxlPorts_4 :
    (∃ s : State, ∃ m : Master, ∃ p : Fin 4, (s.mayRead m .CXL_P_LOG_INFO p)) ∧
    (∃ s : State, ∃ m : Master, ∃ p : Fin 4, ∃ i : Fin 8, (s.mayWrite m .CXL_P_PL_LO (p.val * 8 + i.val))) ∧
    (∃ s : State, ∃ p : Fin 4, (s.live = true) ∧ ((s.cxlp p).pme = false)) ∧
    (∃ s : State, ∃ p : Fin 4, (s.live = true) ∧ ((s.cxlp p).pme = true) ∧ (∃ y < 4, y ≠ p.val ∧ (s.cxlp y).pme = true)) :=
  ⟨⟨(wHold : State), (48 : Master), (3 : Fin 4), reach (by decide +kernel)⟩,
   ⟨(wSet wHold [(CXL_P_PL_LO_V, 31, 1)] : State), (48 : Master), (3 : Fin 4), (7 : Fin 8), reach (by decide +kernel)⟩,
   ⟨(wHold : State), (3 : Fin 4), by decide +kernel⟩,
   ⟨({ wHold with cxl := [(3, { pme := true, st := .up }), (1, { pme := true, st := .up })] } : State), (3 : Fin 4), by decide +kernel⟩⟩

/-- The premises of clauses of Obligations.CxlPorts are met. -/
theorem witness_CxlPorts_5 :
    ∃ s : State, ∃ p : Fin 4, (s.live = true) ∧ ((s.cxlp p).pme = true) ∧ (∀ y < 4, y ≠ p.val → (s.cxlp y).pme = false) ∧ (s.pwr.entering = true) :=
  ⟨({ wHold with cxl := [(3, { pme := true, st := .up })], pwr := { wHold.pwr with entering := true } } : State), (3 : Fin 4), by decide +kernel⟩

/-- The premises of clauses of Obligations.CxlErrors are met. -/
theorem witness_CxlErrors_1 :
    (∃ s : State, ∃ p : Fin 4, ∃ r : CxlReq, ∃ rs : List CxlReq, ∃ w : State, (w = (if r.write then (s.updCxl p fun c => { c with outst := rs }).poisonClear p r.addr r.bytes else s.updCxl p fun c => { c with outst := rs })) ∧ (s.live = true) ∧ ((s.cxlp p).frozen = false) ∧ ((s.cxlp p).outst = r :: rs) ∧ (∀ x ∈ rs, x.undo = []) ∧ (r.master < 16 ∨ r.master = 36 ∨ r.tag = none)) ∧
    (∃ s : State, ∃ p : Fin 4, ∃ r : CxlReq, ∃ rs : List CxlReq, ∃ w : State, ∃ f : RowFill, ∃ fs : List RowFill, (w = (if r.write then (s.updCxl p fun c => { c with outst := rs }).poisonClear p r.addr r.bytes else s.updCxl p fun c => { c with outst := rs })) ∧ (s.live = true) ∧ ((s.cxlp p).frozen = false) ∧ ((s.cxlp p).outst = r :: rs) ∧ (∀ x ∈ rs, x.undo = []) ∧ (r.master = 17) ∧ (r.tag = some (f.hdrAt, f.row)) ∧ (f.hdrAt ≠ 9) ∧ (w.tagWaits 17 (· == (f.hdrAt, f.row)) = false) ∧ (w.ref.fills = f :: fs)) ∧
    (∃ s : State, ∃ p : Fin 4, ∃ r : CxlReq, ∃ rs : List CxlReq, ∃ k : Fin 3, (s.live = true) ∧ ((s.cxlp p).frozen = false) ∧ ((s.cxlp p).outst = r :: rs) ∧ (∀ x ∈ rs, x.undo = []) ∧ (k ≠ 0)) ∧
    (∃ s : State, ∃ p : Fin 4, ∃ r : CxlReq, ∃ rs : List CxlReq, ∃ l : Nat, (s.live = true) ∧ ((s.cxlp p).frozen = false) ∧ ((s.cxlp p).outst = r :: rs) ∧ (∀ x ∈ rs, x.undo = []) ∧ (r.master < 16) ∧ (r.tag = some (1, l))) :=
  ⟨⟨({ wHold with cxl := [(3, { st := .up, outst := [⟨0x80, 15, false, 1, 64, 0, 0, some (1, 7), 0, []⟩] })] } : State), (3 : Fin 4), (⟨0x80, 15, false, 1, 64, 0, 0, some (1, 7), 0, []⟩ : CxlReq), ([] : List CxlReq), _, rfl, by decide +kernel⟩,
   ⟨({ wHold with cxl := [(3, { st := .up, outst := [⟨0x80, 17, false, 1, 64, 0, 0, some (0x10001000, 7), 0, []⟩] })], ref := { fills := [⟨0, 1, 7, 0x10000000, 0x10001000, [], []⟩] } } : State), (3 : Fin 4), (⟨0x80, 17, false, 1, 64, 0, 0, some (0x10001000, 7), 0, []⟩ : CxlReq), ([] : List CxlReq), _, (⟨0, 1, 7, 0x10000000, 0x10001000, [], []⟩ : RowFill), ([] : List RowFill), rfl, by decide +kernel⟩,
   ⟨({ wHold with cxl := [(3, { st := .up, outst := [⟨0x80, 42, false, 1, 64, 0, 0, none, 0, []⟩] })] } : State), (3 : Fin 4), (⟨0x80, 42, false, 1, 64, 0, 0, none, 0, []⟩ : CxlReq), ([] : List CxlReq), (1 : Fin 3), by decide +kernel⟩,
   ⟨({ wHold with cxl := [(3, { st := .up, outst := [⟨0x80, 15, true, 1, 64, 0, 0, some (1, 5), 0, []⟩] })] } : State), (3 : Fin 4), (⟨0x80, 15, true, 1, 64, 0, 0, some (1, 5), 0, []⟩ : CxlReq), ([] : List CxlReq), (5 : Nat), by decide +kernel⟩⟩

/-- The premises of clauses of Obligations.CxlErrors are met. -/
theorem witness_CxlErrors_2 :
    (∃ s : State, ∃ p : Fin 4, ∃ r : CxlReq, ∃ rs : List CxlReq, (∀ l : Nat, r.tag ≠ some (1, l)) ∧ (s.live = true) ∧ ((s.cxlp p).frozen = false) ∧ ((s.cxlp p).outst = r :: rs) ∧ (∀ x ∈ rs, x.undo = []) ∧ (r.master < 16)) ∧
    (∃ s : State, ∃ p : Fin 4, ∃ r : CxlReq, ∃ rs : List CxlReq, (rs = []) ∧ (s.live = true) ∧ ((s.cxlp p).frozen = false) ∧ ((s.cxlp p).outst = r :: rs) ∧ (∀ x ∈ rs, x.undo = []) ∧ (r.master < 16) ∧ (s.on CXL_P_CTL_EN p = true) ∧ ((s.cxlp p).st = .up ∨ (s.cxlp p).st = .l1)) ∧
    (∃ s : State, ∃ p : Fin 4, ∃ k : Fin 3, (s.live = true) ∧ ((s.cxlp p).frozen = false) ∧ ((s.cxlp p).outst = []) ∧ (k ≠ 0)) ∧
    (∃ s : State, ∃ p : Fin 4, (s.live = true) ∧ ((s.cxlp p).frozen = false) ∧ ((s.cxlp p).outst = []) ∧ (s.on CXL_P_CTL_EN p = true) ∧ ((s.cxlp p).st = .up ∨ (s.cxlp p).st = .l1)) :=
  ⟨⟨({ wHold with cxl := [(3, { st := .up, outst := [⟨0x80, 15, false, 1, 64, 0, 0, none, 0, []⟩] })] } : State), (3 : Fin 4), (⟨0x80, 15, false, 1, 64, 0, 0, none, 0, []⟩ : CxlReq), ([] : List CxlReq), fun _ h => (nomatch (show (none : Option (Nat × Nat)) = some _ from h)), by decide +kernel⟩,
   ⟨(wSet { wHold with cxl := [(3, { st := .up, outst := [⟨0x80, 15, false, 1, 64, 0, 0, none, 0, []⟩] })] } [(CXL_P_CTL_EN, 3, 1)] : State), (3 : Fin 4), (⟨0x80, 15, false, 1, 64, 0, 0, none, 0, []⟩ : CxlReq), _, rfl, by decide +kernel⟩,
   ⟨(wHold : State), (3 : Fin 4), (1 : Fin 3), by decide +kernel⟩,
   ⟨(wSet { wHold with cxl := [(3, { st := .l1 })] } [(CXL_P_CTL_EN, 3, 1)] : State), (3 : Fin 4), by decide +kernel⟩⟩

/-- The premises of clauses of Obligations.CxlErrors are met. -/
theorem witness_CxlErrors_3 :
    ∃ s : State, ∃ p : Fin 4, (s.live = true) ∧ ((s.cxlp p).frozen = false) ∧ (s.on CXL_P_CTL_EN p = false) :=
  ⟨({ wHold with cxl := [(3, { st := .up })] } : State), (3 : Fin 4), by decide +kernel⟩

/-- The premises of clauses of Obligations.DmaCommands are met. -/
theorem witness_DmaCommands_1 :
    (∃ s : State, ∃ m : Master, ∃ k : Fin 16, ∃ v : Word, (s.mayWrite m .DMA_CMD k) ∧ (∀ b < 4, v.getLsbD b = false) ∧ ((s.dma k).st = .idle) ∧ (s.dmaRpt k = false)) ∧
    (∃ s : State, ∃ m : Master, ∃ k : Fin 16, ∃ v : Word, (s.mayWrite m .DMA_CMD k) ∧ (∀ b < 4, v.getLsbD b = false) ∧ ((s.dma k).st ≠ .idle ∨ s.dmaRpt k = true)) ∧
    (∃ s : State, ∃ m : Master, ∃ k : Fin 16, ∃ v : Word, (s.mayWrite m .DMA_CMD k) ∧ (∀ b < 4, v.getLsbD b = false) ∧ ((s.dma k).st = .running) ∧ (s.dmaRpt k = false)) ∧
    (∃ s : State, ∃ m : Master, ∃ k : Fin 16, ∃ v : Word, (s.mayWrite m .DMA_CMD k) ∧ (∀ b < 4, v.getLsbD b = false) ∧ ((s.dma k).st ≠ .running ∨ s.dmaRpt k = true)) :=
  ⟨⟨(wSet wHold [(⟨.DMA_DESC_LO, 31, 0⟩, 5, 0x80), (⟨.DMA_DESC_HI, 31, 0⟩, 5, 9)] : State), (48 : Master), (5 : Fin 16), (0 : Word), reach (by decide +kernel), by decide +kernel⟩,
   ⟨({ wHold with dmas := [(5, { st := .paused })] } : State), (48 : Master), (5 : Fin 16), (0xFFFFFFF0 : Word), reach (by decide +kernel), by decide +kernel⟩,
   ⟨({ wHold with dmas := [(5, { st := .running })] } : State), (48 : Master), (5 : Fin 16), (0 : Word), reach (by decide +kernel), by decide +kernel⟩,
   ⟨({ wHold with dmas := [(5, { st := .pausing })] } : State), (48 : Master), (5 : Fin 16), (0 : Word), reach (by decide +kernel), by decide +kernel⟩⟩

/-- The premises of clauses of Obligations.DmaCommands are met. -/
theorem witness_DmaCommands_2 :
    (∃ s : State, ∃ m : Master, ∃ k : Fin 16, ∃ v : Word, (s.mayWrite m .DMA_CMD k) ∧ (∀ b < 4, v.getLsbD b = false) ∧ ((s.dma k).st = .paused) ∧ (s.dmaRpt k = false)) ∧
    (∃ s : State, ∃ m : Master, ∃ k : Fin 16, ∃ v : Word, (s.mayWrite m .DMA_CMD k) ∧ (∀ b < 4, v.getLsbD b = false) ∧ ((s.dma k).st ≠ .paused ∨ s.dmaRpt k = true)) ∧
    (∃ s : State, ∃ m : Master, ∃ k : Fin 16, ∃ v : Word, (s.mayWrite m .DMA_CMD k) ∧ (∀ b < 4, v.getLsbD b = false) ∧ ((s.dma k).st = .halted ∨ ((s.dma k).st = .paused ∧ s.dmaRpt k = false)) ∧ ((s.dma k).eng = none)) ∧
    (∃ s : State, ∃ m : Master, ∃ k : Fin 16, ∃ v : Word, ∃ i : Nat, (s.mayWrite m .DMA_CMD k) ∧ (∀ b < 4, v.getLsbD b = false) ∧ ((s.dma k).st = .halted ∨ ((s.dma k).st = .paused ∧ s.dmaRpt k = false)) ∧ ((s.dma k).eng = some i)) :=
  ⟨⟨({ wHold with dmas := [(5, { st := .paused })] } : State), (48 : Master), (5 : Fin 16), (0 : Word), reach (by decide +kernel), by decide +kernel⟩,
   ⟨({ wHold with dmas := [(5, { st := .halted })] } : State), (48 : Master), (5 : Fin 16), (0 : Word), reach (by decide +kernel), by decide +kernel⟩,
   ⟨({ wHold with dmas := [(5, { st := .halted })] } : State), (48 : Master), (5 : Fin 16), (0 : Word), reach (by decide +kernel), by decide +kernel⟩,
   ⟨({ wHold with dmas := [(5, { st := .paused, eng := some 3 })], cmp := { eng := [(3, .dma 5)] } } : State), (48 : Master), (5 : Fin 16), (0 : Word), (3 : Nat), reach (by decide +kernel), by decide +kernel⟩⟩

/-- The premises of clauses of Obligations.DmaCommands are met. -/
theorem witness_DmaCommands_3 :
    (∃ s : State, ∃ m : Master, ∃ k : Fin 16, ∃ v : Word, (s.mayWrite m .DMA_CMD k) ∧ (∀ b < 4, v.getLsbD b = false) ∧ (¬((s.dma k).st = .halted ∨ ((s.dma k).st = .paused ∧ s.dmaRpt k = false)))) ∧
    (∃ s : State, ∃ m : Master, ∃ k : Fin 16, ∃ v : Word, (s.mayWrite m .DMA_CMD k) ∧ (v.getLsbD 1 = true)) ∧
    (∃ s : State, ∃ i : Fin 8, (s.live = true) ∧ (s.cmpOwner i ≠ .idle)) ∧
    (∃ s : State, ∃ i : Fin 8, ∃ t : RefTile, ∃ ts : List RefTile, (s.live = true) ∧ (s.cmpOwner i = .idle) ∧ (s.ref.waiting = t :: ts)) :=
  ⟨⟨({ wHold with dmas := [(5, { st := .running })] } : State), (48 : Master), (5 : Fin 16), (0 : Word), reach (by decide +kernel), by decide +kernel⟩,
   ⟨(wHold : State), (48 : Master), (5 : Fin 16), (2 : Word), reach (by decide +kernel), by decide +kernel⟩,
   ⟨({ wHold with cmp := { eng := [(3, .dma 5)] } } : State), (3 : Fin 8), by decide +kernel⟩,
   ⟨({ wHold with ref := { waiting := [wRefTile, wRefTile] } } : State), (3 : Fin 8), (wRefTile : RefTile), ([wRefTile] : List RefTile), by decide +kernel⟩⟩

/-- The premises of clauses of Obligations.DmaCommands are met. -/
theorem witness_DmaCommands_4 :
    (∃ s : State, ∃ i : Fin 8, ∃ k' : Fin 16, (s.live = true) ∧ (s.cmpOwner i = .idle) ∧ (s.ref.waiting = []) ∧ ((s.dma k').waiting = true) ∧ (s.cmpDmaMay = true) ∧ (∀ y : Fin 16, (s.dma y).waiting = true → (k'.val + 15 - s.cmp.turn) % 16 ≤ (y.val + 15 - s.cmp.turn) % 16) ∧ (s.cmp.turn < 16)) ∧
    (∃ s : State, (s.live = true) ∧ (s.ref.waiting = []) ∧ ((∀ y : Fin 16, (s.dma y).waiting = false) ∨ s.cmpDmaMay = false) ∧ (s.cmp.turn < 16)) :=
  ⟨⟨(wSet { wHold with dmas := [(5, { waiting := true }), (6, { waiting := true })], cmp := { turn := 5 } } [(CMP_CTL_DMAMAX, 0, 2)] : State), (3 : Fin 8), (6 : Fin 16), by decide +kernel⟩,
   ⟨(wHold : State), by decide +kernel⟩⟩

/-- The premises of clauses of Obligations.DmaDescriptors are met. -/
theorem witness_DmaDescriptors_1 :
    (∃ s : State, ∃ k : Fin 16, ∃ a : Nat, ∃ b : List Byte, ∃ t : State, (s.anyRead (20 + k) a 64 = (rOK, b, t)) ∧ (s.live = true) ∧ ((s.dma k).fetch = some a) ∧ ((s.dma k).st = .running) ∧ ((s.dma k).direct = false) ∧ ((s.dma k).got = none) ∧ (t.dmas = s.dmas) ∧ (∀ p < 4, (t.cxlp p).outst = []) ∧ ((descOf b).check (t.fld CMP_CTL_DMAMAX) = rOK) ∧ ((descOf b).op = 0 ∨ ((s.dma k).eng = none ∧ t.cmpIdle = none))) ∧
    (∃ s : State, ∃ k : Fin 16, ∃ a : Nat, ∃ b : List Byte, ∃ t : State, ∃ r : Nat, (s.anyRead (20 + k) a 64 = (rOK, b, t)) ∧ (s.live = true) ∧ ((s.dma k).fetch = some a) ∧ ((s.dma k).st = .running) ∧ ((s.dma k).direct = false) ∧ ((s.dma k).got = none) ∧ (t.dmas = s.dmas) ∧ (∀ p < 4, (t.cxlp p).outst = []) ∧ ((descOf b).check (t.fld CMP_CTL_DMAMAX) = r) ∧ (r ≠ rOK)) ∧
    (∃ s : State, ∃ k : Fin 16, ∃ a : Nat, ∃ r : Nat, ∃ b : List Byte, ∃ t : State, (s.anyRead (20 + k) a 64 = (r, b, t)) ∧ (s.live = true) ∧ ((s.dma k).fetch = some a) ∧ ((s.dma k).st = .running) ∧ ((s.dma k).direct = false) ∧ ((s.dma k).got = none) ∧ (r ≠ rOK) ∧ (r < 16) ∧ (t.dmas = s.dmas) ∧ (∀ p < 4, (t.cxlp p).outst = [])) ∧
    (∃ s : State, ∃ k : Fin 16, ∃ d : Desc, ∃ st : Nat → State, ∃ t : Nat → State, ∃ x : Nat → State, ∃ y : Nat → State, ∃ b : Nat → List Byte, (s.dmaFresh k d) ∧ (st 0 = s.updDma k (fun c => { c with goal := d.rows * d.len })) ∧ (∀ r < d.rows, (d.src + r * d.sstride) % 64 + d.len ≤ 2 ^ d.sw ∧ (d.dst + r * d.dstride) % 64 + d.len ≤ 2 ^ d.dw ∧ (st r).anyRead (20 + k) (d.src + r * d.sstride) d.len = (rOK, b r, t r) ∧ (b r).length = d.len ∧ (t r).dmas = (st r).dmas ∧ (t r).noCxlWait ∧ x r = (t r).updDma k (fun c => { c with done := (r + 1) * d.len, buf := b r }) ∧ (x r).anyWrite (20 + k) (d.dst + r * d.dstride) (b r) = (rOK, y r) ∧ (y r).dmas = (x r).dmas ∧ (y r).noCxlWait ∧ st (r + 1) = (y r).updDma k (fun c => { c with out := (r + 1) * d.len, lastW := (d.dst + r * d.dstride, d.len), buf := [] })) ∧ (s.live = true) ∧ (d.op = 0) ∧ (d.wrap = none) ∧ (0 < d.rows) ∧ (0 < d.len) ∧ (d.sw ≤ 6) ∧ (d.dw ≤ 6)) :=
  ⟨⟨(wDma 20 { st := .running, fetch := some 0x14000000 } : State), (5 : Fin 16), (0x14000000 : Nat), _, _, tripleOf (by decide +kernel), by decide +kernel⟩,
   ⟨(wDma 20 { st := .running, fetch := some 0x14000001 } : State), (5 : Fin 16), (0x14000001 : Nat), _, _, (rRANGE : Nat), tripleOf (by decide +kernel), by decide +kernel⟩,
   ⟨(wDma 20 { st := .running, fetch := some 0x13000000 } : State), (5 : Fin 16), (0x13000000 : Nat), (rERROR : Nat), _, _, tripleOf (by decide +kernel), by decide +kernel⟩,
   ⟨(wDma 20 { st := .running, desc := some wDesc } : State), (5 : Fin 16), (wDesc : Desc), (fun n => if n = 0 then wC0 else wC1 : Nat → State), (fun _ => wCt : Nat → State), (fun _ => wCx : Nat → State), (fun _ => wCy : Nat → State), (fun _ => wCb : Nat → List Byte), by unfold State.dmaFresh State.noCxlWait; decide +kernel, rfl, fun r hr => by
    have h : r = 0 := Nat.lt_one_iff.mp hr
    subst h
    exact ⟨by decide +kernel, by decide +kernel, rfl, by decide +kernel, by decide +kernel, by unfold State.noCxlWait; decide +kernel, rfl, Prod.ext (by decide +kernel) rfl, by decide +kernel, by unfold State.noCxlWait; decide +kernel, rfl⟩, by decide +kernel⟩⟩

/-- The premises of clauses of Obligations.DmaDescriptors are met. -/
theorem witness_DmaDescriptors_2 :
    (∃ s : State, ∃ k : Fin 16, ∃ d : Desc, ∃ n : Nat, ∃ b : List Byte, ∃ s0 : State, ∃ t : State, ∃ x : State, ∃ y : State, ∃ w : State, (s.dmaFresh k d) ∧ (n = d.srcBytes) ∧ (s0 = s.updDma k (fun c => { c with goal := n })) ∧ (s0.anyRead (20 + k) d.src n = (rOK, b, t)) ∧ (t.noCxlWait) ∧ (x = (t.updDma k fun c => { c with done := n, buf := b }).cmpCount b.length 0) ∧ (y = x.dmaPutOut k d false (d.made b)) ∧ (y.noCxlWait) ∧ (w = y.dmaPutOut k d true (if d.op = 1 then (zcmEncode b d.level).take d.cap else (zcmDecode b d.dstBytes).out)) ∧ (w.noCxlWait) ∧ (s.live = true) ∧ (d.op = 1 ∨ d.op = 2) ∧ (d.wrap = none) ∧ (d.rows = 1) ∧ (0 < n) ∧ (d.src % 64 + n ≤ 2 ^ d.sw) ∧ (d.sw ≤ 6) ∧ (t.dmas = s0.dmas) ∧ ((y.dma k).st = .running) ∧ ((w.dma k).st = .running) ∧ (d.op = 1) ∧ ((zcmEncode b d.level).length ≤ d.cap)) ∧
    (∃ s : State, ∃ k : Fin 16, ∃ d : Desc, ∃ n : Nat, ∃ b : List Byte, ∃ s0 : State, ∃ t : State, ∃ x : State, ∃ y : State, ∃ w : State, (s.dmaFresh k d) ∧ (n = d.srcBytes) ∧ (s0 = s.updDma k (fun c => { c with goal := n })) ∧ (s0.anyRead (20 + k) d.src n = (rOK, b, t)) ∧ (t.noCxlWait) ∧ (x = (t.updDma k fun c => { c with done := n, buf := b }).cmpCount b.length 0) ∧ (y = x.dmaPutOut k d false (d.made b)) ∧ (y.noCxlWait) ∧ (w = y.dmaPutOut k d true (if d.op = 1 then (zcmEncode b d.level).take d.cap else (zcmDecode b d.dstBytes).out)) ∧ (w.noCxlWait) ∧ (s.live = true) ∧ (d.op = 1 ∨ d.op = 2) ∧ (d.wrap = none) ∧ (d.rows = 1) ∧ (0 < n) ∧ (d.src % 64 + n ≤ 2 ^ d.sw) ∧ (d.sw ≤ 6) ∧ (t.dmas = s0.dmas) ∧ ((y.dma k).st = .running) ∧ ((w.dma k).st = .running) ∧ (d.op = 1) ∧ (d.cap < (zcmEncode b d.level).length)) ∧
    (∃ s : State, ∃ k : Fin 16, ∃ d : Desc, ∃ n : Nat, ∃ b : List Byte, ∃ s0 : State, ∃ t : State, ∃ x : State, ∃ y : State, ∃ w : State, (s.dmaFresh k d) ∧ (n = d.srcBytes) ∧ (s0 = s.updDma k (fun c => { c with goal := n })) ∧ (s0.anyRead (20 + k) d.src n = (rOK, b, t)) ∧ (t.noCxlWait) ∧ (x = (t.updDma k fun c => { c with done := n, buf := b }).cmpCount b.length 0) ∧ (y = x.dmaPutOut k d false (d.made b)) ∧ (y.noCxlWait) ∧ (w = y.dmaPutOut k d true (if d.op = 1 then (zcmEncode b d.level).take d.cap else (zcmDecode b d.dstBytes).out)) ∧ (w.noCxlWait) ∧ (s.live = true) ∧ (d.op = 1 ∨ d.op = 2) ∧ (d.wrap = none) ∧ (d.rows = 1) ∧ (0 < n) ∧ (d.src % 64 + n ≤ 2 ^ d.sw) ∧ (d.sw ≤ 6) ∧ (t.dmas = s0.dmas) ∧ ((y.dma k).st = .running) ∧ ((w.dma k).st = .running) ∧ (d.op = 2) ∧ ((zcmDecode b d.dstBytes).fail = none)) ∧
    (∃ s : State, ∃ k : Fin 16, ∃ d : Desc, ∃ n : Nat, ∃ b : List Byte, ∃ s0 : State, ∃ t : State, ∃ x : State, ∃ y : State, ∃ w : State, ∃ kind : Nat, ∃ ofs : Nat, (s.dmaFresh k d) ∧ (n = d.srcBytes) ∧ (s0 = s.updDma k (fun c => { c with goal := n })) ∧ (s0.anyRead (20 + k) d.src n = (rOK, b, t)) ∧ (t.noCxlWait) ∧ (x = (t.updDma k fun c => { c with done := n, buf := b }).cmpCount b.length 0) ∧ (y = x.dmaPutOut k d false (d.made b)) ∧ (y.noCxlWait) ∧ (w = y.dmaPutOut k d true (if d.op = 1 then (zcmEncode b d.level).take d.cap else (zcmDecode b d.dstBytes).out)) ∧ (w.noCxlWait) ∧ (s.live = true) ∧ (d.op = 1 ∨ d.op = 2) ∧ (d.wrap = none) ∧ (d.rows = 1) ∧ (0 < n) ∧ (d.src % 64 + n ≤ 2 ^ d.sw) ∧ (d.sw ≤ 6) ∧ (t.dmas = s0.dmas) ∧ ((y.dma k).st = .running) ∧ ((w.dma k).st = .running) ∧ (d.op = 2) ∧ ((zcmDecode b d.dstBytes).fail = some (kind, ofs))) :=
  ⟨⟨(wCmp ({ wDesc with op := 1, level := 1, cap := 64 }) (leBytes 8 7) : State), (5 : Fin 16), (({ wDesc with op := 1, level := 1, cap := 64 }) : Desc), _, _, _, _, _, _, _, by unfold State.dmaFresh State.noCxlWait; decide +kernel, rfl, rfl, tripleOf (by decide +kernel), by unfold State.noCxlWait; decide +kernel, rfl, rfl, by unfold State.noCxlWait; decide +kernel, rfl, by unfold State.noCxlWait; decide +kernel, by decide +kernel⟩,
   ⟨(wCmp ({ wDesc with op := 1, level := 1, cap := 1 }) (leBytes 8 7) : State), (5 : Fin 16), (({ wDesc with op := 1, level := 1, cap := 1 }) : Desc), _, _, _, _, _, _, _, by unfold State.dmaFresh State.noCxlWait; decide +kernel, rfl, rfl, tripleOf (by decide +kernel), by unfold State.noCxlWait; decide +kernel, rfl, rfl, by unfold State.noCxlWait; decide +kernel, rfl, by unfold State.noCxlWait; decide +kernel, by decide +kernel⟩,
   ⟨(wCmp { wDesc with op := 2, cap := (zcmEncode (leBytes 8 7) 1).length } (zcmEncode (leBytes 8 7) 1) : State), (5 : Fin 16), ({ wDesc with op := 2, cap := (zcmEncode (leBytes 8 7) 1).length } : Desc), _, _, _, _, _, _, _, by unfold State.dmaFresh State.noCxlWait; decide +kernel, rfl, rfl, tripleOf (by decide +kernel), by unfold State.noCxlWait; decide +kernel, rfl, rfl, by unfold State.noCxlWait; decide +kernel, rfl, by unfold State.noCxlWait; decide +kernel, by decide +kernel⟩,
   ⟨(wCmp { wDesc with op := 2, cap := 8 } (leBytes 8 7) : State), (5 : Fin 16), ({ wDesc with op := 2, cap := 8 } : Desc), _, _, _, _, _, _, _, (1 : Nat), (0 : Nat), by unfold State.dmaFresh State.noCxlWait; decide +kernel, rfl, rfl, tripleOf (by decide +kernel), by unfold State.noCxlWait; decide +kernel, rfl, rfl, by unfold State.noCxlWait; decide +kernel, rfl, by unfold State.noCxlWait; decide +kernel, by decide +kernel⟩⟩

/-- The premises of clauses of Obligations.DmaDescriptors are met. -/
theorem witness_DmaDescriptors_3 :
    (∃ s : State, ∃ k : Fin 16, ∃ d : Desc, ∃ all : Bool, ∃ bs : List Byte, ∃ a : Nat, ∃ n : Nat, ∃ o : Nat, ∃ y : State, (d.writeAt o = (a, n)) ∧ (s.anyWrite (20 + k) a (bs.drop o) = (rOK, y)) ∧ (y.noCxlWait) ∧ (s.live = true) ∧ (d.overlaps = false) ∧ ((s.dma k).out = o) ∧ (o < bs.length) ∧ (bs.length - o ≤ n) ∧ (all = true ∨ bs.length - o = n) ∧ (y.dmas = s.dmas)) ∧
    (∃ s : State, ∃ k : Fin 16, ∃ d : Desc, ∃ a : Nat, ∃ n : Nat, ∃ c : List Byte, ∃ q : State, ∃ r : State, ∃ w : State, (s.noCxlWait) ∧ ((s.dmaCur k).anyRead (20 + k) a n = (rOK, c, q)) ∧ (q.noCxlWait) ∧ (if d.wb = true then (q.updDma k fun c => { c with stage := 2 }).anyWrite (20 + k) (q.dmaCurDesc k + 56) (leBytes 4 rOK ++ leBytes 4 (s.dma k).out) = (rOK, r) ∧ r.dmas = (q.updDma k fun c => { c with stage := 2 }).dmas ∧ r.noCxlWait else r = q.updDma k fun c => { c with stage := 2 }) ∧ (w = r.updDma k (fun c => { c with stage := 3 })) ∧ (s.live = true) ∧ ((s.dma k).desc = some d) ∧ ((s.dma k).stage = 1) ∧ ((s.dma k).st = .running) ∧ ((s.dma k).direct = false) ∧ (0 < (s.dma k).out) ∧ ((s.dma k).lastW = (a, n)) ∧ (q.dmas = s.dmas)) ∧
    (∃ s : State, ∃ k : Fin 16, (s.live = true) ∧ ((s.reg .EVT_SRCMASK 0).getLsbD (16 + k) = false)) ∧
    (∃ s : State, ∃ k : Fin 16, (s.live = true) ∧ ((s.reg .EVT_SRCMASK 0).getLsbD (16 + k) = true)) :=
  ⟨⟨(wDma 20 { st := .running, desc := some wDesc } : State), (5 : Fin 16), (wDesc : Desc), (false : Bool), (leBytes 8 7 : List Byte), _, _, (0 : Nat), _, pairOf rfl, pairOf (by decide +kernel), by unfold State.noCxlWait; decide +kernel, by decide +kernel⟩,
   ⟨(wBk : State), (5 : Fin 16), ({ wDesc with wb := true } : Desc), (0x14001000 : Nat), (8 : Nat), _, _, (wBr : State), _, by unfold State.noCxlWait; decide +kernel, tripleOf (by decide +kernel), by unfold State.noCxlWait; decide +kernel, Eq.mpr (if_pos rfl) ⟨Prod.ext (by decide +kernel) rfl, by decide +kernel, by unfold State.noCxlWait; decide +kernel⟩, rfl, by decide +kernel⟩,
   ⟨(wHold.setReg .EVT_SRCMASK 0 0 : State), (5 : Fin 16), by decide +kernel⟩,
   ⟨(wHold.setReg .EVT_SRCMASK 0 0x200000 : State), (5 : Fin 16), by decide +kernel⟩⟩

/-- The premises of clauses of Obligations.DmaDescriptors are met. -/
theorem witness_DmaDescriptors_4 :
    (∃ s : State, ∃ k : Fin 16, ∃ i : Nat, (s.live = true) ∧ ((s.dma k).st = .running) ∧ ((s.dma k).direct = false) ∧ ((s.dma k).eng = some i)) ∧
    (∃ s : State, ∃ k : Fin 16, ∃ d : Desc, (s.live = true) ∧ ((s.dma k).st = .running) ∧ ((s.dma k).direct = false) ∧ ((s.dma k).eng = none) ∧ (d.last = true)) ∧
    (∃ s : State, ∃ k : Fin 16, ∃ d : Desc, (s.live = true) ∧ ((s.dma k).st = .running) ∧ ((s.dma k).direct = false) ∧ ((s.dma k).eng = none) ∧ (d.last = false)) ∧
    (∃ s : State, ∃ k : Fin 16, (s.live = true) ∧ ((s.dma k).desc = none) ∧ ((s.dma k).st = .running) ∧ ((s.dma k).fetch = none)) :=
  ⟨⟨(wDma 20 { st := .running, eng := some 3 } : State), (5 : Fin 16), (3 : Nat), by decide +kernel⟩,
   ⟨(wDma 20 { st := .running, desc := some wDesc } : State), (5 : Fin 16), (wDesc : Desc), by decide +kernel⟩,
   ⟨(wDma 20 { st := .running } : State), (5 : Fin 16), ({ wDesc with last := false } : Desc), by decide +kernel⟩,
   ⟨({ wHold with dmas := [(5, { st := .running })] } : State), (5 : Fin 16), by decide +kernel⟩⟩

/-- The premises of clauses of Obligations.DmaDescriptors are met. -/
theorem witness_DmaDescriptors_5 :
    (∃ s : State, ∃ k : Fin 16, (s.live = true) ∧ ((s.dma k).st ≠ .pausing)) ∧
    (∃ s : State, ∃ k : Fin 16, (s.noCxlWait) ∧ (s.live = true) ∧ ((s.dma k).st = .pausing) ∧ ((s.dma k).desc = none) ∧ ((s.dma k).stage = 0) ∧ ((s.dma k).held = [])) ∧
    (∃ s : State, ∃ k : Fin 16, ∃ d : Desc, ∃ r : Nat, ∃ b : List Byte, ∃ s0 : State, ∃ t : State, (s.dmaFresh k d) ∧ (s0 = s.updDma k (fun c => { c with goal := d.len })) ∧ (s0.anyRead (20 + k) d.src d.len = (r, b, t)) ∧ (t.noCxlWait) ∧ (s.live = true) ∧ (d.op = 0) ∧ (d.rows = 1) ∧ (0 < d.len) ∧ (d.wrap = none) ∧ (d.src % 64 + d.len ≤ 2 ^ d.sw) ∧ (d.sw ≤ 6) ∧ (s.dmaCurDesc k + 56 < poolBase) ∧ (r ≠ rOK) ∧ (r < 16) ∧ (t.dmas = s0.dmas)) :=
  ⟨⟨(wHold : State), (5 : Fin 16), by decide +kernel⟩,
   ⟨(wDma 20 { st := .pausing } : State), (5 : Fin 16), by unfold State.noCxlWait; decide +kernel, by decide +kernel⟩,
   ⟨(wDma 20 { st := .running, desc := some { wDesc with src := 0x13000000 } } : State), (5 : Fin 16), ({ wDesc with src := 0x13000000 } : Desc), (rERROR : Nat), _, _, _, by unfold State.dmaFresh State.noCxlWait; decide +kernel, rfl, tripleOf (by decide +kernel), by unfold State.noCxlWait; decide +kernel, by decide +kernel⟩⟩

/-- The premises of clauses of Obligations.Mailboxes are met. -/
theorem witness_Mailboxes_1 :
    (∃ s : State, ∃ m : Master, ∃ n : Fin 5, (s.mayWrite m .ETH_MB_CTL n) ∧ (s.on ETH_MB_CTL_BUSY n = true)) ∧
    (∃ s : State, ∃ m : Master, ∃ n : Fin 5, (s.mayWrite m .ETH_MB_CTL n) ∧ (s.on ETH_MB_CTL_BUSY n = false)) ∧
    (∃ s : State, ∃ n : Fin 5, (s.live = true) ∧ ((s.mbox n).rsp = none) ∧ ((s.mbox n).req = none)) ∧
    (∃ s : State, ∃ n : Fin 5, ∃ r : List Word, (s.live = true) ∧ (s.zsp.asks = []) ∧ ((s.mbox n).rsp = some r)) :=
  ⟨⟨(wSet wHold [(ETH_MB_CTL_BUSY, 4, 1)] : State), (48 : Master), (4 : Fin 5), reach (by decide +kernel), by decide +kernel⟩,
   ⟨(wSet wHold [(ETH_MB_CTL_DONE, 4, 1)] : State), (48 : Master), (4 : Fin 5), reach (by decide +kernel), by decide +kernel⟩,
   ⟨(wHold : State), (4 : Fin 5), by decide +kernel⟩,
   ⟨({ wHold with mboxes := [(4, { req := some [5], rsp := some [6, 7] })] } : State), (4 : Fin 5), ([6, 7] : List Word), by decide +kernel⟩⟩

/-- The premises of clauses of Obligations.Mailboxes are met. -/
theorem witness_Mailboxes_2 :
    (∃ s : State, ∃ n : Fin 5, ∃ w : Word, ∃ ws : List Word, (s.live = true) ∧ (s.zsp.asks = []) ∧ ((s.mbox n).rsp = none) ∧ ((s.mbox n).req = some (w :: ws)) ∧ (bits w.toNat 7 0 ∉ mbOpcodes n) ∧ (n.val = 4) ∧ (s.fl.st = .boot)) ∧
    (∃ s : State, ∃ n : Fin 5, ∃ w : Word, ∃ ws : List Word, (s.live = true) ∧ (s.zsp.asks = []) ∧ ((s.mbox n).rsp = none) ∧ ((s.mbox n).req = some (w :: ws)) ∧ (bits w.toNat 7 0 ∉ mbOpcodes n) ∧ (n.val = 4 → s.fl.st ≠ .boot)) ∧
    (∃ s : State, ∃ n : Fin 5, ∃ w : Word, ∃ ws : List Word, (s.live = true) ∧ (s.zsp.asks = []) ∧ ((s.mbox n).rsp = none) ∧ ((s.mbox n).req = some (w :: ws)) ∧ (bits w.toNat 7 0 ∈ mbOpcodes n)) ∧
    (∃ s : State, ∃ w : Word, ∃ ws : List Word, ∃ l : Int, (s.live = true) ∧ ((s.mbox 1).req = some (w :: ws)) ∧ ((s.mbox 1).work = false) ∧ ((s.mbox 1).rsp = none) ∧ (bits w.toNat 7 0 = 1) ∧ (l = ((reqWord (w :: ws) 1 + 2 ^ 32 * (reqWord (w :: ws) 2 % 65536) : Nat) : Int)) ∧ (s.rptPast l = true) ∧ (s.rptOwes l = false)) :=
  ⟨⟨({ wHold with mboxes := [(4, { req := some [0x409] })] } : State), (4 : Fin 5), (0x409 : Word), ([] : List Word), by decide +kernel⟩,
   ⟨({ wHold with fl := { wFl with st := .noFw }, mboxes := [(4, { req := some [0x409] })] } : State), (4 : Fin 5), (0x409 : Word), ([] : List Word), by decide +kernel⟩,
   ⟨({ wHold with mboxes := [(4, { req := some [0x308] })] } : State), (4 : Fin 5), (0x308 : Word), ([] : List Word), by decide +kernel⟩,
   ⟨({ wHold with mboxes := [(1, { req := some [0x501, 9] })] } : State), (0x501 : Word), ([9] : List Word), (9 : Int), by decide +kernel⟩⟩

/-- The premises of clauses of Obligations.Mailboxes are met. -/
theorem witness_Mailboxes_3 :
    (∃ s : State, ∃ w : Word, ∃ ws : List Word, ∃ l : Int, (s.live = true) ∧ ((s.mbox 1).req = some (w :: ws)) ∧ ((s.mbox 1).work = false) ∧ ((s.mbox 1).rsp = none) ∧ (bits w.toNat 7 0 = 1) ∧ (l = ((reqWord (w :: ws) 1 + 2 ^ 32 * (reqWord (w :: ws) 2 % 65536) : Nat) : Int)) ∧ (s.rptOwes l = true ∨ s.rptPast l = false)) ∧
    (∃ s : State, ∃ w : Word, ∃ ws : List Word, (s.live = true) ∧ ((s.mbox 1).req = some (w :: ws)) ∧ ((s.mbox 1).work = false) ∧ ((s.mbox 1).rsp = none) ∧ (bits w.toNat 7 0 = 2) ∧ (s.rpt.open_ = []) ∧ (∀ k < 4, (s.marker k).off = none) ∧ (s.rpt.blind = []) ∧ (∀ i ∈ s.rpt.wait, i.item.order ≠ 3) ∧ (∀ r ∈ s.rpt.built, r.blind = none) ∧ (∀ b ∈ s.rpt.back, (s.recordOf b).blind = none)) ∧
    (∃ s : State, ∃ w : Word, ∃ ws : List Word, (s.live = true) ∧ ((s.mbox 1).req = some (w :: ws)) ∧ ((s.mbox 1).work = false) ∧ ((s.mbox 1).rsp = none) ∧ (bits w.toNat 7 0 = 2) ∧ (s.on RPT_CTL_EN = true) ∧ (s.rpt.open_ ≠ []) ∧ (∀ k < 4, (s.marker k).off = none)) :=
  ⟨⟨({ wHold with rpt := { wait := [⟨0, .page 4 0 0 0, false⟩] }, mboxes := [(1, { req := some [0x501, 9] })] } : State), (0x501 : Word), ([9] : List Word), (9 : Int), by decide +kernel⟩,
   ⟨({ wHold with mboxes := [(1, { req := some [0x502, 9] })] } : State), (0x502 : Word), ([9] : List Word), by decide +kernel⟩,
   ⟨(wSet { wHold with rpt := { open_ := [⟨1, 2, 3, ⟨1, 4, 0, 1⟩⟩] }, mboxes := [(1, { req := some [0x502, 9] })] } [(RPT_CTL_EN, 0, 1)] : State), (0x502 : Word), ([9] : List Word), by decide +kernel⟩⟩

/-- The premises of clauses of Obligations.ReceiveBuffers are met. -/
theorem witness_ReceiveBuffers :
    (∃ s : State, ∃ t : State, ∃ p : Fin 2, ∃ f : List Byte, ∃ back : List Nat, ∃ e : EthPort, (t = s.framesBack p back) ∧ (e = look {} t.eths p.val) ∧ (s.live = true) ∧ (s.on ETH_CTL_EN p = true) ∧ (s.on ETH_STAT_LINK p = true) ∧ (s.frameQueue p f = 0) ∧ (e.held 0 < 64)) ∧
    (∃ s : State, ∃ t : State, ∃ p : Fin 2, ∃ f : List Byte, ∃ back : List Nat, ∃ e : EthPort, (t = s.framesBack p back) ∧ (e = look {} t.eths p.val) ∧ (s.live = true) ∧ (s.on ETH_CTL_EN p = true) ∧ (s.on ETH_STAT_LINK p = true) ∧ (s.frameQueue p f = 0) ∧ (64 ≤ e.held 0)) ∧
    (∃ s : State, ∃ t : State, ∃ p : Fin 2, ∃ f : List Byte, ∃ back : List Nat, ∃ e : EthPort, (t = s.framesBack p back) ∧ (e = look {} t.eths p.val) ∧ (s.live = true) ∧ (s.on ETH_CTL_EN p = true) ∧ (s.on ETH_STAT_LINK p = true) ∧ (s.frameQueue p f ≠ 0) ∧ (e.held 1 + e.held 2 + e.held 3 < 448)) ∧
    (∃ s : State, ∃ t : State, ∃ p : Fin 2, ∃ f : List Byte, ∃ back : List Nat, ∃ e : EthPort, (t = s.framesBack p back) ∧ (e = look {} t.eths p.val) ∧ (s.live = true) ∧ (s.on ETH_CTL_EN p = true) ∧ (s.on ETH_STAT_LINK p = true) ∧ (s.frameQueue p f ≠ 0) ∧ (448 ≤ e.held 1 + e.held 2 + e.held 3)) :=
  ⟨⟨({ wEth with eths := [(0, { rx := List.replicate 63 (0, []) })] } : State), _, (0 : Fin 2), (wVlan : List Byte), ([] : List Nat), _, rfl, rfl, by decide +kernel⟩,
   ⟨({ wEth with eths := [(0, { rx := List.replicate 64 (0, []) })] } : State), _, (0 : Fin 2), (wVlan : List Byte), ([] : List Nat), _, rfl, rfl, by decide +kernel⟩,
   ⟨({ wEth with eths := [(0, { rx := List.replicate 447 (3, []) })] } : State), _, (0 : Fin 2), ([] : List Byte), ([] : List Nat), _, rfl, rfl, by decide +kernel⟩,
   ⟨({ wEth with eths := [(0, { rx := List.replicate 448 (1, []) })] } : State), _, (0 : Fin 2), ([] : List Byte), ([] : List Nat), _, rfl, rfl, by decide +kernel⟩⟩

/-- The premises of clauses of Obligations.PortsAndActions are met. -/
theorem witness_PortsAndActions_1 :
    (∃ s : State, ∃ p : Fin 2, ∃ f : List Byte, (s.live = true) ∧ (s.on ETH_CTL_EN p = true) ∧ (s.on ETH_STAT_LINK p = true) ∧ ((s.frameQueue p f = 0 ∧ (look {} s.eths p.val).held 0 < 64) ∨ (s.frameQueue p f ≠ 0 ∧ (look {} s.eths p.val).held 1 + (look {} s.eths p.val).held 2 + (look {} s.eths p.val).held 3 < 448))) ∧
    (∃ s : State, ∃ p : Fin 2, (s.live = true) ∧ (s.on ETH_CTL_EN p = false ∨ s.on ETH_STAT_LINK p = false)) ∧
    (∃ s : State, ∃ p : Fin 2, ∃ q : Nat, ∃ x : Msg, ∃ tx : List (Nat × Msg), ∃ more : Bool, (more = decide (look 0 (look {} s.eths p.val).cut q + 1 < x.frames)) ∧ (tx = (if more then (q, x) :: (look {} s.eths p.val).tx else (look {} s.eths p.val).tx)) ∧ (s.live = true) ∧ ((look {} s.eths p.val).wire = some (q, x)) ∧ (s.on ETH_CTL_EN p = true) ∧ (s.on ETH_STAT_LINK p = true)) ∧
    (∃ s : State, ∃ p : Fin 2, (s.live = true) ∧ ((look {} s.eths p.val).wire = none)) :=
  ⟨⟨({ wEth with eths := [(0, { rx := List.replicate 63 (0, []) })] } : State), (0 : Fin 2), (wVlan : List Byte), by decide +kernel⟩,
   ⟨(wHold : State), (0 : Fin 2), by decide +kernel⟩,
   ⟨({ wEth with eths := [(0, { wire := some (2, ⟨7, 1, 1, 1, 0, 0, List.replicate 1423 0⟩), tx := [(0, ⟨9, 1, 1, 1, 0, 0, []⟩)] })] } : State), (0 : Fin 2), (2 : Nat), (⟨7, 1, 1, 1, 0, 0, List.replicate 1423 0⟩ : Msg), _, _, rfl, rfl, by decide +kernel⟩,
   ⟨(wEth : State), (0 : Fin 2), by decide +kernel⟩⟩

/-- The premises of clauses of Obligations.PortsAndActions are met. -/
theorem witness_PortsAndActions_2 :
    (∃ s : State, ∃ p : Fin 2, ∃ data : Bool, ∃ ca : List Byte, (s.serving = true) ∧ (s.on ETH_CTL_EN p = true) ∧ (s.on ETH_STAT_LINK p = true) ∧ (s.boot.cert ≠ 0) ∧ (s.lcState ≠ 0) ∧ (s.lcState ≠ 3) ∧ (ca ∈ s.boot.auth) ∧ ((s.zsp.sessions.filter fun e => e.2.data == data).length < (if data then 16 else 4))) ∧
    (∃ s : State, (s.lcState = 3)) ∧
    (∃ s : State, ∃ ca : List Byte, (ca ∉ s.boot.auth)) ∧
    (∃ s : State, ∃ m : Master, (s.mayWrite m .ETH_HWACT 0) ∧ (m.val ≠ 40) ∧ (m.val ≠ 48)) :=
  ⟨⟨({ wEth with pwr := { wEth.pwr with booted := true }, boot := { cert := 1, auth := [[1, 2]] }, sec := { lc := 2 } } : State), (0 : Fin 2), (true : Bool), ([1, 2] : List Byte), by decide +kernel⟩,
   ⟨({ wHold with sec := { lc := 3 } } : State), by decide +kernel⟩,
   ⟨({ wEth with pwr := { wEth.pwr with booted := true }, boot := { cert := 1, auth := [[1, 2]] } } : State), ([1] : List Byte), by decide +kernel⟩,
   ⟨(wTgt wHold .ETH_HWACT 41 : State), (41 : Master), reachT (by decide +kernel), by decide +kernel⟩⟩

/-- The premises of clauses of Obligations.PortsAndActions are met. -/
theorem witness_PortsAndActions_3 :
    (∃ s : State, ∃ m : Master, ∃ x : WriteData, (s.mayWrite m .ETH_HWACT 0) ∧ (m.val = 40 ∨ m.val = 48) ∧ (x.meets = true)) ∧
    (∃ s : State, ∃ m : Master, ∃ v : Word, ∃ e : Word, (s.mayWrite m .ETH_HWACT 0) ∧ (e = v ||| s.hwHeld.getD 0) ∧ (m.val = 40 ∨ m.val = 48) ∧ (e.getLsbD 1 = s.on ETH_HWACT_STOP_EXPORT) ∧ (e.getLsbD 2 = false)) ∧
    (∃ s : State, ∃ m : Master, ∃ v : Word, ∃ e : Word, (s.mayWrite m .ETH_HWACT 0) ∧ (e = v ||| s.hwHeld.getD 0) ∧ (m.val = 40 ∨ m.val = 48) ∧ (s.fld ETH_HWACT_STOP_EXPORT = 0) ∧ (e.getLsbD 2 = false)) ∧
    (∃ s : State, ∃ m : Master, ∃ v : Word, ∃ e : Word, (s.mayWrite m .ETH_HWACT 0) ∧ (e = v ||| s.hwHeld.getD 0) ∧ (m.val = 40 ∨ m.val = 48) ∧ (s.inRun = true) ∧ (s.pwr.drain = false) ∧ (s.boot.splice = none) ∧ (e.getLsbD 1 = s.on ETH_HWACT_STOP_EXPORT)) :=
  ⟨⟨(wHold : State), (48 : Master), (⟨0, true⟩ : WriteData), reach (by decide +kernel), by decide +kernel⟩,
   ⟨(wHold : State), (48 : Master), (0 : Word), _, reach (by decide +kernel), rfl, by decide +kernel⟩,
   ⟨(wHold : State), (48 : Master), (0 : Word), _, reach (by decide +kernel), rfl, by decide +kernel⟩,
   ⟨(wRun : State), (48 : Master), (0 : Word), _, reach (by decide +kernel), rfl, by decide +kernel⟩⟩

/-- The premises of clauses of Obligations.ControlClass are met. -/
theorem witness_ControlClass_1 :
    (∃ s : State, (s.serving = false)) ∧
    (∃ s : State, ∃ sid : Nat, ∃ c : Session, (s.serving = true) ∧ (s.session sid = some c) ∧ (c.may 1 = false)) ∧
    (∃ s : State, ∃ sid : Nat, (s.zspMay sid 1) ∧ (s.mayWrite 40 .ETH_HWACT 0) ∧ (s.hwHeld = none) ∧ ((s.reg .ETH_HWACT).getLsbD 2 = false) ∧ (s.inRun = true) ∧ (s.pwr.drain = false) ∧ (s.boot.splice = none)) ∧
    (∃ s : State, ∃ sid : Nat, ∃ r : Nat, ∃ t : State, (s.zspMay sid 1) ∧ (s.askRun (ofSigned 48 s.tick.hw) = (r, t)) ∧ (s.zsp.job = .jobHold) ∧ (s.zsp.ending = none) ∧ (s.inHoldIdle = true) ∧ (r ≠ rOK)) :=
  ⟨⟨(wHold : State), by decide +kernel⟩,
   ⟨({ wZsp wHold with zsp := { sessions := [(7, ⟨0, true, .service, [], none⟩)] } } : State), (7 : Nat), (⟨0, true, .service, [], none⟩ : Session), by decide +kernel⟩,
   ⟨(wTgt (wZsp wRun) .ETH_HWACT 40 : State), (7 : Nat), zspMayOf (by decide +kernel), reachT (by decide +kernel), by decide +kernel⟩,
   ⟨({ wZsp wHold with zsp := { sessions := [(7, wCtl)], job := .jobHold } } : State), (7 : Nat), _, _, zspMayOf (by decide +kernel), pairOf rfl, by decide +kernel⟩⟩

/-- The premises of clauses of Obligations.ControlClass are met. -/
theorem witness_ControlClass_2 :
    (∃ s : State, ∃ sid : Nat, (s.zspMay sid 1) ∧ (s.zsp.job ≠ .jobHold)) ∧
    (∃ s : State, ∃ sid : Nat, ∃ t : State, (s.zspMay sid 1) ∧ (s.askRun (ofSigned 48 s.tick.hw) = (rOK, t)) ∧ (s.zsp.job = .jobHold) ∧ (s.zsp.ending = none) ∧ (s.inHoldIdle = true)) ∧
    (∃ s : State, ∃ sid : Nat, ∃ b : List Byte, ∃ c : Session, (s.zspMay sid 1) ∧ (s.zsp.sessions = [(sid, c)]) ∧ (c.data = false) ∧ (c.slots = []) ∧ (b.length ≤ 1048560) ∧ ((look {} s.eths c.port).wire.isSome = true)) ∧
    (∃ s : State, ∃ t : State, (s.mayWrite 41 .SYS_RUNMARK_LO 0) ∧ (s.mayWrite 41 .SYS_RUNMARK_HI 0) ∧ (s.mayWrite 41 .SYS_PWRCMD 0) ∧ (s.askRun (ofSigned 48 s.tick.hw) = (rOK, t)) ∧ (s.inHoldIdle = true) ∧ (s.on SYS_PSTAT_VALID = true)) :=
  ⟨⟨(wZsp wHold : State), (7 : Nat), zspMayOf (by decide +kernel), by decide +kernel⟩,
   ⟨({ wTgt (wZsp (wSet wHold [(SYS_PSTAT_VALID, 0, 1)])) .SYS_PWRCMD 41 with zsp := { sessions := [(7, wCtl)], job := .jobHold }, tick := { hw := 5, holdAdv := 6 } } : State), (7 : Nat), (((({ wTgt (wZsp (wSet wHold [(SYS_PSTAT_VALID, 0, 1)])) .SYS_PWRCMD 41 with zsp := { sessions := [(7, wCtl)], job := .jobHold }, tick := { hw := 5, holdAdv := 6 } } : State)).askRun (ofSigned 48 (({ wTgt (wZsp (wSet wHold [(SYS_PSTAT_VALID, 0, 1)])) .SYS_PWRCMD 41 with zsp := { sessions := [(7, wCtl)], job := .jobHold }, tick := { hw := 5, holdAdv := 6 } } : State)).tick.hw)).2 : State), zspMayOf (by decide +kernel), Prod.ext (by decide +kernel) rfl, by decide +kernel⟩,
   ⟨({ wZsp wHold with eths := [(0, { wire := some (0, ⟨7, 1, 1, 1, 0, 0, []⟩) })] } : State), (7 : Nat), ([1, 2] : List Byte), (wCtl : Session), zspMayOf (by decide +kernel), by decide +kernel⟩,
   ⟨(wTgt (wSet wHold [(SYS_PSTAT_VALID, 0, 1)]) .SYS_PWRCMD 41 : State), ((((wTgt (wSet wHold [(SYS_PSTAT_VALID, 0, 1)]) .SYS_PWRCMD 41 : State)).askRun (ofSigned 48 ((wTgt (wSet wHold [(SYS_PSTAT_VALID, 0, 1)]) .SYS_PWRCMD 41 : State)).tick.hw)).2 : State), reachT (by decide +kernel), reachT (by decide +kernel), reachT (by decide +kernel), Prod.ext (by decide +kernel) rfl, by decide +kernel⟩⟩

/-- The premises of clauses of Obligations.JobCommands are met. -/
theorem witness_JobCommands_1 :
    (∃ s : State, (s.serving = false)) ∧
    (∃ s : State, ∃ sid : Nat, ∃ c : Session, (s.serving = true) ∧ (s.session sid = some c) ∧ (c.may 2 = false)) :=
  ⟨⟨(wHold : State), by decide +kernel⟩,
   ⟨(wZsp wHold : State), (7 : Nat), (wCtl : Session), by decide +kernel⟩⟩

/-- The premises of clauses of Obligations.JobCommands are met. -/
theorem witness_JobCommands_2 :
    (∃ s : State, ∃ sid : Nat, ∃ steady : Bool, (s.zspMay sid 2) ∧ (s.zsp.job ≠ .noJob ∨ s.zsp.ending.isSome = true ∨ s.inHoldIdle = false ∨ steady = false ∨ 256 ≤ s.tickSpeed.natAbs)) ∧
    (∃ s : State, ∃ sid : Nat, ∃ steady : Bool, ∃ x : State, ∃ y : State, ∃ h : Nat, ∃ j : Nat, (s.zspMay sid 2) ∧ (h = ofSigned 48 s.tick.hw) ∧ (j = h + 1 + s.maxOffset) ∧ (x = (s.coreWrite 41 .RPT_JOB0_LO 0 (j % 2 ^ 32)).coreWrite 41 .RPT_JOB0_HI 0 (j / 2 ^ 32 % 65536)) ∧ (x.jobEnable = (false, y)) ∧ (s.zsp.job = .noJob) ∧ (s.zsp.ending = none) ∧ (s.inHoldIdle = true) ∧ (steady = true) ∧ (s.tickSpeed.natAbs < 256)) :=
  ⟨⟨(wZspD wHold : State), (7 : Nat), (false : Bool), zspMayOf (by decide +kernel), by decide +kernel⟩,
   ⟨(wZspD wHold : State), (7 : Nat), (true : Bool), _, _, _, _, zspMayOf (by decide +kernel), rfl, rfl, rfl, pairOf (by decide +kernel), by decide +kernel⟩⟩

/-- The premises of clauses of Obligations.JobCommands are met. -/
theorem witness_JobCommands_3 :
    (∃ s : State, ∃ sid : Nat, ∃ steady : Bool, ∃ x : State, ∃ y : State, ∃ t : State, ∃ h : Nat, ∃ j : Nat, ∃ r : Nat, (s.zspMay sid 2) ∧ (h = ofSigned 48 s.tick.hw) ∧ (j = h + 1 + s.maxOffset) ∧ (x = (s.coreWrite 41 .RPT_JOB0_LO 0 (j % 2 ^ 32)).coreWrite 41 .RPT_JOB0_HI 0 (j / 2 ^ 32 % 65536)) ∧ (x.jobEnable = (true, y)) ∧ (y.askRun h = (r, t)) ∧ (s.zsp.job = .noJob) ∧ (s.zsp.ending = none) ∧ (s.inHoldIdle = true) ∧ (steady = true) ∧ (s.tickSpeed.natAbs < 256) ∧ (r ≠ rOK)) ∧
    (∃ s : State, ∃ sid : Nat, ∃ steady : Bool, ∃ x : State, ∃ y : State, ∃ t : State, ∃ h : Nat, ∃ j : Nat, (s.zspMay sid 2) ∧ (h = ofSigned 48 s.tick.hw) ∧ (j = h + 1 + s.maxOffset) ∧ (x = (s.coreWrite 41 .RPT_JOB0_LO 0 (j % 2 ^ 32)).coreWrite 41 .RPT_JOB0_HI 0 (j / 2 ^ 32 % 65536)) ∧ (x.jobEnable = (true, y)) ∧ (y.askRun h = (rOK, t)) ∧ (s.zsp.job = .noJob) ∧ (s.zsp.ending = none) ∧ (s.inHoldIdle = true) ∧ (steady = true) ∧ (s.tickSpeed.natAbs < 256)) :=
  ⟨⟨(wZspD (wSet wHold [(REF_CTL_EN, 0, 1)]) : State), (7 : Nat), (true : Bool), _, _, _, _, _, _, zspMayOf (by decide +kernel), rfl, rfl, rfl, pairOf (by decide +kernel), pairOf rfl, by decide +kernel⟩,
   ⟨(wJobOk : State), (7 : Nat), (true : Bool), _, _, _, _, _, zspMayOf (by decide +kernel), rfl, rfl, rfl, pairOf wJobOk_enable, pairOf wJobOk_run, by decide +kernel⟩⟩

/-- The premises of clauses of Obligations.JobCommands are met. -/
theorem witness_JobCommands_4 :
    (∃ s : State, ∃ sid : Nat, (s.zspMay sid 2) ∧ (s.zsp.job = .noJob ∨ s.zsp.job = .cal ∨ s.zsp.ending.isSome = true)) ∧
    (∃ s : State, ∃ sid : Nat, (s.zspMay sid 2) ∧ (s.zsp.job = .jobRun ∨ s.zsp.job = .jobHold) ∧ (s.zsp.ending = none) ∧ (s.inHold = true)) :=
  ⟨⟨({ wZspD wHold with zsp := { sessions := [(7, wDat)], job := .cal } } : State), (7 : Nat), zspMayOf (by decide +kernel), by decide +kernel⟩,
   ⟨({ wZspD wHold with zsp := { sessions := [(7, wDat)], job := .jobHold } } : State), (7 : Nat), zspMayOf (by decide +kernel), by decide +kernel⟩⟩

/-- The premises of clauses of Obligations.JobCommands are met. -/
theorem witness_JobCommands_5 :
    (∃ s : State, ∃ sid : Nat, (s.zspMay sid 2) ∧ (s.mayWrite 41 .SYS_PWRCMD 0) ∧ (s.zsp.job = .jobRun ∨ s.zsp.job = .jobHold) ∧ (s.zsp.ending = none) ∧ (s.inRun = true)) ∧
    (∃ s : State, ∃ sid : Nat, (s.zspMay sid 2) ∧ (s.zsp.job ≠ .noJob ∨ s.zsp.ending.isSome = true ∨ s.inHoldIdle = false ∨ s.fld TICK_CTL_SRC ≠ 3 ∨ s.on RPT_CTL_EN = true)) :=
  ⟨⟨({ wTgt (wZspD wRun) .SYS_PWRCMD 41 with zsp := { sessions := [(7, wDat)], job := .jobRun } } : State), (7 : Nat), zspMayOf (by decide +kernel), reachT (by decide +kernel), by decide +kernel⟩,
   ⟨(wZspD wHold : State), (7 : Nat), zspMayOf (by decide +kernel), by decide +kernel⟩⟩

/-- The premises of clauses of Obligations.JobCommands are met. -/
theorem witness_JobCommands_6 :
    (∃ s : State, ∃ sid : Nat, ∃ r : Nat, ∃ t : State, (s.zspMay sid 2) ∧ (s.askRun (ofSigned 48 s.tick.hw) = (r, t)) ∧ (s.zsp.job = .noJob) ∧ (s.zsp.ending = none) ∧ (s.inHoldIdle = true) ∧ (s.fld TICK_CTL_SRC = 3) ∧ (s.on RPT_CTL_EN = false) ∧ (r = rOK)) ∧
    (∃ s : State, ∃ sid : Nat, ∃ r : Nat, ∃ t : State, (s.zspMay sid 2) ∧ (s.askRun (ofSigned 48 s.tick.hw) = (r, t)) ∧ (s.zsp.job = .noJob) ∧ (s.zsp.ending = none) ∧ (s.inHoldIdle = true) ∧ (s.fld TICK_CTL_SRC = 3) ∧ (s.on RPT_CTL_EN = false) ∧ (r ≠ rOK)) :=
  ⟨⟨(wTgt (wZspD (wSet wHold [(TICK_CTL_SRC, 0, 3), (SYS_PSTAT_VALID, 0, 1)])) .SYS_PWRCMD 41 : State), (7 : Nat), _, _, zspMayOf (by decide +kernel), pairOf rfl, by decide +kernel⟩,
   ⟨(wTgt (wZspD (wSet wHold [(TICK_CTL_SRC, 0, 3)])) .SYS_PWRCMD 41 : State), (7 : Nat), _, _, zspMayOf (by decide +kernel), pairOf rfl, by decide +kernel⟩⟩

/-- The premises of clauses of Obligations.JobCommands are met. -/
theorem witness_JobCommands_7 :
    (∃ s : State, ∃ sid : Nat, (s.zspMay sid 2) ∧ (s.zsp.job ≠ .cal)) ∧
    (∃ s : State, ∃ sid : Nat, (s.zspMay sid 2) ∧ (s.mayWrite 41 .SYS_PWRCMD 0) ∧ (s.zsp.job = .cal) ∧ (s.inRun = true)) :=
  ⟨⟨(wZspD wHold : State), (7 : Nat), zspMayOf (by decide +kernel), by decide +kernel⟩,
   ⟨({ wTgt (wZspD wRun) .SYS_PWRCMD 41 with zsp := { sessions := [(7, wDat)], job := .cal } } : State), (7 : Nat), zspMayOf (by decide +kernel), reachT (by decide +kernel), by decide +kernel⟩⟩

/-- The premises of clauses of Obligations.JobCommands are met. -/
theorem witness_JobCommands_8 :
    (∃ s : State, ∃ sid : Nat, (s.zspMay sid 2) ∧ (s.zsp.job ≠ .noJob)) ∧
    (∃ s : State, ∃ sid : Nat, (s.zspMay sid 2) ∧ (s.mayWrite 41 .SYS_PWRCMD 0) ∧ (s.zsp.job = .noJob) ∧ (s.zsp.ending = none)) :=
  ⟨⟨({ wZspD wHold with zsp := { sessions := [(7, wDat)], job := .jobHold } } : State), (7 : Nat), zspMayOf (by decide +kernel), by decide +kernel⟩,
   ⟨(wTgt (wZspD wHold) .SYS_PWRCMD 41 : State), (7 : Nat), zspMayOf (by decide +kernel), reachT (by decide +kernel), by decide +kernel⟩⟩

/-- The premises of clauses of Obligations.JobCommands are met. -/
theorem witness_JobCommands_9 :
    (∃ s : State, ∃ p : RefPage, ∃ b : Nat, (s.serving = true) ∧ (s.on REF_CTL_EN = true) ∧ (s.refMode = true) ∧ (s.livePages = [p]) ∧ (s.bandsDue p = [b])) ∧
    (∃ s : State, (s.drainOver = false)) :=
  ⟨⟨({ wZsp (wSet wRun [(REF_CTL_EN, 0, 1), (REF_TILE_TILEW, 0, 1), (REF_RWIDTH_WIDTH, 0, 1)]) with engs := [(0, { prog := some wProgR })], ref := { pages := [wPg] }, tick := { hw := 1000 } } : State), (wPg : RefPage), (0 : Nat), by decide +kernel⟩,
   ⟨(wHold : State), by decide +kernel⟩⟩

/-- The premises of clauses of Obligations.JobCommands are met. -/
theorem witness_JobCommands_10 :
    ∃ s : State, (s.drainOver = true) ∧ (s.zsp.ending = none) :=
  ⟨({ wRun with pwr := { st := .run, drain := true, holdLine := 9, drainAt := 600 } } : State), by decide +kernel⟩

/-- The premises of clauses of Obligations.ProfileRecordAndCropClasses are met. -/
theorem witness_ProfileRecordAndCropClasses_1 :
    (∃ s : State, ∃ sid : Nat, ∃ total : Word, ∃ ofs : Word, ∃ part : List Byte, (s.zspMay sid 3) ∧ (total.toNat < ofs.toNat + part.length)) ∧
    (∃ s : State, ∃ sid : Nat, ∃ total : Word, ∃ ofs : Word, ∃ part : List Byte, (s.zspMay sid 3) ∧ (s.zsp.upload = none) ∧ (ofs.toNat + part.length ≤ total.toNat) ∧ (part.length < total.toNat)) :=
  ⟨⟨(wZspD wHold : State), (7 : Nat), (0 : Word), (0 : Word), ([1] : List Byte), zspMayOf (by decide +kernel), by decide +kernel⟩,
   ⟨(wZspD wHold : State), (7 : Nat), (2 : Word), (1 : Word), ([1] : List Byte), zspMayOf (by decide +kernel), by decide +kernel⟩⟩

/-- The premises of clauses of Obligations.ProfileRecordAndCropClasses are met. -/
theorem witness_ProfileRecordAndCropClasses_2 :
    (∃ s : State, ∃ sid : Nat, ∃ total : Word, ∃ ofs : Word, ∃ part : List Byte, ∃ r : Nat, ∃ t : State, (s.zspMay sid 3) ∧ (ofs = 0) ∧ (({ s with zsp := { s.zsp with upload := none } } : State).profStore part = (r, t)) ∧ (s.zsp.upload = none) ∧ (part.length = total.toNat)) ∧
    (∃ s : State, ∃ a : Ask, ∃ q : Fin 5, (∀ i < 8, s.mayWrite 41 .ETH_MB_REQ (q * 8 + i)) ∧ (s.mayWrite 41 .ETH_MB_CTL q) ∧ (s.zsp.asks.find? (fun a => a.mb == q.val) = some a) ∧ (a.posted = false) ∧ (s.on ETH_MB_CTL_BUSY q = false)) :=
  ⟨⟨(wZspD wHold : State), (7 : Nat), (1 : Word), _, ([1] : List Byte), _, _, zspMayOf (by decide +kernel), rfl, pairOf rfl, by decide +kernel⟩,
   ⟨(wTgt { wHold with zsp := { asks := [⟨4, .client 7 7 1 1, [1], false⟩] } } .ETH_MB_REQ 41 : State), (⟨4, .client 7 7 1 1, [1], false⟩ : Ask), (4 : Fin 5), reachAll (by decide +kernel), reachT (by decide +kernel), by decide +kernel⟩⟩

/-- The premises of clauses of Obligations.ProfileRecordAndCropClasses are met. -/
theorem witness_ProfileRecordAndCropClasses_3 :
    (∃ s : State, ∃ sid : Nat, ∃ c : Session, (s.zspMay sid 4) ∧ (s.session sid = some c) ∧ (c.sub.isSome = true)) ∧
    (∃ s : State, ∃ sid : Nat, ∃ c : Session, (s.zspMay sid 4) ∧ (s.session sid = some c) ∧ (c.sub = none)) :=
  ⟨⟨({ wZspD wHold with zsp := { sessions := [(7, { wDat with sub := some wSub })] } } : State), (7 : Nat), ({ wDat with sub := some wSub } : Session), zspMayOf (by decide +kernel), by decide +kernel⟩,
   ⟨(wZspD wHold : State), (7 : Nat), (wDat : Session), zspMayOf (by decide +kernel), by decide +kernel⟩⟩

/-- The premises of clauses of Obligations.ProfileRecordAndCropClasses are met. -/
theorem witness_ProfileRecordAndCropClasses_4 :
    (∃ s : State, (s.serving = false)) ∧
    (∃ s : State, ∃ sid : Nat, (s.serving = true) ∧ (s.session sid = none)) :=
  ⟨⟨(wHold : State), by decide +kernel⟩,
   ⟨(wZspD wHold : State), (8 : Nat), by decide +kernel⟩⟩

/-- The premises of clauses of Obligations.ProfileRecordAndCropClasses are met. -/
theorem witness_ProfileRecordAndCropClasses_5 :
    (∃ s : State, (s.qOcc = 1) ∧ (s.zsp.store.length < 2097152)) ∧
    (∃ s : State, ∃ sid : Nat, ∃ c : Session, ∃ u : Subscription, (s.serving = true) ∧ (s.qOcc = 0) ∧ (s.session sid = some c) ∧ (c.sub = some u) ∧ (s.on ETH_HWACT_STOP_REPORTS = true)) :=
  ⟨⟨(wSet wHold [(RPT_QWR_SEQ, 0, 1)] : State), by decide +kernel⟩,
   ⟨({ wZspD (wSet wHold [(ETH_HWACT_STOP_REPORTS, 0, 1)]) with zsp := { sessions := [(7, { wDat with sub := some wSub })] } } : State), (7 : Nat), ({ wDat with sub := some wSub } : Session), (wSub : Subscription), by decide +kernel⟩⟩

/-- The premises of clauses of Obligations.ProfileRecordAndCropClasses are met. -/
theorem witness_ProfileRecordAndCropClasses_6 :
    (∃ s : State, ∃ sid : Nat, ∃ c : Session, ∃ u : Subscription, (s.serving = true) ∧ (s.qOcc = 0) ∧ (s.session sid = some c) ∧ (c.sub = some u) ∧ (s.on ETH_HWACT_STOP_REPORTS = false)) ∧
    (∃ s : State, ∃ sid : Nat, ∃ h : Word, ∃ e : List Byte, ∃ x : State, (s.zspMay sid 5) ∧ (s.anyRead 41 (s.wide .RPT_CIBASE_LO .RPT_CIBASE_HI + 16 * (h.toNat % 65536)) 16 = (rOK, e, x)) ∧ (leNat ((e.drop 12).take 1) = 1) ∧ ((∃ c ∈ x.rpt.crops, c.handle = h.toNat) ∨ ∃ c, x.rpt.copy = some c ∧ c.handle = h.toNat)) :=
  ⟨⟨({ wZspD (wSet wHold []) with zsp := { sessions := [(7, { wDat with sub := some wSub })] } } : State), (7 : Nat), ({ wDat with sub := some wSub } : Session), (wSub : Subscription), by decide +kernel⟩,
   ⟨(wPool (wSet (wZspD { wHold with rpt := { crops := [⟨0, 0, 0, 0, 0, 2, 0, 0, false⟩] } }) [(RPT_CIBASE_LO_ADDR_L, 0, 0x14000000), (RPT_CSBASE_LO_ADDR_L, 0, 0x14000100)]) (leBytes 12 0 ++ [1]) : State), (7 : Nat), (0 : Word), _, _, zspMayOf (by decide +kernel), tripleOf (by decide +kernel), by decide +kernel⟩⟩

/-- The premises of clauses of Obligations.ProfileRecordAndCropClasses are met. -/
theorem witness_ProfileRecordAndCropClasses_7 :
    (∃ s : State, ∃ sid : Nat, ∃ h : Word, ∃ e : List Byte, ∃ x : State, (s.zspMay sid 5) ∧ (s.anyRead 41 (s.wide .RPT_CIBASE_LO .RPT_CIBASE_HI + 16 * (h.toNat % 65536)) 16 = (rOK, e, x)) ∧ (∀ c, x.rpt.copy = some c → c.handle ≠ h.toNat) ∧ (leNat ((e.drop 12).take 1) = 1) ∧ (∀ c ∈ x.rpt.crops, c.handle ≠ h.toNat)) ∧
    (∃ s : State, ∃ sid : Nat, ∃ h : Word, ∃ e : List Byte, ∃ x : State, (s.zspMay sid 5) ∧ (s.anyRead 41 (s.wide .RPT_CIBASE_LO .RPT_CIBASE_HI + 16 * (h.toNat % 65536)) 16 = (rOK, e, x)) ∧ (leNat ((e.drop 12).take 1) ≠ 1) ∧ (leNat ((e.drop 12).take 1) ≠ 2)) :=
  ⟨⟨(wPool (wSet (wZspD { wHold with rpt := { crops := [] } }) [(RPT_CIBASE_LO_ADDR_L, 0, 0x14000000), (RPT_CSBASE_LO_ADDR_L, 0, 0x14000100)]) (leBytes 12 0 ++ [1]) : State), (7 : Nat), (0 : Word), _, _, zspMayOf (by decide +kernel), tripleOf (by decide +kernel), noneOf (by decide +kernel), by decide +kernel⟩,
   ⟨(wPool (wSet (wZspD { wHold with rpt := { crops := [] } }) [(RPT_CIBASE_LO_ADDR_L, 0, 0x14000000), (RPT_CSBASE_LO_ADDR_L, 0, 0x14000100)]) (leBytes 12 0 ++ [3]) : State), (7 : Nat), (0 : Word), _, _, zspMayOf (by decide +kernel), tripleOf (by decide +kernel), by decide +kernel⟩⟩

/-- The premises of clauses of Obligations.ProfileRecordAndCropClasses are met. -/
theorem witness_ProfileRecordAndCropClasses_8 :
    (∃ s : State, ∃ sid : Nat, ∃ h : Word, ∃ e : List Byte, ∃ x : State, ∃ a : Nat, ∃ hd : List Byte, ∃ y : State, (s.zspMay sid 5) ∧ (s.anyRead 41 (s.wide .RPT_CIBASE_LO .RPT_CIBASE_HI + 16 * (h.toNat % 65536)) 16 = (rOK, e, x)) ∧ (a = x.wide .RPT_CSBASE_LO .RPT_CSBASE_HI + leNat ((e.drop 0).take 8)) ∧ (x.anyRead 41 a 32 = (rOK, hd, y)) ∧ (leNat ((e.drop 12).take 1) = 2) ∧ (leNat (hd.take 4) ≠ h.toNat)) ∧
    (∃ s : State, ∃ sid : Nat, ∃ h : Word, ∃ e : List Byte, ∃ x : State, ∃ a : Nat, ∃ hd : List Byte, ∃ y : State, ∃ d : List Byte, ∃ z : State, (s.zspMay sid 5) ∧ (s.anyRead 41 (s.wide .RPT_CIBASE_LO .RPT_CIBASE_HI + 16 * (h.toNat % 65536)) 16 = (rOK, e, x)) ∧ (a = x.wide .RPT_CSBASE_LO .RPT_CSBASE_HI + leNat ((e.drop 0).take 8)) ∧ (x.anyRead 41 a 32 = (rOK, hd, y)) ∧ (y.anyRead 41 (a + 32) (leNat ((hd.drop 24).take 4)) = (rOK, d, z)) ∧ (leNat ((e.drop 12).take 1) = 2) ∧ (leNat (hd.take 4) = h.toNat)) :=
  ⟨⟨(wPool (wSet (wZspD { wHold with rpt := { crops := [] } }) [(RPT_CIBASE_LO_ADDR_L, 0, 0x14000000), (RPT_CSBASE_LO_ADDR_L, 0, 0x14000100)]) (leBytes 28 0 ++ [2]) : State), (7 : Nat), (1 : Word), _, _, _, _, _, zspMayOf (by decide +kernel), tripleOf (by decide +kernel), rfl, tripleOf (by decide +kernel), by decide +kernel⟩,
   ⟨(wPool (wSet (wZspD { wHold with rpt := { crops := [] } }) [(RPT_CIBASE_LO_ADDR_L, 0, 0x14000000), (RPT_CSBASE_LO_ADDR_L, 0, 0x14000100)]) (leBytes 12 0 ++ [2]) : State), (7 : Nat), (0 : Word), _, _, _, _, _, _, _, zspMayOf (by decide +kernel), tripleOf (by decide +kernel), rfl, tripleOf (by decide +kernel), tripleOf (by decide +kernel), by decide +kernel⟩⟩

/-- The premises of clauses of Obligations.ProfileRecordAndCropClasses are met. -/
theorem witness_ProfileRecordAndCropClasses_9 :
    (∃ s : State, ∃ sid : Nat, ∃ level : Byte, (s.zspMay sid 6) ∧ (9 < level.toNat)) ∧
    (∃ s : State, ∃ sid : Nat, ∃ first : Word, ∃ last : Word, ∃ level : Byte, ∃ l : List (Nat × List Byte), ∃ t : State, ∃ a : Nat × List Byte, ∃ b : Nat × List Byte, (s.zspMay sid 6) ∧ (s.archived first.toNat last.toNat = (l, t)) ∧ (level.toNat ≤ 9) ∧ (l.head? = some a) ∧ (l.getLast? = some b)) :=
  ⟨⟨(wZspD wHold : State), (7 : Nat), (10 : Byte), zspMayOf (by decide +kernel), by decide +kernel⟩,
   ⟨(wPool (wSet (wZspD wHold) [(RPT_RMBASE_LO_ADDR_L, 0, 0x14000000), (RPT_RMLOG_RMLOG, 0, 0), (RPT_RMWR_WR, 0, 1)]) ([0, 0, 0, 1]) : State), (7 : Nat), (0 : Word), (0 : Word), (9 : Byte), _, _, ((0, [0, 0, 0, 1] ++ List.replicate 124 0) : Nat × List Byte), ((0, [0, 0, 0, 1] ++ List.replicate 124 0) : Nat × List Byte), zspMayOf (by decide +kernel), pairOf rfl, by decide +kernel⟩⟩

/-- The premises of clauses of Obligations.ProfileRecordAndCropClasses are met. -/
theorem witness_ProfileRecordAndCropClasses_10 :
    ∃ s : State, ∃ sid : Nat, ∃ first : Word, ∃ last : Word, ∃ level : Byte, ∃ l : List (Nat × List Byte), ∃ t : State, (s.zspMay sid 6) ∧ (s.archived first.toNat last.toNat = (l, t)) ∧ (level.toNat ≤ 9) ∧ (l = []) :=
  ⟨(wPool (wSet (wZspD wHold) [(RPT_RMBASE_LO_ADDR_L, 0, 0x14000000), (RPT_RMLOG_RMLOG, 0, 0), (RPT_RMWR_WR, 0, 1)]) ([]) : State), (7 : Nat), (5 : Word), (6 : Word), (9 : Byte), _, _, zspMayOf (by decide +kernel), pairOf rfl, by decide +kernel⟩

/-- The premises of clauses of Obligations.MetrologyAndDiagnosticsClasses are met. -/
theorem witness_MetrologyAndDiagnosticsClasses_1 :
    (∃ s : State, ∃ sid : Nat, ∃ c : Session, (s.serving = true) ∧ (s.session sid = some c) ∧ (c.may 7 = false ∨ c.role ≠ .service)) ∧
    (∃ s : State, ∃ sid : Nat, ∃ k : List Byte, ∃ i : List Byte, ∃ x : State, ∃ y : State, (s.zspMay sid 7) ∧ (s.regsRead 41 (regAddr .FL_TKEY 0) 15 = (rOK, k, x)) ∧ (x.regsRead 41 (regAddr .FL_TKID_LO 0) 2 = (rOK, i, y))) ∧
    (∃ s : State, ∃ sid : Nat, ∃ v : Word, ∃ c : Session, ∃ ofs : Word, ∃ part : List Byte, (s.serving = true) ∧ (s.session sid = some c) ∧ (c.may 7 = true) ∧ (c.role = .service) ∧ (v.toNat < ofs.toNat + part.length)) ∧
    (∃ s : State, ∃ sid : Nat, ∃ v : Word, ∃ c : Session, ∃ ofs : Word, ∃ part : List Byte, (s.serving = true) ∧ (s.session sid = some c) ∧ (c.may 7 = true) ∧ (c.role = .service) ∧ (s.zsp.install = none) ∧ (ofs.toNat + part.length ≤ v.toNat) ∧ (part.length < v.toNat)) :=
  ⟨⟨(wZsp wHold : State), (7 : Nat), (wCtl : Session), by decide +kernel⟩,
   ⟨(wTgt (wZspD wHold) .FL_TKEY 41 : State), (7 : Nat), _, _, _, _, zspMayOf (by decide +kernel), tripleOf (by decide +kernel), tripleOf (by decide +kernel)⟩,
   ⟨(wZspD wHold : State), (7 : Nat), (0 : Word), (wDat : Session), (0 : Word), ([1] : List Byte), by decide +kernel⟩,
   ⟨(wZspD wHold : State), (7 : Nat), (2 : Word), (wDat : Session), (1 : Word), ([1] : List Byte), by decide +kernel⟩⟩

/-- The premises of clauses of Obligations.MetrologyAndDiagnosticsClasses are met. -/
theorem witness_MetrologyAndDiagnosticsClasses_2 :
    (∃ s : State, ∃ sid : Nat, ∃ v : Word, ∃ c : Session, ∃ ofs : Word, ∃ part : List Byte, ∃ a : Nat, ∃ t : State, (ofs = 0) ∧ (a = poolBase + s.free % (0x1000000 - part.length + 1)) ∧ (s.drawn.anyWrite 41 a part = (rOK, t)) ∧ (s.serving = true) ∧ (s.session sid = some c) ∧ (c.may 7 = true) ∧ (c.role = .service) ∧ (s.zsp.install = none) ∧ (part.length = v.toNat) ∧ (part.length ≤ 0x1000000)) ∧
    (∃ s : State, ∃ sid : Nat, ∃ n : Word, (s.zspMay sid 8) ∧ (n = 0 ∨ 256 < n.toNat)) ∧
    (∃ s : State, ∃ sid : Nat, ∃ a : BitVec 64, ∃ n : Word, ∃ r : Nat, ∃ b : List Byte, ∃ t : State, (s.zspMay sid 8) ∧ (s.wordsRead a.toNat n.toNat = (r, b, t)) ∧ (n ≠ 0) ∧ (n.toNat ≤ 256)) ∧
    (∃ s : State, ∃ sid : Nat, ∃ n : Word, (s.zspMay sid 8) ∧ (n = 1)) :=
  ⟨⟨(wPool (wZspD wHold) [] : State), (7 : Nat), (0 : Word), (wDat : Session), _, ([] : List Byte), _, _, rfl, rfl, wInstall _, by decide +kernel⟩,
   ⟨(wZspD wHold : State), (7 : Nat), (257 : Word), zspMayOf (by decide +kernel), by decide +kernel⟩,
   ⟨(wZspD wHold : State), (7 : Nat), (0 : BitVec 64), (1 : Word), _, _, _, zspMayOf (by decide +kernel), tripleOf rfl, by decide +kernel⟩,
   ⟨(wZspD wHold : State), (7 : Nat), (1 : Word), zspMayOf (by decide +kernel), by decide +kernel⟩⟩

/-- The premises of clauses of Obligations.MetrologyAndDiagnosticsClasses are met. -/
theorem witness_MetrologyAndDiagnosticsClasses_3 :
    (∃ s : State, ∃ sid : Nat, ∃ r : Nat, ∃ b : List Byte, ∃ t : State, (s.zspMay sid 8) ∧ (s.anyRead 41 (poolBase + 0xFFF000) 256 = (r, b, t))) ∧
    (∃ s : State, ∃ sid : Nat, ∃ nonce : List Byte, ∃ b : List Byte, ∃ r : Nat, ∃ x : State, ∃ y : State, ∃ z : State, (s.zspMay sid 8) ∧ (s.regsWrite 41 (regAddr .SEC_QNONCE 0) 8 (fit 32 nonce) = (rOK, x)) ∧ (y = (x.quoteEnd.coreWrite 41 .SEC_QCMD 0 1).quoteEnd) ∧ (y.regsRead 41 (regAddr .SEC_QOUT 0) 192 = (r, b, z)) ∧ (y.resp.code = rOK) ∧ (y.fld SEC_QRES_RESULT = rOK)) ∧
    (∃ s : State, ∃ sid : Nat, ∃ nonce : List Byte, ∃ x : State, ∃ y : State, (s.zspMay sid 8) ∧ (s.regsWrite 41 (regAddr .SEC_QNONCE 0) 8 (fit 32 nonce) = (rOK, x)) ∧ (y = (x.quoteEnd.coreWrite 41 .SEC_QCMD 0 1).quoteEnd) ∧ (y.resp.code = rOK) ∧ (y.fld SEC_QRES_RESULT ≠ rOK)) ∧
    (∃ s : State, ∃ sid : Nat, ∃ log : Byte, (s.zspMay sid 8) ∧ (2 < log.toNat)) :=
  ⟨⟨(wZspD wHold : State), (7 : Nat), _, _, _, zspMayOf (by decide +kernel), tripleOf rfl⟩,
   ⟨(wTgt { wZspD wHold with sec := { lc := 1, idPub := [1] } } .SEC_QCMD 41 : State), (7 : Nat), (List.replicate 32 5 : List Byte), _, _, _, _, _, zspMayOf (by decide +kernel), pairOf (by decide +kernel), rfl, tripleOf rfl, by decide +kernel⟩,
   ⟨(wTgt { wZspD wHold with sec := { lc := 0, idPub := [1] } } .SEC_QCMD 41 : State), (7 : Nat), (List.replicate 32 5 : List Byte), _, _, zspMayOf (by decide +kernel), pairOf (by decide +kernel), rfl, by decide +kernel⟩,
   ⟨(wZspD wHold : State), (7 : Nat), (3 : Byte), zspMayOf (by decide +kernel), by decide +kernel⟩⟩

/-- The premises of clauses of Obligations.MetrologyAndDiagnosticsClasses are met. -/
theorem witness_MetrologyAndDiagnosticsClasses_4 :
    (∃ s : State, ∃ sid : Nat, ∃ log : Byte, (s.zspMay sid 8) ∧ (log.toNat = 0)) ∧
    (∃ s : State, ∃ sid : Nat, ∃ log : Byte, ∃ r : Nat, ∃ ds : List Nat, ∃ t : State, (s.zspMay sid 8) ∧ (s.coreRegs (logRegs log.toNat) = (r, ds, t)) ∧ (log.toNat = 1 ∨ log.toNat = 2) ∧ (r ≠ rOK)) ∧
    (∃ s : State, ∃ sid : Nat, ∃ log : Byte, ∃ r : Nat, ∃ ds : List Nat, ∃ t : State, (s.zspMay sid 8) ∧ (s.coreRegs (logRegs log.toNat) = (r, ds, t)) ∧ (log.toNat = 1 ∨ log.toNat = 2) ∧ (r = rOK)) ∧
    (∃ s : State, ∃ q : Reg, ∃ i : Nat, ∃ l : List (Reg × Nat), ∃ c : Nat, ∃ ds : List Nat, ∃ t : State, ((s.regReadAt 41 (regAddr q i) 4).coreRegs l = (c, ds, t)) ∧ ((s.regReadAt 41 (regAddr q i) 4).resp.code = rDENIED)) :=
  ⟨⟨(wZspD wHold : State), (7 : Nat), (0 : Byte), zspMayOf (by decide +kernel), by decide +kernel⟩,
   ⟨(wZspD wHold : State), (7 : Nat), (2 : Byte), _, _, _, zspMayOf (by decide +kernel), tripleOf rfl, by decide +kernel⟩,
   ⟨(wTgt (wZspD wHold) .SEC_STAT 41 : State), (7 : Nat), (1 : Byte), _, _, _, zspMayOf (by decide +kernel), tripleOf rfl, by decide +kernel⟩,
   ⟨(wHold : State), (.SEC_STAT : Reg), (0 : Nat), ([(.SEC_LC, 0)] : List (Reg × Nat)), _, _, _, tripleOf rfl, by decide +kernel⟩⟩

/-- The premises of clauses of Obligations.SignalFilterAndDetectors are met. -/
theorem witness_SignalFilterAndDetectors_1 :
    (∃ s : State, (s.live = false)) ∧
    (∃ s : State, ∃ k : Fin 16, (s.live = true) ∧ (s.sigOn k = false)) ∧
    (∃ s : State, ∃ k : Fin 16, ∃ bs : List Bool, ∃ c : SigCh, ∃ g : SigCh, (g = (if (s.sig k).fade.any (fun f => decide (f.2 ≤ f.1)) then (s.sig k).fadeEnd else s.sig k)) ∧ (c = bs.foldl SigCh.bit (s.sig k)) ∧ (s.live = true) ∧ (s.sigOn k = true) ∧ (bs.length = s.sigM k)) ∧
    (∃ s : State, ∃ k : Fin 16, ∃ a : List Bool, ∃ b : Bool, ∃ c : SigCh, (c = a.foldl SigCh.bit (s.sig k)) ∧ (c.stuck = false) ∧ (256 ≤ c.same) ∧ (b ≠ c.last)) :=
  ⟨⟨({ pwr := { st := .standby } } : State), by decide +kernel⟩,
   ⟨(wSet wHold [(SIG_CTL_EN, 0, 1)] : State), (15 : Fin 16), by decide +kernel⟩,
   ⟨(wSet { wHold with sigs := [(15, { fade := some (4, 4) })] } [(SIG_CTL_EN, 0, 1), (SIG_K_CFG_EN, 15, 1), (SIG_CTL_FR, 0, 2), (SIG_K_CFG_N, 15, 0)] : State), (15 : Fin 16), ([true, false] : List Bool), _, _, rfl, rfl, by decide +kernel⟩,
   ⟨(wSet { wHold with sigs := [(15, { same := 256 })] } [(SIG_CTL_EN, 0, 1), (SIG_K_CFG_EN, 15, 1)] : State), (15 : Fin 16), ([] : List Bool), (true : Bool), _, rfl, by decide +kernel⟩⟩

/-- The premises of clauses of Obligations.SignalFilterAndDetectors are met. -/
theorem witness_SignalFilterAndDetectors_2 :
    (∃ s : State, ∃ k : Fin 16, (s.live = true) ∧ (s.sigOn k = true) ∧ ((s.sig k).stuck = true ∨ (s.sig k).same < 256)) ∧
    (∃ s : State, ∃ k : Fin 16, (s.live = true) ∧ (s.sigOn k = true) ∧ ((s.sig k).stuck = false) ∧ (256 ≤ (s.sig k).same)) ∧
    (∃ s : State, ∃ k : Fin 16, (s.live = true) ∧ (s.sigOn k = true) ∧ ((s.sig k).sync = false)) ∧
    (∃ s : State, ∃ k : Fin 16, (s.live = true) ∧ (s.sigOn k = true) ∧ ((s.sig k).sync = true)) :=
  ⟨⟨(wSet { wHold with sigs := [(15, { same := 255 })] } [(SIG_CTL_EN, 0, 1), (SIG_K_CFG_EN, 15, 1)] : State), (15 : Fin 16), by decide +kernel⟩,
   ⟨(wSet { wHold with sigs := [(15, { same := 256 })] } [(SIG_CTL_EN, 0, 1), (SIG_K_CFG_EN, 15, 1)] : State), (15 : Fin 16), by decide +kernel⟩,
   ⟨(wSet { wHold with sigs := [(15, {  })] } [(SIG_CTL_EN, 0, 1), (SIG_K_CFG_EN, 15, 1)] : State), (15 : Fin 16), by decide +kernel⟩,
   ⟨(wSet { wHold with sigs := [(15, { sync := true })] } [(SIG_CTL_EN, 0, 1), (SIG_K_CFG_EN, 15, 1)] : State), (15 : Fin 16), by decide +kernel⟩⟩

/-- The premises of clauses of Obligations.SignalFilterAndDetectors are met. -/
theorem witness_SignalFilterAndDetectors_3 :
    (∃ s : State, ∃ k : Fin 16, (s.live = true) ∧ (s.sigFull k = false)) ∧
    (∃ s : State, ∃ k : Fin 16, ∃ pk : Nat, ∃ rms : Nat, (pk = (s.sig k).wmax) ∧ (rms = isqrt ((s.sig k).wsq / 2 ^ s.fld SIG_K_CFG_WLOG k)) ∧ (s.live = true) ∧ (s.sigFull k = true)) :=
  ⟨⟨(wSet wHold [(SIG_K_CFG_WLOG, 15, 1)] : State), (15 : Fin 16), by decide +kernel⟩,
   ⟨(wSet { wHold with sigs := [(15, { wn := 2, wmax := 7, wsq := 50 })] } [(SIG_K_CFG_WLOG, 15, 1)] : State), (15 : Fin 16), _, _, rfl, rfl, by decide +kernel⟩⟩

/-- The premises of clauses of Obligations.SignalOutputsAndBanks are met. -/
theorem witness_SignalOutputsAndBanks_1 :
    (∃ s : State, (s.live = true) ∧ (s.on SIG_CTL_EN = false)) ∧
    (∃ s : State, ∃ k : Fin 16, ∃ inv : Bool, ∃ i : Int, ∃ st : Bool, (inv = (!s.on SIG_K_CFG_EN k || ((s.sig k).stuck || decide (256 ≤ (s.sig k).same)) || (s.on SIG_K_CFG_DETINV k && ((s.sig k).badPk || (s.sig k).badRms || (s.sig k).badEnv)))) ∧ (i = (((s.sig k).nout + 1) * s.fld SIG_K_OPER_PERIOD k : Nat)) ∧ (st = decide ((s.sigPlace k i).1 + 4 < 75)) ∧ (s.live = true) ∧ (s.on SIG_CTL_EN = true) ∧ (s.on SIG_K_CFG_MODE k = false) ∧ (s.sigReady k i = false)) ∧
    (∃ s : State, ∃ k : Fin 16, ∃ inv : Bool, ∃ i : Int, ∃ st : Bool, (inv = (!s.on SIG_K_CFG_EN k || ((s.sig k).stuck || decide (256 ≤ (s.sig k).same)) || (s.on SIG_K_CFG_DETINV k && ((s.sig k).badPk || (s.sig k).badRms || (s.sig k).badEnv)))) ∧ (i = (((s.sig k).nout + 1) * s.fld SIG_K_OPER_PERIOD k : Nat)) ∧ (st = decide ((s.sigPlace k i).1 + 4 < 75)) ∧ (s.live = true) ∧ (s.on SIG_CTL_EN = true) ∧ (s.on SIG_K_CFG_MODE k = false) ∧ (s.sigReady k i = true)) ∧
    (∃ s : State, ∃ k : Fin 16, ∃ inv : Bool, (inv = (!s.on SIG_K_CFG_EN k || ((s.sig k).stuck || decide (256 ≤ (s.sig k).same)) || (s.on SIG_K_CFG_DETINV k && ((s.sig k).badPk || (s.sig k).badRms || (s.sig k).badEnv)))) ∧ (s.live = true) ∧ (s.on SIG_CTL_EN = true) ∧ (s.on SIG_K_CFG_MODE k = true) ∧ ((s.sig k).ticks = [])) :=
  ⟨⟨(wHold : State), by decide +kernel⟩,
   ⟨(wSet wHold [(SIG_CTL_EN, 0, 1), (SIG_K_CFG_EN, 0, 1), (SIG_K_CFG_MODE, 0, 0), (SIG_K_OPER_PERIOD, 0, 0), (SIG_CTL_FR, 0, 1), (SIG_CTL_SDDIV, 0, 1)] : State), (0 : Fin 16), _, _, _, rfl, rfl, rfl, by decide +kernel⟩,
   ⟨(wSet wHold [(SIG_CTL_EN, 0, 1), (SIG_K_CFG_MODE, 15, 0)] : State), (15 : Fin 16), _, _, _, rfl, rfl, rfl, by decide +kernel⟩,
   ⟨(wSet wHold [(SIG_CTL_EN, 0, 1), (SIG_K_CFG_MODE, 15, 1)] : State), (15 : Fin 16), _, rfl, by decide +kernel⟩⟩

/-- The premises of clauses of Obligations.SignalOutputsAndBanks are met. -/
theorem witness_SignalOutputsAndBanks_2 :
    (∃ s : State, ∃ k : Fin 16, ∃ inv : Bool, ∃ n : Int, ∃ t : Rat, ∃ lref : Nat, ∃ l : List (Int × Rat × Nat), ∃ st : Bool, (inv = (!s.on SIG_K_CFG_EN k || ((s.sig k).stuck || decide (256 ≤ (s.sig k).same)) || (s.on SIG_K_CFG_DETINV k && ((s.sig k).badPk || (s.sig k).badRms || (s.sig k).badEnv)))) ∧ (st = decide ((s.sigPlace k (t - ((s.sig k).t0 : Rat))).1 + 4 < 75)) ∧ (s.live = true) ∧ (s.on SIG_CTL_EN = true) ∧ (s.on SIG_K_CFG_MODE k = true) ∧ ((s.sig k).ticks = (n, t, lref) :: l) ∧ (s.sigReady k (t - ((s.sig k).t0 : Rat)) = false)) ∧
    (∃ s : State, ∃ k : Fin 16, ∃ inv : Bool, ∃ n : Int, ∃ t : Rat, ∃ lref : Nat, ∃ l : List (Int × Rat × Nat), ∃ st : Bool, (inv = (!s.on SIG_K_CFG_EN k || ((s.sig k).stuck || decide (256 ≤ (s.sig k).same)) || (s.on SIG_K_CFG_DETINV k && ((s.sig k).badPk || (s.sig k).badRms || (s.sig k).badEnv)))) ∧ (st = decide ((s.sigPlace k (t - ((s.sig k).t0 : Rat))).1 + 4 < 75)) ∧ (s.live = true) ∧ (s.on SIG_CTL_EN = true) ∧ (s.on SIG_K_CFG_MODE k = true) ∧ ((s.sig k).ticks = (n, t, lref) :: l) ∧ (s.sigReady k (t - ((s.sig k).t0 : Rat)) = true)) ∧
    (∃ s : State, (s.live = true) ∧ (s.mbReq 2 1 = none)) ∧
    (∃ s : State, ∃ ws : List Word, ∃ c : Nat, ∃ f : Nat, ∃ b : Bool, (c = bits (reqWord ws 1) 3 0) ∧ (b = (reqWord ws 1).testBit 8) ∧ (f = bits (reqWord ws 2) 12 0) ∧ (s.live = true) ∧ (s.mbReq 2 1 = some ws) ∧ (f = 0 ∨ 4096 < f)) :=
  ⟨⟨(wSet { wHold with sigs := [(0, { ticks := [(9, 4, 0)] })] } [(SIG_CTL_EN, 0, 1), (SIG_K_CFG_EN, 0, 1), (SIG_K_CFG_MODE, 0, 1), (SIG_CTL_FR, 0, 1), (SIG_CTL_SDDIV, 0, 1)] : State), (0 : Fin 16), _, (9 : Int), (4 : Rat), (0 : Nat), ([] : List (Int × Rat × Nat)), _, rfl, rfl, by decide +kernel⟩,
   ⟨(wSet { wHold with sigs := [(15, { ticks := [(9, 4, 0)] })] } [(SIG_CTL_EN, 0, 1), (SIG_K_CFG_MODE, 15, 1)] : State), (15 : Fin 16), _, (9 : Int), (4 : Rat), (0 : Nat), ([] : List (Int × Rat × Nat)), _, rfl, rfl, by decide +kernel⟩,
   ⟨(wHold : State), by decide +kernel⟩,
   ⟨(wSet { wHold with mboxes := [(2, { req := some [0x201, 0x10F, 4097] })] } [] : State), ([0x201, 0x10F, 4097] : List Word), _, _, _, rfl, rfl, rfl, by decide +kernel⟩⟩

/-- The premises of clauses of Obligations.SignalOutputsAndBanks are met. -/
theorem witness_SignalOutputsAndBanks_3 :
    (∃ s : State, ∃ ws : List Word, ∃ c : Nat, ∃ f : Nat, ∃ b : Bool, (c = bits (reqWord ws 1) 3 0) ∧ (b = (reqWord ws 1).testBit 8) ∧ (f = bits (reqWord ws 2) 12 0) ∧ (s.live = true) ∧ (s.mbReq 2 1 = some ws) ∧ (1 ≤ f) ∧ (f ≤ 4096) ∧ (s.on SIG_K_CFG_EN c = false)) ∧
    (∃ s : State, ∃ ws : List Word, ∃ c : Nat, ∃ f : Nat, ∃ b : Bool, (c = bits (reqWord ws 1) 3 0) ∧ (b = (reqWord ws 1).testBit 8) ∧ (f = bits (reqWord ws 2) 12 0) ∧ (s.live = true) ∧ (s.mbReq 2 1 = some ws) ∧ (1 ≤ f) ∧ (f ≤ 4096) ∧ (s.on SIG_K_CFG_EN c = true) ∧ (s.sigSettling c = true)) ∧
    (∃ s : State, ∃ ws : List Word, ∃ c : Nat, ∃ f : Nat, ∃ b : Bool, (c = bits (reqWord ws 1) 3 0) ∧ (b = (reqWord ws 1).testBit 8) ∧ (f = bits (reqWord ws 2) 12 0) ∧ (s.live = true) ∧ (s.mbReq 2 1 = some ws) ∧ (1 ≤ f) ∧ (f ≤ 4096) ∧ (s.on SIG_K_CFG_EN c = true) ∧ (s.sigSettling c = false) ∧ ((s.sig c).fade = none) ∧ (b = (s.sig c).active)) ∧
    (∃ s : State, ∃ ws : List Word, ∃ c : Nat, ∃ f : Nat, ∃ b : Bool, (c = bits (reqWord ws 1) 3 0) ∧ (b = (reqWord ws 1).testBit 8) ∧ (f = bits (reqWord ws 2) 12 0) ∧ (s.live = true) ∧ (s.mbReq 2 1 = some ws) ∧ (1 ≤ f) ∧ (f ≤ 4096) ∧ (s.on SIG_K_CFG_EN c = true) ∧ (s.sigSettling c = false) ∧ ((s.sig c).fade = none) ∧ (b ≠ (s.sig c).active)) :=
  ⟨⟨(wSet { wHold with mboxes := [(2, { req := some [0x201, 0x10F, 4096] })] } [] : State), ([0x201, 0x10F, 4096] : List Word), _, _, _, rfl, rfl, rfl, by decide +kernel⟩,
   ⟨(wSet { wHold with mboxes := [(2, { req := some [0x201, 0x10F, 1] })], sigs := [(15, { bitsIn := 74 })] } [(SIG_K_CFG_EN, 15, 1), (SIG_CTL_FR, 0, 1)] : State), ([0x201, 0x10F, 1] : List Word), _, _, _, rfl, rfl, rfl, by decide +kernel⟩,
   ⟨(wSet { wHold with mboxes := [(2, { req := some [0x201, 0xF, 1] })], sigs := [(15, { bitsIn := 75000 })] } [(SIG_K_CFG_EN, 15, 1), (SIG_CTL_FR, 0, 1)] : State), ([0x201, 0xF, 1] : List Word), _, _, _, rfl, rfl, rfl, by decide +kernel⟩,
   ⟨(wSet { wHold with mboxes := [(2, { req := some [0x201, 0x10F, 1] })], sigs := [(15, { bitsIn := 75000 })] } [(SIG_K_CFG_EN, 15, 1), (SIG_CTL_FR, 0, 1)] : State), ([0x201, 0x10F, 1] : List Word), _, _, _, rfl, rfl, rfl, by decide +kernel⟩⟩

/-- The premises of clauses of Obligations.SignalOutputsAndBanks are met. -/
theorem witness_SignalOutputsAndBanks_4 :
    (∃ s : State, ∃ ws : List Word, ∃ c : Nat, ∃ f : Nat, ∃ b : Bool, (c = bits (reqWord ws 1) 3 0) ∧ (b = (reqWord ws 1).testBit 8) ∧ (f = bits (reqWord ws 2) 12 0) ∧ (s.live = true) ∧ (s.mbReq 2 1 = some ws) ∧ (1 ≤ f) ∧ (f ≤ 4096) ∧ (s.on SIG_K_CFG_EN c = true) ∧ (s.sigSettling c = false) ∧ ((s.sig c).fade.isSome = true)) ∧
    (∃ s : State, ∃ k : Fin 16, (s.live = true) ∧ ((s.sig k).fade = none)) ∧
    (∃ s : State, ∃ k : Fin 16, ∃ j : Nat, ∃ f : Nat, (s.live = true) ∧ ((s.sig k).fade = some (j, f)) ∧ (j < f)) ∧
    (∃ s : State, ∃ k : Fin 16, ∃ j : Nat, ∃ f : Nat, (s.live = true) ∧ ((s.sig k).fade = some (j, f)) ∧ (f ≤ j)) :=
  ⟨⟨(wSet { wHold with mboxes := [(2, { req := some [0x201, 0x10F, 1] })], sigs := [(15, { bitsIn := 75000, fade := some (0, 4) })] } [(SIG_K_CFG_EN, 15, 1), (SIG_CTL_FR, 0, 1)] : State), ([0x201, 0x10F, 1] : List Word), _, _, _, rfl, rfl, rfl, by decide +kernel⟩,
   ⟨(wSet { wHold with sigs := [(15, {  })] } [(SIG_CTL_EN, 0, 1), (SIG_K_CFG_EN, 15, 1), (SIG_CTL_FR, 0, 2), (SIG_K_CFG_N, 15, 0)] : State), (15 : Fin 16), by decide +kernel⟩,
   ⟨({ wHold with sigs := [(15, { fade := some (3, 4) })] } : State), (15 : Fin 16), (3 : Nat), (4 : Nat), by decide +kernel⟩,
   ⟨({ wHold with sigs := [(15, { fade := some (4, 4) })] } : State), (15 : Fin 16), (4 : Nat), (4 : Nat), by decide +kernel⟩⟩

/-- The premises of clauses of Obligations.SignalOutputsAndBanks are met. -/
theorem witness_SignalOutputsAndBanks_5 :
    ∃ s : State, ∃ ph : Fin 2, ∃ bit : Bool, ∃ w : Nat, ∃ i : Int, (w = ((s.sig (12 + ph.val)).last16 * 2 + bit.toNat) % 65536) ∧ (i = min ((2 * ((List.range 16).countP fun b => w.testBit b : Nat) - 16 : Int) * 2048) 32767) ∧ (s.live = true) ∧ (s.on SIG_CTL_EN = true) :=
  ⟨(wSet { wHold with sigs := [(13, { last16 := 0xFFFF })] } [(SIG_CTL_EN, 0, 1)] : State), (1 : Fin 2), (true : Bool), _, _, rfl, rfl, by decide +kernel⟩

/-- The premises of clauses of Obligations.CarriageControlAndInputs are met. -/
theorem witness_CarriageControlAndInputs_1 :
    (∃ s : State, ∃ m : Master, (s.mayWrite m .MOT_CTL 0) ∧ (s.on MOT_CTL_EN = false)) ∧
    (∃ s : State, ∃ m : Master, (s.mayWrite m .MOT_CTL 0) ∧ (s.on MOT_CTL_EN = true)) ∧
    (∃ s : State, (s.powered = false)) ∧
    (∃ s : State, ∃ i : Fin 3, ∃ level : Bool, ∃ act : Bool, ∃ n : Mot, (act = (level != (s.fld MOT_LIM_POL).testBit i)) ∧ (n = { s.mot with raw := setBits s.mot.raw i i level.toNat }) ∧ (∀ c < 45, s.evtLinked c 15 = false) ∧ (s.powered = true) ∧ (s.live = false)) :=
  ⟨⟨(wHold : State), (48 : Master), reach (by decide +kernel), by decide +kernel⟩,
   ⟨(wSet wHold [(MOT_CTL_EN, 0, 1)] : State), (48 : Master), reach (by decide +kernel), by decide +kernel⟩,
   ⟨({ pwr := { st := .off } } : State), by decide +kernel⟩,
   ⟨({ pwr := { st := .standby } } : State), (2 : Fin 3), (true : Bool), _, _, rfl, rfl, by decide +kernel⟩⟩

/-- The premises of clauses of Obligations.CarriageControlAndInputs are met. -/
theorem witness_CarriageControlAndInputs_2 :
    (∃ s : State, ∃ i : Fin 3, ∃ level : Bool, ∃ act : Bool, ∃ n : Mot, (act = (level != (s.fld MOT_LIM_POL).testBit i)) ∧ (n = { s.mot with raw := setBits s.mot.raw i i level.toNat }) ∧ (∀ c < 45, s.evtLinked c 15 = false) ∧ (s.live = true) ∧ (s.mot.st = .idle)) ∧
    (∃ s : State, ∃ i : Fin 3, ∃ level : Bool, ∃ act : Bool, ∃ n : Mot, ∃ down : Bool, (act = (level != (s.fld MOT_LIM_POL).testBit i)) ∧ (n = { s.mot with raw := setBits s.mot.raw i i level.toNat }) ∧ (down = (decide (s.mot.vel < 0) || (decide (s.mot.vel = 0) && decide (s.mot.tgt < s.mot.pos)))) ∧ (∀ c < 45, s.evtLinked c 15 = false) ∧ (s.live = true) ∧ (s.mot.st = .moving ∨ s.mot.st = .stopping) ∧ (act = true) ∧ ((i = 0 ∧ down = true) ∨ (i = 1 ∧ down = false))) ∧
    (∃ s : State, ∃ i : Fin 3, ∃ level : Bool, ∃ act : Bool, ∃ n : Mot, ∃ down : Bool, (act = (level != (s.fld MOT_LIM_POL).testBit i)) ∧ (n = { s.mot with raw := setBits s.mot.raw i i level.toNat }) ∧ (down = (decide (s.mot.vel < 0) || (decide (s.mot.vel = 0) && decide (s.mot.tgt < s.mot.pos)))) ∧ (∀ c < 45, s.evtLinked c 15 = false) ∧ (s.live = true) ∧ (s.mot.st = .moving ∨ s.mot.st = .stopping) ∧ (act = false ∨ i = 2 ∨ (i = 0 ∧ down = false) ∨ (i = 1 ∧ down = true))) ∧
    (∃ s : State, ∃ i : Fin 3, ∃ level : Bool, ∃ act : Bool, ∃ n : Mot, ∃ h : Homing, (act = (level != (s.fld MOT_LIM_POL).testBit i)) ∧ (n = { s.mot with raw := setBits s.mot.raw i i level.toNat }) ∧ (∀ c < 45, s.evtLinked c 15 = false) ∧ (s.live = true) ∧ (s.mot.st = .homing) ∧ (s.mot.home = some h) ∧ (i.val = (if h.sw = 0 then 2 else if h.sw = 1 then 0 else 1)) ∧ (h.away = false) ∧ (act = true)) :=
  ⟨⟨({ wHold with mot := { st := .idle } } : State), (2 : Fin 3), (true : Bool), _, _, rfl, rfl, by decide +kernel⟩,
   ⟨({ wHold with mot := { st := .moving, vel := 1 } } : State), (1 : Fin 3), (true : Bool), _, _, _, rfl, rfl, rfl, by decide +kernel⟩,
   ⟨({ wHold with mot := { st := .stopping, vel := -1 } } : State), (1 : Fin 3), (true : Bool), _, _, _, rfl, rfl, rfl, by decide +kernel⟩,
   ⟨({ wHold with mot := { st := .homing, home := some ⟨0, true, false, 0, 0, 1⟩ } } : State), (2 : Fin 3), (true : Bool), _, _, (⟨0, true, false, 0, 0, 1⟩ : Homing), rfl, rfl, by decide +kernel⟩⟩

/-- The premises of clauses of Obligations.CarriageControlAndInputs are met. -/
theorem witness_CarriageControlAndInputs_3 :
    (∃ s : State, ∃ i : Fin 3, ∃ level : Bool, ∃ act : Bool, ∃ n : Mot, ∃ h : Homing, (act = (level != (s.fld MOT_LIM_POL).testBit i)) ∧ (n = { s.mot with raw := setBits s.mot.raw i i level.toNat }) ∧ (∀ c < 45, s.evtLinked c 15 = false) ∧ (s.live = true) ∧ (s.mot.st = .homing) ∧ (s.mot.home = some h) ∧ (i.val = (if h.sw = 0 then 2 else if h.sw = 1 then 0 else 1)) ∧ (h.away = act)) ∧
    (∃ s : State, ∃ i : Fin 3, ∃ level : Bool, ∃ act : Bool, ∃ n : Mot, ∃ h : Homing, (act = (level != (s.fld MOT_LIM_POL).testBit i)) ∧ (n = { s.mot with raw := setBits s.mot.raw i i level.toNat }) ∧ (∀ c < 45, s.evtLinked c 15 = false) ∧ (s.live = true) ∧ (s.mot.st = .homing) ∧ (s.mot.home = some h) ∧ (i.val = (if h.sw = 0 then 2 else if h.sw = 1 then 0 else 1)) ∧ (h.away = true) ∧ (act = false)) ∧
    (∃ s : State, ∃ i : Fin 3, ∃ level : Bool, ∃ act : Bool, ∃ n : Mot, ∃ h : Homing, (act = (level != (s.fld MOT_LIM_POL).testBit i)) ∧ (n = { s.mot with raw := setBits s.mot.raw i i level.toNat }) ∧ (∀ c < 45, s.evtLinked c 15 = false) ∧ (s.live = true) ∧ (s.mot.st = .homing) ∧ (s.mot.home = some h) ∧ (i.val ≠ (if h.sw = 0 then 2 else if h.sw = 1 then 0 else 1)) ∧ (act = true) ∧ (i ≠ 2)) ∧
    (∃ s : State, ∃ i : Fin 3, ∃ level : Bool, ∃ act : Bool, ∃ n : Mot, ∃ h : Homing, (act = (level != (s.fld MOT_LIM_POL).testBit i)) ∧ (n = { s.mot with raw := setBits s.mot.raw i i level.toNat }) ∧ (∀ c < 45, s.evtLinked c 15 = false) ∧ (s.live = true) ∧ (s.mot.st = .homing) ∧ (s.mot.home = some h) ∧ (i.val ≠ (if h.sw = 0 then 2 else if h.sw = 1 then 0 else 1)) ∧ (act = false ∨ i = 2)) :=
  ⟨⟨({ wHold with mot := { st := .homing, home := some ⟨1, true, true, 0, 0, 1⟩ } } : State), (0 : Fin 3), (true : Bool), _, _, (⟨1, true, true, 0, 0, 1⟩ : Homing), rfl, rfl, by decide +kernel⟩,
   ⟨({ wHold with mot := { st := .homing, home := some ⟨2, true, true, 0, 0, 1⟩ } } : State), (1 : Fin 3), (false : Bool), _, _, (⟨2, true, true, 0, 0, 1⟩ : Homing), rfl, rfl, by decide +kernel⟩,
   ⟨({ wHold with mot := { st := .homing, home := some ⟨2, true, true, 0, 0, 1⟩ } } : State), (0 : Fin 3), (true : Bool), _, _, (⟨2, true, true, 0, 0, 1⟩ : Homing), rfl, rfl, by decide +kernel⟩,
   ⟨({ wHold with mot := { st := .homing, home := some ⟨2, true, true, 0, 0, 1⟩ } } : State), (2 : Fin 3), (true : Bool), _, _, (⟨2, true, true, 0, 0, 1⟩ : Homing), rfl, rfl, by decide +kernel⟩⟩

/-- The premises of clauses of Obligations.CarriageControlAndInputs are met. -/
theorem witness_CarriageControlAndInputs_4 :
    (∃ s : State, ∃ i : Fin 3, ∃ level : Bool, ∃ act : Bool, ∃ n : Mot, (act = (level != (s.fld MOT_LIM_POL).testBit i)) ∧ (n = { s.mot with raw := setBits s.mot.raw i i level.toNat }) ∧ (∀ c < 45, s.evtLinked c 15 = false) ∧ (s.live = true) ∧ (s.mot.st = .fault ∨ s.mot.st = .disabled) ∧ (i ≠ 2) ∧ (act = true)) ∧
    (∃ s : State, ∃ i : Fin 3, ∃ level : Bool, ∃ act : Bool, ∃ n : Mot, (act = (level != (s.fld MOT_LIM_POL).testBit i)) ∧ (n = { s.mot with raw := setBits s.mot.raw i i level.toNat }) ∧ (∀ c < 45, s.evtLinked c 15 = false) ∧ (s.live = true) ∧ (s.mot.st = .fault ∨ s.mot.st = .disabled) ∧ (i = 2 ∨ act = false)) ∧
    (∃ s : State, (s.live = true) ∧ (s.mot.st = .disabled ∨ s.mot.st = .fault)) ∧
    (∃ s : State, (s.live = true) ∧ (s.mot.st ≠ .disabled) ∧ (s.mot.st ≠ .fault)) :=
  ⟨⟨({ wHold with mot := { st := .fault } } : State), (1 : Fin 3), (true : Bool), _, _, rfl, rfl, by decide +kernel⟩,
   ⟨({ wHold with mot := { st := .disabled } } : State), (2 : Fin 3), (true : Bool), _, _, rfl, rfl, by decide +kernel⟩,
   ⟨(wHold : State), by decide +kernel⟩,
   ⟨({ wHold with mot := { st := .idle } } : State), by decide +kernel⟩⟩

/-- The premises of clauses of Obligations.CarriageControlAndInputs are met. -/
theorem witness_CarriageControlAndInputs_5 :
    (∃ s : State, (s.live = true) ∧ (s.mot.st = .idle) ∧ (s.mot.ss = false)) ∧
    (∃ s : State, (s.live = true) ∧ (s.mot.st ≠ .idle ∨ s.mot.ss = true)) ∧
    (∃ s : State, (s.live = true) ∧ (s.mot.delay = false)) ∧
    (∃ s : State, (s.live = true) ∧ (s.mot.delay = true) ∧ (s.mot.st = .moving)) :=
  ⟨⟨({ wHold with mot := { st := .idle } } : State), by decide +kernel⟩,
   ⟨({ wHold with mot := { st := .idle, ss := true } } : State), by decide +kernel⟩,
   ⟨(wHold : State), by decide +kernel⟩,
   ⟨({ wHold with mot := { st := .moving, delay := true } } : State), by decide +kernel⟩⟩

/-- The premises of clauses of Obligations.CarriageControlAndInputs are met. -/
theorem witness_CarriageControlAndInputs_6 :
    (∃ s : State, ∃ ph : Fin 2, ∃ p : Phase, (p = (if ph = 0 then s.mot.a else s.mot.b)) ∧ (s.live = true) ∧ (p.en < 2 ^ max 6 (s.fld MOT_ADAPT_OLOG))) ∧
    (∃ s : State, ∃ ph : Fin 2, ∃ p : Phase, (p = (if ph = 0 then s.mot.a else s.mot.b)) ∧ (s.live = true) ∧ (2 ^ max 6 (s.fld MOT_ADAPT_OLOG) ≤ p.en)) :=
  ⟨⟨(wSet { wHold with mot := { b := { en := 63 } } } [(MOT_ADAPT_OLOG, 0, 6)] : State), (1 : Fin 2), _, rfl, by decide +kernel⟩,
   ⟨(wSet { wHold with mot := { b := { en := 64 } } } [(MOT_ADAPT_OLOG, 0, 6)] : State), (1 : Fin 2), _, rfl, by decide +kernel⟩⟩

/-- The premises of clauses of Obligations.CarriageMoves are met. -/
theorem witness_CarriageMoves_1 :
    (∃ s : State, ∃ n : Nat, ∃ w : Word, ∃ l : List Word, ∃ y, ((s.mbox n).req = some (w :: l)) ∧ (y ≠ n)) ∧
    (∃ s : State, (s.live = false)) ∧
    (∃ s : State, (s.live = true) ∧ ((s.mbox 3).req = none)) ∧
    (∃ s : State, ∃ r : Nat, ∃ t : State, ∃ ws : List Word, (s.motMove (toSigned 32 (reqWord ws 1)) true true = (r, t)) ∧ (s.live = true) ∧ (s.mbReq 3 1 = some ws)) :=
  ⟨⟨({ wHold with mboxes := [(3, { req := some [0x304, 5] })] } : State), (3 : Nat), (0x304 : Word), ([5] : List Word), (4 : Nat), by decide +kernel⟩,
   ⟨({ pwr := { st := .standby } } : State), by decide +kernel⟩,
   ⟨(wHold : State), by decide +kernel⟩,
   ⟨({ wHold with mboxes := [(3, { req := some [0x301, 5] })], mot := {  } } : State), _, _, ([0x301, 5] : List Word), pairOf rfl, by decide +kernel⟩⟩

/-- The premises of clauses of Obligations.CarriageMoves are met. -/
theorem witness_CarriageMoves_2 :
    (∃ s : State, ∃ r : Nat, ∃ t : State, ∃ ws : List Word, (s.motMove (s.motOfUm (toSigned 32 (reqWord ws 1))) true true = (r, t)) ∧ (s.live = true) ∧ (s.mbReq 3 2 = some ws)) ∧
    (∃ s : State, ∃ r : Nat, ∃ t : State, ∃ ws : List Word, (s.motMove (s.mot.pos + toSigned 32 (reqWord ws 1)) false s.mot.homed = (r, t)) ∧ (s.live = true) ∧ (s.mbReq 3 3 = some ws)) ∧
    (∃ s : State, ∃ homed : Bool, (s.mot.st ≠ .idle ∨ (homed = true ∧ s.mot.homed = false))) ∧
    (∃ s : State, ∃ tgt : Int, ∃ homed : Bool, ∃ soft : Bool, (s.mot.st = .idle) ∧ (homed = true → s.mot.homed = true) ∧ (soft = true) ∧ (tgt < s.sfld MOT_SMIN_VALUE ∨ s.sfld MOT_SMAX_VALUE < tgt)) :=
  ⟨⟨({ wHold with mboxes := [(3, { req := some [0x302, 5] })], mot := {  } } : State), _, _, ([0x302, 5] : List Word), pairOf rfl, by decide +kernel⟩,
   ⟨({ wHold with mboxes := [(3, { req := some [0x303, 5] })], mot := {  } } : State), _, _, ([0x303, 5] : List Word), pairOf rfl, by decide +kernel⟩,
   ⟨({ wHold with mot := { st := .idle } } : State), (true : Bool), by decide +kernel⟩,
   ⟨(wSet { wHold with mot := { st := .idle } } [(MOT_SMAX_VALUE, 0, 4)] : State), (5 : Int), (false : Bool), (true : Bool), by decide +kernel⟩⟩

/-- The premises of clauses of Obligations.CarriageMoves are met. -/
theorem witness_CarriageMoves_3 :
    (∃ s : State, ∃ tgt : Int, ∃ homed : Bool, (s.mot.st = .idle) ∧ (homed = true → s.mot.homed = true) ∧ (tgt < -2147483648 ∨ 2147483647 < tgt)) ∧
    (∃ s : State, ∃ tgt : Int, ∃ homed : Bool, ∃ soft : Bool, (s.mot.st = .idle) ∧ (homed = true → s.mot.homed = true) ∧ (soft = true → s.sfld MOT_SMIN_VALUE ≤ tgt ∧ tgt ≤ s.sfld MOT_SMAX_VALUE) ∧ (-2147483648 ≤ tgt) ∧ (tgt ≤ 2147483647) ∧ (tgt = s.mot.pos) ∧ (∀ c < 45, s.evtLinked c 13 = false)) ∧
    (∃ s : State, ∃ tgt : Int, ∃ homed : Bool, ∃ soft : Bool, (s.mot.st = .idle) ∧ (homed = true → s.mot.homed = true) ∧ (soft = true → s.sfld MOT_SMIN_VALUE ≤ tgt ∧ tgt ≤ s.sfld MOT_SMAX_VALUE) ∧ (-2147483648 ≤ tgt) ∧ (tgt ≤ 2147483647) ∧ (tgt ≠ s.mot.pos) ∧ (s.motSpeedsOk = false)) ∧
    (∃ s : State, ∃ tgt : Int, ∃ homed : Bool, ∃ soft : Bool, (s.mot.st = .idle) ∧ (homed = true → s.mot.homed = true) ∧ (soft = true → s.sfld MOT_SMIN_VALUE ≤ tgt ∧ tgt ≤ s.sfld MOT_SMAX_VALUE) ∧ (-2147483648 ≤ tgt) ∧ (tgt ≤ 2147483647) ∧ (tgt < s.mot.pos) ∧ (s.motSpeedsOk = true) ∧ (s.motActive 0 = true)) :=
  ⟨⟨({ wHold with mot := { st := .idle } } : State), (2147483648 : Int), (false : Bool), by decide +kernel⟩,
   ⟨({ wHold with mot := { st := .idle, pos := -2147483648 } } : State), (-2147483648 : Int), (false : Bool), (false : Bool), by decide +kernel⟩,
   ⟨(wSet { wHold with mot := { st := .idle } } [(MOT_VSTART_V, 0, 3), (MOT_VBREAK_V, 0, 2)] : State), (2147483647 : Int), (false : Bool), (false : Bool), by decide +kernel⟩,
   ⟨(wSet { wHold with mot := { st := .idle, raw := 1 } } [(MOT_VSTART_V, 0, 1), (MOT_VSTOP_V, 0, 2), (MOT_VBREAK_V, 0, 2), (MOT_VMAX_V, 0, 2)] : State), (-2147483648 : Int), (false : Bool), (false : Bool), by decide +kernel⟩⟩

/-- The premises of clauses of Obligations.CarriageMoves are met. -/
theorem witness_CarriageMoves_4 :
    (∃ s : State, ∃ tgt : Int, ∃ homed : Bool, ∃ soft : Bool, (s.mot.st = .idle) ∧ (homed = true → s.mot.homed = true) ∧ (soft = true → s.sfld MOT_SMIN_VALUE ≤ tgt ∧ tgt ≤ s.sfld MOT_SMAX_VALUE) ∧ (-2147483648 ≤ tgt) ∧ (tgt ≤ 2147483647) ∧ (s.mot.pos < tgt) ∧ (s.motSpeedsOk = true) ∧ (s.motActive 1 = true)) ∧
    (∃ s : State, ∃ tgt : Int, ∃ homed : Bool, ∃ soft : Bool, (s.mot.st = .idle) ∧ (homed = true → s.mot.homed = true) ∧ (soft = true → s.sfld MOT_SMIN_VALUE ≤ tgt ∧ tgt ≤ s.sfld MOT_SMAX_VALUE) ∧ (-2147483648 ≤ tgt) ∧ (tgt ≤ 2147483647) ∧ (tgt ≠ s.mot.pos) ∧ (s.motSpeedsOk = true) ∧ (tgt < s.mot.pos → s.motActive 0 = false) ∧ (s.mot.pos < tgt → s.motActive 1 = false)) ∧
    (∃ s : State, ∃ ws : List Word, (s.live = true) ∧ (s.mbReq 3 4 = some ws) ∧ (s.mot.st = .moving)) ∧
    (∃ s : State, ∃ ws : List Word, (s.live = true) ∧ (s.mbReq 3 4 = some ws) ∧ (s.mot.st ≠ .moving)) :=
  ⟨⟨(wSet { wHold with mot := { st := .idle, raw := 2 } } [(MOT_VSTART_V, 0, 1), (MOT_VSTOP_V, 0, 2), (MOT_VBREAK_V, 0, 2), (MOT_VMAX_V, 0, 2)] : State), (2147483647 : Int), (false : Bool), (false : Bool), by decide +kernel⟩,
   ⟨(wSet { wHold with mot := { st := .idle, raw := 1 } } [(MOT_VSTART_V, 0, 1), (MOT_VSTOP_V, 0, 2), (MOT_VBREAK_V, 0, 2), (MOT_VMAX_V, 0, 2)] : State), (2147483647 : Int), (false : Bool), (false : Bool), by decide +kernel⟩,
   ⟨({ wHold with mboxes := [(3, { req := some [0x304] })], mot := { st := .moving } } : State), ([0x304] : List Word), by decide +kernel⟩,
   ⟨({ wHold with mboxes := [(3, { req := some [0x304] })], mot := { st := .stopping } } : State), ([0x304] : List Word), by decide +kernel⟩⟩

/-- The premises of clauses of Obligations.CarriageMoves are met. -/
theorem witness_CarriageMoves_5 :
    (∃ s : State, ∃ ws : List Word, (s.live = true) ∧ (s.mbReq 3 5 = some ws) ∧ (s.mot.st = .moving ∨ s.mot.st = .stopping ∨ s.mot.st = .homing)) ∧
    (∃ s : State, ∃ ws : List Word, (s.live = true) ∧ (s.mbReq 3 5 = some ws) ∧ (s.mot.st = .idle ∨ s.mot.st = .fault ∨ s.mot.st = .disabled)) ∧
    (∃ s : State, ∃ ws : List Word, (s.live = true) ∧ (s.mbReq 3 6 = some ws) ∧ (s.mot.st ≠ .idle)) ∧
    (∃ s : State, ∃ ws : List Word, (s.live = true) ∧ (s.mbReq 3 6 = some ws) ∧ (s.mot.st = .idle) ∧ (bits (reqWord ws 1) 1 0 = 3 ∨ s.fld MOT_VSTART_V < s.fld MOT_VHOME_V)) :=
  ⟨⟨({ wHold with mboxes := [(3, { req := some [0x305] })], mot := { st := .homing } } : State), ([0x305] : List Word), by decide +kernel⟩,
   ⟨({ wHold with mboxes := [(3, { req := some [0x305] })], mot := { st := .fault } } : State), ([0x305] : List Word), by decide +kernel⟩,
   ⟨({ wHold with mboxes := [(3, { req := some [0x306] })], mot := { st := .fault } } : State), ([0x306] : List Word), by decide +kernel⟩,
   ⟨({ wHold with mboxes := [(3, { req := some [0x306, 3] })], mot := { st := .idle } } : State), ([0x306, 3] : List Word), by decide +kernel⟩⟩

/-- The premises of clauses of Obligations.CarriageMoves are met. -/
theorem witness_CarriageMoves_6 :
    (∃ s : State, ∃ ws : List Word, (s.live = true) ∧ (s.mbReq 3 6 = some ws) ∧ (s.mot.st = .idle) ∧ (bits (reqWord ws 1) 1 0 < 3) ∧ (s.fld MOT_VHOME_V ≤ s.fld MOT_VSTART_V)) ∧
    (∃ s : State, ∃ ws : List Word, (s.live = true) ∧ (s.mbReq 3 7 = some ws) ∧ (s.mot.st = .idle)) ∧
    (∃ s : State, ∃ ws : List Word, (s.live = true) ∧ (s.mbReq 3 7 = some ws) ∧ (s.mot.st ≠ .idle)) ∧
    (∃ s : State, ∃ ws : List Word, (s.live = true) ∧ (s.mbReq 3 8 = some ws) ∧ (s.mot.st = .fault)) :=
  ⟨⟨(wSet { wHold with mboxes := [(3, { req := some [0x306, 2] })], mot := { st := .idle } } [(MOT_VSTART_V, 0, 3), (MOT_VHOME_V, 0, 3)] : State), ([0x306, 2] : List Word), by decide +kernel⟩,
   ⟨({ wHold with mboxes := [(3, { req := some [0x307] })], mot := { st := .idle } } : State), ([0x307] : List Word), by decide +kernel⟩,
   ⟨({ wHold with mboxes := [(3, { req := some [0x307] })], mot := { st := .moving } } : State), ([0x307] : List Word), by decide +kernel⟩,
   ⟨({ wHold with mboxes := [(3, { req := some [0x308] })], mot := { st := .fault } } : State), ([0x308] : List Word), by decide +kernel⟩⟩

/-- The premises of clauses of Obligations.CarriageMoves are met. -/
theorem witness_CarriageMoves_7 :
    (∃ s : State, ∃ ws : List Word, (s.live = true) ∧ (s.mbReq 3 8 = some ws) ∧ (s.mot.st ≠ .fault)) ∧
    (∃ s : State, (s.live = true) ∧ ((s.mot.delay = true ∧ s.mot.st ≠ .stopping) ∨ s.mot.st = .idle ∨ s.mot.st = .fault ∨ s.mot.st = .disabled)) ∧
    (∃ s : State, ∃ v : Rat, (v ≤ ((s.fld MOT_VMAX_V : Nat) : Rat))) ∧
    (∃ s : State, ∃ p : Rat, ∃ v : Rat, ∃ v' : Rat, ∃ d : Rat, (p = (s.mot.pos : Rat) + s.mot.frac) ∧ (v = (if s.mot.vel < 0 then -s.mot.vel else s.mot.vel)) ∧ (v' = s.motNext v (if p < s.mot.tgt then (s.mot.tgt : Rat) - p else p - s.mot.tgt)) ∧ (d = (v + v') / 2 / 1000000) ∧ (s.live = true) ∧ (s.mot.delay = false) ∧ (s.mot.st = .moving) ∧ (-2147483648 ≤ s.mot.pos) ∧ (s.mot.pos ≤ 2147483647) ∧ (-2147483648 ≤ s.mot.tgt) ∧ (s.mot.tgt ≤ 2147483647) ∧ (0 ≤ s.mot.frac) ∧ (s.mot.frac < 1) ∧ ((if p < s.mot.tgt then (s.mot.tgt : Rat) - p else p - s.mot.tgt) ≤ d)) :=
  ⟨⟨({ wHold with mboxes := [(3, { req := some [0x308] })], mot := { st := .idle } } : State), ([0x308] : List Word), by decide +kernel⟩,
   ⟨({ wHold with mot := { st := .moving, delay := true } } : State), by decide +kernel⟩,
   ⟨(wHold : State), (0 : Rat), by decide +kernel⟩,
   ⟨({ wHold with mot := { st := .moving, pos := 5, tgt := 5 } } : State), _, _, _, _, rfl, rfl, rfl, rfl, by decide +kernel⟩⟩

/-- The premises of clauses of Obligations.CarriageMoves are met. -/
theorem witness_CarriageMoves_8 :
    (∃ s : State, ∃ p : Rat, ∃ v : Rat, ∃ v' : Rat, ∃ d : Rat, (p = (s.mot.pos : Rat) + s.mot.frac) ∧ (v = (if s.mot.vel < 0 then -s.mot.vel else s.mot.vel)) ∧ (v' = s.motNext v (if p < s.mot.tgt then (s.mot.tgt : Rat) - p else p - s.mot.tgt)) ∧ (d = (v + v') / 2 / 1000000) ∧ (s.live = true) ∧ (s.mot.delay = false) ∧ (s.mot.st = .moving) ∧ (-2147483648 ≤ s.mot.pos) ∧ (s.mot.pos ≤ 2147483647) ∧ (-2147483648 ≤ s.mot.tgt) ∧ (s.mot.tgt ≤ 2147483647) ∧ (0 ≤ s.mot.frac) ∧ (s.mot.frac < 1) ∧ (d < (if p < s.mot.tgt then (s.mot.tgt : Rat) - p else p - s.mot.tgt))) ∧
    (∃ s : State, ∃ v : Rat, (v = (if s.mot.vel < 0 then -s.mot.vel else s.mot.vel)) ∧ (s.live = true) ∧ (s.mot.delay = false) ∧ (s.mot.st = .stopping) ∧ (v ≤ (s.mot.vstop : Rat))) ∧
    (∃ s : State, ∃ op : Nat, ∃ r : Nat, ∃ ws : List Word, ∃ t : State, (s.motRun op ws = (r, t)) ∧ (1 ≤ op) ∧ (op ≤ 8) ∧ (s.mbReq 3 op = some ws)) ∧
    (∃ s : State, ∃ u : State, (u = s.motFirst) ∧ (u.on MOT_CTL_RPT_EN = false)) :=
  ⟨⟨({ wHold with mot := { st := .moving, pos := 5, tgt := 2147483647, vel := 1 } } : State), _, _, _, _, rfl, rfl, rfl, rfl, by decide +kernel⟩,
   ⟨({ wHold with mot := { st := .stopping, vel := -3, vstop := 3 } } : State), _, rfl, by decide +kernel⟩,
   ⟨({ wHold with mboxes := [(3, { req := some [0x304] })], mot := {  } } : State), (4 : Nat), _, ([0x304] : List Word), _, pairOf rfl, by decide +kernel⟩,
   ⟨(wHold : State), _, rfl, by decide +kernel⟩⟩

/-- The premises of clauses of Obligations.CarriageMoves are met. -/
theorem witness_CarriageMoves_9 :
    (∃ s : State, ∃ um : Int, ∃ c : Int, ∃ r : Nat, ∃ t : State, ∃ u : State, (u = s.motFirst) ∧ (c = clampInt (u.sfld MOT_SMIN_VALUE) (u.sfld MOT_SMAX_VALUE) (u.motOfUm um)) ∧ (u.motMove c true true = (r, t)) ∧ (u.on MOT_CTL_RPT_EN = true) ∧ (r ≠ rOK)) ∧
    (∃ s : State, ∃ um : Int, ∃ c : Int, ∃ r : Nat, ∃ t : State, ∃ u : State, (u = s.motFirst) ∧ (c = clampInt (u.sfld MOT_SMIN_VALUE) (u.sfld MOT_SMAX_VALUE) (u.motOfUm um)) ∧ (u.motMove c true true = (r, t)) ∧ (u.on MOT_CTL_RPT_EN = true) ∧ (r = rOK) ∧ (c = u.motOfUm um)) ∧
    (∃ s : State, ∃ um : Int, ∃ c : Int, ∃ r : Nat, ∃ t : State, ∃ u : State, (u = s.motFirst) ∧ (c = clampInt (u.sfld MOT_SMIN_VALUE) (u.sfld MOT_SMAX_VALUE) (u.motOfUm um)) ∧ (u.motMove c true true = (r, t)) ∧ (u.on MOT_CTL_RPT_EN = true) ∧ (r = rOK) ∧ (c ≠ u.motOfUm um)) :=
  ⟨⟨(wSet wHold [(MOT_CTL_RPT_EN, 0, 1)] : State), (0 : Int), _, _, _, _, rfl, rfl, pairOf rfl, by decide +kernel⟩,
   ⟨(wSet { wHold with mot := { st := .idle, homed := true, raw := 7 } } [(MOT_VSTART_V, 0, 1), (MOT_VSTOP_V, 0, 2), (MOT_VBREAK_V, 0, 2), (MOT_VMAX_V, 0, 2), (MOT_CTL_RPT_EN, 0, 1), (MOT_LIM_POL, 0, 7)] : State), (0 : Int), _, _, _, _, rfl, rfl, pairOf rfl, by decide +kernel⟩,
   ⟨(wSet { wHold with mot := { st := .idle, homed := true, raw := 7 } } [(MOT_VSTART_V, 0, 1), (MOT_VSTOP_V, 0, 2), (MOT_VBREAK_V, 0, 2), (MOT_VMAX_V, 0, 2), (MOT_CTL_RPT_EN, 0, 1), (MOT_LIM_POL, 0, 7), (MOT_SMIN_VALUE, 0, 0), (MOT_SMAX_VALUE, 0, 0)] : State), (5 : Int), _, _, _, _, rfl, rfl, pairOf rfl, by decide +kernel⟩⟩

/-- The premises of clauses of Obligations.MetrologyCountingAndCommits are met. -/
theorem witness_MetrologyCountingAndCommits_1 :
    (∃ s : State, (s.powered = false) ∧ (s.fl.commits = [])) ∧
    (∃ s : State, ∃ c : FlCommit, ∃ l : List FlCommit, (s.powered = false) ∧ (s.fl.commits = c :: l) ∧ (Memory.wf s.fl.fram = true)) ∧
    (∃ s : State, ∃ d : Int, (s.fl.st ≠ .counting ∨ (s.fl.badPair = false ∧ d = 0))) ∧
    (∃ s : State, ∃ d : Int, (s.fl.st = .counting) ∧ (s.fl.badPair = false) ∧ (d ≠ 0) ∧ (s.fl.pulse = 0)) :=
  ⟨⟨({ wHold with pwr := { st := .off } } : State), by decide +kernel⟩,
   ⟨({ wHold with pwr := { st := .off }, fl := { wFl with commits := [{ record := [1, 2], slot := 1, seq := 5, onPfail := false }] } } : State), ({ record := [1, 2], slot := 1, seq := 5, onPfail := false } : FlCommit), ([] : List FlCommit), by decide +kernel⟩,
   ⟨({ wHold with fl := { form := 1, angle := some (1 / 4) } } : State), (0 : Int), by decide +kernel⟩,
   ⟨({ wHold with fl := { wFl with st := .counting } } : State), (1 : Int), by decide +kernel⟩⟩

/-- The premises of clauses of Obligations.MetrologyCountingAndCommits are met. -/
theorem witness_MetrologyCountingAndCommits_2 :
    (∃ s : State, (s.fl.st = .counting) ∧ (s.fl.badPair = true)) ∧
    (∃ s : State, (s.fl.form ≠ 0)) ∧
    (∃ s : State, ∃ a : Bool, ∃ b : Bool, (a = s.fl.a) ∧ (b = s.fl.b) ∧ (s.fl.form = 0)) ∧
    (∃ s : State, ∃ a : Bool, ∃ b : Bool, (s.fl.form = 0) ∧ (a ≠ s.fl.a) ∧ (b ≠ s.fl.b)) :=
  ⟨⟨({ wHold with fl := { form := 1, st := .counting, comp := { len := 0 }, angle := some (-1 / 4) } } : State), by decide +kernel⟩,
   ⟨({ wHold with fl := { wFl with form := 1 } } : State), by decide +kernel⟩,
   ⟨(wHold : State), _, _, rfl, rfl, by decide +kernel⟩,
   ⟨(wHold : State), (true : Bool), (true : Bool), by decide +kernel⟩⟩

/-- The premises of clauses of Obligations.MetrologyCountingAndCommits are met. -/
theorem witness_MetrologyCountingAndCommits_3 :
    (∃ s : State, ∃ a : Bool, ∃ b : Bool, ∃ t : Int, ∃ w : State, (b = s.fl.b) ∧ ((∃ t0, s.fl.edgeA = some t0 ∧ t - t0 < 4) → w = { s with fl := s.fl.faulted }) ∧ ((∀ t0, s.fl.edgeA = some t0 → 4 ≤ t - t0) → w = s.flMove (if a ≠ b ↔ s.fl.dir ≠ 1 then 1 else -1)) ∧ (s.fl.form = 0) ∧ (a ≠ s.fl.a)) ∧
    (∃ s : State, ∃ a : Bool, ∃ b : Bool, ∃ t : Int, ∃ w : State, (a = s.fl.a) ∧ ((∃ t0, s.fl.edgeB = some t0 ∧ t - t0 < 4) → w = { s with fl := s.fl.faulted }) ∧ ((∀ t0, s.fl.edgeB = some t0 → 4 ≤ t - t0) → w = s.flMove (if a = b ↔ s.fl.dir ≠ 1 then 1 else -1)) ∧ (s.fl.form = 0) ∧ (b ≠ s.fl.b)) ∧
    (∃ s : State, (s.powered = true) ∧ (s.fl.form ≠ 1)) ∧
    (∃ s : State, ∃ sn : BitVec 16, ∃ cs : BitVec 16, ∃ x : Int, ∃ y : Int, ∃ r2 : Int, ∃ f : Flacon, ∃ i : Sinc3, ∃ j : Sinc3, (s.fl.sinDec.run sn = (x, i)) ∧ (s.fl.cosDec.run cs = (y, j)) ∧ (f = { s.fl with sinDec := i, cosDec := j }) ∧ (r2 = x * x + y * y) ∧ (s.powered = true) ∧ (s.fl.form = 1) ∧ (r2 < 1048576 ∨ 9437184 < r2)) :=
  ⟨⟨(wHold : State), (true : Bool), _, (0 : Int), _, rfl, fun ⟨_, h, _⟩ => (nomatch (show (none : Option Int) = some _ from h)), fun _ => rfl, by decide +kernel⟩,
   ⟨(wHold : State), _, (true : Bool), (0 : Int), _, rfl, fun ⟨_, h, _⟩ => (nomatch (show (none : Option Int) = some _ from h)), fun _ => rfl, by decide +kernel⟩,
   ⟨(wHold : State), by decide +kernel⟩,
   ⟨({ wHold with fl := { wFl with form := 1, sinDec := { c1 := -816 }, cosDec := { c1 := -1839 } } } : State), (0 : BitVec 16), (0 : BitVec 16), _, _, _, _, _, _, pairOf rfl, pairOf rfl, rfl, rfl, by decide +kernel⟩⟩

/-- The premises of clauses of Obligations.MetrologyCountingAndCommits are met. -/
theorem witness_MetrologyCountingAndCommits_4 :
    (∃ s : State, ∃ sn : BitVec 16, ∃ cs : BitVec 16, ∃ x : Int, ∃ y : Int, ∃ r2 : Int, ∃ f : Flacon, ∃ i : Sinc3, ∃ j : Sinc3, (s.fl.sinDec.run sn = (x, i)) ∧ (s.fl.cosDec.run cs = (y, j)) ∧ (f = { s.fl with sinDec := i, cosDec := j }) ∧ (r2 = x * x + y * y) ∧ (s.powered = true) ∧ (s.fl.form = 1) ∧ (1048576 ≤ r2) ∧ (r2 ≤ 9437184) ∧ (s.fl.angle = none)) ∧
    (∃ s : State, ∃ sn : BitVec 16, ∃ cs : BitVec 16, ∃ x : Int, ∃ y : Int, ∃ r2 : Int, ∃ f : Flacon, ∃ i : Sinc3, ∃ j : Sinc3, ∃ last : Rat, ∃ u : Rat, ∃ k : Int, ∃ d : Int, ∃ w : State, (s.fl.sinDec.run sn = (x, i)) ∧ (s.fl.cosDec.run cs = (y, j)) ∧ (f = { s.fl with sinDec := i, cosDec := j }) ∧ (r2 = x * x + y * y) ∧ (u = turnOf x y) ∧ (k = roundNear (last - u)) ∧ (d = (if s.fl.dir = 1 then -1 else 1) * ((u * s.fl.finterp).floor + k * s.fl.finterp - (last * s.fl.finterp).floor)) ∧ (w = ({ s with fl := f } : State).flMove d) ∧ (s.powered = true) ∧ (s.fl.form = 1) ∧ (1048576 ≤ r2) ∧ (r2 ≤ 9437184) ∧ (s.fl.angle = some last) ∧ (1 / 4 < u + k - last ∨ u + k - last < -1 / 4)) ∧
    (∃ s : State, ∃ sn : BitVec 16, ∃ cs : BitVec 16, ∃ x : Int, ∃ y : Int, ∃ r2 : Int, ∃ f : Flacon, ∃ i : Sinc3, ∃ j : Sinc3, ∃ last : Rat, ∃ u : Rat, ∃ k : Int, ∃ d : Int, ∃ w : State, (s.fl.sinDec.run sn = (x, i)) ∧ (s.fl.cosDec.run cs = (y, j)) ∧ (f = { s.fl with sinDec := i, cosDec := j }) ∧ (r2 = x * x + y * y) ∧ (u = turnOf x y) ∧ (k = roundNear (last - u)) ∧ (d = (if s.fl.dir = 1 then -1 else 1) * ((u * s.fl.finterp).floor + k * s.fl.finterp - (last * s.fl.finterp).floor)) ∧ (w = ({ s with fl := f } : State).flMove d) ∧ (s.powered = true) ∧ (s.fl.form = 1) ∧ (1048576 ≤ r2) ∧ (r2 ≤ 9437184) ∧ (s.fl.angle = some last) ∧ (-1 / 4 ≤ u + k - last) ∧ (u + k - last ≤ 1 / 4)) ∧
    (∃ s : State, (s.powered = true) ∧ (s.fl.st ≠ .counting ∨ (s.fl.badPair = false ∧ s.fl.h = s.fl.hCommit))) :=
  ⟨⟨({ wHold with fl := { wFl with form := 1, sinDec := { c1 := -816 }, cosDec := { c1 := -1840 } } } : State), (0 : BitVec 16), (0 : BitVec 16), _, _, _, _, _, _, pairOf rfl, pairOf rfl, rfl, rfl, by decide +kernel⟩,
   ⟨({ wHold with fl := { wFl with form := 1, sinDec := { c1 := -816 }, cosDec := { c1 := -3888 }, finterp := 4, angle := some (3 / 8) } } : State), (0 : BitVec 16), (0 : BitVec 16), _, _, _, _, _, _, (3 / 8 : Rat), _, _, _, _, pairOf rfl, pairOf rfl, rfl, rfl, rfl, rfl, rfl, rfl, by decide +kernel⟩,
   ⟨({ wHold with fl := { wFl with form := 1, sinDec := { c1 := -816 }, cosDec := { c1 := -3888 }, finterp := 4, angle := some (1 / 4) } } : State), (0 : BitVec 16), (0 : BitVec 16), _, _, _, _, _, _, (1 / 4 : Rat), _, _, _, _, pairOf rfl, pairOf rfl, rfl, rfl, rfl, rfl, rfl, rfl, by decide +kernel⟩,
   ⟨(wHold : State), by decide +kernel⟩⟩

/-- The premises of clauses of Obligations.MetrologyCountingAndCommits are met. -/
theorem witness_MetrologyCountingAndCommits_5 :
    (∃ s : State, (s.powered = true) ∧ (s.fl.st ≠ .counting ∨ s.fl.pfail = false)) ∧
    (∃ s : State, ∃ n : Nat, ∃ q : Nat, (n = s.fl.commits.length + 1) ∧ (q = (s.fl.seq + n) % 2 ^ 32) ∧ (s.powered = true) ∧ (s.fl.st = .counting) ∧ (s.fl.badPair = false) ∧ (s.fl.h ≠ s.fl.hCommit)) ∧
    (∃ s : State, ∃ n : Nat, ∃ q : Nat, (n = s.fl.commits.length + 1) ∧ (q = (s.fl.seq + n) % 2 ^ 32) ∧ (s.powered = true) ∧ (s.fl.st = .counting) ∧ (s.fl.badPair = false) ∧ (s.fl.pfail = true)) ∧
    (∃ s : State, ∃ n : Nat, ∃ q : Nat, (n = s.fl.commits.length + 1) ∧ (q = (s.fl.seq + n) % 2 ^ 32) ∧ (s.powered = true) ∧ (s.fl.st = .counting) ∧ (s.fl.badPair = false) ∧ (∀ c ∈ s.fl.commits, c.ticket = none)) :=
  ⟨⟨(wHold : State), by decide +kernel⟩,
   ⟨({ wHold with fl := { wFl with st := .counting, hCommit := 1 } } : State), _, _, rfl, rfl, by decide +kernel⟩,
   ⟨({ wHold with fl := { wFl with st := .counting, pfail := true } } : State), _, _, rfl, rfl, by decide +kernel⟩,
   ⟨({ wHold with fl := { wFl with st := .counting, commits := [{ record := [1, 2], slot := 1, seq := 5, onPfail := false }] } } : State), _, _, rfl, rfl, by decide +kernel⟩⟩

/-- The premises of clauses of Obligations.MetrologyCountingAndCommits are met. -/
theorem witness_MetrologyCountingAndCommits_6 :
    (∃ s : State, (s.powered = true) ∧ (s.fl.commits = [])) ∧
    (∃ s : State, ∃ c : FlCommit, ∃ l : List FlCommit, (s.powered = true) ∧ (s.fl.commits = c :: l) ∧ (Memory.wf s.fl.fram = true)) :=
  ⟨⟨(wHold : State), by decide +kernel⟩,
   ⟨({ wHold with fl := { commits := [{ record := [1, 2], slot := 1, seq := 5, onPfail := false }] } } : State), ({ record := [1, 2], slot := 1, seq := 5, onPfail := false } : FlCommit), ([] : List FlCommit), by decide +kernel⟩⟩

/-- The premises of clauses of Obligations.MetrologyOperations are met. -/
theorem witness_MetrologyOperations_1 :
    (∃ s : State, ∃ op : Nat, ∃ i : Instr, ((op, i) ∈ [(1, Instr.totals), (2, .ticket), (3, .lotStart), (4, .lotEnd), (5, .param), (6, .init), (7, .restore), (8, .install)]) ∧ (s.live = false ∨ s.mbReq 4 op = none ∨ s.fl.st = .boot)) ∧
    (∃ s : State, ∃ op : Nat, ∃ i : Instr, ∃ ws : List Word, ((op, i) ∈ [(1, Instr.totals), (2, .ticket), (3, .lotStart), (4, .lotEnd), (5, .param), (6, .init), (7, .restore), (8, .install)]) ∧ (s.live = true) ∧ (s.mbReq 4 op = some ws) ∧ (s.fl.st = .noFw)) ∧
    (∃ s : State, ∃ op : Nat, ∃ i : Instr, ∃ ws : List Word, ((op, i) ∈ [(1, Instr.totals), (2, .ticket), (3, .lotStart), (4, .lotEnd), (5, .param), (6, .init), (7, .restore), (8, .install)]) ∧ (s.live = true) ∧ (s.mbReq 4 op = some ws) ∧ (s.fl.st = .integrity) ∧ (op ≠ 7)) ∧
    (∃ s : State, ∃ op : Nat, ∃ i : Instr, ∃ ws : List Word, ((op, i) ∈ [(1, Instr.totals), (2, .ticket), (3, .lotStart), (4, .lotEnd), (5, .param), (6, .init), (7, .restore), (8, .install)]) ∧ (s.live = true) ∧ (s.mbReq 4 op = some ws) ∧ (s.fl.st = .framFail ∨ s.fl.st = .blank) ∧ (op ≠ 6)) :=
  ⟨⟨(wHold : State), (8 : Nat), (.install : Instr), by decide +kernel⟩,
   ⟨({ wHold with mboxes := [(4, { req := some [0x408] })], fl := { st := .noFw } } : State), (8 : Nat), (.install : Instr), ([0x408] : List Word), by decide +kernel⟩,
   ⟨({ wHold with mboxes := [(4, { req := some [0x408] })], fl := { st := .integrity } } : State), (8 : Nat), (.install : Instr), ([0x408] : List Word), by decide +kernel⟩,
   ⟨({ wHold with mboxes := [(4, { req := some [0x408] })], fl := { st := .blank } } : State), (8 : Nat), (.install : Instr), ([0x408] : List Word), by decide +kernel⟩⟩

/-- The premises of clauses of Obligations.MetrologyOperations are met. -/
theorem witness_MetrologyOperations_2 :
    (∃ s : State, ∃ op : Nat, ∃ i : Instr, ∃ ws : List Word, ((op, i) ∈ [(1, Instr.totals), (2, .ticket), (3, .lotStart), (4, .lotEnd), (5, .param), (6, .init), (7, .restore), (8, .install)]) ∧ (s.live = true) ∧ (s.mbReq 4 op = some ws) ∧ (s.fl.st = .counting) ∧ (s.fl.badPair = true) ∧ (op ≠ 7)) ∧
    (∃ s : State, ∃ ws : List Word, (s.live = true) ∧ (s.fl.st = .integrity) ∧ (s.mbReq 4 7 = some ws) ∧ (s.fl.sealOpen = false)) ∧
    (∃ s : State, ∃ ws : List Word, (s.live = true) ∧ (s.fl.st = .integrity) ∧ (s.mbReq 4 7 = some ws) ∧ (s.fl.sealOpen = true)) ∧
    (∃ s : State, ∃ ws : List Word, (s.live = true) ∧ (s.fl.st = .counting) ∧ (s.fl.badPair = false) ∧ (s.mbReq 4 1 = some ws)) :=
  ⟨⟨({ wHold with mboxes := [(4, { req := some [0x408] })], fl := { st := .counting, comp := { len := 0 } } } : State), (8 : Nat), (.install : Instr), ([0x408] : List Word), by decide +kernel⟩,
   ⟨({ wHold with mboxes := [(4, { req := some [0x407] })], fl := { st := .integrity } } : State), ([0x407] : List Word), by decide +kernel⟩,
   ⟨({ wHold with mboxes := [(4, { req := some [0x407] })], fl := { st := .integrity, sealOpen := true } } : State), ([0x407] : List Word), by decide +kernel⟩,
   ⟨({ wHold with mboxes := [(4, { req := some [0x401] })], fl := { st := .counting } } : State), ([0x401] : List Word), by decide +kernel⟩⟩

/-- The premises of clauses of Obligations.MetrologyOperations are met. -/
theorem witness_MetrologyOperations_3 :
    (∃ s : State, ∃ ws : List Word, (s.live = true) ∧ (s.fl.st = .counting) ∧ (s.fl.badPair = false) ∧ (s.mbReq 4 2 = some ws) ∧ (s.dbgLevel = 2)) ∧
    (∃ s : State, ∃ ws : List Word, (s.live = true) ∧ (s.fl.st = .counting) ∧ (s.fl.badPair = false) ∧ (s.mbReq 4 2 = some ws) ∧ (s.dbgLevel ≠ 2) ∧ (s.fl.pfail = true)) ∧
    (∃ s : State, ∃ ws : List Word, ∃ n : Nat, (n = (s.fl.ahead.ticketNo + 1) % 2 ^ 32) ∧ (s.live = true) ∧ (s.fl.st = .counting) ∧ (s.fl.badPair = false) ∧ (s.mbReq 4 2 = some ws) ∧ (s.dbgLevel ≠ 2) ∧ (s.fl.pfail = false)) ∧
    (∃ s : State, ∃ ws : List Word, (s.live = true) ∧ (s.fl.st = .counting) ∧ (s.fl.badPair = false) ∧ (s.mbReq 4 3 = some ws) ∧ (s.fl.lot.isSome = true)) :=
  ⟨⟨(wSet { wHold with mboxes := [(4, { req := some [0x402] })], fl := { st := .counting } } [(SEC_DBG_LEVEL, 0, 2)] : State), ([0x402] : List Word), by decide +kernel⟩,
   ⟨({ wHold with mboxes := [(4, { req := some [0x402] })], fl := { st := .counting, pfail := true } } : State), ([0x402] : List Word), by decide +kernel⟩,
   ⟨({ wHold with mboxes := [(4, { req := some [0x402] })], fl := { st := .counting } } : State), ([0x402] : List Word), _, rfl, by decide +kernel⟩,
   ⟨({ wHold with mboxes := [(4, { req := some [0x403] })], fl := { st := .counting, lot := some { h0 := 0 } } } : State), ([0x403] : List Word), by decide +kernel⟩⟩

/-- The premises of clauses of Obligations.MetrologyOperations are met. -/
theorem witness_MetrologyOperations_4 :
    (∃ s : State, ∃ ws : List Word, (s.live = true) ∧ (s.fl.st = .counting) ∧ (s.fl.badPair = false) ∧ (s.mbReq 4 3 = some ws) ∧ (s.fl.lot = none)) ∧
    (∃ s : State, ∃ ws : List Word, (s.live = true) ∧ (s.fl.st = .counting) ∧ (s.fl.badPair = false) ∧ (s.mbReq 4 4 = some ws) ∧ (s.fl.lot = none)) ∧
    (∃ s : State, ∃ ws : List Word, (s.live = true) ∧ (s.fl.st = .counting) ∧ (s.fl.badPair = false) ∧ (s.mbReq 4 4 = some ws) ∧ (s.fl.lot.isSome = true) ∧ (s.dbgLevel = 2)) ∧
    (∃ s : State, ∃ ws : List Word, (s.live = true) ∧ (s.fl.st = .counting) ∧ (s.fl.badPair = false) ∧ (s.mbReq 4 4 = some ws) ∧ (s.fl.lot.isSome = true) ∧ (s.dbgLevel ≠ 2) ∧ (s.fl.pfail = true)) :=
  ⟨⟨({ wHold with mboxes := [(4, { req := some [0x403] })], fl := { st := .counting } } : State), ([0x403] : List Word), by decide +kernel⟩,
   ⟨({ wHold with mboxes := [(4, { req := some [0x404] })], fl := { st := .counting } } : State), ([0x404] : List Word), by decide +kernel⟩,
   ⟨(wSet { wHold with mboxes := [(4, { req := some [0x404] })], fl := { st := .counting, lot := some { h0 := 0 } } } [(SEC_DBG_LEVEL, 0, 2)] : State), ([0x404] : List Word), by decide +kernel⟩,
   ⟨({ wHold with mboxes := [(4, { req := some [0x404] })], fl := { st := .counting, pfail := true, lot := some { h0 := 0 } } } : State), ([0x404] : List Word), by decide +kernel⟩⟩

/-- The premises of clauses of Obligations.MetrologyOperations are met. -/
theorem witness_MetrologyOperations_5 :
    (∃ s : State, ∃ ws : List Word, ∃ n : Nat, (n = (s.fl.ahead.ticketNo + 1) % 2 ^ 32) ∧ (s.live = true) ∧ (s.fl.st = .counting) ∧ (s.fl.badPair = false) ∧ (s.mbReq 4 4 = some ws) ∧ (s.fl.lot.isSome = true) ∧ (s.dbgLevel ≠ 2) ∧ (s.fl.pfail = false)) ∧
    (∃ s : State, ∃ ws : List Word, ∃ id : Nat, ∃ v : Nat, (id = reqWord ws 1) ∧ (v = reqWord ws 2) ∧ (s.live = true) ∧ (s.fl.st = .counting) ∧ (s.fl.badPair = false) ∧ (s.mbReq 4 5 = some ws) ∧ (s.fl.sealOpen = false)) ∧
    (∃ s : State, ∃ ws : List Word, ∃ id : Nat, ∃ v : Nat, (id = reqWord ws 1) ∧ (v = reqWord ws 2) ∧ (s.live = true) ∧ (s.fl.st = .counting) ∧ (s.fl.badPair = false) ∧ (s.mbReq 4 5 = some ws) ∧ (s.fl.sealOpen = true) ∧ (s.fl.lot.isSome = true ∨ s.fl.still = false)) ∧
    (∃ s : State, ∃ ws : List Word, ∃ id : Nat, ∃ v : Nat, (id = reqWord ws 1) ∧ (v = reqWord ws 2) ∧ (s.live = true) ∧ (s.fl.st = .counting) ∧ (s.fl.badPair = false) ∧ (s.mbReq 4 5 = some ws) ∧ (s.fl.sealOpen = true) ∧ (s.fl.lot = none) ∧ (s.fl.still = true) ∧ (flParamOk id v = false ∨ 2 ^ 26 ≤ s.fl.ahead.chg + 1)) :=
  ⟨⟨({ wHold with mboxes := [(4, { req := some [0x404] })], fl := { st := .counting, lot := some { h0 := 0 } } } : State), ([0x404] : List Word), _, rfl, by decide +kernel⟩,
   ⟨({ wHold with mboxes := [(4, { req := some [0x405, 5, 4] })], fl := { st := .counting } } : State), ([0x405, 5, 4] : List Word), _, _, rfl, rfl, by decide +kernel⟩,
   ⟨({ wHold with mboxes := [(4, { req := some [0x405, 5, 4] })], fl := { st := .counting, sealOpen := true } } : State), ([0x405, 5, 4] : List Word), _, _, rfl, rfl, by decide +kernel⟩,
   ⟨({ wHold with mboxes := [(4, { req := some [0x405, 5, 4] })], fl := { wFl with st := .counting, sealOpen := true, still := true, chg := 67108863 } } : State), ([0x405, 5, 4] : List Word), _, _, rfl, rfl, by decide +kernel⟩⟩

/-- The premises of clauses of Obligations.MetrologyOperations are met. -/
theorem witness_MetrologyOperations_6 :
    (∃ s : State, ∃ ws : List Word, ∃ id : Nat, ∃ v : Nat, (id = reqWord ws 1) ∧ (v = reqWord ws 2) ∧ (s.live = true) ∧ (s.fl.st = .counting) ∧ (s.fl.badPair = false) ∧ (s.mbReq 4 5 = some ws) ∧ (s.fl.sealOpen = true) ∧ (s.fl.lot = none) ∧ (s.fl.still = true) ∧ (flParamOk id v = true) ∧ (s.fl.ahead.chg + 1 < 2 ^ 26)) ∧
    (∃ s : State, ∃ ws : List Word, (s.live = true) ∧ (s.fl.st = .counting) ∧ (s.fl.badPair = false) ∧ (s.mbReq 4 6 = some ws)) ∧
    (∃ s : State, ∃ ws : List Word, (s.live = true) ∧ (s.fl.st = .counting) ∧ (s.fl.badPair = false) ∧ (s.mbReq 4 7 = some ws)) ∧
    (∃ s : State, ∃ ws : List Word, ∃ a : Nat, ∃ n : Nat, (a = reqWord ws 1 + 2 ^ 32 * (reqWord ws 2 % 256)) ∧ (n = reqWord ws 3) ∧ (s.live = true) ∧ (s.fl.st = .counting) ∧ (s.fl.badPair = false) ∧ (s.mbReq 4 8 = some ws) ∧ (s.fl.sealOpen = false)) :=
  ⟨⟨({ wHold with mboxes := [(4, { req := some [0x405, 5, 4096] })], fl := { wFl with st := .counting, sealOpen := true, still := true, chg := 67108862 } } : State), ([0x405, 5, 4096] : List Word), _, _, rfl, rfl, by decide +kernel⟩,
   ⟨({ wHold with mboxes := [(4, { req := some [0x406] })], fl := { st := .counting } } : State), ([0x406] : List Word), by decide +kernel⟩,
   ⟨({ wHold with mboxes := [(4, { req := some [0x407] })], fl := { st := .counting } } : State), ([0x407] : List Word), by decide +kernel⟩,
   ⟨({ wHold with mboxes := [(4, { req := some [0x408, 0x14000000, 0, 1] })], fl := { st := .counting } } : State), ([0x408, 0x14000000, 0, 1] : List Word), _, _, rfl, rfl, by decide +kernel⟩⟩

/-- The premises of clauses of Obligations.MetrologyOperations are met. -/
theorem witness_MetrologyOperations_7 :
    (∃ s : State, ∃ ws : List Word, ∃ a : Nat, ∃ n : Nat, (a = reqWord ws 1 + 2 ^ 32 * (reqWord ws 2 % 256)) ∧ (n = reqWord ws 3) ∧ (s.live = true) ∧ (s.fl.st = .counting) ∧ (s.fl.badPair = false) ∧ (s.mbReq 4 8 = some ws) ∧ (s.fl.sealOpen = true) ∧ (0x30000 < n ∨ a < 0x14000000 ∨ 0x15000000 < a + n)) ∧
    (∃ s : State, ∃ ws : List Word, ∃ a : Nat, ∃ n : Nat, ∃ res : Nat, ∃ img : List Byte, ∃ w : State, (a = reqWord ws 1 + 2 ^ 32 * (reqWord ws 2 % 256)) ∧ (n = reqWord ws 3) ∧ (s.busRead 49 a n = (res, img, w)) ∧ (s.live = true) ∧ (s.fl.st = .counting) ∧ (s.fl.badPair = false) ∧ (s.mbReq 4 8 = some ws) ∧ (s.fl.sealOpen = true) ∧ (n ≤ 0x30000) ∧ (0x14000000 ≤ a) ∧ (a + n ≤ 0x15000000)) ∧
    (∃ s : State, ∃ ws : List Word, (s.live = true) ∧ (s.fl.st = .framFail ∨ s.fl.st = .blank) ∧ (s.mbReq 4 6 = some ws) ∧ (s.fl.sealOpen = false)) ∧
    (∃ s : State, ∃ ws : List Word, (s.live = true) ∧ (s.fl.st = .framFail ∨ s.fl.st = .blank) ∧ (s.mbReq 4 6 = some ws) ∧ (s.fl.sealOpen = true) ∧ (63 ≤ s.fl.gen)) :=
  ⟨⟨({ wHold with mboxes := [(4, { req := some [0x408, 0x14FFFFFF, 0, 2] })], fl := { st := .counting, sealOpen := true } } : State), ([0x408, 0x14FFFFFF, 0, 2] : List Word), _, _, rfl, rfl, by decide +kernel⟩,
   ⟨({ wHold with mboxes := [(4, { req := some [0x408, 0x14FFFFFF, 0, 1] })], fl := { st := .counting, sealOpen := true } } : State), ([0x408, 0x14FFFFFF, 0, 1] : List Word), _, _, _, _, _, rfl, rfl, tripleOf rfl, by decide +kernel⟩,
   ⟨({ wHold with mboxes := [(4, { req := some [0x406] })], fl := { st := .framFail } } : State), ([0x406] : List Word), by decide +kernel⟩,
   ⟨({ wHold with mboxes := [(4, { req := some [0x406] })], fl := { st := .blank, sealOpen := true, gen := 63 } } : State), ([0x406] : List Word), by decide +kernel⟩⟩

/-- The premises of clauses of Obligations.MetrologyOperations are met. -/
theorem witness_MetrologyOperations_8 :
    ∃ s : State, ∃ ws : List Word, (s.live = true) ∧ (s.fl.st = .framFail ∨ s.fl.st = .blank) ∧ (s.mbReq 4 6 = some ws) ∧ (s.fl.sealOpen = true) ∧ (s.fl.gen < 63) :=
  ⟨({ wHold with mboxes := [(4, { req := some [0x406] })], fl := { st := .blank, sealOpen := true, gen := 62 } } : State), ([0x406] : List Word), by decide +kernel⟩

/-- The premises of clauses of Obligations.KeysMeasurementsAndQuotes are met. -/
theorem witness_KeysMeasurementsAndQuotes_1 :
    (∃ s : State, ∃ v : Word, ∃ k : Nat, ∃ r : Nat, (k = bits v.toNat 2 0) ∧ (r = bits v.toNat 2 0) ∧ (s.powered = false)) ∧
    (∃ s : State, ∃ m : Master, ∃ v : Word, ∃ k : Nat, ∃ r : Nat, (k = bits v.toNat 2 0) ∧ (r = bits v.toNat 2 0) ∧ (s.mayWrite m .SEC_KEYCMD 0) ∧ (v.getLsbD 9 = false) ∧ (2 ≤ s.lcState)) ∧
    (∃ s : State, ∃ m : Master, ∃ v : Word, ∃ k : Nat, ∃ r : Nat, (k = bits v.toNat 2 0) ∧ (r = bits v.toNat 2 0) ∧ (s.mayWrite m .SEC_KEYCMD 0) ∧ (v.getLsbD 9 = false) ∧ (s.lcState ≤ 1) ∧ (1 ≤ k) ∧ (k ≤ 4) ∧ (s.sec.keys.find? (fun e => e.1 == k) = none)) ∧
    (∃ s : State, ∃ m : Master, ∃ v : Word, ∃ k : Nat, ∃ r : Nat, (k = bits v.toNat 2 0) ∧ (r = bits v.toNat 2 0) ∧ (s.mayWrite m .SEC_KEYCMD 0) ∧ (v.getLsbD 9 = false) ∧ (s.lcState ≤ 1) ∧ (1 ≤ k) ∧ (k ≤ 4) ∧ ((s.sec.keys.find? (fun e => e.1 == k)).isSome = true)) :=
  ⟨⟨({ pwr := { st := .off } } : State), (0 : Word), _, _, rfl, rfl, by decide +kernel⟩,
   ⟨({ wHold with sec := { lc := 2 } } : State), (48 : Master), (1 : Word), _, _, rfl, rfl, reach (by decide +kernel), by decide +kernel⟩,
   ⟨({ wHold with sec := { lc := 1 } } : State), (48 : Master), (4 : Word), _, _, rfl, rfl, reach (by decide +kernel), by decide +kernel⟩,
   ⟨({ wHold with sec := { lc := 1, keys := [(4, [])] } } : State), (48 : Master), (4 : Word), _, _, rfl, rfl, reach (by decide +kernel), by decide +kernel⟩⟩

/-- The premises of clauses of Obligations.KeysMeasurementsAndQuotes are met. -/
theorem witness_KeysMeasurementsAndQuotes_2 :
    (∃ s : State, ∃ m : Master, ∃ v : Word, ∃ k : Nat, ∃ r : Nat, (k = bits v.toNat 2 0) ∧ (r = bits v.toNat 2 0) ∧ (s.mayWrite m .SEC_KEYCMD 0) ∧ (v.getLsbD 9 = false) ∧ (s.lcState ≤ 1) ∧ (k = 0 ∨ 4 < k)) ∧
    (∃ s : State, ∃ m : Master, ∃ v : Word, ∃ k : Nat, ∃ r : Nat, (k = bits v.toNat 2 0) ∧ (r = bits v.toNat 2 0) ∧ (s.mayWrite m .SEC_KEYCMD 0) ∧ (v.getLsbD 9 = true) ∧ (s.lcState ≤ 1) ∧ (1 ≤ k) ∧ (k ≤ 4) ∧ (s.sec.keys.find? (fun e => e.1 == k) = none)) ∧
    (∃ s : State, ∃ m : Master, ∃ v : Word, ∃ k : Nat, ∃ r : Nat, (k = bits v.toNat 2 0) ∧ (r = bits v.toNat 2 0) ∧ (s.mayWrite m .SEC_KEYCMD 0) ∧ (v.getLsbD 9 = true) ∧ (1 ≤ k) ∧ (k ≤ 4) ∧ (s.lcState = 2 ∨ (s.lcState ≤ 1 ∧ (s.sec.keys.find? (fun e => e.1 == k)).isSome = true))) ∧
    (∃ s : State, ∃ m : Master, ∃ v : Word, ∃ k : Nat, ∃ r : Nat, (k = bits v.toNat 2 0) ∧ (r = bits v.toNat 2 0) ∧ (s.mayWrite m .SEC_KEYCMD 0) ∧ (v.getLsbD 9 = true) ∧ (s.lcState = 3 ∨ k = 0 ∨ 4 < k)) :=
  ⟨⟨({ wHold with sec := { lc := 1 } } : State), (48 : Master), (5 : Word), _, _, rfl, rfl, reach (by decide +kernel), by decide +kernel⟩,
   ⟨({ wHold with sec := { lc := 1 } } : State), (48 : Master), (0x204 : Word), _, _, rfl, rfl, reach (by decide +kernel), by decide +kernel⟩,
   ⟨({ wHold with sec := { lc := 2 } } : State), (48 : Master), (0x204 : Word), _, _, rfl, rfl, reach (by decide +kernel), by decide +kernel⟩,
   ⟨({ wHold with sec := { lc := 3 } } : State), (48 : Master), (0x201 : Word), _, _, rfl, rfl, reach (by decide +kernel), by decide +kernel⟩⟩

/-- The premises of clauses of Obligations.KeysMeasurementsAndQuotes are met. -/
theorem witness_KeysMeasurementsAndQuotes_3 :
    (∃ s : State, ∃ m : Master, ∃ v : Word, ∃ k : Nat, ∃ r : Nat, (k = bits v.toNat 2 0) ∧ (r = bits v.toNat 2 0) ∧ (s.mayWrite m .SEC_KEYCMD 0) ∧ (v.getLsbD 8 = true)) ∧
    (∃ s : State, ∃ m : Master, ∃ v : Word, ∃ k : Nat, ∃ r : Nat, (k = bits v.toNat 2 0) ∧ (r = bits v.toNat 2 0) ∧ (s.mayWrite m .SEC_KEYCMD 0) ∧ (v.getLsbD 8 = false) ∧ (s.lcState = 3)) ∧
    (∃ s : State, ∃ m : Master, ∃ v : Word, ∃ k : Nat, ∃ r : Nat, (k = bits v.toNat 2 0) ∧ (r = bits v.toNat 2 0) ∧ (s.mayWrite m .SEC_KEYCMD 0) ∧ (v.getLsbD 8 = false) ∧ (s.lcState ≠ 3) ∧ (1 ≤ k) ∧ (k ≤ 4)) ∧
    (∃ s : State, ∃ m : Master, ∃ v : Word, ∃ k : Nat, ∃ r : Nat, (k = bits v.toNat 2 0) ∧ (r = bits v.toNat 2 0) ∧ (s.mayWrite m .SEC_KEYCMD 0) ∧ (v.getLsbD 8 = false) ∧ (s.lcState ≠ 3) ∧ (k = 0 ∨ 4 < k)) :=
  ⟨⟨(wHold : State), (48 : Master), (0x101 : Word), _, _, rfl, rfl, reach (by decide +kernel), by decide +kernel⟩,
   ⟨({ wHold with sec := { lc := 3 } } : State), (48 : Master), (0 : Word), _, _, rfl, rfl, reach (by decide +kernel), by decide +kernel⟩,
   ⟨(wHold : State), (48 : Master), (4 : Word), _, _, rfl, rfl, reach (by decide +kernel), by decide +kernel⟩,
   ⟨(wHold : State), (48 : Master), (5 : Word), _, _, rfl, rfl, reach (by decide +kernel), by decide +kernel⟩⟩

/-- The premises of clauses of Obligations.KeysMeasurementsAndQuotes are met. -/
theorem witness_KeysMeasurementsAndQuotes_4 :
    (∃ s : State, ∃ m : Master, ∃ v : Word, ∃ k : Nat, ∃ r : Nat, (k = bits v.toNat 2 0) ∧ (r = bits v.toNat 2 0) ∧ (s.mayWrite m .SEC_MRX 0) ∧ (r < 6)) ∧
    (∃ s : State, ∃ m : Master, ∃ v : Word, ∃ k : Nat, ∃ r : Nat, (k = bits v.toNat 2 0) ∧ (r = bits v.toNat 2 0) ∧ (s.mayWrite m .SEC_MRX 0) ∧ (6 ≤ r)) ∧
    (∃ s : State, ∃ m : Master, ∃ v : Word, ∃ k : Nat, ∃ r : Nat, (k = bits v.toNat 2 0) ∧ (r = bits v.toNat 2 0) ∧ (s.mayWrite m .SEC_QCMD 0) ∧ (s.on SEC_QRES_BUSY = true)) ∧
    (∃ s : State, ∃ m : Master, ∃ v : Word, ∃ k : Nat, ∃ r : Nat, (k = bits v.toNat 2 0) ∧ (r = bits v.toNat 2 0) ∧ (s.mayWrite m .SEC_QCMD 0) ∧ (s.on SEC_QRES_BUSY = false) ∧ (s.lcState = 0 ∨ s.lcState = 3 ∨ s.sec.idPub = [])) :=
  ⟨⟨(wHold : State), (48 : Master), (5 : Word), _, _, rfl, rfl, reach (by decide +kernel), by decide +kernel⟩,
   ⟨(wHold : State), (48 : Master), (6 : Word), _, _, rfl, rfl, reach (by decide +kernel), by decide +kernel⟩,
   ⟨(wSet wHold [(SEC_QRES_BUSY, 0, 1)] : State), (48 : Master), (0 : Word), _, _, rfl, rfl, reach (by decide +kernel), by decide +kernel⟩,
   ⟨({ wHold with sec := { lc := 3 } } : State), (48 : Master), (0 : Word), _, _, rfl, rfl, reach (by decide +kernel), by decide +kernel⟩⟩

/-- The premises of clauses of Obligations.KeysMeasurementsAndQuotes are met. -/
theorem witness_KeysMeasurementsAndQuotes_5 :
    (∃ s : State, ∃ m : Master, ∃ v : Word, ∃ k : Nat, ∃ r : Nat, (k = bits v.toNat 2 0) ∧ (r = bits v.toNat 2 0) ∧ (s.mayWrite m .SEC_QCMD 0) ∧ (s.on SEC_QRES_BUSY = false) ∧ (s.lcState = 1 ∨ s.lcState = 2) ∧ (s.sec.idPub ≠ [])) ∧
    (∃ s : State, ∃ v : Word, ∃ k : Nat, ∃ r : Nat, (k = bits v.toNat 2 0) ∧ (r = bits v.toNat 2 0) ∧ (s.pending = []) ∧ (s.live = true) ∧ (s.on SEC_QRES_BUSY = true)) ∧
    (∃ s : State, ∃ v : Word, ∃ k : Nat, ∃ r : Nat, (k = bits v.toNat 2 0) ∧ (r = bits v.toNat 2 0) ∧ (s.live = false ∨ s.on SEC_QRES_BUSY = false) ∧ (s.pending = [])) :=
  ⟨⟨({ wHold with sec := { lc := 2, idPub := [1] } } : State), (48 : Master), (0 : Word), _, _, rfl, rfl, reach (by decide +kernel), by decide +kernel⟩,
   ⟨(wSet wHold [(SEC_QRES_BUSY, 0, 1)] : State), (0 : Word), _, _, rfl, rfl, by decide +kernel⟩,
   ⟨(wHold : State), (0 : Word), _, _, rfl, rfl, by decide +kernel⟩⟩

/-- The premises of clauses of Obligations.LifecycleAndDebug are met. -/
theorem witness_LifecycleAndDebug_1 :
    (∃ s : State, (s.powered = false)) ∧
    (∃ s : State, ∃ m : Master, (s.mayWriteOn m .SEC_CHALCMD 0) ∧ (8 ≤ s.fld SEC_DBG_FAILS)) ∧
    (∃ s : State, ∃ m : Master, (s.mayWriteOn m .SEC_CHALCMD 0) ∧ (s.fld SEC_DBG_FAILS < 8)) ∧
    (∃ s : State, ∃ bit : Nat, ∃ purpose : Nat, ∃ need : Nat → Bool, ∃ ok : Bool, ∃ x : State, (s.verifyAuth bit purpose need = (ok, x)) ∧ (s.sec.chal = false)) :=
  ⟨⟨({ pwr := { st := .off } } : State), by decide +kernel⟩,
   ⟨(wSet wHold [(SEC_DBG_FAILS, 0, 8)] : State), (48 : Master), reachOn (by decide +kernel), by decide +kernel⟩,
   ⟨(wSet wHold [(SEC_DBG_FAILS, 0, 7)] : State), (48 : Master), reachOn (by decide +kernel), by decide +kernel⟩,
   ⟨(wHold : State), (0 : Nat), (0 : Nat), (fun _ => true : Nat → Bool), _, _, pairOf rfl, by decide +kernel⟩⟩

/-- The premises of clauses of Obligations.LifecycleAndDebug are met. -/
theorem witness_LifecycleAndDebug_2 :
    (∃ s : State, ∃ bit : Nat, ∃ purpose : Nat, ∃ need : Nat → Bool, ∃ ok : Bool, ∃ x : State, ∃ i, (s.verifyAuth bit purpose need = (ok, x)) ∧ (i < 8)) ∧
    (∃ s : State, ∃ m : Master, ∃ v : Word, ∃ d : Nat, ∃ t : State, (s.mayWriteOn m .SEC_LCCMD 0) ∧ (d = bits v.toNat 1 0) ∧ (t = ({ s with resp := {} } : State).regStore .SEC_LCCMD 0 (v ||| 0x80000000)) ∧ (s.sec.lcInvalid = true)) ∧
    (∃ s : State, ∃ m : Master, ∃ v : Word, ∃ d : Nat, ∃ t : State, (s.mayWriteOn m .SEC_LCCMD 0) ∧ (d = bits v.toNat 1 0) ∧ (t = ({ s with resp := {} } : State).regStore .SEC_LCCMD 0 (v ||| 0x80000000)) ∧ (s.sec.lcInvalid = false) ∧ (s.inHold = false ∨ ¬((s.lcState = 0 ∧ d = 1 ∧ s.sec.keys ≠ []) ∨ (s.lcState = 1 ∧ d = 2) ∨ ((s.lcState = 1 ∨ s.lcState = 2) ∧ d = 3)))) ∧
    (∃ s : State, ∃ m : Master, ∃ v : Word, ∃ d : Nat, ∃ t : State, (s.mayWriteOn m .SEC_LCCMD 0) ∧ (d = bits v.toNat 1 0) ∧ (t = ({ s with resp := {} } : State).regStore .SEC_LCCMD 0 (v ||| 0x80000000)) ∧ (s.sec.lcInvalid = false) ∧ (s.inHold = true) ∧ (s.lcState = 0) ∧ (d = 1) ∧ (s.sec.keys ≠ [])) :=
  ⟨⟨(wHold : State), (0 : Nat), (0 : Nat), (fun _ => true : Nat → Bool), _, _, 7, pairOf rfl, by decide +kernel⟩,
   ⟨({ wHold with sec := { lc := 0, lcInvalid := true } } : State), (48 : Master), (0 : Word), _, _, reachOn (by decide +kernel), rfl, rfl, by decide +kernel⟩,
   ⟨(wHold : State), (48 : Master), (1 : Word), _, _, reachOn (by decide +kernel), rfl, rfl, by decide +kernel⟩,
   ⟨({ wHold with sec := { lc := 0, keys := [(1, [])] } } : State), (48 : Master), (1 : Word), _, _, reachOn (by decide +kernel), rfl, rfl, by decide +kernel⟩⟩

/-- The premises of clauses of Obligations.LifecycleAndDebug are met. -/
theorem witness_LifecycleAndDebug_3 :
    (∃ s : State, ∃ m : Master, ∃ v : Word, ∃ d : Nat, ∃ t : State, (s.mayWriteOn m .SEC_LCCMD 0) ∧ (d = bits v.toNat 1 0) ∧ (t = ({ s with resp := {} } : State).regStore .SEC_LCCMD 0 (v ||| 0x80000000)) ∧ (s.sec.lcInvalid = false) ∧ (s.inHold = true) ∧ (s.lcState = 1) ∧ (d = 2)) ∧
    (∃ s : State, ∃ m : Master, ∃ v : Word, ∃ d : Nat, ∃ t : State, (s.mayWriteOn m .SEC_LCCMD 0) ∧ (d = bits v.toNat 1 0) ∧ (t = ({ s with resp := {} } : State).regStore .SEC_LCCMD 0 (v ||| 0x80000000)) ∧ (s.sec.lcInvalid = false) ∧ (s.inHold = true) ∧ (s.lcState = 1 ∨ s.lcState = 2) ∧ (d = 3)) ∧
    (∃ s : State, ∃ m : Master, ∃ v : Word, ∃ q : Nat, ∃ w : State, ∃ t : State, (s.mayWriteOn m .SEC_DBG 0) ∧ (q = bits v.toNat 5 4) ∧ (w = ({ s with resp := {} } : State).regStore .SEC_DBG 0 (v ||| 0x100)) ∧ (t = (if v.getLsbD 9 then w.dbgClose else w)) ∧ (q = 0 ∨ q = 3)) ∧
    (∃ s : State, ∃ m : Master, ∃ v : Word, ∃ q : Nat, ∃ w : State, ∃ t : State, (s.mayWriteOn m .SEC_DBG 0) ∧ (q = bits v.toNat 5 4) ∧ (w = ({ s with resp := {} } : State).regStore .SEC_DBG 0 (v ||| 0x100)) ∧ (t = (if v.getLsbD 9 then w.dbgClose else w)) ∧ (q = 1 ∨ q = 2) ∧ (s.live = false ∨ s.sec.lcInvalid = true ∨ (q = 2 ∧ (s.lcState = 1 ∨ s.lcState = 2)))) :=
  ⟨⟨({ wHold with sec := { lc := 1 } } : State), (48 : Master), (2 : Word), _, _, reachOn (by decide +kernel), rfl, rfl, by decide +kernel⟩,
   ⟨({ wHold with sec := { lc := 2 } } : State), (48 : Master), (3 : Word), _, _, reachOn (by decide +kernel), rfl, rfl, by decide +kernel⟩,
   ⟨(wHold : State), (48 : Master), (0x230 : Word), _, _, _, reachOn (by decide +kernel), rfl, rfl, rfl, by decide +kernel⟩,
   ⟨({ wHold with sec := { lc := 1 } } : State), (48 : Master), (0x20 : Word), _, _, _, reachOn (by decide +kernel), rfl, rfl, rfl, by decide +kernel⟩⟩

/-- The premises of clauses of Obligations.LifecycleAndDebug are met. -/
theorem witness_LifecycleAndDebug_4 :
    (∃ s : State, ∃ m : Master, ∃ v : Word, ∃ q : Nat, ∃ w : State, ∃ t : State, (s.mayWriteOn m .SEC_DBG 0) ∧ (q = bits v.toNat 5 4) ∧ (w = ({ s with resp := {} } : State).regStore .SEC_DBG 0 (v ||| 0x100)) ∧ (t = (if v.getLsbD 9 then w.dbgClose else w)) ∧ (q = 1 ∨ q = 2) ∧ (s.live = true) ∧ (s.sec.lcInvalid = false) ∧ (¬(q = 2 ∧ (s.lcState = 1 ∨ s.lcState = 2))) ∧ (q ≤ t.dbgLevel)) ∧
    (∃ s : State, ∃ m : Master, ∃ v : Word, ∃ q : Nat, ∃ w : State, ∃ t : State, (s.mayWriteOn m .SEC_DBG 0) ∧ (q = bits v.toNat 5 4) ∧ (w = ({ s with resp := {} } : State).regStore .SEC_DBG 0 (v ||| 0x100)) ∧ (t = (if v.getLsbD 9 then w.dbgClose else w)) ∧ (q = 1 ∨ q = 2) ∧ (s.live = true) ∧ (s.sec.lcInvalid = false) ∧ (¬(q = 2 ∧ (s.lcState = 1 ∨ s.lcState = 2))) ∧ (t.dbgLevel < q)) ∧
    (∃ s : State, ∃ d, (d ∈ [DebugUse.bypass, .idcode, .samplePreload]) ∧ (s.powered = true)) ∧
    (∃ d, (d ∈ [DebugUse.haltServiceCore, .stepServiceCore, .regsOfServiceCore])) :=
  ⟨⟨(wSet { wHold with sec := { lc := 2 } } [(SEC_DBG_LEVEL, 0, 1)] : State), (48 : Master), (0x10 : Word), _, _, _, reachOn (by decide +kernel), rfl, rfl, rfl, by decide +kernel⟩,
   ⟨({ wHold with sec := { lc := 2 } } : State), (48 : Master), (0x10 : Word), _, _, _, reachOn (by decide +kernel), rfl, rfl, rfl, by decide +kernel⟩,
   ⟨(wHold : State), DebugUse.bypass, by decide +kernel⟩,
   ⟨DebugUse.haltServiceCore, by decide +kernel⟩⟩

/-- The premises of clauses of Obligations.LifecycleAndDebug are met. -/
theorem witness_LifecycleAndDebug_5 :
    (∃ d, (d ∈ [DebugUse.haltRootCore, .haltEngine, .engineImem])) ∧
    (∃ d, (d ∈ [DebugUse.flaconCore, .flaconSram, .extest, .intest])) ∧
    (∃ v : Word, (v.getLsbD 8 = true)) ∧
    (∃ s : State, ∃ m : Master, ∃ v : Word, (s.mayWriteOn m .SEC_DBG 0) ∧ (v.getLsbD 8 = false)) :=
  ⟨⟨DebugUse.haltEngine, by decide +kernel⟩,
   ⟨DebugUse.extest, by decide +kernel⟩,
   ⟨(0x101 : Word), by decide +kernel⟩,
   ⟨(wHold : State), (48 : Master), (0 : Word), reachOn (by decide +kernel), by decide +kernel⟩⟩

/-- The premises of clauses of Obligations.PowerCommands are met. -/
theorem witness_PowerCommands_1 :
    (∃ s : State, (s.powered = false)) ∧
    (∃ s : State, ∃ m : Master, ∃ v : Word, (s.mayWrite m .SYS_PWRCMD 0) ∧ (v.getLsbD 1 = false) ∧ (v.getLsbD 2 = false) ∧ (s.inHoldIdle = true) ∧ (s.on SYS_PSTAT_VALID = true) ∧ (ofSigned 48 s.tick.hw = s.wide .SYS_RUNMARK_LO .SYS_RUNMARK_HI % 2 ^ 48)) ∧
    (∃ s : State, ∃ m : Master, ∃ v : Word, (s.mayWrite m .SYS_PWRCMD 0) ∧ (v.getLsbD 1 = false) ∧ (v.getLsbD 2 = false) ∧ (s.inHoldIdle = true) ∧ (s.on SYS_PSTAT_VALID = false ∨ ofSigned 48 s.tick.hw ≠ s.wide .SYS_RUNMARK_LO .SYS_RUNMARK_HI % 2 ^ 48)) ∧
    (∃ s : State, ∃ m : Master, ∃ v : Word, (s.mayWrite m .SYS_PWRCMD 0) ∧ (v.getLsbD 1 = false) ∧ (v.getLsbD 2 = false) ∧ (s.inHoldIdle = false)) :=
  ⟨⟨({ pwr := { st := .off } } : State), by decide +kernel⟩,
   ⟨(wSet wHold [(SYS_PSTAT_VALID, 0, 1)] : State), (48 : Master), (1 : Word), reach (by decide +kernel), by decide +kernel⟩,
   ⟨(wHold : State), (48 : Master), (1 : Word), reach (by decide +kernel), by decide +kernel⟩,
   ⟨(wRun : State), (48 : Master), (1 : Word), reach (by decide +kernel), by decide +kernel⟩⟩

/-- The premises of clauses of Obligations.PowerCommands are met. -/
theorem witness_PowerCommands_2 :
    (∃ s : State, ∃ m : Master, ∃ v : Word, (s.mayWrite m .SYS_PWRCMD 0) ∧ (v.getLsbD 1 = false) ∧ (v.getLsbD 2 = true) ∧ (s.inHoldIdle = true)) ∧
    (∃ s : State, ∃ m : Master, ∃ v : Word, ∃ u : State, (s.mayWrite m .SYS_PWRCMD 0) ∧ (exec (.pwrcmdHold m v) s = .next u) ∧ (v.getLsbD 0 = false) ∧ (v.getLsbD 1 = false) ∧ (s.inHoldIdle = false)) ∧
    (∃ v : Word, (v.getLsbD 1 = true)) ∧
    (∃ s : State, ∃ m : Master, ∃ v : Word, ∃ u : State, (s.mayWrite m .SYS_PWRCMD 0) ∧ (exec (.pwrcmdRun m v) s = .next u) ∧ (v.getLsbD 1 = false) ∧ (v.getLsbD 0 = true)) :=
  ⟨⟨(wHold : State), (48 : Master), (5 : Word), reach (by decide +kernel), by decide +kernel⟩,
   ⟨(wRun : State), (48 : Master), (0 : Word), _, reach (by decide +kernel), rfl, by decide +kernel⟩,
   ⟨(2 : Word), by decide +kernel⟩,
   ⟨(wHold : State), (48 : Master), (1 : Word), _, reach (by decide +kernel), rfl, by decide +kernel⟩⟩

/-- The premises of clauses of Obligations.PowerCommands are met. -/
theorem witness_PowerCommands_3 :
    (∃ s : State, ∃ m : Master, ∃ v : Word, ∃ u : State, (s.mayWrite m .SYS_PWRCMD 0) ∧ (exec (.pwrcmdHold m v) s = .next u) ∧ (v.getLsbD 1 = false) ∧ (v.getLsbD 0 = false) ∧ (v.getLsbD 2 = true)) ∧
    (∃ s : State, ∃ m : Master, ∃ v : Word, (s.mayWrite m .SYS_PWRCMD 0) ∧ (v.getLsbD 0 = false) ∧ (v.getLsbD 1 = false) ∧ (s.inRun = true) ∧ (s.pwr.drain = false)) ∧
    (∃ s : State, ∃ m : Master, ∃ v : Word, (s.mayWrite m .SYS_PWRCMD 0) ∧ (v.getLsbD 0 = false) ∧ (v.getLsbD 1 = false) ∧ (s.inRun = true) ∧ (s.pwr.drain = true)) ∧
    (∃ s : State, ∃ m : Master, ∃ v : Word, (s.mayWrite m .SYS_PWRCMD 0) ∧ (v.getLsbD 0 = false) ∧ (v.getLsbD 1 = false) ∧ (s.inHold = true)) :=
  ⟨⟨(wHold : State), (48 : Master), (4 : Word), _, reach (by decide +kernel), rfl, by decide +kernel⟩,
   ⟨(wRun : State), (48 : Master), (0 : Word), reach (by decide +kernel), by decide +kernel⟩,
   ⟨(wStop : State), (48 : Master), (0 : Word), reach (by decide +kernel), by decide +kernel⟩,
   ⟨(wHold : State), (48 : Master), (0 : Word), reach (by decide +kernel), by decide +kernel⟩⟩

/-- The premises of clauses of Obligations.PowerCommands are met. -/
theorem witness_PowerCommands_4 :
    (∃ s : State, ∃ m : Master, ∃ v : Word, (s.mayWrite m .SYS_PWRCMD 0) ∧ (v.getLsbD 0 = false) ∧ (v.getLsbD 2 = false) ∧ (s.inHoldIdle = false)) ∧
    (∃ s : State, ∃ m : Master, ∃ v : Word, (s.mayWrite m .SYS_PWRCMD 0) ∧ (v.getLsbD 0 = false) ∧ (v.getLsbD 2 = false) ∧ (s.inHoldIdle = true)) :=
  ⟨⟨(wRun : State), (48 : Master), (0 : Word), reach (by decide +kernel), by decide +kernel⟩,
   ⟨(wHold : State), (48 : Master), (0 : Word), reach (by decide +kernel), by decide +kernel⟩⟩

/-- The premises of clauses of Obligations.OffBootAndWake are met. -/
theorem witness_OffBootAndWake_1 :
    (∃ s : State, (s.pwr.st = .off)) ∧
    (∃ s : State, ∃ flacon : Bool, ∃ c : Instr, ∃ trip : Bool, (s.pwr.st ≠ .off) ∧ ((c = .offEntry ∧ trip = false) ∨ (c = .railFault flacon ∧ trip = false) ∨ (c = .thermalTrip ∧ trip = true))) ∧
    (∃ s : State, (s.atReset = false)) ∧
    (∃ s : State, (s.pwr.st ≠ .standby ∨ s.pwr.wake = none)) :=
  ⟨⟨({ pwr := { st := .off } } : State), by decide +kernel⟩,
   ⟨(wHold : State), (false : Bool), (.offEntry : Instr), (false : Bool), by decide +kernel⟩,
   ⟨(wRun : State), by decide +kernel⟩,
   ⟨(wHold : State), by decide +kernel⟩⟩

/-- The premises of clauses of Obligations.OffBootAndWake are met. -/
theorem witness_OffBootAndWake_2 :
    (∃ s : State, ∃ n : Nat, ∃ f : State → Nat × State, ∃ r : Nat, ∃ t : State, (f (s.setFld SYS_BOOT_STAGE 0 n) = (r, t)) ∧ (r = rOK)) ∧
    (∃ s : State, ∃ n : Nat, ∃ f : State → Nat × State, ∃ r : Nat, ∃ t : State, (f (s.setFld SYS_BOOT_STAGE 0 n) = (r, t)) ∧ (r ≠ rOK) ∧ (r < 256)) ∧
    (∃ s : State, ∃ env : BootEnv, ∃ a : Bool, ∃ b : Bool, ∃ c : Bool, (s.atReset = true) ∧ (memRead s.boot.flash 0 4 ≠ [0x5A, 0x46, 0x44, 0x31]) ∧ (env.fails = []) ∧ (env.chip.length ≤ 2) ∧ (env.sel = [some a, some b, some c]) ∧ (∀ k < 48, s.on MEM_RPR_FAILED k = false) ∧ (Memory.wf s.mem = true)) ∧
    (∃ s : State, ∃ env : BootEnv, ∃ ch : Nat, ∃ a : Bool, ∃ b : Bool, ∃ c : Bool, (s.pwr.st = .standby) ∧ (s.pwr.wake = some ch) ∧ (ch < 64) ∧ (memRead s.boot.flash 0 4 ≠ [0x5A, 0x46, 0x44, 0x31]) ∧ (env.fails = []) ∧ (env.chip.length ≤ 2) ∧ (env.sel = [some a, some b, some c]) ∧ (∀ k < 48, s.on MEM_RPR_FAILED k = false) ∧ (Memory.wf s.mem = true)) :=
  ⟨⟨(wHold : State), (0 : Nat), (fun s => (rOK, s) : State → Nat × State), (rOK : Nat), _, rfl, by decide +kernel⟩,
   ⟨(wHold : State), (0 : Nat), (fun s => (5, s) : State → Nat × State), (5 : Nat), _, rfl, by decide +kernel⟩,
   ⟨(State.reset : State), (⟨[], [some false, some false, some true], [], [], true, 0⟩ : BootEnv), (false : Bool), (false : Bool), (true : Bool), by decide +kernel⟩,
   ⟨({ pwr := { st := .standby, wake := some 63 } } : State), (⟨[], [some false, some false, some true], [], [], true, 0⟩ : BootEnv), (63 : Nat), (false : Bool), (false : Bool), (true : Bool), by decide +kernel⟩⟩

/-- The premises of clauses of Obligations.ProfilesAndSplices are met. -/
theorem witness_ProfilesAndSplices_1 :
    (∃ s : State, (s.live = false)) ∧
    (∃ s : State, (s.live = true) ∧ (s.mbReq 0 1 = none)) ∧
    (∃ s : State, (s.live = true) ∧ (s.mbReq 0 2 = none)) ∧
    (∃ s : State, (s.live = true) ∧ (s.mbReq 0 3 = none)) :=
  ⟨⟨({ pwr := { st := .standby } } : State), by decide +kernel⟩,
   ⟨(wHold : State), by decide +kernel⟩,
   ⟨(wHold : State), by decide +kernel⟩,
   ⟨(wHold : State), by decide +kernel⟩⟩

/-- The premises of clauses of Obligations.ProfilesAndSplices are met. -/
theorem witness_ProfilesAndSplices_2 :
    (∃ s : State, ∃ ws : List Word, ∃ r : Nat, ∃ k : Nat, ∃ e : Nat, ∃ t : State, (s.profSelect (reqWord ws 1 % 8) = (r, k, e, t)) ∧ (s.live = true) ∧ (s.mbReq 0 1 = some ws)) ∧
    (∃ s : State, ∃ ws : List Word, ∃ r : Nat, ∃ k : Nat, ∃ e : Nat, ∃ t : State, (s.profSplice (reqWord ws 1 % 8) (reqWord ws 2 + 2 ^ 32 * (reqWord ws 3 % 65536)) true = (r, k, e, t)) ∧ (s.live = true) ∧ (s.mbReq 0 2 = some ws)) ∧
    (∃ s : State, ∃ ws : List Word, ∃ r : Nat, ∃ t : State, (s.profCancel = (r, t)) ∧ (s.live = true) ∧ (s.mbReq 0 3 = some ws)) ∧
    (∃ s : State, ∃ n : Nat, (n < 8) ∧ (s.inHoldIdle = false)) :=
  ⟨⟨({ wHold with mboxes := [(0, { req := some [1, 7] })] } : State), ([1, 7] : List Word), _, _, _, _, quadOf rfl, by decide +kernel⟩,
   ⟨({ wHold with mboxes := [(0, { req := some [2, 7, 1, 0] })] } : State), ([2, 7, 1, 0] : List Word), _, _, _, _, quadOf rfl, by decide +kernel⟩,
   ⟨({ wHold with mboxes := [(0, { req := some [3] })] } : State), ([3] : List Word), _, _, pairOf rfl, by decide +kernel⟩,
   ⟨(wRun : State), (7 : Nat), by decide +kernel⟩⟩

/-- The premises of clauses of Obligations.ProfilesAndSplices are met. -/
theorem witness_ProfilesAndSplices_3 :
    (∃ s : State, ∃ n : Nat, (n < 8) ∧ (s.inHoldIdle = true) ∧ (s.on SYS_PSTAT_BUSY = true) ∧ (s.boot.splice = none)) ∧
    (∃ s : State, ∃ n : Nat, ∃ r : Nat, ∃ k : Nat, (n < 8) ∧ (s.inHoldIdle = true) ∧ (s.on SYS_PSTAT_BUSY = false) ∧ (s.profCheck n false = (r, k, none))) ∧
    (∃ s : State, ∃ n : Nat, ∃ r : Nat, ∃ k : Nat, ∃ h : ProfHdr, ∃ items : List ProfItem, ∃ t : State, (t = s.profApply n h items) ∧ (n < 8) ∧ (s.inHoldIdle = true) ∧ (s.on SYS_PSTAT_BUSY = false) ∧ (s.profCheck n false = (r, k, some (h, items)))) ∧
    (∃ s : State, ∃ n : Nat, ∃ h : ProfHdr, ∃ items : List ProfItem, ∃ x : State, ∃ t : State, ∃ r : Nat, ∃ k : Nat, ∃ e : Nat, (x = (((s.pstat n rOK 0 0).setFld SYS_PSTAT_VALID 0 0).setFld SYS_PSTAT_SKIP 0 0)) ∧ ((({ x with boot := { x.boot with prof := some h } } : State).budgets h false).itemsApply h false items = (r, k, e, t)) ∧ (n < 8) ∧ (s.pairOk .SYS_PROFILE = true) ∧ (r = rOK)) :=
  ⟨⟨(wSet wHold [(SYS_PSTAT_BUSY, 0, 1)] : State), (7 : Nat), by decide +kernel⟩,
   ⟨(wHold : State), (7 : Nat), (rNOT_FOUND : Nat), (1 : Nat), by decide +kernel⟩,
   ⟨(wCfg : State), (7 : Nat), (rOK : Nat), (0 : Nat), (wHdr : ProfHdr), ([] : List ProfItem), _, rfl, by decide +kernel⟩,
   ⟨(wHold : State), (7 : Nat), (wHdr : ProfHdr), ([] : List ProfItem), _, _, _, _, _, rfl, quadOf rfl, by decide +kernel⟩⟩

/-- The premises of clauses of Obligations.ProfilesAndSplices are met. -/
theorem witness_ProfilesAndSplices_4 :
    (∃ s : State, ∃ n : Nat, ∃ h : ProfHdr, ∃ items : List ProfItem, ∃ x : State, ∃ t : State, ∃ r : Nat, ∃ k : Nat, ∃ e : Nat, (x = (((s.pstat n rOK 0 0).setFld SYS_PSTAT_VALID 0 0).setFld SYS_PSTAT_SKIP 0 0)) ∧ ((({ x with boot := { x.boot with prof := some h } } : State).budgets h false).itemsApply h false items = (r, k, e, t)) ∧ (n < 8) ∧ (s.pairOk .SYS_PROFILE = true) ∧ (r ≠ rOK) ∧ (r < 256) ∧ (k < 8) ∧ (e < 32)) ∧
    (∃ s : State, ∃ n : Nat, (profBytes s.boot.cfg n = none)) ∧
    (∃ s : State, ∃ n : Nat, ∃ b : List Byte, (profBytes s.boot.cfg n = some b) ∧ (b.take 4 ≠ [0x5A, 0x50, 0x46, 0x31] ∨ (profHdr b).number ≠ n)) ∧
    (∃ s : State, ∃ h : ProfHdr, ∃ sp : Bool, ∃ i : ProfItem, ∃ r : Nat, ∃ k : Nat, ∃ e : Nat, ∃ t : State, (s.itemApply h sp i = (r, k, e, t)) ∧ (r = rOK)) :=
  ⟨⟨(wHold : State), (7 : Nat), (wHdr : ProfHdr), ([⟨1, 0x40000001, [0, 0, 0, 0]⟩] : List ProfItem), _, _, _, _, _, rfl, quadOf rfl, by decide +kernel⟩,
   ⟨(wHold : State), (7 : Nat), by decide +kernel⟩,
   ⟨({ wHold with boot := { cfg := List.replicate 160 0 ++ leBytes 4 192 ++ leBytes 4 128 ++ List.replicate 24 0 ++ wProfB } } : State), (6 : Nat), _, rfl, by decide +kernel⟩,
   ⟨(wHold : State), (wHdr : ProfHdr), (false : Bool), (⟨1, 0x40A0002C, [1, 0, 0, 0]⟩ : ProfItem), _, _, _, _, quadOf rfl, by decide +kernel⟩⟩

/-- The premises of clauses of Obligations.ProfilesAndSplices are met. -/
theorem witness_ProfilesAndSplices_5 :
    (∃ s : State, ∃ h : ProfHdr, ∃ sp : Bool, ∃ i : ProfItem, ∃ r : Nat, ∃ k : Nat, ∃ e : Nat, ∃ t : State, (s.itemApply h sp i = (r, k, e, t)) ∧ (r ≠ rOK)) ∧
    (∃ s : State, (s.boot.splice = none) ∧ (s.live = true)) ∧
    (∃ s : State, (s.boot.splice = none) ∧ (s.inRun = false ∨ s.pwr.drain = true)) ∧
    (∃ s : State, ∃ n : Nat, ∃ line : Nat, ∃ mail : Bool, ∃ r : Nat, ∃ k : Nat, ∃ h : ProfHdr, ∃ items : List ProfItem, ∃ t : State, (t = s.profStage n line mail h items) ∧ (s.boot.splice = none) ∧ (s.inRun = true) ∧ (s.pwr.drain = false) ∧ (s.profCheck n true = (r, k, some (h, items)))) :=
  ⟨⟨(wHold : State), (wHdr : ProfHdr), (false : Bool), (⟨1, 0x40000001, [0, 0, 0, 0]⟩ : ProfItem), _, _, _, _, quadOf rfl, by decide +kernel⟩,
   ⟨(wHold : State), by decide +kernel⟩,
   ⟨(wHold : State), by decide +kernel⟩,
   ⟨({ wRun with boot := wCfg.boot } : State), (7 : Nat), (0 : Nat), (false : Bool), (rOK : Nat), (0 : Nat), (wHdr : ProfHdr), ([] : List ProfItem), _, rfl, by decide +kernel⟩⟩

/-- The premises of clauses of Obligations.ProfilesAndSplices are met. -/
theorem witness_ProfilesAndSplices_6 :
    (∃ s : State, ∃ n : Nat, ∃ r : Nat, ∃ k : Nat, (s.boot.splice = none) ∧ (s.inRun = true) ∧ (s.pwr.drain = false) ∧ (n < 8) ∧ (s.profCheck n true = (r, k, none))) ∧
    (∃ s : State, ∃ n : Nat, ∃ line : Nat, ∃ mail : Bool, ∃ h : ProfHdr, ∃ u : State, (u = s.profStage n line mail h []) ∧ (s.boot.splice = none) ∧ (h.engines = 0) ∧ (n < 8)) ∧
    (∃ s : State, ∃ sp : Splice, (∀ line : Int, sp.s = some line → s.nowTick < line + s.depth) ∧ (s.boot.splice = some sp) ∧ (sp.applied = false) ∧ (s.inRun = true)) ∧
    (∃ s : State, ∃ sp : Splice, (s.boot.splice = some sp) ∧ (sp.applied = false) ∧ (s.inRun = false)) :=
  ⟨⟨(wRun : State), (7 : Nat), (rNOT_FOUND : Nat), (1 : Nat), by decide +kernel⟩,
   ⟨(wRun : State), (7 : Nat), (9 : Nat), (true : Bool), ({ wHdr with engines := 0 } : ProfHdr), _, rfl, by decide +kernel⟩,
   ⟨({ wRun with boot := { splice := some { prof := wHdr, items := [], line := 0, old := 0 } } } : State), ({ prof := wHdr, items := [], line := 0, old := 0 } : Splice), noneOf rfl, by decide +kernel⟩,
   ⟨({ wHold with boot := { splice := some { prof := wHdr, items := [], line := 0, old := 0 } } } : State), ({ prof := wHdr, items := [], line := 0, old := 0 } : Splice), by decide +kernel⟩⟩

/-- The premises of clauses of Obligations.ProfilesAndSplices are met. -/
theorem witness_ProfilesAndSplices_7 :
    (∃ s : State, ∃ sp : Splice, ∃ line : Int, (s.boot.splice = some sp) ∧ (sp.s = some line) ∧ (sp.applied = true ∨ line + s.depth ≤ s.nowTick) ∧ (sp.applied = false ∨ s.nowTick < line + s.depth + 2)) ∧
    (∃ s : State, ∃ sp : Splice, ∃ line : Int, (line = (if sp.line = 0 then s.tick.hw + 16 else sp.line)) ∧ (s.boot.splice = some sp) ∧ (s.live = true) ∧ (sp.s = none) ∧ (s.inRun = false ∨ s.pwr.drain = true ∨ line ≤ s.tick.hw)) ∧
    (∃ s : State, ∃ sp : Splice, ∃ line : Int, (line = (if sp.line = 0 then s.tick.hw + 16 else sp.line)) ∧ (s.boot.splice = some sp) ∧ (s.live = true) ∧ (sp.s = none) ∧ (s.inRun = true) ∧ (s.pwr.drain = false) ∧ (s.tick.hw < line)) ∧
    (∃ s : State, ∃ sp : Splice, ∃ line : Int, (s.boot.splice = some sp) ∧ (s.live = true) ∧ (sp.s = some line) ∧ (sp.applied = false) ∧ (s.nowTick < line + s.depth)) :=
  ⟨⟨({ wHold with boot := { splice := some { prof := wHdr, items := [], line := 0, old := 0, s := some 1000, applied := true } } } : State), ({ prof := wHdr, items := [], line := 0, old := 0, s := some 1000, applied := true } : Splice), (1000 : Int), by decide +kernel⟩,
   ⟨({ wHold with boot := { splice := some { prof := wHdr, items := [], line := 0, old := 0 } } } : State), ({ prof := wHdr, items := [], line := 0, old := 0 } : Splice), _, rfl, by decide +kernel⟩,
   ⟨({ wRun with boot := { splice := some { prof := wHdr, items := [], line := 0, old := 0 } } } : State), ({ prof := wHdr, items := [], line := 0, old := 0 } : Splice), _, rfl, by decide +kernel⟩,
   ⟨({ wHold with boot := { splice := some { prof := wHdr, items := [], line := 0, old := 0, s := some 1000 } } } : State), ({ prof := wHdr, items := [], line := 0, old := 0, s := some 1000 } : Splice), (1000 : Int), by decide +kernel⟩⟩

/-- The premises of clauses of Obligations.ProfilesAndSplices are met. -/
theorem witness_ProfilesAndSplices_8 :
    (∃ s : State, ∃ sp : Splice, ∃ line : Int, (s.boot.splice = some sp) ∧ (s.live = true) ∧ (sp.s = some line) ∧ (sp.applied = false) ∧ (line + s.depth ≤ s.nowTick) ∧ (s.pairOk .SYS_PROFILE = false)) ∧
    (∃ s : State, ∃ sp : Splice, ∃ line : Int, (s.boot.splice = some sp) ∧ (s.live = true) ∧ (sp.s = some line) ∧ (sp.applied = false) ∧ (line + s.depth ≤ s.nowTick) ∧ (s.pairOk .SYS_PROFILE = true) ∧ (sp.prof.number < 8)) ∧
    (∃ s : State, ∃ sp : Splice, ∃ line : Int, (s.boot.splice = some sp) ∧ (s.live = true) ∧ (sp.s = some line) ∧ (sp.applied = true) ∧ (s.nowTick < line + s.depth + 2)) ∧
    (∃ s : State, ∃ sp : Splice, ∃ line : Int, (s.boot.splice = some sp) ∧ (s.live = true) ∧ (sp.s = some line) ∧ (sp.applied = true) ∧ (line + s.depth + 2 ≤ s.nowTick) ∧ (sp.prof.number < 256)) :=
  ⟨⟨(wSet { wHold with boot := { splice := some { prof := wHdr, items := [], line := 0, old := 0, s := some (-1000) } } } [(SYS_PROFILE_NUM, 0, 5)] : State), ({ prof := wHdr, items := [], line := 0, old := 0, s := some (-1000) } : Splice), (-1000 : Int), by decide +kernel⟩,
   ⟨({ wHold with boot := { splice := some { prof := wHdr, items := [], line := 0, old := 0, s := some (-1000) } } } : State), ({ prof := wHdr, items := [], line := 0, old := 0, s := some (-1000) } : Splice), (-1000 : Int), by decide +kernel⟩,
   ⟨({ wHold with boot := { splice := some { prof := wHdr, items := [], line := 0, old := 0, s := some 1000, applied := true } } } : State), ({ prof := wHdr, items := [], line := 0, old := 0, s := some 1000, applied := true } : Splice), (1000 : Int), by decide +kernel⟩,
   ⟨({ wHold with boot := { splice := some { prof := wHdr, items := [], line := 0, old := 0, s := some (-1000), applied := true } } } : State), ({ prof := wHdr, items := [], line := 0, old := 0, s := some (-1000), applied := true } : Splice), (-1000 : Int), by decide +kernel⟩⟩

/-- The premises of clauses of Obligations.ProfilesAndSplices are met. -/
theorem witness_ProfilesAndSplices_9 :
    (∃ s : State, ∃ sel : Fin 8, ∃ t : State, (t = { s with boot := { s.boot with sel := sel } }) ∧ (s.live = true) ∧ (s.on SYS_PCFG_STB_EN = false ∨ s.on SYS_BOOT_HALTED = true)) ∧
    (∃ s : State, ∃ sel : Fin 8, ∃ t : State, (t = { s with boot := { s.boot with sel := sel } }) ∧ (s.live = true) ∧ (s.on SYS_PCFG_STB_EN = true) ∧ (s.on SYS_BOOT_HALTED = false) ∧ ((s.mbox 0).req.isSome = true) ∧ ((s.mbox 0).rsp = none)) ∧
    (∃ s : State, ∃ sel : Fin 8, ∃ t : State, (t = { s with boot := { s.boot with sel := sel } }) ∧ (s.live = true) ∧ (s.on SYS_PCFG_STB_EN = true) ∧ (s.on SYS_BOOT_HALTED = false) ∧ ((s.mbox 0).req = none ∨ (s.mbox 0).rsp.isSome = true) ∧ (s.inRun = true)) ∧
    (∃ s : State, ∃ sel : Fin 8, ∃ t : State, (t = { s with boot := { s.boot with sel := sel } }) ∧ (s.live = true) ∧ (s.on SYS_PCFG_STB_EN = true) ∧ (s.on SYS_BOOT_HALTED = false) ∧ ((s.mbox 0).req = none ∨ (s.mbox 0).rsp.isSome = true) ∧ (s.inRun = false)) :=
  ⟨⟨(wSet wHold [(SYS_PCFG_STB_EN, 0, 0)] : State), (7 : Fin 8), _, rfl, by decide +kernel⟩,
   ⟨(wSet { wHold with mboxes := [(0, { req := some [1, 7] })] } [(SYS_PCFG_STB_EN, 0, 1)] : State), (7 : Fin 8), _, rfl, by decide +kernel⟩,
   ⟨(wSet wRun [(SYS_PCFG_STB_EN, 0, 1)] : State), (7 : Fin 8), _, rfl, by decide +kernel⟩,
   ⟨(wSet wHold [(SYS_PCFG_STB_EN, 0, 1)] : State), (7 : Fin 8), _, rfl, by decide +kernel⟩⟩

/-- The premises of clauses of Obligations.OffIsKept are met. -/
theorem witness_OffIsKept :
    ∃ s : State, ∃ t : State, (∀ env, .porstRelease env ∉ s.pending) ∧ (step s = .next t) ∧ (s.pwr.st = .off) ∧ (s.pwr.drain = false) :=
  ⟨({ pwr := { st := .off } } : State), _, fun _ h => List.not_mem_nil h, rfl, by decide +kernel⟩

end Sys2Proof.Machine
end

section
/-!
Proofs of the family "scope": what an access that no rule permits does (O4). One lemma says what the log of a denial records; one
lemma per bus operation says that a denied access is that log with the answer DENIED.
-/
namespace Sys2Proof.Machine

/-! ### The log of a denial (R385) -/

/-- Registers the log of a denial at target `t` writes. -/
def denialRegs (t : Nat) : List RegKey :=
  [(.SEC_DLOG_A, t), (.SEC_DLOG_B, t), (.SEC_DLOG_CNT, t), (.SEC_STAT, 0), (.SEC_DEN_CNT, 0)]

@[simp] theorem State.logDenied_meet (s : State) (m t ofs : Nat) (k : Kind) : (s.logDenied m t ofs k).meet = s.meet := rfl

theorem State.reg_logDenied_SEC_DLOG_A (s : State) (m t ofs : Nat) (k : Kind) :
    (s.logDenied m t ofs k).reg .SEC_DLOG_A t = BitVec.ofNat 32 ofs := by
  unfold State.logDenied State.count
  rw [State.reg_raise_ne _ _ (by simp [SEC_STAT_DENIED]) (by simp [SEC_STAT_DENIED]), State.reg_setReg_ne _ _ (by simp),
    State.reg_setReg_ne _ _ (by simp), State.reg_setReg_self]

theorem State.reg_logDenied_SEC_DLOG_B (s : State) (m t ofs : Nat) (k : Kind) :
    (s.logDenied m t ofs k).reg .SEC_DLOG_B t = BitVec.ofNat 32 (m % 64 + 256 * k.code) := by
  unfold State.logDenied State.count
  rw [State.reg_raise_ne _ _ (by simp [SEC_STAT_DENIED]) (by simp [SEC_STAT_DENIED]), State.reg_setReg_ne _ _ (by simp),
    State.reg_setReg_self]

theorem State.reg_logDenied_SEC_DLOG_CNT (s : State) (m t ofs : Nat) (k : Kind) :
    (s.logDenied m t ofs k).reg .SEC_DLOG_CNT t
      = BitVec.ofNat 32 (min 0xFFFFFFFF ((s.reg .SEC_DLOG_CNT t).toNat + 1)) := by
  unfold State.logDenied State.count
  rw [State.reg_raise_ne _ _ (by simp [SEC_STAT_DENIED]) (by simp [SEC_STAT_DENIED]), State.reg_setReg_self,
    State.reg_setReg_ne _ _ (by simp), State.reg_setReg_ne _ _ (by simp)]

theorem State.flag_logDenied_SEC_STAT_DENIED (s : State) (m t ofs : Nat) (k : Kind) :
    (s.logDenied m t ofs k).flag SEC_STAT_DENIED = true :=
  State.flag_raise _ _ _ (by decide) (by decide)

theorem State.keeps_logDenied (s : State) (m t ofs : Nat) (k : Kind) :
    s.keeps (s.logDenied m t ofs k) (denialRegs t) := by
  unfold State.logDenied
  have hA : s.keeps (s.setReg .SEC_DLOG_A t (BitVec.ofNat 32 ofs)) (denialRegs t) :=
    State.keeps_setReg _ _ (by simp [denialRegs])
  have hB := State.keeps_trans hA
    (State.keeps_setReg _ (r := .SEC_DLOG_B) (i := t) (BitVec.ofNat 32 (m % 64 + 256 * k.code)) (by simp [denialRegs]))
  have hC := State.keeps_trans hB
    (State.keeps_count _ (r := .SEC_DLOG_CNT) (i := t) 1 0xFFFFFFFF (by simp [denialRegs]))
  exact State.keeps_trans hC
    (State.keeps_raise _ (by simp [denialRegs, SEC_STAT_DENIED]) (by simp [denialRegs, SEC_STAT_DENIED]))

/-- The log of a denial, with the answer DENIED and the data 0. -/
def State.answeredDenied (s : State) (m t ofs : Nat) (k : Kind) : State :=
  { s.logDenied m t ofs k with resp := { code := rDENIED } }

theorem State.answeredDenied_eq_regs_resp (s : State) (m t ofs : Nat) (k : Kind) :
    s.answeredDenied m t ofs k
      = { s with regs := (s.answeredDenied m t ofs k).regs, resp := (s.answeredDenied m t ofs k).resp } := rfl

@[simp] theorem State.answeredDenied_resp (s : State) (m t ofs : Nat) (k : Kind) :
    (s.answeredDenied m t ofs k).resp = { code := rDENIED, data := 0 } := rfl

@[simp] theorem State.reg_answeredDenied (s : State) (m t ofs : Nat) (k : Kind) (r : Reg) (i : Nat) :
    (s.answeredDenied m t ofs k).reg r i = (s.logDenied m t ofs k).reg r i := State.reg_congr rfl r i

theorem State.flag_answeredDenied (s : State) (m t ofs : Nat) (k : Kind) :
    (s.answeredDenied m t ofs k).flag SEC_STAT_DENIED = true := by
  rw [State.flag, State.reg_answeredDenied]
  exact State.flag_logDenied_SEC_STAT_DENIED ..

theorem State.keeps_answeredDenied (s : State) (m t ofs : Nat) (k : Kind) :
    s.keeps (s.answeredDenied m t ofs k) (denialRegs t) := fun r i hn => by
  rw [State.reg_answeredDenied]
  exact State.keeps_logDenied s m t ofs k r i hn

/-! ### An access within one page -/

theorem memParts_zero (f a : Nat) : memParts f a 0 = [] := by
  cases f with
  | zero => rfl
  | succ f => rfl

theorem memParts_of_one_page {a n : Nat} (f : Nat) (hn : 1 ≤ n) (hp : a % 4096 + n ≤ 4096) :
    memParts (f + 1) a n = [(a, n)] := by
  have hk : min n (4096 - a % 4096) = n := by omega
  have h0 : n ≠ 0 := by omega
  simp only [memParts, hk, h0, if_false, Nat.sub_self, memParts_zero]

theorem length_leBytes (n v : Nat) : (leBytes n v).length = n := by
  induction n generalizing v with
  | zero => rfl
  | succ n ih => simp [leBytes, ih]

theorem leNat_replicate_zero (n : Nat) : leNat (List.replicate n 0#8) = 0 := by
  induction n with
  | zero => rfl
  | succ n ih => rw [List.replicate_succ, leNat, ih]; rfl

/-! ### What the bus makes of an access that is not permitted (R10) -/

/-- An access of `n` bytes at memory address `a` is judged by the table of target `t`, as one at offset `ofs` (R253, R264). -/
def State.memTarget (s : State) (a n t ofs : Nat) : Prop :=
  s.region a n = .sram t ofs ∨ (s.region a n = .cxl (t - 17) ∧ 17 ≤ t ∧ ofs = a - s.decBase (t - 17))

section
variable {s : State} {m a n t ofs : Nat} {k : Kind}

theorem State.memPart_of_denied (hd : s.access m t ofs n k = (false, s.logDenied m t ofs k)) (hr : s.memTarget a n t ofs) :
    s.memPart m k a n = (rDENIED, 0, s.logDenied m t ofs k) := by
  obtain hr | ⟨hr, ht, rfl⟩ := hr
  · simp only [State.memPart, hr, hd]
  · have e : 17 + (t - 17) = t := by omega
    simp only [State.memPart, hr, e, hd]

theorem State.busWrite_of_denied {bs : List Byte} (hd : s.access m t ofs bs.length .w = (false, s.logDenied m t ofs .w))
    (hr : s.memTarget a bs.length t ofs) (hn : 1 ≤ bs.length) (hp : a % 4096 + bs.length ≤ 4096) :
    s.busWrite m a bs = (rDENIED, s.logDenied m t ofs .w) := by
  have hpart := State.memPart_of_denied hd hr
  simp [State.busWrite, memParts_of_one_page _ hn hp, hpart, worse, rDENIED, rOK]

theorem State.busRead_of_denied (hd : s.access m t ofs n .r = (false, s.logDenied m t ofs .r))
    (hr : s.memTarget a n t ofs) (hn : 1 ≤ n) (hp : a % 4096 + n ≤ 4096) :
    s.busRead m a n = (rDENIED, List.replicate n 0, s.logDenied m t ofs .r) := by
  have hpart := State.memPart_of_denied hd hr
  simp [State.busRead, memParts_of_one_page _ hn hp, hpart, worse, rDENIED, rOK]

theorem State.answers_of_live (h : s.live = true) (t : Nat) : s.answers t = true := by simp [State.answers, h]

theorem State.memAnswers_of_live (h : s.live = true) (a n : Nat) : s.memAnswers a n = true := by simp [State.memAnswers, h]

theorem State.regWriteAt_of_denied (hl : s.live = true) (ha : a % 4 = 0) (ht : t = regTarget a) (ho : ofs = a % 2 ^ 20)
    (hd : s.access m t ofs 4 .w = (false, s.logDenied m t ofs .w)) (v : Word) :
    s.regWriteAt m a 4 v = s.answeredDenied m t ofs .w := by
  have hc : ¬(4 ≠ 4 ∨ a % 4 ≠ 0 ∨ (!s.answers t) = true) := by simp [ha, State.answers_of_live hl]
  simp only [State.regWriteAt, ← ht, ← ho, State.powered_of_live hl, Bool.not_true, Bool.false_eq_true, if_false, if_neg hc, hd]
  rfl

theorem State.regReadAt_of_denied (hl : s.live = true) (ha : a % 4 = 0) (ht : t = regTarget a) (ho : ofs = a % 2 ^ 20)
    (hd : s.access m t ofs 4 .r = (false, s.logDenied m t ofs .r)) :
    s.regReadAt m a 4 = s.answeredDenied m t ofs .r := by
  have hc : ¬(4 ≠ 4 ∨ a % 4 ≠ 0 ∨ (!s.answers t) = true) := by simp [ha, State.answers_of_live hl]
  simp only [State.regReadAt, ← ht, ← ho, State.powered_of_live hl, Bool.not_true, Bool.false_eq_true, if_false, if_neg hc, hd]
  rfl

/-- An access of `n` bytes at bus address `a` is judged by the table of target `t`, as one at offset `ofs`: a register's word, or a
byte range of memory within one page. -/
def State.busTarget (s : State) (a n t ofs : Nat) : Prop :=
  (regSpace a = true ∧ a % 4 = 0 ∧ n = 4 ∧ t = regTarget a ∧ ofs = a % 2 ^ 20) ∨
    (regSpace a = false ∧ 1 ≤ n ∧ n ≤ 4 ∧ a % 4096 + n ≤ 4096 ∧ s.memTarget a n t ofs)

theorem State.busPut_of_denied (hl : s.live = true) (hh : s.hears m = true) (hb : s.busTarget a n t ofs)
    (hd : s.access m t ofs n .w = (false, s.logDenied m t ofs .w)) (v : Word) :
    s.busPut m a n v = s.answeredDenied m t ofs .w := by
  obtain ⟨hs, ha, rfl, ht, ho⟩ | ⟨hs, h1, h4, hp, hr⟩ := hb
  · simp [State.busPut, hh, hs, State.regWriteAt_of_denied hl ha ht ho hd]
  · have hlen : (leBytes n v.toNat).length = n := length_leBytes ..
    have hw := State.busWrite_of_denied (bs := leBytes n v.toNat) (by rw [hlen]; exact hd) (by rw [hlen]; exact hr)
      (by rw [hlen]; exact h1) (by rw [hlen]; exact hp)
    simp [State.busPut, hh, hs, State.memAnswers_of_live hl, Nat.min_eq_left h4, hw, State.answeredDenied]

theorem State.busGet_of_denied (hl : s.live = true) (hh : s.hears m = true) (hb : s.busTarget a n t ofs)
    (hd : s.access m t ofs n .r = (false, s.logDenied m t ofs .r)) :
    s.busGet m a n = s.answeredDenied m t ofs .r := by
  obtain ⟨hs, ha, rfl, ht, ho⟩ | ⟨hs, h1, h4, hp, hr⟩ := hb
  · simp [State.busGet, hh, hs, State.regReadAt_of_denied hl ha ht ho hd]
  · simp [State.busGet, hh, hs, State.memAnswers_of_live hl, Nat.min_eq_left h4, State.busRead_of_denied hd hr h1 hp,
      leNat_replicate_zero, State.answeredDenied]

/-- A write that is not permitted does not reach its block's effect. -/
theorem State.guardWrite_of_denied {r : Reg} {i : Nat} (hl : s.live = true) (hh : s.hears m = true)
    (ht : t = regTarget (regAddr r i)) (ho : ofs = regAddr r i % 2 ^ 20)
    (hd : s.access m t ofs 4 .w = (false, s.logDenied m t ofs .w)) (eff : State → State) :
    s.guardWrite m r i eff = s.answeredDenied m t ofs .w := by
  simp only [State.guardWrite, ← ht, ← ho, hh, Bool.not_true, Bool.false_eq_true, if_false, State.answers_of_live hl, if_true,
    hd]
  rfl

end

/-- Only a write that was answered OK meets the next write of its pool word (R256). -/
theorem State.meets_of_not_ok {s : State} (h : s.resp.code ≠ rOK) (m a : Nat) : s.meets m a = s := by
  simp [State.meets, h]

/-- REGISTER_WRITE of an access that is not permitted, also where it comes in the cycle of another one (R256, R314). -/
theorem execRegisterWrite_of_denied {s : State} {m : Master} {a n t ofs : Nat} (hl : s.live = true) (hh : s.hears m = true)
    (hb : s.busTarget a n t ofs) (hd : s.access m t ofs n .w = (false, s.logDenied m t ofs .w)) (w : WriteData) :
    execRegisterWrite m a n w s = .next (s.answeredDenied m t ofs .w) := by
  unfold execRegisterWrite
  split
  · next hc =>
    have ha : a = regAddr .ETH_HWACT 0 := beq_iff_eq.1 (Bool.and_eq_true_iff.1 hc).2
    obtain ⟨-, -, rfl, ht, ho⟩ | ⟨hs, -⟩ := hb
    · rw [State.guardWrite_of_denied hl hh (ha ▸ ht) (ha ▸ ho) hd]
    · rw [ha] at hs
      exact absurd hs (by decide)
  · have hput := State.busPut_of_denied hl hh hb hd w.data
    have hmeet : (s.answeredDenied m t ofs .w).meets m a = s.answeredDenied m t ofs .w :=
      State.meets_of_not_ok (by simp [State.answeredDenied, rDENIED, rOK]) m a
    simp only [hput, hmeet, ite_self]

/-- LATCHING_READ of an access that is not permitted. -/
theorem execLatchingRead_of_denied {s : State} {m : Master} {a n t ofs : Nat} (hl : s.live = true) (hh : s.hears m = true)
    (hb : s.busTarget a n t ofs) (hd : s.access m t ofs n .r = (false, s.logDenied m t ofs .r)) :
    execLatchingRead m a n s = .next (s.answeredDenied m t ofs .r) := by
  rw [execLatchingRead, State.busGet_of_denied hl hh hb hd]

/-- Settles O4: the check of an access that is not permitted answers false with the log (`State.access_denied`), each bus operation
turns that into the answer DENIED with nothing else done, and the log's registers are read off `State.logDenied`. -/
theorem deniedAccessOnlyLogged : Obligations.DeniedAccessOnlyLogged := by
  intro s m a n t ofs v b c k hl hh ht hplace hc hp
  have hd := State.access_denied ht hp
  have hb : s.busTarget a n t ofs := by
    obtain hreg | ⟨hs, h1, h4, hpg, hr⟩ | ⟨hs, h1, h4, hpg, hr⟩ := hplace
    · exact .inl hreg
    · exact .inr ⟨hs, h1, h4, hpg, .inl hr⟩
    · exact .inr ⟨hs, h1, h4, hpg, .inr hr⟩
  have hexec : exec c s = .next (s.answeredDenied m t ofs k) := by
    obtain ⟨rfl, rfl⟩ | ⟨rfl, rfl⟩ := hc
    · exact execRegisterWrite_of_denied hl hh hb hd _
    · exact execLatchingRead_of_denied hl hh hb hd
  have hcode : 256 * k.code = if k = .w then 256 else 0 := by
    obtain ⟨-, rfl⟩ | ⟨-, rfl⟩ := hc <;> rfl
  refine ⟨s.answeredDenied m t ofs k, hexec, State.answeredDenied_resp .., State.answeredDenied_eq_regs_resp .., ?_, ?_, ?_,
    State.flag_answeredDenied .., State.keeps_answeredDenied s m t ofs k⟩
  · rw [State.reg_answeredDenied, State.reg_logDenied_SEC_DLOG_A]
  · rw [State.reg_answeredDenied, State.reg_logDenied_SEC_DLOG_B, hcode]
  · rw [State.reg_answeredDenied, State.reg_logDenied_SEC_DLOG_CNT]

end Sys2Proof.Machine
end

section
/-!
Proofs of the family "service cores": the receive buffers of a management port (O42). One lemma says what a frame command does
(`execEthFrameReceive_of_link`), one per outcome what becomes of a frame (`State.frameIn_of_room`, `State.frameIn_of_full`), and
the numbers of frames held are counted on the queue of the frame taken.
-/
namespace Sys2Proof.Machine

/-! ### Frames held in the receive queues -/

/-- One frame more in queue `q`: that queue holds one more, every other what it held. -/
theorem EthPort.held_of_rx_append {e e' : EthPort} {q : Nat} {f : List Byte} (h : e'.rx = e.rx ++ [(q, f)]) (q' : Nat) :
    e'.held q' = e.held q' + if q = q' then 1 else 0 := by
  unfold EthPort.held
  rw [h, List.filter_append, List.length_append]
  by_cases hq : q = q' <;> simp [hq]

/-- Frames held in the buffers that queues 1–3 share (R295). -/
def EthPort.heldShared (e : EthPort) : Nat := e.held 1 + e.held 2 + e.held 3

/-- A frame for a queue of 1–3 takes one of the shared buffers. -/
theorem EthPort.heldShared_of_rx_append {e e' : EthPort} {q : Nat} {f : List Byte} (h : e'.rx = e.rx ++ [(q, f)])
    (hq : 1 ≤ q) (hq' : q ≤ 3) : e'.heldShared = e.heldShared + 1 := by
  have hone : (if q = 1 then 1 else 0) + (if q = 2 then 1 else 0) + (if q = 3 then 1 else 0) = 1 := by
    obtain rfl | rfl | rfl : q = 1 ∨ q = 2 ∨ q = 3 := by omega
    · rfl
    · rfl
    · rfl
  simp only [EthPort.heldShared, EthPort.held_of_rx_append h]
  omega

/-- A buffer is free for a frame of queue `q`: queue 0 has 64 of its own, queues 1–3 share 448 (R295). -/
def EthPort.hasRoom (e : EthPort) (q : Nat) : Prop := if q = 0 then e.held 0 < 64 else e.heldShared < 448

theorem EthPort.hasRoom_of_zero (e : EthPort) {q : Nat} (h : q = 0) : e.hasRoom q ↔ e.held 0 < 64 := by
  rw [EthPort.hasRoom, if_pos h]

theorem EthPort.hasRoom_of_ne_zero (e : EthPort) {q : Nat} (h : q ≠ 0) : e.hasRoom q ↔ e.heldShared < 448 := by
  rw [EthPort.hasRoom, if_neg h]

/-- There are four receive queues (R294). -/
theorem State.frameQueue_le (s : State) (p : Nat) (f : List Byte) : s.frameQueue p f ≤ 3 := by
  unfold State.frameQueue
  dsimp only
  split
  · exact Nat.zero_le 3
  · split
    · decide
    · split <;> decide

/-! ### What becomes of a frame -/

/-- The flag that a dropped frame of queue `q` sets. -/
def dropFlag (q : Nat) : Flag := if q = 0 then ETH_STAT_Q0_DROP else ETH_STAT_QX_DROP

/-- The port after it has taken a frame into a receive queue, a PTP event frame with the time of both domains (R296). -/
def State.portTaking (s : State) (p : Nat) (f : List Byte) : EthPort :=
  let e := look {} s.eths p
  { e with
    rx := e.rx ++ [(s.frameQueue p f, f)]
    stamps := if framePtp f then (f, s.ptpStamp) :: e.stamps else e.stamps }

@[simp] theorem State.portTaking_rx (s : State) (p : Nat) (f : List Byte) :
    (s.portTaking p f).rx = (look {} s.eths p).rx ++ [(s.frameQueue p f, f)] := rfl

/-- A frame is taken by a port. -/
def State.takeFrame (s : State) (p : Nat) (f : List Byte) : State := { s with eths := put (s.portTaking p f) s.eths p }

@[simp] theorem State.look_takeFrame_self (s : State) (p : Nat) (f : List Byte) :
    look {} (s.takeFrame p f).eths p = s.portTaking p f := look_put_self ..

theorem State.look_takeFrame_ne (s : State) {p y : Nat} (f : List Byte) (h : y ≠ p) :
    look {} (s.takeFrame p f).eths y = look {} s.eths y := look_put_ne _ _ _ h

/-- R295: a frame is taken where its queue has room. -/
theorem State.frameIn_of_room {s : State} {p : Nat} {f : List Byte} (h : (look {} s.eths p).hasRoom (s.frameQueue p f)) :
    s.frameIn p f = (true, s.takeFrame p f) := by
  unfold State.frameIn
  by_cases hq : s.frameQueue p f = 0
  · have hfree := (EthPort.hasRoom_of_zero _ hq).1 h
    simp [hq, hfree, State.takeFrame, State.portTaking]
  · have hfree := (EthPort.hasRoom_of_ne_zero _ hq).1 h
    rw [EthPort.heldShared] at hfree
    simp [hq, hfree, State.takeFrame, State.portTaking]

/-- R295: a frame is dropped where its queue has no room. -/
theorem State.frameIn_of_full {s : State} {p : Nat} {f : List Byte} (h : ¬ (look {} s.eths p).hasRoom (s.frameQueue p f)) :
    s.frameIn p f = (false, s.raise (dropFlag (s.frameQueue p f)) p) := by
  unfold State.frameIn dropFlag
  by_cases hq : s.frameQueue p f = 0
  · rw [EthPort.hasRoom_of_zero _ hq] at h
    simp [hq, h]
  · rw [EthPort.hasRoom_of_ne_zero _ hq, EthPort.heldShared] at h
    simp [hq, h]

/-! ### The frame command -/

/-- Software returns frames of one port only. -/
theorem State.look_framesBack_ne (s : State) {p y : Nat} (back : List Nat) (h : y ≠ p) :
    look {} (s.framesBack p back).eths y = look {} s.eths y := by
  rw [State.framesBack, look_upd_ne _ _ _ h]

@[simp] theorem State.on_framesBack (s : State) (p : Nat) (back : List Nat) (f : Fld) (i : Nat) :
    (s.framesBack p back).on f i = s.on f i := rfl

@[simp] theorem State.frameQueue_framesBack (s : State) (p : Nat) (back : List Nat) (f : List Byte) :
    (s.framesBack p back).frameQueue p f = s.frameQueue p f := rfl

/-- A frame at a port that is enabled and has its link, and completes no message: frames are returned, then it comes in. -/
theorem execEthFrameReceive_of_link {s : State} {p : Fin 2} (hl : s.live = true) (hen : s.on ETH_CTL_EN p = true)
    (hlink : s.on ETH_STAT_LINK p = true) (back : List Nat) (f : List Byte) :
    exec (.ethFrameReceive p back f none) s = .next ((s.framesBack p back).frameIn p f).2 := by
  simp [exec, execEthFrameReceive, State.whenLive_of hl, hen, hlink]

section
variable {s : State} {p : Fin 2} (hl : s.live = true) (hen : s.on ETH_CTL_EN p = true) (hlink : s.on ETH_STAT_LINK p = true)
  (back : List Nat) (f : List Byte)
include hl hen hlink

/-- A frame for which a buffer is free is taken into its queue; only the port has changed. -/
theorem exists_ethFrameReceive_of_room (h : (look {} (s.framesBack p back).eths p.val).hasRoom (s.frameQueue p f)) :
    ∃ u : State, exec (.ethFrameReceive p back f none) s = .next u ∧
      (look {} u.eths p.val).rx = (look {} (s.framesBack p back).eths p.val).rx ++ [(s.frameQueue p f, f)] ∧
      (∀ y, y ≠ p.val → look {} u.eths y = look {} s.eths y) ∧ u = { s with eths := u.eths } := by
  refine ⟨(s.framesBack p back).takeFrame p f, ?_, ?_, fun y hy => ?_, rfl⟩
  · rw [execEthFrameReceive_of_link hl hen hlink, State.frameIn_of_room h]
  · rw [State.look_takeFrame_self, State.portTaking_rx, State.frameQueue_framesBack]
  · rw [State.look_takeFrame_ne _ _ hy, State.look_framesBack_ne s back hy]

/-- A frame for which no buffer is free is dropped: only its flag and the flag's counter have changed. -/
theorem exists_ethFrameReceive_of_full (h : ¬ (look {} (s.framesBack p back).eths p.val).hasRoom (s.frameQueue p f)) :
    ∃ u : State, exec (.ethFrameReceive p back f none) s = .next u ∧ u.flag (dropFlag (s.frameQueue p f)) p = true ∧
      u = { s.framesBack p back with regs := u.regs } ∧
      s.keeps u [(.ETH_STAT, p.val), ((dropFlag (s.frameQueue p f)).cnt, p.val)] := by
  obtain ⟨hreg, hcnt, hbit⟩ : (dropFlag (s.frameQueue p f)).reg = .ETH_STAT ∧ (dropFlag (s.frameQueue p f)).cnt ≠ .ETH_STAT ∧
      (dropFlag (s.frameQueue p f)).bit < 32 := by
    unfold dropFlag
    split <;> decide
  refine ⟨(s.framesBack p back).raise (dropFlag (s.frameQueue p f)) p, ?_, ?_, rfl, ?_⟩
  · rw [execEthFrameReceive_of_link hl hen hlink, State.frameIn_of_full h, State.frameQueue_framesBack]
  · exact State.flag_raise _ _ _ (hreg ▸ hcnt) hbit
  · exact State.keeps_trans (State.keeps_of_regs rfl _) (State.keeps_raise _ (by simp [hreg]) (by simp))

end

/-- Settles O42: a frame is taken where its queue has room and dropped where it has none; for queue 0 room is a buffer of its own 64,
for queues 1–3 one of the 448 they share, and the frames held are counted on the queue of the frame taken. -/
theorem receiveBuffers : Obligations.ReceiveBuffers := by
  rintro s t p f back e hl hen hlink rfl rfl
  refine ⟨fun hq hroom => ?_, fun hq hfull => ?_, fun hq hroom => ?_, fun hq hfull => ?_⟩
  · obtain ⟨u, hu, hrx, hports, hframe⟩ := exists_ethFrameReceive_of_room hl hen hlink back f
      ((EthPort.hasRoom_of_zero _ hq).2 hroom)
    rw [hq] at hrx
    refine ⟨u, hu, hrx, EthPort.held_of_rx_append hrx 0, fun q hne => ?_, hports, hframe⟩
    rw [EthPort.held_of_rx_append hrx, if_neg hne.symm, Nat.add_zero]
  · obtain ⟨u, hu, hflag, hframe, hkeeps⟩ := exists_ethFrameReceive_of_full hl hen hlink back f
      (by rwa [EthPort.hasRoom_of_zero _ hq, Nat.not_lt])
    rw [dropFlag, if_pos hq] at hflag hkeeps
    exact ⟨u, hu, hflag, hframe, hkeeps⟩
  · obtain ⟨u, hu, hrx, hports, hframe⟩ := exists_ethFrameReceive_of_room hl hen hlink back f
      ((EthPort.hasRoom_of_ne_zero _ hq).2 hroom)
    have hshared := EthPort.heldShared_of_rx_append hrx (Nat.one_le_iff_ne_zero.2 hq) (s.frameQueue_le p f)
    refine ⟨u, hu, hrx, ?_, hshared, hports, hframe⟩
    rw [EthPort.held_of_rx_append hrx, if_neg hq, Nat.add_zero]
  · obtain ⟨u, hu, hflag, hframe, hkeeps⟩ := exists_ethFrameReceive_of_full hl hen hlink back f
      (by rwa [EthPort.hasRoom_of_ne_zero _ hq, Nat.not_lt])
    rw [dropFlag, if_neg hq] at hflag hkeeps
    exact ⟨u, hu, hflag, hframe, hkeeps⟩

end Sys2Proof.Machine
end
